-- ==== Sys2Proof/Word.lean ====
section
/-! DEFINITION. The word types and their plainest arithmetic. Register words and packet header words
are 32 bits (R28, R430); bytes are 8 bits. A field of a word is named by its lowest bit and its width,
and read as a number. -/

namespace Sys2Proof

/-- A 32-bit word: a register, a header word, a queue word, a courier register. -/
abbrev Word := BitVec 32

/-- A byte of data or of memory. -/
abbrev Byte := BitVec 8

/-- The number that `w` bits of a natural number, from bit `lo` up, hold. -/
def natBits (n lo w : Nat) : Nat := n / 2 ^ lo % 2 ^ w

/-- The number that the `w` bits of a word from bit `lo` up hold. -/
def bits (x : Word) (lo w : Nat) : Nat := natBits x.toNat lo w

/-- The word with its `w` bits from bit `lo` up replaced by `v` modulo 2^w. -/
def setBits (x : Word) (lo w v : Nat) : Word :=
  BitVec.ofNat 32 (x.toNat - natBits x.toNat lo w * 2 ^ lo + v % 2 ^ w * 2 ^ lo)

/-- Bit `i` of a number. -/
def bitAt (n i : Nat) : Bool := n / 2 ^ i % 2 == 1

/-- 0 or 1 for a truth value. -/
def ofBool (b : Bool) : Nat := if b then 1 else 0

/-- A number that counts up to `cap` and stays there. -/
def satAdd (cap n k : Nat) : Nat := min cap (n + k)

/-- `n` held within `lo` to `hi`: the nearest end of the range (R7). -/
def clampTo (lo hi n : Nat) : Nat := if n < lo then lo else if hi < n then hi else n

end Sys2Proof
end

