-- ==== Sys2Proof/Syntax.lean ====
section
/-! DEFINITION. The commands of the block: one constructor of `Instr` for each row of the table of
operations and events, with the row's operands (a port, a unit, a packet, a value written, a response
seen). A command names what happens at the device's edge or inside it; `Machine/Dispatch.lean` gives
each its effect. -/

namespace Sys2Proof

/-- A packet header of four 32-bit words, as R28 lays it out. -/
structure Hdr where
  w0 : Word
  w1 : Word
  w2 : Word
  w3 : Word
  deriving DecidableEq, Repr, Inhabited

/-- A packet: header and data bytes (R28, R29). -/
structure Pkt where
  h : Hdr
  data : List Byte
  deriving DecidableEq, Repr, Inhabited

/-- Who makes a register access: a voted request that the Accord decided, a request of a SINGLE
context from its owner channel, a request that came over the Span (voted or not), the Innkeeper, or the debug
port (R99, R100, R101, R483). -/
inductive Who where
  | voted
  | single (ch : Fin 3)
  | span (voted : Bool)
  | innkeeper
  | debug
  deriving DecidableEq, Repr, Inhabited

/-- The context and the kind of requester of a register access. -/
structure By where
  ctx : BitVec 8
  who : Who
  deriving DecidableEq, Repr, Inhabited

/-- The name of a lock of R154 and R155: the native bus lock of a segment, or a bridge semaphore. -/
inductive LockName where
  | native (s : Fin 4)
  | sem (n : Fin 64)
  deriving DecidableEq, Repr, Inhabited

/-- The outcome of a SEC-DED check of a stored word: clean, correctable, uncorrectable. -/
inductive Ecc where
  | ok | ce | ue
  deriving DecidableEq, Repr, Inhabited

/-- What the check of a data memory word finds (R412): a clean word; a corrected one, with whether its
retest reads clean; an uncorrectable one. -/
inductive Found where
  | clean
  | corrected (retestClean : Bool)
  | bad
  deriving DecidableEq, Repr, Inhabited

/-- What stops a courier (R233, R412): the two cores disagree on an instruction of a thread; an instruction word is
corrected, or uncorrectable, with whether its second reading is clean; the two copies of a state store entry differ. -/
inductive CourFault where
  | mismatch (thread : Fin 4)
  | corrected (clean : Bool)
  | word (i : BitVec 14) (clean : Bool)
  | store
  deriving DecidableEq, Repr, Inhabited

/-- The words (R64) that lanes 0 and 1 of a port receive. -/
structure LaneWords where
  w0 : List (BitVec 64)
  w1 : List (BitVec 64)
  deriving DecidableEq, Repr, Inhabited

/-- The words that the two lanes of a port receive in HANDSHAKE (R73). -/
structure PortWords where
  p : Fin 5
  w0 : List (BitVec 64)
  w1 : List (BitVec 64)
  deriving DecidableEq, Repr, Inhabited

/-- What EQUALISE gives a lane (R73): the CTLE settings that ran without error, a bit each, and the words received at
the setting chosen. -/
structure SweepEnd where
  good : BitVec 16
  words : List (BitVec 64)
  deriving DecidableEq, Repr, Inhabited

/-- What else the sample that shows CACK_N low shows (R174, R529): CRTY_N low, CERR_N low, two cards that drive the
bus. -/
structure OtherLines where
  rty : Bool
  err : Bool
  clash : Bool
  deriving DecidableEq, Repr, Inhabited

/-- A sample that shows CRTY_N low: its instant, and whether CERR_N is low as well (R174). -/
structure RetrySample where
  ns : Nat
  err : Bool
  deriving DecidableEq, Repr, Inhabited

/-- A response line of a segment seen low, `ns` after the beat started where a beat is under way (R175). -/
structure LineSeen where
  g : Fin 4
  ns : Nat
  deriving DecidableEq, Repr, Inhabited

/-- A courier and what stops it. -/
structure CourStop where
  c : Fin 16
  f : CourFault
  deriving DecidableEq, Repr, Inhabited

/-- What the Ledger port does with an LDL (R261, R270, R341): what the word's check finds, the backoffs, each in CORE
cycles, and whether it grants the access. -/
structure LoadGrant where
  found : Ecc
  backoffs : List (BitVec 11)
  granted : Bool
  deriving DecidableEq, Repr, Inhabited

/-- An STL of context `n` at the port (R261, R270): the slots that it waits, and whether the port grants it. -/
structure StoreGrant where
  n : Fin 256
  waited : Nat
  granted : Bool
  deriving DecidableEq, Repr, Inhabited

/-- The commands, in the order of the table. Operands by name: `p` a port (0 to 2 the host ports, 3 and 4 the span
ports), `q` a queue, a span port of two or, as a flag, whether a row lies in queue RAM; `k` a lane, a chain or a work
queue; `g` a segment, `n` a context, `c` a courier or a channel, `l` a line or a lock, `a` an arbiter or an address,
`h` and `d` a packet's header and data; `w0` and `w1` the lane words (R64) that lanes 0 and 1 of a port receive, `d0`
and `d1` one word of each in one LINK cycle, `slips` the steps of a search; `b` who makes a register access and `v` the
word written; `ns` the time from the start of a beat to a response, and `bad`, `found`, `pass` and `fail` what a check
or a test finds. -/
inductive Instr where
  /-- MWR (R51). -/
  | mwr (p : Fin 5) (h : Hdr) (d : List Byte) (bad : Bool)
  /-- NPW (R16). -/
  | npw (p : Fin 5) (h : Hdr) (d : List Byte) (bad : Bool)
  /-- MRD (R15). -/
  | mrd (p : Fin 5) (h : Hdr) (bad : Bool)
  /-- ATM (R53). -/
  | atm (p : Fin 5) (h : Hdr) (d : List Byte) (bad : Bool)
  /-- SEQ_QUERY (R56). -/
  | seqQuery (p : Fin 5) (h : Hdr)
  /-- SEQ_SYNC (R57). -/
  | seqSync (p : Fin 5) (h : Hdr)
  /-- RPL (R58). -/
  | rpl (p : Fin 5) (h : Hdr)
  /-- NOP (R45). -/
  | nop (p : Fin 5) (h : Hdr)
  /-- CPL (R24). -/
  | cpl (p : Fin 5) (h : Hdr)
  /-- CPLD (R24). -/
  | cpld (p : Fin 5) (h : Hdr) (d : List Byte)
  /-- VOTE_WINDOW_CLOSE (R104). -/
  | voteWindowClose (rpl : Bool) (n : BitVec 8) (seq : BitVec 16) (bad : Bool)
  /-- REC_STALL_END (R103). -/
  | recStallEnd (p : Fin 3)
  /-- EXECUTION_END (R16). -/
  | executionEnd (via : Option (Fin 2)) (n : BitVec 8) (seq : BitVec 16)
  /-- PENDING_MESSAGE_SEND (R55). -/
  | pendingMessageSend (p : Fin 3)
  /-- NOTICE_RELEASE (R17). -/
  | noticeRelease (n : BitVec 8)
  /-- HP_CTL_EN (R60). -/
  | hpCtlEn (b : By) (p : Fin 3) (v : Word)
  /-- PORT_ENTER_ON (R60). -/
  | portEnterOn (p : Fin 5)
  /-- PORT_DRAIN_END (R60). -/
  | portDrainEnd (p : Fin 5)
  /-- LOS_ASSERT (R69). -/
  | losAssert (k : Fin 10)
  /-- LOS_DEASSERT (R69). -/
  | losDeassert (k : Fin 10)
  /-- LOS_LINK_DOWN (R71). -/
  | losLinkDown (k : Fin 10)
  /-- LOL_ASSERT (R70). -/
  | lolAssert (k : Fin 10)
  /-- LOL_DEASSERT (R70). -/
  | lolDeassert (k : Fin 10)
  /-- TRAIN_QUIET_END (R73). -/
  | trainQuietEnd (p : Fin 5)
  /-- TRAIN_PRESENCE_END (R73). -/
  | trainPresenceEnd (p : Fin 5)
  /-- TRAIN_PHASE_END (R73). -/
  | trainPhaseEnd (p : Fin 5)
  /-- TRAIN_ALIGN_END (R73): `h0` and `h1` are the words received at the boundaries held before the search. -/
  | trainAlignEnd (p : Fin 5) (slips0 slips1 : BitVec 5) (h0 h1 w0 w1 : List (BitVec 64))
  /-- TRAIN_EQUALISE_END (R73). -/
  | trainEqualiseEnd (p : Fin 5) (e0 e1 : SweepEnd)
  /-- TRAIN_DESKEW_END (R77): `late` is by how many LINK cycles lane 1's word came after lane 0's. -/
  | trainDeskewEnd (p : Fin 5) (d0 d1 : BitVec 64) (late : Nat)
  /-- TRAIN_HANDSHAKE_END (R73). -/
  | trainHandshakeEnd (x : PortWords)
  /-- TRAIN_STEP_TIMEOUT (R74). -/
  | trainStepTimeout (p : Fin 5) (x : LaneWords)
  /-- TRAIN_RETRY (R74). -/
  | trainRetry (p : Fin 5)
  /-- BITSLIP (R75). -/
  | bitslip (b : By) (k : Fin 10)
  /-- FLIT (R84). -/
  | flit (p : Fin 5) (x : LaneWords)
  /-- NAK (R86). -/
  | nak (p : Fin 5) (v : BitVec 8)
  /-- REPLAY_TIMEOUT (R86). -/
  | replayTimeout (p : Fin 5)
  /-- RETRAIN_BLOCK (R87). -/
  | retrainBlock (p : Fin 5)
  /-- EIDLE_BLOCK (R89). -/
  | eidleBlock (p : Fin 5)
  /-- WAKE_BURST (R90). -/
  | wakeBurst (p : Fin 5) (w0 w1 : List (BitVec 64))
  /-- TX_EIDLE_ENTRY (R89). -/
  | txEidleEntry (p : Fin 5)
  /-- RETRAIN_PRBS_END (R413): the words that each lane receives in the phase, while its checker seeds itself (`u0`, `u1`),
while it is to count (`w0`, `w1`), and to the phase's end (`v0`, `v1`); what the checker does with them is its own affair. -/
  | retrainPrbsEnd (p : Fin 5) (u0 u1 w0 w1 v0 v1 : List (BitVec 64))
  /-- RETRAIN_REALIGN_END (R87). -/
  | retrainRealignEnd (p : Fin 5) (slips0 slips1 : BitVec 5) (w0 w1 : List (BitVec 64))
  /-- RETRAIN_RESUME (R87). -/
  | retrainResume (p : Fin 5) (d0 d1 : BitVec 64) (x : LaneWords)
  /-- RETRAIN_LIMIT (R87). -/
  | retrainLimit (p : Fin 5)
  /-- RETRAIN (R87). -/
  | retrain (b : By) (p : Fin 5)
  /-- EIDLE (R89). -/
  | eidle (b : By) (p : Fin 5)
  /-- WAKE (R90). -/
  | wake (b : By) (p : Fin 5)
  /-- INJECT_ONE (R94). -/
  | injectOne (b : By) (k : Fin 10)
  /-- INJECT_BURST (R94). -/
  | injectBurst (b : By) (k : Fin 10)
  /-- PRBS_CLEAR (R93). -/
  | prbsClear (b : By) (k : Fin 10)
  /-- LN_CTL_MODE (R95). -/
  | lnCtlMode (b : By) (k : Fin 10) (m : BitVec 2)
  /-- SUSPECT_EXPIRY (R528). -/
  | suspectExpiry (c : Fin 3)
  /-- REJOIN_TIMEOUT (R130). -/
  | rejoinTimeout (c : Fin 3)
  /-- REJOIN_COPY_TIMEOUT (R128). -/
  | rejoinCopyTimeout (n : BitVec 8) (seq : BitVec 16) (c : Fin 3)
  /-- EXCLUDE (R126). -/
  | exclude (b : By) (c : Fin 3)
  /-- REJOIN (R127). -/
  | rejoin (b : By) (c : Fin 3)
  /-- HIGH_CLR (R134). -/
  | highClr (b : By)
  /-- CTX_UNFENCE (R120). -/
  | ctxUnfence (b : By) (n : BitVec 8) (id : BitVec 8)
  /-- LOCK_TIMEOUT (R156). -/
  | lockTimeout (l : LockName)
  /-- SEM_WAIT_TIMEOUT (R156). -/
  | semWaitTimeout (order : Nat)
  /-- SEMAPHORE_GRANT (R157). -/
  | semaphoreGrant (n : Fin 64)
  /-- COMPAT_INQ_READ (R330). -/
  | compatInqRead (n : BitVec 8)
  /-- WORD_AVAILABLE (R330). -/
  | wordAvailable (n : BitVec 8)
  /-- COMPAT_OUTQ_WRITE (R331). -/
  | compatOutqWrite (n : BitVec 8) (v : Word)
  /-- STALL_TIMEOUT (R330). -/
  | stallTimeout (n : BitVec 8)
  /-- ARBITRATION (R339). -/
  | arbitration (a : Fin 10) (reqs : List (BitVec 5 × BitVec 8))
  /-- BACKOFF_END (R340). -/
  | backoffEnd (a : Fin 10) (who : BitVec 8)
  /-- OVERHOLD (R344). -/
  | overhold (g : Fin 4)
  /-- ARB_COMMIT (R346). -/
  | arbCommit (b : By) (inst : BitVec 10)
  /-- RESPONSE_CACK (R174). -/
  | responseCack (g : Fin 4) (ns : Nat) (d : Word) (x : OtherLines)
  /-- RESPONSE_CERR (R149). -/
  | responseCerr (g : Fin 4) (ns : Nat)
  /-- RESPONSE_CRTY (R181). -/
  | responseCrty (g : Fin 4) (x : RetrySample)
  /-- LATE_RSP (R175). -/
  | lateRsp (x : LineSeen)
  /-- BEAT_TIMEOUT (R180). -/
  | beatTimeout (g : Fin 4)
  /-- RETRY_DELAY_END (R181). -/
  | retryDelayEnd (g : Fin 4) (order : Nat)
  /-- RSP_STUCK (R175). -/
  | rspStuck (g : Fin 4)
  /-- RSP_STUCK_CLEAR (R175). -/
  | rspStuckClear (g : Fin 4)
  /-- KEEPER_PULSE_DUE (R185). -/
  | keeperPulseDue (g : Fin 4)
  /-- KEEP_CUT (R185). -/
  | keepCut (g : Fin 4)
  /-- KEEPER_PULSE_SEEN (R186). -/
  | keeperPulseSeen (g : Fin 4) (side : Bool) (count : BitVec 7)
  /-- CAS_N_FALL (R187). -/
  | casNFall (g : Fin 4)
  /-- CINT_ASSERT (R188). -/
  | cintAssert (g : Fin 4) (l : Fin 4)
  /-- CINT_RELEASE (R188). -/
  | cintRelease (g : Fin 4) (l : Fin 4)
  /-- CINT_REARM (R189). -/
  | cintRearm (g : Fin 4) (l : Fin 4)
  /-- ARM (R189). -/
  | arm (b : By) (g : Fin 4) (lines : BitVec 4)
  /-- POLL_TIMEOUT (R190). -/
  | pollTimeout (g : Fin 4)
  /-- CBR_REQUEST (R191). -/
  | cbrRequest (g : Fin 4)
  /-- LM_ACCEPTANCE (R191). -/
  | lmAcceptance (g : Fin 4) (spc : Fin 3) (addr : BitVec 24)
  /-- GRANT_LOST (R192). -/
  | grantLost (g : Fin 4)
  /-- LM_WATCHDOG (R192). -/
  | lmWatchdog (g : Fin 4)
  /-- LM_TENURE_END (R191). -/
  | lmTenureEnd (g : Fin 4)
  /-- INBOUND_WRITE (R194). -/
  | inboundWrite (g : Fin 4) (bytes : List (BitVec 24 × Byte))
  /-- INBOUND_READ (R195). -/
  | inboundRead (g : Fin 4) (addrs : List (BitVec 24))
  /-- INB_RETRY (R195). -/
  | inbRetry (g : Fin 4)
  /-- INBOUND_FETCH_END (R195). -/
  | inboundFetchEnd (g : Fin 4) (id : Nat)
  /-- PREFETCH_HOLD_END (R195). -/
  | prefetchHoldEnd (g : Fin 4) (id : Nat)
  /-- INBOUND_DRAIN (R194). -/
  | inboundDrain (g : Fin 4)
  /-- SEG_CTL_EN (R197). -/
  | segCtlEn (b : By) (g : Fin 4) (v : Word)
  /-- OWNERSHIP_TAKE (R198). -/
  | ownershipTake (g : Fin 4)
  /-- BUS_RELEASE (R199). -/
  | busRelease (g : Fin 4)
  /-- SEG_DRAIN_END (R200). -/
  | segDrainEnd (g : Fin 4)
  /-- CARD_RESET (R201). -/
  | cardReset (b : By) (g : Fin 4)
  /-- CARD_RESET_END (R201). -/
  | cardResetEnd (g : Fin 4)
  /-- SCRUB_READ (R208). -/
  | scrubRead (found : Ecc)
  /-- LEG_BOUNDARY (R292). -/
  | legBoundary
  /-- CARRY_END (R218). -/
  | carryEnd (img : BitVec 8)
  /-- IMG_CFG_WRITE (R210). -/
  | imgCfgWrite (b : By) (img : BitVec 8) (r : Fin 3) (v : Word)
  /-- MIRRORED_LINE (R222). -/
  | mirroredLine (q : Fin 2) (line : BitVec 20) (bad : BitVec 8) (d : List Byte)
  /-- COMMIT_RECORD (R224). -/
  | commitRecord (q : Fin 2) (img : BitVec 8) (gen flags time : Word)
  /-- RESYNC (R221). -/
  | resync (q : Fin 2) (img : BitVec 8)
  /-- CTX_CTL_EN (R250). -/
  | ctxCtlEn (b : By) (n : BitVec 8) (v : Word)
  /-- CTX_DRAIN_END (R250). -/
  | ctxDrainEnd (n : BitVec 8)
  /-- KICK (R239). -/
  | kick (b : By) (n : BitVec 8)
  /-- CTX_RESUME (R245). -/
  | ctxResume (b : By) (n : BitVec 8)
  /-- WORK_ITEM_DISPATCH (R241). -/
  | workItemDispatch (k : Fin 16)
  /-- THREAD_BIND (R240). -/
  | threadBind (c : Fin 16)
  /-- OVERDRAFT (R295). -/
  | overdraft (n : BitVec 8)
  /-- WAIT_TIMEOUT (R282). -/
  | waitTimeout (n : BitVec 8)
  /-- COUR_CTL_EN (R445). -/
  | courCtlEn (b : By) (c : Fin 16) (v : Word)
  /-- LOCKSTEP_MISMATCH (R233). -/
  | lockstepMismatch (x : CourStop)
  /-- MIGRATION_END (R247). -/
  | migrationEnd (c : Fin 16)
  /-- COURIER_TEST_END (R412). -/
  | courierTestEnd (c : Fin 16) (pass : Bool)
  /-- ADD (R264). -/
  | add (n : Fin 256)
  /-- SUB (R264). -/
  | sub (n : Fin 256)
  /-- AND (R264). -/
  | and (n : Fin 256)
  /-- OR (R264). -/
  | or (n : Fin 256)
  /-- XOR (R264). -/
  | xor (n : Fin 256)
  /-- SHL (R264). -/
  | shl (n : Fin 256)
  /-- SHR (R264). -/
  | shr (n : Fin 256)
  /-- SRA (R264). -/
  | sra (n : Fin 256)
  /-- ROR (R264). -/
  | ror (n : Fin 256)
  /-- MUL (R264). -/
  | mul (n : Fin 256)
  /-- CMP (R264). -/
  | cmp (n : Fin 256)
  /-- SWAP16 (R264). -/
  | swap16 (n : Fin 256)
  /-- SWAP32 (R264). -/
  | swap32 (n : Fin 256)
  /-- CRC32C (R267). -/
  | crc32c (n : Fin 256)
  /-- JR (R264). -/
  | jr (n : Fin 256)
  /-- JALR (R264). -/
  | jalr (n : Fin 256)
  /-- ADDI (R265). -/
  | addi (n : Fin 256)
  /-- ANDI (R265). -/
  | andi (n : Fin 256)
  /-- ORI (R265). -/
  | ori (n : Fin 256)
  /-- XORI (R265). -/
  | xori (n : Fin 256)
  /-- LUI (R265). -/
  | lui (n : Fin 256)
  /-- CMPI (R265). -/
  | cmpi (n : Fin 256)
  /-- SHI (R265). -/
  | shi (n : Fin 256)
  /-- BFX (R265). -/
  | bfx (n : Fin 256)
  /-- BFI (R265). -/
  | bfi (n : Fin 256)
  /-- LDW (R268). -/
  | ldw (n : Fin 256) (found : Found)
  /-- LDH (R268). -/
  | ldh (n : Fin 256) (found : Found)
  /-- LDB (R268). -/
  | ldb (n : Fin 256) (found : Found)
  /-- STW (R268). -/
  | stw (n : Fin 256)
  /-- STH (R268). -/
  | sth (n : Fin 256)
  /-- STB (R268). -/
  | stb (n : Fin 256)
  /-- LDD (R268). -/
  | ldd (n : Fin 256) (found : Found)
  /-- STD (R268). -/
  | std (n : Fin 256)
  /-- LDL (R270). -/
  | ldl (n : Fin 256) (x : LoadGrant)
  /-- STL (R270). -/
  | stl (x : StoreGrant)
  /-- B (R266). -/
  | b (n : Fin 256)
  /-- BL (R266). -/
  | bl (n : Fin 256)
  /-- MVD (R269). -/
  | mvd (n : Fin 256)
  /-- MFD (R269). -/
  | mfd (n : Fin 256)
  /-- CYR (R274). -/
  | cyr (n : Fin 256)
  /-- CYW (R275). -/
  | cyw (n : Fin 256)
  /-- CYWN (R274). -/
  | cywn (n : Fin 256)
  /-- CYL (R277). -/
  | cyl (n : Fin 256)
  /-- POLL (R278). -/
  | poll (n : Fin 256)
  /-- TRD (R279). -/
  | trd (n : Fin 256)
  /-- WAIT (R281). -/
  | wait (n : Fin 256)
  /-- MSG (R284). -/
  | msg (n : Fin 256)
  /-- QPUT (R283). -/
  | qput (n : Fin 256)
  /-- QGET (R283). -/
  | qget (n : Fin 256)
  /-- EVT (R286). -/
  | evt (n : Fin 256)
  /-- TIME (R286). -/
  | time (n : Fin 256)
  /-- BUDGET (R286). -/
  | budget (n : Fin 256)
  /-- YIELD (R287). -/
  | yield (n : Fin 256)
  /-- TRAP (R286). -/
  | trap (n : Fin 256)
  /-- RETT (R286). -/
  | rett (n : Fin 256)
  /-- SYSR (R286). -/
  | sysr (n : Fin 256)
  /-- STG_TIM_WRITE (R291). -/
  | stgTimWrite (b : By) (v : Word)
  /-- STG_OFS_WRITE (R291). -/
  | stgOfsWrite (b : By) (v : Word)
  /-- PEAK_CLR (R313). -/
  | peakClr (b : By)
  /-- HOLDUP_SENSE_SAMPLE (R304). -/
  | holdupSenseSample (code : BitVec 10)
  /-- VIN_SENSE_SAMPLE (R304). -/
  | vinSenseSample (code : BitVec 10)
  /-- DIE_SENSOR_SAMPLE (R305). -/
  | dieSensorSample (code : BitVec 10)
  /-- HOLDUP_EXIT (R304). -/
  | holdupExit
  /-- LASTGASP (R310). -/
  | lastgasp (b : By)
  /-- EXTREME_CLR (R315). -/
  | extremeClr (b : By)
  /-- QUE_RESET (R334). -/
  | queReset (b : By) (q : Fin 160)
  /-- QUE_PUSH (R326). -/
  | quePush (b : By) (q : Fin 160) (v : Word)
  /-- QUE_POP (R327). -/
  | quePop (n : BitVec 8) (q : Fin 160) (len : Nat) (found : List Ecc)
  /-- QUE_CFG_WRITE (R322). -/
  | queCfgWrite (b : By) (q : Fin 160) (rbase : Bool) (v : Word)
  /-- OPEN_TMO (R324). -/
  | openTmo (q : Fin 160)
  /-- POSITION_MISMATCH (R333). -/
  | positionMismatch (q : Fin 160)
  /-- CHAIN_TEST_END (R411). -/
  | chainTestEnd (q : Fin 160) (pass : Bool)
  /-- INT_ITEM_ENQUEUE (R326). -/
  | intItemEnqueue (g : Fin 4)
  /-- BRIDGE_RECORD_ENQUEUE (R285). -/
  | bridgeRecordEnqueue (q : Fin 160)
  /-- SPN_CTL_EN (R351). -/
  | spnCtlEn (b : By) (v : Word)
  /-- HEARTBEAT_SEND (R355). -/
  | heartbeatSend (q : Fin 2)
  /-- HEARTBEAT (R359). -/
  | heartbeat (q : Fin 2) (w : Word) (count : Word) (time : BitVec 64)
  /-- PORT_SILENT (R356). -/
  | portSilent (q : Fin 2)
  /-- HB_MISS (R356). -/
  | hbMiss (q : Fin 2)
  /-- TAKEOVER (R360). -/
  | takeover (g : Fin 4)
  /-- COLD_START_OWNER (R362). -/
  | coldStartOwner (g : Fin 4)
  /-- HANDOVER (R363). -/
  | handover (b : By) (segs : BitVec 4)
  /-- HANDOVER_RELEASE (R363). -/
  | handoverRelease (g : Fin 4)
  /-- HANDOVER_PACKET (R363). -/
  | handoverPacket (q : Fin 2) (g : Fin 4)
  /-- HANDOVER_FAIL (R364). -/
  | handoverFail (g : Fin 4)
  /-- JOURNAL (R368). -/
  | journal (q : Fin 2) (d : List Byte)
  /-- JOURNAL_ACKED (R367). -/
  | journalAcked (g : Fin 4) (jseq : BitVec 16)
  /-- RETIRE (R368). -/
  | retire (q : Fin 2) (first : BitVec 16) (g : Fin 4) (count : BitVec 8)
  /-- OPC_CTL_EN (R402). -/
  | opcCtlEn (b : By) (k : Fin 4) (v : Word)
  /-- CHAIN_ENTER_ON (R402). -/
  | chainEnterOn (k : Fin 4)
  /-- FRAME_START (R382). -/
  | frameStart (k : Fin 4)
  /-- UP_RECORD (R384). -/
  | upRecord (k : Fin 4) (d : List Byte)
  /-- FRAME_END (R398). -/
  | frameEnd (k : Fin 4)
  /-- FRAME_TMO (R384). -/
  | frameTmo (k : Fin 4)
  /-- OPC_RESUME (R390). -/
  | opcResume (b : By) (k : Fin 4) (mask : BitVec 8)
  /-- OPC_CHA_WRITE (R396). -/
  | opcChaWrite (b : By) (k : Fin 4) (o : Fin 8) (c : Fin 16) (v : Word)
  /-- OPC_CHB_WRITE (R396). -/
  | opcChbWrite (b : By) (k : Fin 4) (o : Fin 8) (c : Fin 16) (v : Word)
  /-- OPC_CFG_WRITE (R382). -/
  | opcCfgWrite (b : By) (k : Fin 4) (v : Word)
  /-- FAULT_TEST_START (R410). -/
  | faultTestStart (item : Fin 32) (bad : BitVec 4)
  /-- ROW_COPY_END (R407). -/
  | rowCopyEnd (q : Bool) (u : Fin 32)
  /-- ROW_MARCH_END (R407). -/
  | rowMarchEnd (q : Bool) (u : Fin 32) (pass : Bool)
  /-- ROW_RESTORE_END (R407). -/
  | rowRestoreEnd (q : Bool) (u : Fin 32)
  /-- INNKEEPER_FAULT (R415). -/
  | innkeeperFault
  /-- FLT_LANE_RETURN (R413). -/
  | fltLaneReturn (b : By) (mask : BitVec 10)
  /-- EVENT_RATE_END (R419). -/
  | eventRateEnd (e : BitVec 8)
  /-- EVT_PEND_CLEAR (R421). -/
  | evtPendClear (b : By) (j : Fin 16) (mask : Word)
  /-- REGISTER_WRITE (R434). -/
  | registerWrite (b : By) (a : BitVec 26) (v : Word)
  /-- RC_READ (R9). -/
  | rcRead (n : BitVec 8) (a : BitVec 26)
  /-- COUNTER_PAIR_READ (R433). -/
  | counterPairRead (n : BitVec 8) (a : BitVec 26)
  /-- SLOW_ACCESS_END (R435). -/
  | slowAccessEnd (d : Fin 3)
  /-- CFG_UNLOCK (R437). -/
  | cfgUnlock (b : By) (key : Word)
  /-- GUARD_RELOCK (R437). -/
  | guardRelock
  /-- CFG_COMMIT (R443). -/
  | cfgCommit (b : By)
  /-- CHECK_PASS_START (R441). -/
  | checkPassStart
  /-- CHECK_PASS_END (R444). -/
  | checkPassEnd
  /-- COMMIT_PASS_END (R443). -/
  | commitPassEnd
  /-- DIRTY_TIMEOUT (R444). -/
  | dirtyTimeout
  /-- ERASE (R468). -/
  | erase (b : By) (slot : Fin 2)
  /-- PROGRAM (R468). -/
  | program (b : By) (slot : Fin 2)
  /-- VERIFY (R468). -/
  | verify (b : By) (slot : Fin 2)
  /-- ARM_TRIAL (R466). -/
  | armTrial (b : By) (slot : Fin 2)
  /-- WRITE_SETTINGS (R469). -/
  | writeSettings (b : By)
  /-- RESTART (R470). -/
  | restart (b : By) (force : Bool)
  /-- REJECT (R468). -/
  | reject (b : By) (force : Bool)
  /-- BOOT_CMD_END (R468). -/
  | bootCmdEnd (flashBad : Bool)
  /-- CONFIRM (R467). -/
  | confirm (b : By)
  /-- LIFECYCLE_TO_FIELD (R477). -/
  | lifecycleToField (b : By)
  /-- KEY_HASH (R475). -/
  | keyHash (b : By)
  /-- DBG_HASH (R475). -/
  | dbgHash (b : By)
  /-- LOAD (R476). -/
  | load (b : By)
  /-- EXTEST (R481). -/
  | extest (cells : List Bool)
  /-- SAMPLE_PRELOAD (R481). -/
  | samplePreload (cells : List Bool)
  /-- IDCODE (R481). -/
  | idcode
  /-- FREEZE (R484). -/
  | freeze
  /-- FRZ_READ (R485). -/
  | frzRead (a : BitVec 26)
  /-- TRACE_READ (R486). -/
  | traceRead (entry : BitVec 16) (w : Fin 8)
  /-- FRZ_SCAN (R481). -/
  | frzScan
  /-- DBG_AUTH (R482). -/
  | dbgAuth (key sig : List Byte)
  /-- DBG_ACCESS (R483). -/
  | dbgAccess (n : BitVec 8) (a : BitVec 26) (w : Bool) (v : Word)
  /-- DBG_RELOCK (R482). -/
  | dbgRelock
  /-- LC_RETURN (R477). -/
  | lcReturn
  /-- BYPASS (R481). -/
  | bypass
  /-- FREEZE_N_FALL (R484). -/
  | freezeNFall
  /-- GLITCH (R479). -/
  | glitch (k : Fin 3)
  /-- POWER_ON (R496). -/
  | powerOn
  /-- RESET_PIN (R496). -/
  | resetPin
  /-- RESET_END (R498). -/
  | resetEnd (side freezeN : Bool)
  /-- XSPI_RESET_END (R520). -/
  | xspiResetEnd
  /-- SUPPLY_OUT_OF_RANGE (R501). -/
  | supplyOutOfRange (sup : Fin 10)
  /-- SUPPLY_IN_RANGE (R501). -/
  | supplyInRange (sup : Fin 10)
  /-- PLL_WARN (R491). -/
  | pllWarn
  /-- TSYNC_EDGE (R493). -/
  | tsyncEdge
  /-- TSYNC_MISS (R494). -/
  | tsyncMiss
  /-- TIME_BASE_HOLD_END (R493). -/
  | timeBaseHoldEnd
  /-- SET (R494). -/
  | set (b : By)
  /-- SET_NOW (R494). -/
  | setNow (b : By)
  /-- RESPONSE_RELEASE (R173). -/
  | responseRelease (g : Fin 4)
  /-- CBR_RELEASE (R191). -/
  | cbrRelease (g : Fin 4)
  /-- LEASE_EXPIRY (R358). -/
  | leaseExpiry (g : Fin 4)
  /-- SLOT_TEST_END (R414). -/
  | slotTestEnd (recFails : Bool) (slotsFail : Nat)
  /-- START_COMPLETE (R460). -/
  | startComplete (good : BitVec 16) (failA failB : Bool)
  /-- START_FAIL_RESET (R461). -/
  | startFailReset (good : BitVec 16) (failA failB : Bool)
  /-- SEGMENT_WAIT_TIMEOUT (R175). -/
  | segmentWaitTimeout (g : Fin 4) (order : Nat)
  /-- TRST_N_LOW (R497). -/
  | trstNLow
  /-- FUSE_WRITE_END (R477). -/
  | fuseWriteEnd (n : Fin 4)
  /-- MSG_PACKET (R59). -/
  | msgPacket (p : Fin 5) (h : Hdr) (d : List Byte)
  deriving DecidableEq, Repr, Inhabited

end Sys2Proof
end

