-- ==== Sys2Proof/Config.lean ====
section
/-! DEFINITION. What the spec leaves to the implementation or to other standards: uninterpreted constants. No
proof can see a value of them, so what is proved holds for every value. -/

namespace Sys2Proof

/-- A value that the spec leaves undefined, one for each number: read data of a conflicting beat (R529), the
syndrome of an error (R206), a challenge (R482). -/
opaque Config.freeWord : Nat → Word

/-- The die number fused by the maker (R475). -/
opaque Config.dieNumber : BitVec 64

/-- The energy calibration fused by the maker (R475): NRG_COEF0 in its low word, NRG_COEF1 in its high word. -/
opaque Config.energyCal : BitVec 64

/-- SHA-384 of a byte string (R458, R475): 48 bytes. -/
opaque Config.sha384 : List Byte → List Byte

/-- ECDSA verification over P-384 (R458, R482): public key, digest, signature. -/
opaque Config.ecdsaP384 : List Byte → List Byte → List Byte → Bool

/-- AES-256-GCM decryption (R458): key, nonce, additional data, ciphertext, tag; none where the tag does not
match. -/
opaque Config.aesGcm : List Byte → List Byte → List Byte → List Byte → List Byte → Option (List Byte)

end Sys2Proof
end

