-- ==== Sys2Proof/Machine/RegMap.lean ====
section
/-! DEFINITION. The register map: every register that the register tables of the spec list
(R61, R96, R133 to R135, R163 to R165, R203, R227, R228, R253, R255, R313 to R315, R335, R348,
R349, R375, R404, R425, R428, R429, R451, R452, R473, R487, R488, R503), with its host address
(R447), its fields, their access codes, reset values, flags and ranges (R7 to R9). -/

namespace Sys2Proof.Machine

/-- The access codes of R9. -/
inductive Acc where
  | rw | ro | wo | w1c | w1s | rc | rwm
  deriving DecidableEq, Repr

/-- One field of a register: its place, its access code, its reset value, the flags G and C of R9,
and the range that R7 clamps a write to. -/
structure FRow where
  lo : Nat
  w : Nat
  acc : Acc
  reset : Nat
  guarded : Bool
  covered : Bool
  min : Nat
  max : Nat
  deriving DecidableEq, Repr

/-- One register or family of registers: the address of its first member, the counts and strides
of its indices (outermost first), the S flag of R9, and its fields. -/
structure RRow where
  base : Nat
  dims : List (Nat × Nat)
  slow : Bool
  fields : List FRow
  deriving DecidableEq, Repr

/-- A named field of a register: the register's host address and the field's place in it. -/
structure FRef where
  reg : Nat
  lo : Nat
  w : Nat
  deriving DecidableEq, Repr

/-- Whether an offset from a row's base is a member's address, by its indices. -/
def dimsHit : List (Nat × Nat) → Nat → Bool
  | [], off => off == 0
  | (n, st) :: ds, off => decide (off / st < n) && dimsHit ds (off - off / st * st)

/-- Whether host address `a` is that of a register of the row. -/
def RRow.hits (r : RRow) (a : Nat) : Bool := decide (r.base ≤ a) && dimsHit r.dims (a - r.base)

/-- HP_CTL[n] (R61). -/
def HP_CTL (n : Nat) : Nat := 0x40000 + 0x4000 * n
def HP_CTL_EN (n : Nat) : FRef := ⟨HP_CTL n, 0, 1⟩
def HP_CTL_ORIGIN_CHK (n : Nat) : FRef := ⟨HP_CTL n, 1, 1⟩
/-- HP_STAT[n] (R61). -/
def HP_STAT (n : Nat) : Nat := 0x40004 + 0x4000 * n
def HP_STAT_STATE (n : Nat) : FRef := ⟨HP_STAT n, 0, 2⟩
def HP_STAT_RESTART_PENDING (n : Nat) : FRef := ⟨HP_STAT n, 2, 1⟩
def HP_STAT_LINK_UP (n : Nat) : FRef := ⟨HP_STAT n, 3, 1⟩
def HP_STAT_GEN (n : Nat) : FRef := ⟨HP_STAT n, 16, 16⟩
/-- HP_GRANT[n] (R61). -/
def HP_GRANT (n : Nat) : Nat := 0x40008 + 0x4000 * n
def HP_GRANT_PH (n : Nat) : FRef := ⟨HP_GRANT n, 0, 8⟩
def HP_GRANT_PD (n : Nat) : FRef := ⟨HP_GRANT n, 8, 8⟩
def HP_GRANT_NH (n : Nat) : FRef := ⟨HP_GRANT n, 16, 9⟩
/-- HP_CREDIT[n] (R61). -/
def HP_CREDIT (n : Nat) : Nat := 0x4000c + 0x4000 * n
def HP_CREDIT_PH_AVAIL (n : Nat) : FRef := ⟨HP_CREDIT n, 0, 12⟩
def HP_CREDIT_PD_AVAIL (n : Nat) : FRef := ⟨HP_CREDIT n, 12, 12⟩
/-- HP_TAGS[n] (R61). -/
def HP_TAGS (n : Nat) : Nat := 0x40010 + 0x4000 * n
def HP_TAGS_IN_USE (n : Nat) : FRef := ⟨HP_TAGS n, 0, 9⟩
/-- HP_ERR_CNT[n] (R61). -/
def HP_ERR_CNT (n : Nat) : Nat := 0x40014 + 0x4000 * n
def HP_ERR_CNT_PROTOCOL (n : Nat) : FRef := ⟨HP_ERR_CNT n, 0, 16⟩
/-- HP_MSG_DROP[n] (R61). -/
def HP_MSG_DROP (n : Nat) : Nat := 0x40018 + 0x4000 * n
def HP_MSG_DROP_DROPPED (n : Nat) : FRef := ⟨HP_MSG_DROP n, 0, 16⟩
/-- HP_ERR_LOG[n][i] (R61). -/
def HP_ERR_LOG (n : Nat) (i : Nat) : Nat := 0x40020 + 0x4000 * n + 0x4 * i
def HP_ERR_LOG_WORD (n : Nat) (i : Nat) : FRef := ⟨HP_ERR_LOG n i, 0, 32⟩
/-- HP_ERR_CAUSE[n] (R61). -/
def HP_ERR_CAUSE (n : Nat) : Nat := 0x40030 + 0x4000 * n
def HP_ERR_CAUSE_CAUSE (n : Nat) : FRef := ⟨HP_ERR_CAUSE n, 0, 5⟩
def HP_ERR_CAUSE_VALID (n : Nat) : FRef := ⟨HP_ERR_CAUSE n, 31, 1⟩
/-- LN_CTL[k] (R96). -/
def LN_CTL (k : Nat) : Nat := 0x50000 + 0x400 * k
def LN_CTL_MODE (k : Nat) : FRef := ⟨LN_CTL k, 0, 2⟩
def LN_CTL_TX_PRECODE (k : Nat) : FRef := ⟨LN_CTL k, 2, 1⟩
def LN_CTL_RX_PRECODE (k : Nat) : FRef := ⟨LN_CTL k, 3, 1⟩
def LN_CTL_TX_POL_INV (k : Nat) : FRef := ⟨LN_CTL k, 4, 1⟩
/-- LN_STAT[k] (R96). -/
def LN_STAT (k : Nat) : Nat := 0x50004 + 0x400 * k
def LN_STAT_LOS (k : Nat) : FRef := ⟨LN_STAT k, 0, 1⟩
def LN_STAT_LOL (k : Nat) : FRef := ⟨LN_STAT k, 1, 1⟩
def LN_STAT_WORD_LOCK (k : Nat) : FRef := ⟨LN_STAT k, 2, 1⟩
def LN_STAT_RX_POL_INV (k : Nat) : FRef := ⟨LN_STAT k, 3, 1⟩
def LN_STAT_EIDLE_RX (k : Nat) : FRef := ⟨LN_STAT k, 4, 1⟩
def LN_STAT_EIDLE_TX (k : Nat) : FRef := ⟨LN_STAT k, 5, 1⟩
/-- LN_CTLE[k] (R96). -/
def LN_CTLE (k : Nat) : Nat := 0x50008 + 0x400 * k
def LN_CTLE_SETTING (k : Nat) : FRef := ⟨LN_CTLE k, 0, 4⟩
def LN_CTLE_OVR_VAL (k : Nat) : FRef := ⟨LN_CTLE k, 4, 4⟩
def LN_CTLE_OVERRIDE (k : Nat) : FRef := ⟨LN_CTLE k, 8, 1⟩
def LN_CTLE_RUN_LO (k : Nat) : FRef := ⟨LN_CTLE k, 16, 4⟩
def LN_CTLE_RUN_HI (k : Nat) : FRef := ⟨LN_CTLE k, 20, 4⟩
/-- LN_DET[k] (R96). -/
def LN_DET (k : Nat) : Nat := 0x5000c + 0x400 * k
def LN_DET_LOS_TH (k : Nat) : FRef := ⟨LN_DET k, 0, 3⟩
def LN_DET_LOL_TH (k : Nat) : FRef := ⟨LN_DET k, 8, 8⟩
/-- LN_ALIGN[k] (R96). -/
def LN_ALIGN (k : Nat) : Nat := 0x50010 + 0x400 * k
def LN_ALIGN_BITSLIP (k : Nat) : FRef := ⟨LN_ALIGN k, 0, 1⟩
def LN_ALIGN_MATCH (k : Nat) : FRef := ⟨LN_ALIGN k, 8, 4⟩
def LN_ALIGN_SLIP_POS (k : Nat) : FRef := ⟨LN_ALIGN k, 16, 5⟩
/-- LN_PRBS[k] (R96). -/
def LN_PRBS (k : Nat) : Nat := 0x50014 + 0x400 * k
def LN_PRBS_PATTERN (k : Nat) : FRef := ⟨LN_PRBS k, 0, 2⟩
def LN_PRBS_GEN_EN (k : Nat) : FRef := ⟨LN_PRBS k, 2, 1⟩
def LN_PRBS_CHK_EN (k : Nat) : FRef := ⟨LN_PRBS k, 3, 1⟩
def LN_PRBS_CHK_LOCK (k : Nat) : FRef := ⟨LN_PRBS k, 4, 1⟩
def LN_PRBS_CLEAR (k : Nat) : FRef := ⟨LN_PRBS k, 5, 1⟩
/-- LN_PRBS_SYM_ERR[k] (R96). -/
def LN_PRBS_SYM_ERR (k : Nat) : Nat := 0x50018 + 0x400 * k
def LN_PRBS_SYM_ERR_COUNT (k : Nat) : FRef := ⟨LN_PRBS_SYM_ERR k, 0, 32⟩
/-- LN_PRBS_BIT_ERR[k] (R96). -/
def LN_PRBS_BIT_ERR (k : Nat) : Nat := 0x5001c + 0x400 * k
def LN_PRBS_BIT_ERR_COUNT (k : Nat) : FRef := ⟨LN_PRBS_BIT_ERR k, 0, 32⟩
/-- LN_INJ[k] (R96). -/
def LN_INJ (k : Nat) : Nat := 0x50020 + 0x400 * k
def LN_INJ_INJECT_ONE (k : Nat) : FRef := ⟨LN_INJ k, 0, 1⟩
def LN_INJ_INJECT_BURST (k : Nat) : FRef := ⟨LN_INJ k, 1, 1⟩
def LN_INJ_BURST_LEN (k : Nat) : FRef := ⟨LN_INJ k, 8, 8⟩
/-- LL_CTL[p] (R96). -/
def LL_CTL (p : Nat) : Nat := 0x54000 + 0x100 * p
def LL_CTL_REPLAY_TMO (p : Nat) : FRef := ⟨LL_CTL p, 0, 10⟩
def LL_CTL_REPLAY_MAX (p : Nat) : FRef := ⟨LL_CTL p, 12, 4⟩
/-- LL_STAT[p] (R96). -/
def LL_STAT (p : Nat) : Nat := 0x54004 + 0x100 * p
def LL_STAT_STEP (p : Nat) : FRef := ⟨LL_STAT p, 0, 4⟩
def LL_STAT_FAIL_CAUSE (p : Nat) : FRef := ⟨LL_STAT p, 4, 4⟩
def LL_STAT_LINK_UP (p : Nat) : FRef := ⟨LL_STAT p, 8, 1⟩
def LL_STAT_LANES_SWAPPED (p : Nat) : FRef := ⟨LL_STAT p, 9, 1⟩
def LL_STAT_RETRAINING (p : Nat) : FRef := ⟨LL_STAT p, 10, 1⟩
def LL_STAT_SKEW_CYC (p : Nat) : FRef := ⟨LL_STAT p, 11, 2⟩
def LL_STAT_SKEW_LANE (p : Nat) : FRef := ⟨LL_STAT p, 13, 1⟩
/-- LL_SEQ[p] (R96). -/
def LL_SEQ (p : Nat) : Nat := 0x54008 + 0x100 * p
def LL_SEQ_TX_NEXT (p : Nat) : FRef := ⟨LL_SEQ p, 0, 8⟩
def LL_SEQ_TX_ACKED (p : Nat) : FRef := ⟨LL_SEQ p, 8, 8⟩
def LL_SEQ_RX_LAST (p : Nat) : FRef := ⟨LL_SEQ p, 16, 8⟩
def LL_SEQ_UNACKED (p : Nat) : FRef := ⟨LL_SEQ p, 24, 7⟩
/-- LL_CNT[p] (R96). -/
def LL_CNT (p : Nat) : Nat := 0x5400c + 0x100 * p
def LL_CNT_CRC_ERR (p : Nat) : FRef := ⟨LL_CNT p, 0, 16⟩
def LL_CNT_REPLAYS (p : Nat) : FRef := ⟨LL_CNT p, 16, 16⟩
/-- LL_RETRAIN_CNT[p] (R96). -/
def LL_RETRAIN_CNT (p : Nat) : Nat := 0x54010 + 0x100 * p
def LL_RETRAIN_CNT_RETRAINS (p : Nat) : FRef := ⟨LL_RETRAIN_CNT p, 0, 16⟩
def LL_RETRAIN_CNT_LINK_DOWNS (p : Nat) : FRef := ⟨LL_RETRAIN_CNT p, 16, 16⟩
/-- LL_CMD[p] (R96). -/
def LL_CMD (p : Nat) : Nat := 0x54014 + 0x100 * p
def LL_CMD_RETRAIN (p : Nat) : FRef := ⟨LL_CMD p, 0, 1⟩
def LL_CMD_EIDLE (p : Nat) : FRef := ⟨LL_CMD p, 1, 1⟩
def LL_CMD_WAKE (p : Nat) : FRef := ⟨LL_CMD p, 2, 1⟩
/-- CTX_VOTE[n] (R133). -/
def CTX_VOTE (n : Nat) : Nat := 0xc0040 + 0x100 * n
def CTX_VOTE_MODE (n : Nat) : FRef := ⟨CTX_VOTE n, 0, 1⟩
def CTX_VOTE_OWNER (n : Nat) : FRef := ⟨CTX_VOTE n, 1, 2⟩
def CTX_VOTE_SIMPLEX_OK (n : Nat) : FRef := ⟨CTX_VOTE n, 3, 1⟩
def CTX_VOTE_FULL_CMP (n : Nat) : FRef := ⟨CTX_VOTE n, 4, 1⟩
def CTX_VOTE_WINDOW (n : Nat) : FRef := ⟨CTX_VOTE n, 16, 10⟩
/-- CTX_FENCE[n] (R133). -/
def CTX_FENCE (n : Nat) : Nat := 0xc0044 + 0x100 * n
def CTX_FENCE_FENCED (n : Nat) : FRef := ⟨CTX_FENCE n, 0, 1⟩
def CTX_FENCE_REASON (n : Nat) : FRef := ⟨CTX_FENCE n, 1, 2⟩
def CTX_FENCE_FENCE_ID (n : Nat) : FRef := ⟨CTX_FENCE n, 8, 8⟩
def CTX_FENCE_REJECTED (n : Nat) : FRef := ⟨CTX_FENCE n, 16, 16⟩
/-- CTX_UNFENCE[n] (R133). -/
def CTX_UNFENCE (n : Nat) : Nat := 0xc0048 + 0x100 * n
def CTX_UNFENCE_FENCE_ID (n : Nat) : FRef := ⟨CTX_UNFENCE n, 0, 8⟩
/-- ACC_CTL (R134). -/
def ACC_CTL : Nat := 0x60000
def ACC_CTL_REJOIN_CLEAN : FRef := ⟨ACC_CTL, 0, 8⟩
def ACC_CTL_REJOIN_TMO : FRef := ⟨ACC_CTL, 8, 10⟩
def ACC_CTL_PROTO_DISCORD : FRef := ⟨ACC_CTL, 24, 1⟩
/-- ACC_STAT (R134). -/
def ACC_STAT : Nat := 0x60004
def ACC_STAT_FORMED : FRef := ⟨ACC_STAT, 0, 1⟩
def ACC_STAT_VOTER_A : FRef := ⟨ACC_STAT, 1, 1⟩
def ACC_STAT_VOTER_B : FRef := ⟨ACC_STAT, 2, 1⟩
def ACC_STAT_VOTER_C : FRef := ⟨ACC_STAT, 3, 1⟩
/-- ACC_CH_CTL[c] (R134). -/
def ACC_CH_CTL (c : Nat) : Nat := 0x60010 + 0x4 * c
def ACC_CH_CTL_AUTO_REJOIN (c : Nat) : FRef := ⟨ACC_CH_CTL c, 0, 1⟩
/-- ACC_CH_CMD[c] (R134). -/
def ACC_CH_CMD (c : Nat) : Nat := 0x60020 + 0x4 * c
def ACC_CH_CMD_EXCLUDE (c : Nat) : FRef := ⟨ACC_CH_CMD c, 0, 1⟩
def ACC_CH_CMD_REJOIN (c : Nat) : FRef := ⟨ACC_CH_CMD c, 1, 1⟩
/-- ACC_CH_STAT[c] (R134). -/
def ACC_CH_STAT (c : Nat) : Nat := 0x60030 + 0x4 * c
def ACC_CH_STAT_STATE (c : Nat) : FRef := ⟨ACC_CH_STAT c, 0, 2⟩
def ACC_CH_STAT_RECENT (c : Nat) : FRef := ⟨ACC_CH_STAT c, 2, 2⟩
def ACC_CH_STAT_SYNC_LEFT (c : Nat) : FRef := ⟨ACC_CH_STAT c, 8, 9⟩
def ACC_CH_STAT_CLEAN (c : Nat) : FRef := ⟨ACC_CH_STAT c, 24, 8⟩
/-- ACC_REC (R134). -/
def ACC_REC : Nat := 0x60040
def ACC_REC_OPEN : FRef := ⟨ACC_REC, 0, 12⟩
def ACC_REC_HIGH : FRef := ⟨ACC_REC, 16, 12⟩
def ACC_REC_HIGH_CLR : FRef := ⟨ACC_REC, 31, 1⟩
/-- ACC_OUTCOME0 (R134). -/
def ACC_OUTCOME0 : Nat := 0x60044
def ACC_OUTCOME0_DISCORD_ALL : FRef := ⟨ACC_OUTCOME0, 0, 16⟩
def ACC_OUTCOME0_DISCORD_PAIR : FRef := ⟨ACC_OUTCOME0, 16, 16⟩
/-- ACC_OUTCOME1 (R134). -/
def ACC_OUTCOME1 : Nat := 0x60048
def ACC_OUTCOME1_NO_QUORUM : FRef := ⟨ACC_OUTCOME1, 0, 16⟩
def ACC_OUTCOME1_REC_STALL : FRef := ⟨ACC_OUTCOME1, 16, 16⟩
/-- ACC_OUTCOME2 (R134). -/
def ACC_OUTCOME2 : Nat := 0x6004c
def ACC_OUTCOME2_LONELY : FRef := ⟨ACC_OUTCOME2, 0, 16⟩
def ACC_OUTCOME2_FENCES : FRef := ⟨ACC_OUTCOME2, 16, 16⟩
/-- ACC_CH_DISC0[c] (R134). -/
def ACC_CH_DISC0 (c : Nat) : Nat := 0x60100 + 0x20 * c
def ACC_CH_DISC0_MISMATCH (c : Nat) : FRef := ⟨ACC_CH_DISC0 c, 0, 16⟩
def ACC_CH_DISC0_OMIT (c : Nat) : FRef := ⟨ACC_CH_DISC0 c, 16, 16⟩
/-- ACC_CH_DISC1[c] (R134). -/
def ACC_CH_DISC1 (c : Nat) : Nat := 0x60104 + 0x20 * c
def ACC_CH_DISC1_LONELY (c : Nat) : FRef := ⟨ACC_CH_DISC1 c, 0, 16⟩
def ACC_CH_DISC1_PROTOCOL (c : Nat) : FRef := ⟨ACC_CH_DISC1 c, 16, 16⟩
/-- ACC_CH_TRANS[c] (R134). -/
def ACC_CH_TRANS (c : Nat) : Nat := 0x60108 + 0x20 * c
def ACC_CH_TRANS_SUSPECTS (c : Nat) : FRef := ⟨ACC_CH_TRANS c, 0, 16⟩
def ACC_CH_TRANS_EXCLUSIONS (c : Nat) : FRef := ⟨ACC_CH_TRANS c, 16, 16⟩
/-- ACC_CH_LATE[c] (R134). -/
def ACC_CH_LATE (c : Nat) : Nat := 0x6010c + 0x20 * c
def ACC_CH_LATE_LATE_MATCH (c : Nat) : FRef := ⟨ACC_CH_LATE c, 0, 16⟩
def ACC_CH_LATE_LATE_DROP (c : Nat) : FRef := ⟨ACC_CH_LATE c, 16, 16⟩
/-- ACC_CH_REJ[c] (R134). -/
def ACC_CH_REJ (c : Nat) : Nat := 0x60110 + 0x20 * c
def ACC_CH_REJ_REJOINS (c : Nat) : FRef := ⟨ACC_CH_REJ c, 0, 16⟩
def ACC_CH_REJ_REJOIN_FAILS (c : Nat) : FRef := ⟨ACC_CH_REJ c, 16, 16⟩
/-- ACC_CH_SKEW[c] (R134). -/
def ACC_CH_SKEW (c : Nat) : Nat := 0x60114 + 0x20 * c
def ACC_CH_SKEW_MAX (c : Nat) : FRef := ⟨ACC_CH_SKEW c, 0, 16⟩
/-- ACC_DLOG_CTL (R134). -/
def ACC_DLOG_CTL : Nat := 0x60200
def ACC_DLOG_CTL_KIND : FRef := ⟨ACC_DLOG_CTL, 0, 3⟩
def ACC_DLOG_CTL_CHANNEL : FRef := ⟨ACC_DLOG_CTL, 3, 2⟩
def ACC_DLOG_CTL_VALID : FRef := ⟨ACC_DLOG_CTL, 31, 1⟩
/-- ACC_DLOG_KEY (R135). -/
def ACC_DLOG_KEY : Nat := 0x60204
def ACC_DLOG_KEY_SEQ : FRef := ⟨ACC_DLOG_KEY, 0, 16⟩
def ACC_DLOG_KEY_CTX : FRef := ⟨ACC_DLOG_KEY, 16, 8⟩
/-- ACC_DLOG_HDR[i] (R135). -/
def ACC_DLOG_HDR (i : Nat) : Nat := 0x60210 + 0x4 * i
def ACC_DLOG_HDR_WORD (i : Nat) : FRef := ⟨ACC_DLOG_HDR i, 0, 32⟩
/-- ACC_DLOG_REF[i] (R135). -/
def ACC_DLOG_REF (i : Nat) : Nat := 0x60220 + 0x4 * i
def ACC_DLOG_REF_WORD (i : Nat) : FRef := ⟨ACC_DLOG_REF i, 0, 32⟩
/-- ACC_DLOG_DIG_LO (R135). -/
def ACC_DLOG_DIG_LO : Nat := 0x60230
def ACC_DLOG_DIG_LO_DIGEST : FRef := ⟨ACC_DLOG_DIG_LO, 0, 32⟩
/-- ACC_DLOG_DIG_HI (R135). -/
def ACC_DLOG_DIG_HI : Nat := 0x60234
def ACC_DLOG_DIG_HI_DIGEST : FRef := ⟨ACC_DLOG_DIG_HI, 0, 32⟩
/-- ACC_DLOG_REF_DIG_LO (R135). -/
def ACC_DLOG_REF_DIG_LO : Nat := 0x60238
def ACC_DLOG_REF_DIG_LO_DIGEST : FRef := ⟨ACC_DLOG_REF_DIG_LO, 0, 32⟩
/-- ACC_DLOG_REF_DIG_HI (R135). -/
def ACC_DLOG_REF_DIG_HI : Nat := 0x6023c
def ACC_DLOG_REF_DIG_HI_DIGEST : FRef := ⟨ACC_DLOG_REF_DIG_HI, 0, 32⟩
/-- WIN_BASE[w] (R163). -/
def WIN_BASE (w : Nat) : Nat := 0x70000 + 0x20 * w
def WIN_BASE_BASE (w : Nat) : FRef := ⟨WIN_BASE w, 0, 28⟩
/-- WIN_SIZE[w] (R163). -/
def WIN_SIZE (w : Nat) : Nat := 0x70004 + 0x20 * w
def WIN_SIZE_LOG2 (w : Nat) : FRef := ⟨WIN_SIZE w, 0, 6⟩
/-- WIN_TBASE[w] (R163). -/
def WIN_TBASE (w : Nat) : Nat := 0x70008 + 0x20 * w
def WIN_TBASE_TBASE (w : Nat) : FRef := ⟨WIN_TBASE w, 12, 14⟩
/-- WIN_ATTR[w] (R163). -/
def WIN_ATTR (w : Nat) : Nat := 0x7000c + 0x20 * w
def WIN_ATTR_EN (w : Nat) : FRef := ⟨WIN_ATTR w, 0, 1⟩
def WIN_ATTR_TARGET (w : Nat) : FRef := ⟨WIN_ATTR w, 1, 3⟩
def WIN_ATTR_SPACE (w : Nat) : FRef := ⟨WIN_ATTR w, 4, 2⟩
def WIN_ATTR_POSTED (w : Nat) : FRef := ⟨WIN_ATTR w, 6, 1⟩
def WIN_ATTR_ORDER (w : Nat) : FRef := ⟨WIN_ATTR w, 7, 2⟩
def WIN_ATTR_WIDTH (w : Nat) : FRef := ⟨WIN_ATTR w, 9, 2⟩
def WIN_ATTR_BURST (w : Nat) : FRef := ⟨WIN_ATTR w, 11, 1⟩
def WIN_ATTR_LOCKWIN (w : Nat) : FRef := ⟨WIN_ATTR w, 12, 1⟩
def WIN_ATTR_NATIVE (w : Nat) : FRef := ⟨WIN_ATTR w, 13, 1⟩
def WIN_ATTR_FOF (w : Nat) : FRef := ⟨WIN_ATTR w, 14, 1⟩
def WIN_ATTR_RSAFE (w : Nat) : FRef := ⟨WIN_ATTR w, 15, 1⟩
def WIN_ATTR_WP (w : Nat) : FRef := ⟨WIN_ATTR w, 16, 1⟩
/-- WIN_SEG[w] (R163). -/
def WIN_SEG (w : Nat) : Nat := 0x70010 + 0x20 * w
def WIN_SEG_TMO (w : Nat) : FRef := ⟨WIN_SEG w, 0, 9⟩
def WIN_SEG_RETRY_MAX (w : Nat) : FRef := ⟨WIN_SEG w, 12, 4⟩
def WIN_SEG_SEM (w : Nat) : FRef := ⟨WIN_SEG w, 16, 6⟩
/-- WIN_STAT[w] (R163). -/
def WIN_STAT (w : Nat) : Nat := 0x70014 + 0x20 * w
def WIN_STAT_FAILS (w : Nat) : FRef := ⟨WIN_STAT w, 0, 16⟩
def WIN_STAT_LOCK_TO (w : Nat) : FRef := ⟨WIN_STAT w, 16, 16⟩
/-- WIN_LOCK_CTL (R164). -/
def WIN_LOCK_CTL : Nat := 0x71000
def WIN_LOCK_CTL_TMO : FRef := ⟨WIN_LOCK_CTL, 0, 8⟩
/-- WIN_SEM_HELD0 (R164). -/
def WIN_SEM_HELD0 : Nat := 0x71004
def WIN_SEM_HELD0_HELD : FRef := ⟨WIN_SEM_HELD0, 0, 32⟩
/-- WIN_SEM_HELD1 (R164). -/
def WIN_SEM_HELD1 : Nat := 0x71008
def WIN_SEM_HELD1_HELD : FRef := ⟨WIN_SEM_HELD1, 0, 32⟩
/-- WIN_COMPAT (R164). -/
def WIN_COMPAT : Nat := 0x71010
def WIN_COMPAT_INQ : FRef := ⟨WIN_COMPAT, 0, 8⟩
def WIN_COMPAT_OUTQ : FRef := ⟨WIN_COMPAT, 8, 8⟩
def WIN_COMPAT_SEG : FRef := ⟨WIN_COMPAT, 16, 2⟩
/-- WIN_SEM_OWNER[s] (R164). -/
def WIN_SEM_OWNER (s : Nat) : Nat := 0x71100 + 0x4 * s
def WIN_SEM_OWNER_CTX (s : Nat) : FRef := ⟨WIN_SEM_OWNER s, 0, 8⟩
def WIN_SEM_OWNER_HELD (s : Nat) : FRef := ⟨WIN_SEM_OWNER s, 8, 1⟩
def WIN_SEM_OWNER_REMOTE (s : Nat) : FRef := ⟨WIN_SEM_OWNER s, 9, 1⟩
/-- CTX_WIN0[n] (R165). -/
def CTX_WIN0 (n : Nat) : Nat := 0xc0050 + 0x100 * n
def CTX_WIN0_BIND (n : Nat) : FRef := ⟨CTX_WIN0 n, 0, 32⟩
/-- CTX_WIN1[n] (R165). -/
def CTX_WIN1 (n : Nat) : Nat := 0xc0054 + 0x100 * n
def CTX_WIN1_BIND (n : Nat) : FRef := ⟨CTX_WIN1 n, 0, 32⟩
/-- SEG_CTL[s] (R203). -/
def SEG_CTL (s : Nat) : Nat := 0x80000 + 0x10000 * s
def SEG_CTL_EN (s : Nat) : FRef := ⟨SEG_CTL s, 0, 1⟩
def SEG_CTL_MODE (s : Nat) : FRef := ⟨SEG_CTL s, 1, 1⟩
def SEG_CTL_LM_EN (s : Nat) : FRef := ⟨SEG_CTL s, 2, 1⟩
def SEG_CTL_LM_CLASS (s : Nat) : FRef := ⟨SEG_CTL s, 3, 2⟩
def SEG_CTL_LM_CTX (s : Nat) : FRef := ⟨SEG_CTL s, 8, 8⟩
/-- SEG_STAT[s] (R203). -/
def SEG_STAT (s : Nat) : Nat := 0x80004 + 0x10000 * s
def SEG_STAT_STATE (s : Nat) : FRef := ⟨SEG_STAT s, 0, 2⟩
def SEG_STAT_RESTART_PENDING (s : Nat) : FRef := ⟨SEG_STAT s, 2, 1⟩
def SEG_STAT_ROLE (s : Nat) : FRef := ⟨SEG_STAT s, 3, 2⟩
def SEG_STAT_RSP_STUCK (s : Nat) : FRef := ⟨SEG_STAT s, 5, 1⟩
def SEG_STAT_CRST_ACTIVE (s : Nat) : FRef := ⟨SEG_STAT s, 6, 1⟩
def SEG_STAT_LOCK_HELD (s : Nat) : FRef := ⟨SEG_STAT s, 7, 1⟩
def SEG_STAT_CINT (s : Nat) : FRef := ⟨SEG_STAT s, 8, 4⟩
def SEG_STAT_CBR (s : Nat) : FRef := ⟨SEG_STAT s, 12, 1⟩
def SEG_STAT_GEN (s : Nat) : FRef := ⟨SEG_STAT s, 16, 16⟩
/-- SEG_TIM[s] (R203). -/
def SEG_TIM (s : Nat) : Nat := 0x80008 + 0x10000 * s
def SEG_TIM_STRETCH (s : Nat) : FRef := ⟨SEG_TIM s, 0, 4⟩
def SEG_TIM_TURN (s : Nat) : FRef := ⟨SEG_TIM s, 4, 4⟩
/-- SEG_TMO[s] (R203). -/
def SEG_TMO (s : Nat) : Nat := 0x8000c + 0x10000 * s
def SEG_TMO_TMO (s : Nat) : FRef := ⟨SEG_TMO s, 0, 9⟩
/-- SEG_RETRY[s] (R203). -/
def SEG_RETRY (s : Nat) : Nat := 0x80010 + 0x10000 * s
def SEG_RETRY_DELAY (s : Nat) : FRef := ⟨SEG_RETRY s, 0, 7⟩
/-- SEG_KEEP[s] (R203). -/
def SEG_KEEP (s : Nat) : Nat := 0x80014 + 0x10000 * s
def SEG_KEEP_PERIOD (s : Nat) : FRef := ⟨SEG_KEEP s, 0, 8⟩
/-- SEG_POLL[s] (R203). -/
def SEG_POLL (s : Nat) : Nat := 0x80040 + 0x10000 * s
def SEG_POLL_TMO (s : Nat) : FRef := ⟨SEG_POLL s, 0, 6⟩
/-- SEG_LM[s] (R203). -/
def SEG_LM (s : Nat) : Nat := 0x80044 + 0x10000 * s
def SEG_LM_GRANT_TMO (s : Nat) : FRef := ⟨SEG_LM s, 0, 4⟩
def SEG_LM_HOLD (s : Nat) : FRef := ⟨SEG_LM s, 8, 8⟩
/-- SEG_KEEP_STAT[s] (R203). -/
def SEG_KEEP_STAT (s : Nat) : Nat := 0x80018 + 0x10000 * s
def SEG_KEEP_STAT_COUNT (s : Nat) : FRef := ⟨SEG_KEEP_STAT s, 0, 7⟩
def SEG_KEEP_STAT_SIDE (s : Nat) : FRef := ⟨SEG_KEEP_STAT s, 7, 1⟩
def SEG_KEEP_STAT_SEEN (s : Nat) : FRef := ⟨SEG_KEEP_STAT s, 8, 1⟩
/-- SEG_KEEP_GAP[s] (R203). -/
def SEG_KEEP_GAP (s : Nat) : Nat := 0x8001c + 0x10000 * s
def SEG_KEEP_GAP_MAX_GAP (s : Nat) : FRef := ⟨SEG_KEEP_GAP s, 0, 16⟩
def SEG_KEEP_GAP_KEEP_CUT (s : Nat) : FRef := ⟨SEG_KEEP_GAP s, 16, 16⟩
/-- SEG_SILENCE[s] (R203). -/
def SEG_SILENCE (s : Nat) : Nat := 0x80020 + 0x10000 * s
def SEG_SILENCE_QUIET (s : Nat) : FRef := ⟨SEG_SILENCE s, 0, 24⟩
/-- SEG_INT[s][l] (R203). -/
def SEG_INT (s : Nat) (l : Nat) : Nat := 0x80030 + 0x10000 * s + 0x4 * l
def SEG_INT_CTX (s : Nat) (l : Nat) : FRef := ⟨SEG_INT s l, 0, 8⟩
def SEG_INT_WQ (s : Nat) (l : Nat) : FRef := ⟨SEG_INT s l, 8, 4⟩
def SEG_INT_EN (s : Nat) (l : Nat) : FRef := ⟨SEG_INT s l, 12, 1⟩
def SEG_INT_REARM (s : Nat) (l : Nat) : FRef := ⟨SEG_INT s l, 16, 8⟩
/-- SEG_INB_BASE[s][i] (R203). The table gives SEG_INB_BASE[2] and SEG_INB_CFG[2] the addresses of SEG_CMD and SEG_RST,
which answer there: DESIGN CHOICE, log 3. -/
def SEG_INB_BASE (s : Nat) (i : Nat) : Nat := 0x80080 + 0x10000 * s + 0x10 * i
def SEG_INB_BASE_BASE (s : Nat) (i : Nat) : FRef := ⟨SEG_INB_BASE s i, 12, 12⟩
/-- SEG_INB_CFG[s][i] (R203). -/
def SEG_INB_CFG (s : Nat) (i : Nat) : Nat := 0x80084 + 0x10000 * s + 0x10 * i
def SEG_INB_CFG_EN (s : Nat) (i : Nat) : FRef := ⟨SEG_INB_CFG s i, 0, 1⟩
def SEG_INB_CFG_PARTNER (s : Nat) (i : Nat) : FRef := ⟨SEG_INB_CFG s i, 1, 1⟩
def SEG_INB_CFG_NOWRITE (s : Nat) (i : Nat) : FRef := ⟨SEG_INB_CFG s i, 2, 1⟩
def SEG_INB_CFG_LOG2 (s : Nat) (i : Nat) : FRef := ⟨SEG_INB_CFG s i, 8, 5⟩
/-- SEG_INB_LBASE[s][i] (R203). -/
def SEG_INB_LBASE (s : Nat) (i : Nat) : Nat := 0x80088 + 0x10000 * s + 0x10 * i
def SEG_INB_LBASE_LBASE (s : Nat) (i : Nat) : FRef := ⟨SEG_INB_LBASE s i, 12, 11⟩
/-- SEG_CMD[s] (R203). -/
def SEG_CMD (s : Nat) : Nat := 0x800a0 + 0x10000 * s
def SEG_CMD_CARD_RESET (s : Nat) : FRef := ⟨SEG_CMD s, 0, 1⟩
def SEG_CMD_ARM (s : Nat) : FRef := ⟨SEG_CMD s, 4, 4⟩
/-- SEG_RST[s] (R203). -/
def SEG_RST (s : Nat) : Nat := 0x800a4 + 0x10000 * s
def SEG_RST_WIDTH (s : Nat) : FRef := ⟨SEG_RST s, 0, 8⟩
/-- SEG_ERR_CNT0[s] (R203). -/
def SEG_ERR_CNT0 (s : Nat) : Nat := 0x800c0 + 0x10000 * s
def SEG_ERR_CNT0_TIMEOUT (s : Nat) : FRef := ⟨SEG_ERR_CNT0 s, 0, 16⟩
def SEG_ERR_CNT0_CERR (s : Nat) : FRef := ⟨SEG_ERR_CNT0 s, 16, 16⟩
/-- SEG_ERR_CNT1[s] (R203). -/
def SEG_ERR_CNT1 (s : Nat) : Nat := 0x800c4 + 0x10000 * s
def SEG_ERR_CNT1_RETRY (s : Nat) : FRef := ⟨SEG_ERR_CNT1 s, 0, 16⟩
def SEG_ERR_CNT1_RETRY_EXH (s : Nat) : FRef := ⟨SEG_ERR_CNT1 s, 16, 16⟩
/-- SEG_LM_CNT[s] (R203). -/
def SEG_LM_CNT (s : Nat) : Nat := 0x800c8 + 0x10000 * s
def SEG_LM_CNT_INB_RETRY (s : Nat) : FRef := ⟨SEG_LM_CNT s, 0, 16⟩
def SEG_LM_CNT_GRANT_LOST (s : Nat) : FRef := ⟨SEG_LM_CNT s, 16, 16⟩
/-- SEG_INT_CNT[s] (R203). -/
def SEG_INT_CNT (s : Nat) : Nat := 0x800cc + 0x10000 * s
def SEG_INT_CNT_POLLS (s : Nat) : FRef := ⟨SEG_INT_CNT s, 0, 16⟩
def SEG_INT_CNT_SPURIOUS (s : Nat) : FRef := ⟨SEG_INT_CNT s, 16, 16⟩
/-- SEG_MISC_CNT[s] (R203). -/
def SEG_MISC_CNT (s : Nat) : Nat := 0x800d0 + 0x10000 * s
def SEG_MISC_CNT_LATE_RSP (s : Nat) : FRef := ⟨SEG_MISC_CNT s, 0, 16⟩
def SEG_MISC_CNT_LM_WATCHDOG (s : Nat) : FRef := ⟨SEG_MISC_CNT s, 16, 16⟩
/-- SEG_ERR_CAUSE[s] (R203). -/
def SEG_ERR_CAUSE (s : Nat) : Nat := 0x800e0 + 0x10000 * s
def SEG_ERR_CAUSE_CAUSE (s : Nat) : FRef := ⟨SEG_ERR_CAUSE s, 0, 4⟩
def SEG_ERR_CAUSE_CTX (s : Nat) : FRef := ⟨SEG_ERR_CAUSE s, 16, 8⟩
def SEG_ERR_CAUSE_COURIER (s : Nat) : FRef := ⟨SEG_ERR_CAUSE s, 24, 1⟩
def SEG_ERR_CAUSE_VALID (s : Nat) : FRef := ⟨SEG_ERR_CAUSE s, 31, 1⟩
/-- SEG_ERR_ADDR[s] (R203). -/
def SEG_ERR_ADDR (s : Nat) : Nat := 0x800e4 + 0x10000 * s
def SEG_ERR_ADDR_ADDR (s : Nat) : FRef := ⟨SEG_ERR_ADDR s, 0, 24⟩
def SEG_ERR_ADDR_SPC (s : Nat) : FRef := ⟨SEG_ERR_ADDR s, 24, 2⟩
/-- IMG_BASE[i] (R227). -/
def IMG_BASE (i : Nat) : Nat := 0xd8000 + 0x20 * i
def IMG_BASE_BASE (i : Nat) : FRef := ⟨IMG_BASE i, 6, 17⟩
/-- IMG_SIZE[i] (R227). -/
def IMG_SIZE (i : Nat) : Nat := 0xd8004 + 0x20 * i
def IMG_SIZE_LINES (i : Nat) : FRef := ⟨IMG_SIZE i, 0, 11⟩
/-- IMG_CFG[i] (R227). -/
def IMG_CFG (i : Nat) : Nat := 0xd8008 + 0x20 * i
def IMG_CFG_EN (i : Nat) : FRef := ⟨IMG_CFG i, 0, 1⟩
def IMG_CFG_DIR (i : Nat) : FRef := ⟨IMG_CFG i, 1, 1⟩
def IMG_CFG_COMMIT (i : Nat) : FRef := ⟨IMG_CFG i, 2, 2⟩
def IMG_CFG_CARRY (i : Nat) : FRef := ⟨IMG_CFG i, 4, 1⟩
def IMG_CFG_MIRROR (i : Nat) : FRef := ⟨IMG_CFG i, 5, 1⟩
def IMG_CFG_HOME (i : Nat) : FRef := ⟨IMG_CFG i, 6, 3⟩
def IMG_CFG_CHAIN (i : Nat) : FRef := ⟨IMG_CFG i, 9, 2⟩
def IMG_CFG_CTX (i : Nat) : FRef := ⟨IMG_CFG i, 16, 8⟩
/-- IMG_TIM[i] (R227). -/
def IMG_TIM (i : Nat) : Nat := 0xd800c + 0x20 * i
def IMG_TIM_DIV (i : Nat) : FRef := ⟨IMG_TIM i, 0, 7⟩
def IMG_TIM_PHASE (i : Nat) : FRef := ⟨IMG_TIM i, 8, 6⟩
def IMG_TIM_MAX_AGE (i : Nat) : FRef := ⟨IMG_TIM i, 16, 8⟩
/-- IMG_GEN[i] (R227). -/
def IMG_GEN (i : Nat) : Nat := 0xd8010 + 0x20 * i
def IMG_GEN_GEN (i : Nat) : FRef := ⟨IMG_GEN i, 0, 32⟩
/-- IMG_STAT[i] (R227). -/
def IMG_STAT (i : Nat) : Nat := 0xd8014 + 0x20 * i
def IMG_STAT_AGE (i : Nat) : FRef := ⟨IMG_STAT i, 0, 8⟩
def IMG_STAT_CARRYING (i : Nat) : FRef := ⟨IMG_STAT i, 8, 1⟩
def IMG_STAT_STALE (i : Nat) : FRef := ⟨IMG_STAT i, 9, 1⟩
def IMG_STAT_OVERLAP (i : Nat) : FRef := ⟨IMG_STAT i, 10, 1⟩
def IMG_STAT_HOME_HERE (i : Nat) : FRef := ⟨IMG_STAT i, 11, 1⟩
def IMG_STAT_RESYNC_WAIT (i : Nat) : FRef := ⟨IMG_STAT i, 12, 1⟩
/-- IMG_CNT[i] (R227). -/
def IMG_CNT (i : Nat) : Nat := 0xd8018 + 0x20 * i
def IMG_CNT_PARTIAL (i : Nat) : FRef := ⟨IMG_CNT i, 0, 16⟩
def IMG_CNT_SKIPPED (i : Nat) : FRef := ⟨IMG_CNT i, 16, 16⟩
/-- LDG_CTL (R228). -/
def LDG_CTL : Nat := 0x124000
def LDG_CTL_SCRUB_EN : FRef := ⟨LDG_CTL, 0, 1⟩
def LDG_CTL_PERIOD : FRef := ⟨LDG_CTL, 8, 7⟩
/-- LDG_SCRUB (R228). -/
def LDG_SCRUB : Nat := 0x124004
def LDG_SCRUB_POS : FRef := ⟨LDG_SCRUB, 0, 20⟩
def LDG_SCRUB_PASSES : FRef := ⟨LDG_SCRUB, 20, 12⟩
/-- LDG_ECC_CNT (R228). -/
def LDG_ECC_CNT : Nat := 0x124008
def LDG_ECC_CNT_CE : FRef := ⟨LDG_ECC_CNT, 0, 16⟩
def LDG_ECC_CNT_UE : FRef := ⟨LDG_ECC_CNT, 16, 16⟩
/-- LDG_CNT (R228). -/
def LDG_CNT : Nat := 0x12400c
def LDG_CNT_WR_REFUSED : FRef := ⟨LDG_CNT, 0, 8⟩
def LDG_CNT_INB_DROP : FRef := ⟨LDG_CNT, 8, 8⟩
def LDG_CNT_MIRROR_GAP : FRef := ⟨LDG_CNT, 16, 16⟩
/-- LDG_ERR_CAUSE (R228). -/
def LDG_ERR_CAUSE : Nat := 0x124010
def LDG_ERR_CAUSE_UE : FRef := ⟨LDG_ERR_CAUSE, 0, 1⟩
def LDG_ERR_CAUSE_SOURCE : FRef := ⟨LDG_ERR_CAUSE, 1, 2⟩
def LDG_ERR_CAUSE_CTX : FRef := ⟨LDG_ERR_CAUSE, 8, 8⟩
def LDG_ERR_CAUSE_SYNDROME : FRef := ⟨LDG_ERR_CAUSE, 16, 8⟩
def LDG_ERR_CAUSE_VALID : FRef := ⟨LDG_ERR_CAUSE, 31, 1⟩
/-- LDG_ERR_ADDR (R228). -/
def LDG_ERR_ADDR : Nat := 0x124014
def LDG_ERR_ADDR_WORD : FRef := ⟨LDG_ERR_ADDR, 3, 20⟩
/-- LDG_MIR_BASE[r] (R228). -/
def LDG_MIR_BASE (r : Nat) : Nat := 0x124020 + 0x8 * r
def LDG_MIR_BASE_BASE (r : Nat) : FRef := ⟨LDG_MIR_BASE r, 12, 11⟩
/-- LDG_MIR_CFG[r] (R228). -/
def LDG_MIR_CFG (r : Nat) : Nat := 0x124024 + 0x8 * r
def LDG_MIR_CFG_EN (r : Nat) : FRef := ⟨LDG_MIR_CFG r, 0, 1⟩
def LDG_MIR_CFG_LOG2 (r : Nat) : FRef := ⟨LDG_MIR_CFG r, 8, 5⟩
/-- CTX_CTL[n] (R253). -/
def CTX_CTL (n : Nat) : Nat := 0xc0000 + 0x100 * n
def CTX_CTL_EN (n : Nat) : FRef := ⟨CTX_CTL n, 0, 1⟩
def CTX_CTL_ESSENTIAL (n : Nat) : FRef := ⟨CTX_CTL n, 1, 1⟩
def CTX_CTL_NOTE (n : Nat) : FRef := ⟨CTX_CTL n, 2, 2⟩
def CTX_CTL_PROG_EN (n : Nat) : FRef := ⟨CTX_CTL n, 4, 1⟩
/-- CTX_STAT[n] (R253). -/
def CTX_STAT (n : Nat) : Nat := 0xc0004 + 0x100 * n
def CTX_STAT_STATE (n : Nat) : FRef := ⟨CTX_STAT n, 0, 2⟩
def CTX_STAT_RESTART_PENDING (n : Nat) : FRef := ⟨CTX_STAT n, 2, 1⟩
def CTX_STAT_RUN (n : Nat) : FRef := ⟨CTX_STAT n, 3, 3⟩
def CTX_STAT_COURIER (n : Nat) : FRef := ⟨CTX_STAT n, 6, 4⟩
def CTX_STAT_THREAD (n : Nat) : FRef := ⟨CTX_STAT n, 10, 2⟩
def CTX_STAT_IN_TRAP (n : Nat) : FRef := ⟨CTX_STAT n, 12, 1⟩
def CTX_STAT_PLACE_ERR (n : Nat) : FRef := ⟨CTX_STAT n, 13, 1⟩
def CTX_STAT_GEN (n : Nat) : FRef := ⟨CTX_STAT n, 16, 16⟩
/-- CTX_PLACE[n] (R253). -/
def CTX_PLACE (n : Nat) : Nat := 0xc0008 + 0x100 * n
def CTX_PLACE_LCOUR (n : Nat) : FRef := ⟨CTX_PLACE n, 0, 4⟩
def CTX_PLACE_DBASE (n : Nat) : FRef := ⟨CTX_PLACE n, 8, 8⟩
def CTX_PLACE_DSIZE (n : Nat) : FRef := ⟨CTX_PLACE n, 16, 9⟩
def CTX_PLACE_GATE (n : Nat) : FRef := ⟨CTX_PLACE n, 25, 3⟩
def CTX_PLACE_CHAIN (n : Nat) : FRef := ⟨CTX_PLACE n, 28, 2⟩
/-- CTX_PROG[n] (R253). -/
def CTX_PROG (n : Nat) : Nat := 0xc000c + 0x100 * n
def CTX_PROG_ENTRY (n : Nat) : FRef := ⟨CTX_PROG n, 0, 14⟩
def CTX_PROG_TRAP_VEC (n : Nat) : FRef := ⟨CTX_PROG n, 16, 14⟩
def CTX_PROG_TRAP_EN (n : Nat) : FRef := ⟨CTX_PROG n, 30, 1⟩
/-- CTX_QUE[n] (R253). -/
def CTX_QUE (n : Nat) : Nat := 0xc0010 + 0x100 * n
def CTX_QUE_NQ (n : Nat) : FRef := ⟨CTX_QUE n, 0, 8⟩
def CTX_QUE_WQ (n : Nat) : FRef := ⟨CTX_QUE n, 8, 4⟩
def CTX_QUE_WQ_EN (n : Nat) : FRef := ⟨CTX_QUE n, 12, 1⟩
def CTX_QUE_AUX_EN (n : Nat) : FRef := ⟨CTX_QUE n, 13, 1⟩
def CTX_QUE_AUXQ (n : Nat) : FRef := ⟨CTX_QUE n, 16, 8⟩
/-- CTX_SEQ[n] (R253). -/
def CTX_SEQ (n : Nat) : Nat := 0xc0014 + 0x100 * n
def CTX_SEQ_DOWN_SEQ (n : Nat) : FRef := ⟨CTX_SEQ n, 0, 16⟩
def CTX_SEQ_UP_SEQ (n : Nat) : FRef := ⟨CTX_SEQ n, 16, 16⟩
/-- CTX_CMD[n] (R253). -/
def CTX_CMD (n : Nat) : Nat := 0xc0018 + 0x100 * n
def CTX_CMD_KICK (n : Nat) : FRef := ⟨CTX_CMD n, 0, 1⟩
def CTX_CMD_RESUME (n : Nat) : FRef := ⟨CTX_CMD n, 1, 1⟩
/-- CTX_RELOC[n] (R253). -/
def CTX_RELOC (n : Nat) : Nat := 0xc001c + 0x100 * n
def CTX_RELOC_RELOCATED (n : Nat) : FRef := ⟨CTX_RELOC n, 0, 1⟩
def CTX_RELOC_DBASE (n : Nat) : FRef := ⟨CTX_RELOC n, 8, 8⟩
/-- CTX_TRAP0[n] (R253). -/
def CTX_TRAP0 (n : Nat) : Nat := 0xc0020 + 0x100 * n
def CTX_TRAP0_CAUSE (n : Nat) : FRef := ⟨CTX_TRAP0 n, 0, 5⟩
def CTX_TRAP0_COUNT (n : Nat) : FRef := ⟨CTX_TRAP0 n, 16, 15⟩
def CTX_TRAP0_VALID (n : Nat) : FRef := ⟨CTX_TRAP0 n, 31, 1⟩
/-- CTX_TRAP1[n] (R253). -/
def CTX_TRAP1 (n : Nat) : Nat := 0xc0024 + 0x100 * n
def CTX_TRAP1_PC (n : Nat) : FRef := ⟨CTX_TRAP1 n, 0, 14⟩
/-- CTX_TRAP2[n] (R253). -/
def CTX_TRAP2 (n : Nat) : Nat := 0xc0028 + 0x100 * n
def CTX_TRAP2_INFO (n : Nat) : FRef := ⟨CTX_TRAP2 n, 0, 32⟩
/-- COUR_CTL[c] (R255). -/
def COUR_CTL (c : Nat) : Nat := 0xd4000 + 0x40 * c
def COUR_CTL_EN (c : Nat) : FRef := ⟨COUR_CTL c, 0, 1⟩
/-- COUR_STAT[c] (R255). -/
def COUR_STAT (c : Nat) : Nat := 0xd4004 + 0x40 * c
def COUR_STAT_STATE (c : Nat) : FRef := ⟨COUR_STAT c, 0, 2⟩
def COUR_STAT_RESTART_PENDING (c : Nat) : FRef := ⟨COUR_STAT c, 2, 1⟩
def COUR_STAT_ROLE (c : Nat) : FRef := ⟨COUR_STAT c, 3, 2⟩
def COUR_STAT_LOGICAL (c : Nat) : FRef := ⟨COUR_STAT c, 8, 4⟩
def COUR_STAT_BUSY (c : Nat) : FRef := ⟨COUR_STAT c, 12, 4⟩
def COUR_STAT_GEN (c : Nat) : FRef := ⟨COUR_STAT c, 16, 16⟩
/-- COUR_CNT[c] (R255). -/
def COUR_CNT (c : Nat) : Nat := 0xd4008 + 0x40 * c
def COUR_CNT_MISMATCH (c : Nat) : FRef := ⟨COUR_CNT c, 0, 16⟩
def COUR_CNT_PREEMPT (c : Nat) : FRef := ⟨COUR_CNT c, 16, 16⟩
/-- COUR_SLOTS[c] (R255). -/
def COUR_SLOTS (c : Nat) : Nat := 0xd400c + 0x40 * c
def COUR_SLOTS_USED (c : Nat) : FRef := ⟨COUR_SLOTS c, 0, 32⟩
/-- COUR_GLB (R255). -/
def COUR_GLB : Nat := 0xd4400
def COUR_GLB_SPARE : FRef := ⟨COUR_GLB, 0, 4⟩
def COUR_GLB_SPARE_VALID : FRef := ⟨COUR_GLB, 4, 1⟩
def COUR_GLB_HOST_WR_REFUSED : FRef := ⟨COUR_GLB, 16, 8⟩
def COUR_GLB_WQ_DISCARD : FRef := ⟨COUR_GLB, 24, 8⟩
/-- COUR_TAGS (R255). -/
def COUR_TAGS : Nat := 0xd4404
def COUR_TAGS_IN_USE : FRef := ⟨COUR_TAGS, 0, 8⟩
def COUR_TAGS_HIGH : FRef := ⟨COUR_TAGS, 8, 8⟩
def COUR_TAGS_TAG_STALL : FRef := ⟨COUR_TAGS, 16, 16⟩
/-- COUR_LMAP[l] (R255). -/
def COUR_LMAP (l : Nat) : Nat := 0xd4440 + 0x4 * l
def COUR_LMAP_PHYS (l : Nat) : FRef := ⟨COUR_LMAP l, 0, 4⟩
/-- STG_TIM (R313). -/
def STG_TIM : Nat := 0xd0000
def STG_TIM_STAGE : FRef := ⟨STG_TIM, 0, 17⟩
def STG_TIM_LEGS : FRef := ⟨STG_TIM, 24, 7⟩
/-- STG_OFS (R313). -/
def STG_OFS : Nat := 0xd0004
def STG_OFS_OFFSET : FRef := ⟨STG_OFS, 0, 17⟩
/-- STG_CTL (R313). -/
def STG_CTL : Nat := 0xd0008
def STG_CTL_DEFER_MAX : FRef := ⟨STG_CTL, 0, 3⟩
def STG_CTL_FORCE : FRef := ⟨STG_CTL, 4, 2⟩
/-- STG_WARM (R313). -/
def STG_WARM : Nat := 0xd000c
def STG_WARM_TOP_SCALE : FRef := ⟨STG_WARM, 0, 5⟩
def STG_WARM_HEART_SCALE : FRef := ⟨STG_WARM, 8, 5⟩
def STG_WARM_BASE_SCALE : FRef := ⟨STG_WARM, 16, 5⟩
/-- STG_STAT (R313). -/
def STG_STAT : Nat := 0xd0010
def STG_STAT_LEG : FRef := ⟨STG_STAT, 0, 6⟩
def STG_STAT_PLAN : FRef := ⟨STG_STAT, 8, 2⟩
def STG_STAT_HOT : FRef := ⟨STG_STAT, 10, 1⟩
def STG_STAT_SWITCH_PEND : FRef := ⟨STG_STAT, 11, 1⟩
def STG_STAT_STAGES : FRef := ⟨STG_STAT, 16, 16⟩
/-- STG_CNT (R313). -/
def STG_CNT : Nat := 0xd0014
def STG_CNT_OVERDRAFT : FRef := ⟨STG_CNT, 0, 16⟩
def STG_CNT_LATE : FRef := ⟨STG_CNT, 16, 16⟩
/-- STG_CNT1 (R313). -/
def STG_CNT1 : Nat := 0xd0018
def STG_CNT1_DEFER_TO : FRef := ⟨STG_CNT1, 0, 16⟩
def STG_CNT1_CUT : FRef := ⟨STG_CNT1, 16, 16⟩
/-- STG_SEGLOAD[s] (R313). -/
def STG_SEGLOAD (s : Nat) : Nat := 0xd0020 + 0x4 * s
def STG_SEGLOAD_PLANNED (s : Nat) : FRef := ⟨STG_SEGLOAD s, 0, 16⟩
def STG_SEGLOAD_USED (s : Nat) : FRef := ⟨STG_SEGLOAD s, 16, 16⟩
/-- STG_CMD (R313). -/
def STG_CMD : Nat := 0xd0030
def STG_CMD_PEAK_CLR : FRef := ⟨STG_CMD, 0, 1⟩
/-- CTX_BUD_SLOT[n] (R314). -/
def CTX_BUD_SLOT (n : Nat) : Nat := 0xc0060 + 0x100 * n
def CTX_BUD_SLOT_SLOTS (n : Nat) : FRef := ⟨CTX_BUD_SLOT n, 0, 25⟩
/-- CTX_BUD_BUS[n][s] (R314). -/
def CTX_BUD_BUS (n : Nat) (s : Nat) : Nat := 0xc0064 + 0x100 * n + 0x4 * s
def CTX_BUD_BUS_BUDGET (n : Nat) (s : Nat) : FRef := ⟨CTX_BUD_BUS n s, 0, 16⟩
def CTX_BUD_BUS_CHARGED (n : Nat) (s : Nat) : FRef := ⟨CTX_BUD_BUS n s, 16, 16⟩
/-- CTX_REL[n] (R314). -/
def CTX_REL (n : Nat) : Nat := 0xc0074 + 0x100 * n
def CTX_REL_DIV (n : Nat) : FRef := ⟨CTX_REL n, 0, 7⟩
def CTX_REL_PHASE (n : Nat) : FRef := ⟨CTX_REL n, 8, 6⟩
/-- CTX_CHG[n] (R314). -/
def CTX_CHG (n : Nat) : Nat := 0xc0078 + 0x100 * n
def CTX_CHG_SLOTS (n : Nat) : FRef := ⟨CTX_CHG n, 0, 25⟩
def CTX_CHG_PEAK (n : Nat) : FRef := ⟨CTX_CHG n, 25, 7⟩
/-- CTX_USE[n] (R314). -/
def CTX_USE (n : Nat) : Nat := 0xc007c + 0x100 * n
def CTX_USE_OVERDRAFTS (n : Nat) : FRef := ⟨CTX_USE n, 0, 8⟩
def CTX_USE_LATE (n : Nat) : FRef := ⟨CTX_USE n, 8, 8⟩
def CTX_USE_DEFERRED (n : Nat) : FRef := ⟨CTX_USE n, 16, 4⟩
def CTX_USE_SUSP (n : Nat) : FRef := ⟨CTX_USE n, 20, 1⟩
def CTX_USE_CUT (n : Nat) : FRef := ⟨CTX_USE n, 21, 1⟩
def CTX_USE_BUS_PEAK (n : Nat) : FRef := ⟨CTX_USE n, 24, 8⟩
/-- NRG_ADC[c] (R315). -/
def NRG_ADC (c : Nat) : Nat := 0x160000 + 0x4 * c
def NRG_ADC_CODE (c : Nat) : FRef := ⟨NRG_ADC c, 0, 10⟩
def NRG_ADC_EXTREME (c : Nat) : FRef := ⟨NRG_ADC c, 16, 10⟩
/-- NRG_TJ (R315). -/
def NRG_TJ : Nat := 0x160018
def NRG_TJ_CODE : FRef := ⟨NRG_TJ, 0, 10⟩
/-- NRG_HU (R315). -/
def NRG_HU : Nat := 0x160020
def NRG_HU_ENTER : FRef := ⟨NRG_HU, 0, 10⟩
def NRG_HU_EXIT : FRef := ⟨NRG_HU, 16, 10⟩
def NRG_HU_COUNT : FRef := ⟨NRG_HU, 26, 4⟩
/-- NRG_HU_TIME (R315). -/
def NRG_HU_TIME : Nat := 0x160024
def NRG_HU_TIME_EXIT_TIME : FRef := ⟨NRG_HU_TIME, 0, 8⟩
def NRG_HU_TIME_MIN_STAGES : FRef := ⟨NRG_HU_TIME, 8, 8⟩
/-- NRG_VIN (R315). -/
def NRG_VIN : Nat := 0x160028
def NRG_VIN_LOW : FRef := ⟨NRG_VIN, 0, 10⟩
def NRG_VIN_OK : FRef := ⟨NRG_VIN, 16, 10⟩
/-- NRG_LG (R315). -/
def NRG_LG : Nat := 0x16002c
def NRG_LG_LG : FRef := ⟨NRG_LG, 0, 10⟩
/-- NRG_TH (R315). -/
def NRG_TH : Nat := 0x160030
def NRG_TH_WARM : FRef := ⟨NRG_TH, 0, 10⟩
def NRG_TH_HOT : FRef := ⟨NRG_TH, 16, 10⟩
def NRG_TH_HYST : FRef := ⟨NRG_TH, 26, 5⟩
/-- NRG_CAP (R315). -/
def NRG_CAP : Nat := 0x160034
def NRG_CAP_UF : FRef := ⟨NRG_CAP, 0, 20⟩
/-- NRG_HU_SCALE (R315). -/
def NRG_HU_SCALE : Nat := 0x160038
def NRG_HU_SCALE_UV : FRef := ⟨NRG_HU_SCALE, 0, 20⟩
/-- NRG_COEF0 (R315). -/
def NRG_COEF0 : Nat := 0x160040
def NRG_COEF0_P_STATIC : FRef := ⟨NRG_COEF0, 0, 16⟩
def NRG_COEF0_P_LANE : FRef := ⟨NRG_COEF0, 16, 16⟩
/-- NRG_COEF1 (R315). -/
def NRG_COEF1 : Nat := 0x160044
def NRG_COEF1_E_SLOT : FRef := ⟨NRG_COEF1, 0, 16⟩
def NRG_COEF1_P_SEG : FRef := ⟨NRG_COEF1, 16, 16⟩
/-- NRG_PBOARD (R315). -/
def NRG_PBOARD : Nat := 0x160048
def NRG_PBOARD_MW : FRef := ⟨NRG_PBOARD, 0, 16⟩
/-- NRG_EST (R315). -/
def NRG_EST : Nat := 0x160050
def NRG_EST_LAST : FRef := ⟨NRG_EST, 0, 24⟩
/-- NRG_BOUND_N (R315). -/
def NRG_BOUND_N : Nat := 0x160054
def NRG_BOUND_N_UJ : FRef := ⟨NRG_BOUND_N, 0, 24⟩
/-- NRG_BOUND_H (R315). -/
def NRG_BOUND_H : Nat := 0x160058
def NRG_BOUND_H_UJ : FRef := ⟨NRG_BOUND_H, 0, 24⟩
/-- NRG_AVAIL (R315). -/
def NRG_AVAIL : Nat := 0x16005c
def NRG_AVAIL_UJ : FRef := ⟨NRG_AVAIL, 0, 24⟩
/-- NRG_LEFT (R315). -/
def NRG_LEFT : Nat := 0x160060
def NRG_LEFT_STAGES : FRef := ⟨NRG_LEFT, 0, 8⟩
/-- NRG_STAT (R315). -/
def NRG_STAT : Nat := 0x160070
def NRG_STAT_HU : FRef := ⟨NRG_STAT, 0, 1⟩
def NRG_STAT_VIN_LOW : FRef := ⟨NRG_STAT, 1, 1⟩
def NRG_STAT_WARM : FRef := ⟨NRG_STAT, 2, 1⟩
def NRG_STAT_HOT : FRef := ⟨NRG_STAT, 3, 1⟩
/-- NRG_LG_STAT (R315). -/
def NRG_LG_STAT : Nat := 0x160074
def NRG_LG_STAT_CAUSE : FRef := ⟨NRG_LG_STAT, 0, 1⟩
def NRG_LG_STAT_VALID : FRef := ⟨NRG_LG_STAT, 31, 1⟩
/-- NRG_CMD (R315). -/
def NRG_CMD : Nat := 0x160078
def NRG_CMD_LASTGASP : FRef := ⟨NRG_CMD, 0, 1⟩
def NRG_CMD_EXTREME_CLR : FRef := ⟨NRG_CMD, 1, 1⟩
/-- QUE_CFG[q] (R335). -/
def QUE_CFG (q : Nat) : Nat := 0xe0000 + 0x20 * q
def QUE_CFG_RING (q : Nat) : FRef := ⟨QUE_CFG q, 0, 1⟩
def QUE_CFG_POLLED (q : Nat) : FRef := ⟨QUE_CFG q, 1, 1⟩
def QUE_CFG_LOG2 (q : Nat) : FRef := ⟨QUE_CFG q, 8, 5⟩
/-- QUE_RBASE[q] (R335). -/
def QUE_RBASE (q : Nat) : Nat := 0xe0004 + 0x20 * q
def QUE_RBASE_RBASE (q : Nat) : FRef := ⟨QUE_RBASE q, 0, 12⟩
/-- QUE_CNT[q] (R335). -/
def QUE_CNT (q : Nat) : Nat := 0xe0008 + 0x20 * q
def QUE_CNT_PACKETS (q : Nat) : FRef := ⟨QUE_CNT q, 0, 16⟩
def QUE_CNT_WORDS (q : Nat) : FRef := ⟨QUE_CNT q, 16, 16⟩
/-- QUE_STAT[q] (R335). -/
def QUE_STAT (q : Nat) : Nat := 0xe000c + 0x20 * q
def QUE_STAT_OPEN (q : Nat) : FRef := ⟨QUE_STAT q, 0, 1⟩
def QUE_STAT_CONFLICT (q : Nat) : FRef := ⟨QUE_STAT q, 1, 1⟩
def QUE_STAT_OPENER (q : Nat) : FRef := ⟨QUE_STAT q, 8, 8⟩
def QUE_STAT_CREDITS (q : Nat) : FRef := ⟨QUE_STAT q, 16, 16⟩
/-- QUE_LOSS[q] (R335). -/
def QUE_LOSS (q : Nat) : Nat := 0xe0010 + 0x20 * q
def QUE_LOSS_LOST (q : Nat) : FRef := ⟨QUE_LOSS q, 0, 16⟩
def QUE_LOSS_TRUNC (q : Nat) : FRef := ⟨QUE_LOSS q, 16, 16⟩
/-- QUE_ECC[q] (R335). -/
def QUE_ECC (q : Nat) : Nat := 0xe0014 + 0x20 * q
def QUE_ECC_CE (q : Nat) : FRef := ⟨QUE_ECC q, 0, 16⟩
def QUE_ECC_RESETS (q : Nat) : FRef := ⟨QUE_ECC q, 16, 16⟩
/-- QUE_CMD[q] (R335). -/
def QUE_CMD (q : Nat) : Nat := 0xe0018 + 0x20 * q
def QUE_CMD_RESET (q : Nat) : FRef := ⟨QUE_CMD q, 0, 1⟩
/-- QUE_PUSH[q] (R335). -/
def QUE_PUSH (q : Nat) : Nat := 0xe001c + 0x20 * q
def QUE_PUSH_ITEM (q : Nat) : FRef := ⟨QUE_PUSH q, 0, 32⟩
/-- QUE_GLB (R335). -/
def QUE_GLB : Nat := 0xe2000
def QUE_GLB_OPEN_TMO : FRef := ⟨QUE_GLB, 0, 8⟩
def QUE_GLB_RAW_REFUSED : FRef := ⟨QUE_GLB, 8, 8⟩
def QUE_GLB_STALL_MAX : FRef := ⟨QUE_GLB, 16, 16⟩
/-- QUE_FAULT (R335). -/
def QUE_FAULT : Nat := 0xe2004
def QUE_FAULT_QUEUE : FRef := ⟨QUE_FAULT, 0, 8⟩
def QUE_FAULT_CAUSE : FRef := ⟨QUE_FAULT, 8, 2⟩
def QUE_FAULT_VALID : FRef := ⟨QUE_FAULT, 31, 1⟩
/-- ARB_CFG[a] (R348). -/
def ARB_CFG (a : Nat) : Nat := 0xf0000 + 0x100 * a
def ARB_CFG_PREEMPT (a : Nat) : FRef := ⟨ARB_CFG a, 0, 1⟩
def ARB_CFG_QUOTA (a : Nat) : FRef := ⟨ARB_CFG a, 4, 5⟩
def ARB_CFG_QWIN (a : Nat) : FRef := ⟨ARB_CFG a, 9, 7⟩
def ARB_CFG_MAX_HOLD (a : Nat) : FRef := ⟨ARB_CFG a, 16, 8⟩
/-- ARB_STAT[a] (R348). -/
def ARB_STAT (a : Nat) : Nat := 0xf0004 + 0x100 * a
def ARB_STAT_DIFF (a : Nat) : FRef := ⟨ARB_STAT a, 0, 1⟩
def ARB_STAT_QUSED (a : Nat) : FRef := ⟨ARB_STAT a, 16, 7⟩
/-- ARB_CNT0[a] (R348). -/
def ARB_CNT0 (a : Nat) : Nat := 0xf0008 + 0x100 * a
def ARB_CNT0_PREEMPT (a : Nat) : FRef := ⟨ARB_CNT0 a, 0, 16⟩
def ARB_CNT0_OVERHOLD (a : Nat) : FRef := ⟨ARB_CNT0 a, 16, 16⟩
/-- ARB_CNT1[a] (R348). -/
def ARB_CNT1 (a : Nat) : Nat := 0xf000c + 0x100 * a
def ARB_CNT1_MASKED (a : Nat) : FRef := ⟨ARB_CNT1 a, 0, 16⟩
def ARB_CNT1_CEILING (a : Nat) : FRef := ⟨ARB_CNT1 a, 16, 16⟩
/-- ARB_OVH[a] (R348). -/
def ARB_OVH (a : Nat) : Nat := 0xf0010 + 0x100 * a
def ARB_OVH_SOURCE (a : Nat) : FRef := ⟨ARB_OVH a, 0, 5⟩
def ARB_OVH_CTX (a : Nat) : FRef := ⟨ARB_OVH a, 8, 8⟩
def ARB_OVH_LOCK (a : Nat) : FRef := ⟨ARB_OVH a, 16, 1⟩
def ARB_OVH_VALID (a : Nat) : FRef := ⟨ARB_OVH a, 31, 1⟩
/-- ARB_SRC[a][k] (R348). -/
def ARB_SRC (a : Nat) (k : Nat) : Nat := 0xf0040 + 0x100 * a + 0x4 * k
def ARB_SRC_CLASS (a : Nat) (k : Nat) : FRef := ⟨ARB_SRC a k, 0, 2⟩
def ARB_SRC_RANK (a : Nat) (k : Nat) : FRef := ⟨ARB_SRC a k, 4, 2⟩
/-- ARB_COMMIT (R349). -/
def ARB_COMMIT : Nat := 0xf1000
def ARB_COMMIT_INST : FRef := ⟨ARB_COMMIT, 0, 10⟩
/-- SPN_CTL (R375). -/
def SPN_CTL : Nat := 0x100000
def SPN_CTL_EN_S0 : FRef := ⟨SPN_CTL, 0, 1⟩
def SPN_CTL_EN_S1 : FRef := ⟨SPN_CTL, 1, 1⟩
def SPN_CTL_JRN_EN : FRef := ⟨SPN_CTL, 2, 1⟩
/-- SPN_STAT (R375). -/
def SPN_STAT : Nat := 0x100004
def SPN_STAT_PAIR : FRef := ⟨SPN_STAT, 0, 2⟩
def SPN_STAT_CAUSE : FRef := ⟨SPN_STAT, 2, 2⟩
def SPN_STAT_SIDE : FRef := ⟨SPN_STAT, 4, 1⟩
def SPN_STAT_MIRROR_PORT : FRef := ⟨SPN_STAT, 5, 1⟩
def SPN_STAT_PARTNER_EPOCH : FRef := ⟨SPN_STAT, 16, 16⟩
/-- SPN_PORT[p] (R375). -/
def SPN_PORT (p : Nat) : Nat := 0x100010 + 0x4 * p
def SPN_PORT_STATE (p : Nat) : FRef := ⟨SPN_PORT p, 0, 2⟩
def SPN_PORT_RESTART_PENDING (p : Nat) : FRef := ⟨SPN_PORT p, 2, 1⟩
def SPN_PORT_SILENT (p : Nat) : FRef := ⟨SPN_PORT p, 3, 1⟩
def SPN_PORT_GEN (p : Nat) : FRef := ⟨SPN_PORT p, 16, 16⟩
/-- SPN_LEASE (R375). -/
def SPN_LEASE : Nat := 0x100020
def SPN_LEASE_LEASE : FRef := ⟨SPN_LEASE, 0, 6⟩
def SPN_LEASE_SILENCE : FRef := ⟨SPN_LEASE, 8, 8⟩
/-- SPN_GRANT (R375). -/
def SPN_GRANT : Nat := 0x100024
def SPN_GRANT_PH : FRef := ⟨SPN_GRANT, 0, 8⟩
def SPN_GRANT_PD : FRef := ⟨SPN_GRANT, 8, 8⟩
def SPN_GRANT_NH : FRef := ⟨SPN_GRANT, 16, 7⟩
/-- SPN_CMD (R375). -/
def SPN_CMD : Nat := 0x100028
def SPN_CMD_HANDOVER : FRef := ⟨SPN_CMD, 0, 4⟩
/-- SPN_SEG[s] (R375). -/
def SPN_SEG (s : Nat) : Nat := 0x100040 + 0x4 * s
def SPN_SEG_HOME_SIDE (s : Nat) : FRef := ⟨SPN_SEG s, 0, 1⟩
def SPN_SEG_TAKE_EN (s : Nat) : FRef := ⟨SPN_SEG s, 1, 1⟩
def SPN_SEG_LSTATE (s : Nat) : FRef := ⟨SPN_SEG s, 8, 3⟩
def SPN_SEG_OPEN_TAIL (s : Nat) : FRef := ⟨SPN_SEG s, 11, 1⟩
def SPN_SEG_JRN_OPEN (s : Nat) : FRef := ⟨SPN_SEG s, 16, 9⟩
/-- SPN_LEFT[s] (R375). -/
def SPN_LEFT (s : Nat) : Nat := 0x100050 + 0x4 * s
def SPN_LEFT_LEFT (s : Nat) : FRef := ⟨SPN_LEFT s, 0, 16⟩
/-- SPN_CNT0 (R375). -/
def SPN_CNT0 : Nat := 0x100060
def SPN_CNT0_LOST : FRef := ⟨SPN_CNT0, 0, 16⟩
def SPN_CNT0_TAKEOVER : FRef := ⟨SPN_CNT0, 16, 16⟩
/-- SPN_CNT1 (R375). -/
def SPN_CNT1 : Nat := 0x100064
def SPN_CNT1_HB_MISS : FRef := ⟨SPN_CNT1, 0, 16⟩
def SPN_CNT1_HANDOVER : FRef := ⟨SPN_CNT1, 16, 16⟩
/-- SPN_CNT2 (R375). -/
def SPN_CNT2 : Nat := 0x100068
def SPN_CNT2_REISSUED : FRef := ⟨SPN_CNT2, 0, 16⟩
def SPN_CNT2_UNCERTAIN : FRef := ⟨SPN_CNT2, 16, 16⟩
/-- SPN_CNT3 (R375). -/
def SPN_CNT3 : Nat := 0x10006c
def SPN_CNT3_UN : FRef := ⟨SPN_CNT3, 0, 16⟩
def SPN_CNT3_JRN_WAIT : FRef := ⟨SPN_CNT3, 16, 16⟩
/-- OPC_CTL[k] (R404). -/
def OPC_CTL (k : Nat) : Nat := 0x110000 + 0x4000 * k
def OPC_CTL_EN (k : Nat) : FRef := ⟨OPC_CTL k, 0, 1⟩
def OPC_CTL_AUTO_RESUME (k : Nat) : FRef := ⟨OPC_CTL k, 1, 1⟩
/-- OPC_CFG[k] (R404). -/
def OPC_CFG (k : Nat) : Nat := 0x110004 + 0x4000 * k
def OPC_CFG_COUNT (k : Nat) : FRef := ⟨OPC_CFG k, 0, 4⟩
def OPC_CFG_REFRESH (k : Nat) : FRef := ⟨OPC_CFG k, 8, 8⟩
def OPC_CFG_OUT_TMO (k : Nat) : FRef := ⟨OPC_CFG k, 16, 8⟩
def OPC_CFG_MISS_MAX (k : Nat) : FRef := ⟨OPC_CFG k, 24, 8⟩
/-- OPC_IMG[k] (R404). -/
def OPC_IMG (k : Nat) : Nat := 0x110008 + 0x4000 * k
def OPC_IMG_IN (k : Nat) : FRef := ⟨OPC_IMG k, 0, 8⟩
def OPC_IMG_IN_EN (k : Nat) : FRef := ⟨OPC_IMG k, 8, 1⟩
def OPC_IMG_OUT (k : Nat) : FRef := ⟨OPC_IMG k, 16, 8⟩
def OPC_IMG_OUT_EN (k : Nat) : FRef := ⟨OPC_IMG k, 24, 1⟩
/-- OPC_EDGE[k] (R404). -/
def OPC_EDGE (k : Nat) : Nat := 0x11000c + 0x4000 * k
def OPC_EDGE_CTX (k : Nat) : FRef := ⟨OPC_EDGE k, 0, 8⟩
def OPC_EDGE_EN (k : Nat) : FRef := ⟨OPC_EDGE k, 8, 1⟩
/-- OPC_STAT[k] (R404). -/
def OPC_STAT (k : Nat) : Nat := 0x110010 + 0x4000 * k
def OPC_STAT_STATE (k : Nat) : FRef := ⟨OPC_STAT k, 0, 2⟩
def OPC_STAT_RESTART_PENDING (k : Nat) : FRef := ⟨OPC_STAT k, 2, 1⟩
def OPC_STAT_IMG_ERR (k : Nat) : FRef := ⟨OPC_STAT k, 3, 1⟩
def OPC_STAT_PRESENT (k : Nat) : FRef := ⟨OPC_STAT k, 8, 8⟩
def OPC_STAT_GEN (k : Nat) : FRef := ⟨OPC_STAT k, 16, 16⟩
/-- OPC_CMD[k] (R404). -/
def OPC_CMD (k : Nat) : Nat := 0x110014 + 0x4000 * k
def OPC_CMD_RESUME (k : Nat) : FRef := ⟨OPC_CMD k, 0, 8⟩
/-- OPC_OSTAT[k][o] (R404). -/
def OPC_OSTAT (k : Nat) (o : Nat) : Nat := 0x110020 + 0x4000 * k + 0x4 * o
def OPC_OSTAT_OSTAT (k : Nat) (o : Nat) : FRef := ⟨OPC_OSTAT k o, 0, 8⟩
def OPC_OSTAT_VF (k : Nat) (o : Nat) : FRef := ⟨OPC_OSTAT k o, 8, 8⟩
def OPC_OSTAT_AGE (k : Nat) (o : Nat) : FRef := ⟨OPC_OSTAT k o, 16, 8⟩
/-- OPC_OINFO0[k][o] (R404). -/
def OPC_OINFO0 (k : Nat) (o : Nat) : Nat := 0x110040 + 0x4000 * k + 0x8 * o
def OPC_OINFO0_ID (k : Nat) (o : Nat) : FRef := ⟨OPC_OINFO0 k o, 0, 16⟩
def OPC_OINFO0_DN_ERR (k : Nat) (o : Nat) : FRef := ⟨OPC_OINFO0 k o, 16, 16⟩
/-- OPC_OINFO1[k][o] (R404). -/
def OPC_OINFO1 (k : Nat) (o : Nat) : Nat := 0x110044 + 0x4000 * k + 0x8 * o
def OPC_OINFO1_EDGE_LOST (k : Nat) (o : Nat) : FRef := ⟨OPC_OINFO1 k o, 0, 16⟩
/-- OPC_CNT0[k] (R404). -/
def OPC_CNT0 (k : Nat) : Nat := 0x110080 + 0x4000 * k
def OPC_CNT0_REC_BAD (k : Nat) : FRef := ⟨OPC_CNT0 k, 0, 16⟩
def OPC_CNT0_FRAME_TMO (k : Nat) : FRef := ⟨OPC_CNT0 k, 16, 16⟩
/-- OPC_CNT1[k] (R404). -/
def OPC_CNT1 (k : Nat) : Nat := 0x110084 + 0x4000 * k
def OPC_CNT1_EDGES (k : Nat) : FRef := ⟨OPC_CNT1 k, 0, 16⟩
def OPC_CNT1_EDGE_LOSS (k : Nat) : FRef := ⟨OPC_CNT1 k, 16, 16⟩
/-- OPC_CNT2[k] (R404). -/
def OPC_CNT2 (k : Nat) : Nat := 0x110088 + 0x4000 * k
def OPC_CNT2_CFG_MISMATCH (k : Nat) : FRef := ⟨OPC_CNT2 k, 0, 16⟩
def OPC_CNT2_OUT_PARTIAL (k : Nat) : FRef := ⟨OPC_CNT2 k, 16, 16⟩
/-- OPC_CHA[k][o][c] (R404). -/
def OPC_CHA (k : Nat) (o : Nat) (c : Nat) : Nat := 0x110400 + 0x4000 * k + 0x80 * o + 0x8 * c
def OPC_CHA_DIR (k : Nat) (o : Nat) (c : Nat) : FRef := ⟨OPC_CHA k o c, 0, 1⟩
def OPC_CHA_SAFE (k : Nat) (o : Nat) (c : Nat) : FRef := ⟨OPC_CHA k o c, 1, 1⟩
def OPC_CHA_EDGE_EN (k : Nat) (o : Nat) (c : Nat) : FRef := ⟨OPC_CHA k o c, 2, 1⟩
def OPC_CHA_THRESH (k : Nat) (o : Nat) (c : Nat) : FRef := ⟨OPC_CHA k o c, 16, 8⟩
def OPC_CHA_HYST (k : Nat) (o : Nat) (c : Nat) : FRef := ⟨OPC_CHA k o c, 24, 8⟩
/-- OPC_CHB[k][o][c] (R404). -/
def OPC_CHB (k : Nat) (o : Nat) (c : Nat) : Nat := 0x110404 + 0x4000 * k + 0x80 * o + 0x8 * c
def OPC_CHB_STUCK (k : Nat) (o : Nat) (c : Nat) : FRef := ⟨OPC_CHB k o c, 0, 16⟩
def OPC_CHB_CHAT_MAX (k : Nat) (o : Nat) (c : Nat) : FRef := ⟨OPC_CHB k o c, 16, 8⟩
def OPC_CHB_CHAT_WIN (k : Nat) (o : Nat) (c : Nat) : FRef := ⟨OPC_CHB k o c, 24, 8⟩
/-- CTX_ERR_CTL[n] (R425). -/
def CTX_ERR_CTL (n : Nat) : Nat := 0xc0080 + 0x100 * n
def CTX_ERR_CTL_VALID (n : Nat) : FRef := ⟨CTX_ERR_CTL n, 0, 1⟩
def CTX_ERR_CTL_TARGET (n : Nat) : FRef := ⟨CTX_ERR_CTL n, 1, 3⟩
def CTX_ERR_CTL_POSTED (n : Nat) : FRef := ⟨CTX_ERR_CTL n, 4, 1⟩
def CTX_ERR_CTL_COURIER (n : Nat) : FRef := ⟨CTX_ERR_CTL n, 5, 1⟩
def CTX_ERR_CTL_COUNT (n : Nat) : FRef := ⟨CTX_ERR_CTL n, 16, 16⟩
/-- CTX_ERR_CAUSE[n] (R425). -/
def CTX_ERR_CAUSE (n : Nat) : Nat := 0xc0084 + 0x100 * n
def CTX_ERR_CAUSE_CAUSE (n : Nat) : FRef := ⟨CTX_ERR_CAUSE n, 0, 4⟩
def CTX_ERR_CAUSE_STATUS (n : Nat) : FRef := ⟨CTX_ERR_CAUSE n, 4, 4⟩
def CTX_ERR_CAUSE_WINDOW (n : Nat) : FRef := ⟨CTX_ERR_CAUSE n, 8, 6⟩
def CTX_ERR_CAUSE_CHANNEL (n : Nat) : FRef := ⟨CTX_ERR_CAUSE n, 14, 2⟩
def CTX_ERR_CAUSE_SEQ (n : Nat) : FRef := ⟨CTX_ERR_CAUSE n, 16, 16⟩
/-- CTX_ERR_ADDR0[n] (R425). -/
def CTX_ERR_ADDR0 (n : Nat) : Nat := 0xc0088 + 0x100 * n
def CTX_ERR_ADDR0_HOST_ADDR (n : Nat) : FRef := ⟨CTX_ERR_ADDR0 n, 0, 32⟩
/-- CTX_ERR_ADDR1[n] (R425). -/
def CTX_ERR_ADDR1 (n : Nat) : Nat := 0xc008c + 0x100 * n
def CTX_ERR_ADDR1_HOST_ADDR_HI (n : Nat) : FRef := ⟨CTX_ERR_ADDR1 n, 0, 8⟩
def CTX_ERR_ADDR1_CARD_ADDR (n : Nat) : FRef := ⟨CTX_ERR_ADDR1 n, 8, 24⟩
/-- CTX_ERR_TIME[n] (R425). -/
def CTX_ERR_TIME (n : Nat) : Nat := 0xc0090 + 0x100 * n
def CTX_ERR_TIME_TIME (n : Nat) : FRef := ⟨CTX_ERR_TIME n, 0, 32⟩
/-- CTX_ERR_FENCE[n] (R425). -/
def CTX_ERR_FENCE (n : Nat) : Nat := 0xc0094 + 0x100 * n
def CTX_ERR_FENCE_REASON (n : Nat) : FRef := ⟨CTX_ERR_FENCE n, 0, 2⟩
def CTX_ERR_FENCE_FENCE_ID (n : Nat) : FRef := ⟨CTX_ERR_FENCE n, 8, 8⟩
def CTX_ERR_FENCE_SEQ (n : Nat) : FRef := ⟨CTX_ERR_FENCE n, 16, 16⟩
/-- CTX_ERR_FTIME[n] (R425). -/
def CTX_ERR_FTIME (n : Nat) : Nat := 0xc0098 + 0x100 * n
def CTX_ERR_FTIME_TIME (n : Nat) : FRef := ⟨CTX_ERR_FTIME n, 0, 32⟩
/-- CTX_ERR_FCOPY[n] (R425). -/
def CTX_ERR_FCOPY (n : Nat) : Nat := 0xc009c + 0x100 * n
def CTX_ERR_FCOPY_PRESENT (n : Nat) : FRef := ⟨CTX_ERR_FCOPY n, 0, 3⟩
/-- CTX_ERR_DATA[n][c] (R425). -/
def CTX_ERR_DATA (n : Nat) (c : Nat) : Nat := 0xc00a0 + 0x100 * n + 0x8 * c
def CTX_ERR_DATA_DATA (n : Nat) (c : Nat) : FRef := ⟨CTX_ERR_DATA n c, 0, 32⟩
/-- CTX_ERR_DIG[n][c] (R425). -/
def CTX_ERR_DIG (n : Nat) (c : Nat) : Nat := 0xc00a4 + 0x100 * n + 0x8 * c
def CTX_ERR_DIG_DIG (n : Nat) (c : Nat) : FRef := ⟨CTX_ERR_DIG n c, 0, 32⟩
/-- CTX_ERR_CNT0[n] (R425). -/
def CTX_ERR_CNT0 (n : Nat) : Nat := 0xc00b8 + 0x100 * n
def CTX_ERR_CNT0_HOST_FAIL (n : Nat) : FRef := ⟨CTX_ERR_CNT0 n, 0, 16⟩
def CTX_ERR_CNT0_COURIER_FAIL (n : Nat) : FRef := ⟨CTX_ERR_CNT0 n, 16, 16⟩
/-- CTX_ERR_CNT1[n] (R425). -/
def CTX_ERR_CNT1 (n : Nat) : Nat := 0xc00bc + 0x100 * n
def CTX_ERR_CNT1_MODE (n : Nat) : FRef := ⟨CTX_ERR_CNT1 n, 0, 16⟩
def CTX_ERR_CNT1_FAILOVER (n : Nat) : FRef := ⟨CTX_ERR_CNT1 n, 16, 16⟩
/-- FLT_CFG (R428). -/
def FLT_CFG : Nat := 0x120000
def FLT_CFG_TEST_EN : FRef := ⟨FLT_CFG, 0, 1⟩
def FLT_CFG_REPEAT : FRef := ⟨FLT_CFG, 4, 4⟩
def FLT_CFG_WIN : FRef := ⟨FLT_CFG, 8, 8⟩
def FLT_CFG_LANE_MAX : FRef := ⟨FLT_CFG, 16, 8⟩
/-- FLT_STAT (R428). -/
def FLT_STAT : Nat := 0x120004
def FLT_STAT_QUEUED : FRef := ⟨FLT_STAT, 0, 6⟩
def FLT_STAT_ACTIVE : FRef := ⟨FLT_STAT, 8, 8⟩
/-- FLT_CNT0 (R428). -/
def FLT_CNT0 : Nat := 0x120008
def FLT_CNT0_TRANSIENT : FRef := ⟨FLT_CNT0, 0, 16⟩
def FLT_CNT0_LASTING : FRef := ⟨FLT_CNT0, 16, 16⟩
/-- FLT_CNT1 (R428). -/
def FLT_CNT1 : Nat := 0x12000c
def FLT_CNT1_UNTESTED : FRef := ⟨FLT_CNT1, 0, 16⟩
def FLT_CNT1_TESTS : FRef := ⟨FLT_CNT1, 16, 16⟩
/-- FLT_LANE (R428). -/
def FLT_LANE : Nat := 0x120010
def FLT_LANE_RETIRED : FRef := ⟨FLT_LANE, 0, 10⟩
/-- FLT_LOG_PTR (R428). -/
def FLT_LOG_PTR : Nat := 0x120014
def FLT_LOG_PTR_NEXT : FRef := ⟨FLT_LOG_PTR, 0, 4⟩
def FLT_LOG_PTR_TOTAL : FRef := ⟨FLT_LOG_PTR, 16, 16⟩
/-- FLT_SPARE[b] (R428). -/
def FLT_SPARE (b : Nat) : Nat := 0x120100 + 0x4 * b
def FLT_SPARE_USED (b : Nat) : FRef := ⟨FLT_SPARE b, 0, 4⟩
def FLT_SPARE_LASTING (b : Nat) : FRef := ⟨FLT_SPARE b, 4, 4⟩
def FLT_SPARE_WITHDRAWN (b : Nat) : FRef := ⟨FLT_SPARE b, 8, 4⟩
/-- FLT_QSPARE[k] (R428). -/
def FLT_QSPARE (k : Nat) : Nat := 0x120180 + 0x4 * k
def FLT_QSPARE_USED (k : Nat) : FRef := ⟨FLT_QSPARE k, 0, 4⟩
def FLT_QSPARE_LASTING (k : Nat) : FRef := ⟨FLT_QSPARE k, 4, 4⟩
def FLT_QSPARE_WITHDRAWN (k : Nat) : FRef := ⟨FLT_QSPARE k, 8, 4⟩
/-- FLT_LOG0[i] (R428). -/
def FLT_LOG0 (i : Nat) : Nat := 0x120200 + 0x10 * i
def FLT_LOG0_KIND (i : Nat) : FRef := ⟨FLT_LOG0 i, 0, 4⟩
def FLT_LOG0_RESULT (i : Nat) : FRef := ⟨FLT_LOG0 i, 4, 2⟩
def FLT_LOG0_UNIT (i : Nat) : FRef := ⟨FLT_LOG0 i, 8, 8⟩
def FLT_LOG0_INDEX (i : Nat) : FRef := ⟨FLT_LOG0 i, 16, 16⟩
/-- FLT_LOG1[i] (R428). -/
def FLT_LOG1 (i : Nat) : Nat := 0x120204 + 0x10 * i
def FLT_LOG1_DETAIL (i : Nat) : FRef := ⟨FLT_LOG1 i, 0, 32⟩
/-- FLT_LOG2[i] (R428). -/
def FLT_LOG2 (i : Nat) : Nat := 0x120208 + 0x10 * i
def FLT_LOG2_TIME (i : Nat) : FRef := ⟨FLT_LOG2 i, 0, 32⟩
/-- FLT_LOG3[i] (R428). -/
def FLT_LOG3 (i : Nat) : Nat := 0x12020c + 0x10 * i
def FLT_LOG3_REPEATS (i : Nat) : FRef := ⟨FLT_LOG3 i, 0, 8⟩
/-- EVT_CFG[e] (R429). -/
def EVT_CFG (e : Nat) : Nat := 0x30000 + 0x4 * e
def EVT_CFG_EN (e : Nat) : FRef := ⟨EVT_CFG e, 0, 1⟩
def EVT_CFG_HOST (e : Nat) : FRef := ⟨EVT_CFG e, 1, 1⟩
def EVT_CFG_ALERT (e : Nat) : FRef := ⟨EVT_CFG e, 2, 1⟩
def EVT_CFG_EQ (e : Nat) : FRef := ⟨EVT_CFG e, 4, 4⟩
def EVT_CFG_RATE (e : Nat) : FRef := ⟨EVT_CFG e, 8, 8⟩
/-- EVT_PEND[j] (R429). -/
def EVT_PEND (j : Nat) : Nat := 0x30800 + 0x4 * j
def EVT_PEND_PEND (j : Nat) : FRef := ⟨EVT_PEND j, 0, 32⟩
/-- EVT_STAT (R429). -/
def EVT_STAT : Nat := 0x30840
def EVT_STAT_FIRST : FRef := ⟨EVT_STAT, 0, 9⟩
def EVT_STAT_ALERT : FRef := ⟨EVT_STAT, 9, 1⟩
/-- EVT_CNT (R429). -/
def EVT_CNT : Nat := 0x30844
def EVT_CNT_RECORDS : FRef := ⟨EVT_CNT, 0, 16⟩
def EVT_CNT_MERGED : FRef := ⟨EVT_CNT, 16, 16⟩
/-- GLB_ID (R451). -/
def GLB_ID : Nat := 0x0
def GLB_ID_PART : FRef := ⟨GLB_ID, 0, 16⟩
def GLB_ID_STEP : FRef := ⟨GLB_ID, 16, 8⟩
def GLB_ID_FAMILY : FRef := ⟨GLB_ID, 24, 8⟩
/-- GLB_CAP (R451). -/
def GLB_CAP : Nat := 0x4
def GLB_CAP_COURIERS : FRef := ⟨GLB_CAP, 0, 5⟩
def GLB_CAP_SEGMENTS : FRef := ⟨GLB_CAP, 5, 3⟩
def GLB_CAP_SPAN : FRef := ⟨GLB_CAP, 8, 2⟩
def GLB_CAP_CHAINS : FRef := ⟨GLB_CAP, 10, 3⟩
def GLB_CAP_LEDGER : FRef := ⟨GLB_CAP, 16, 8⟩
def GLB_CAP_PTR_DUP : FRef := ⟨GLB_CAP, 24, 1⟩
/-- GLB_DIE0 (R451). -/
def GLB_DIE0 : Nat := 0x8
def GLB_DIE0_DIE_LO : FRef := ⟨GLB_DIE0, 0, 32⟩
/-- GLB_DIE1 (R451). -/
def GLB_DIE1 : Nat := 0xc
def GLB_DIE1_DIE_HI : FRef := ⟨GLB_DIE1, 0, 32⟩
/-- GLB_TIME_LO (R451). -/
def GLB_TIME_LO : Nat := 0x10
def GLB_TIME_LO_TIME : FRef := ⟨GLB_TIME_LO, 0, 32⟩
/-- GLB_TIME_HI (R451). -/
def GLB_TIME_HI : Nat := 0x14
def GLB_TIME_HI_TIME : FRef := ⟨GLB_TIME_HI, 0, 32⟩
/-- GLB_ACCEPT_LO (R451). -/
def GLB_ACCEPT_LO : Nat := 0x18
def GLB_ACCEPT_LO_COUNT : FRef := ⟨GLB_ACCEPT_LO, 0, 32⟩
/-- GLB_ACCEPT_HI (R451). -/
def GLB_ACCEPT_HI : Nat := 0x1c
def GLB_ACCEPT_HI_COUNT : FRef := ⟨GLB_ACCEPT_HI, 0, 32⟩
/-- GLB_STAT (R451). -/
def GLB_STAT : Nat := 0x20
def GLB_STAT_READY : FRef := ⟨GLB_STAT, 0, 1⟩
def GLB_STAT_SIDE : FRef := ⟨GLB_STAT, 1, 1⟩
/-- GLB_SWFLAG (R451). -/
def GLB_SWFLAG : Nat := 0x24
def GLB_SWFLAG_FLAGS : FRef := ⟨GLB_SWFLAG, 0, 16⟩
/-- GLB_SCRATCH (R451). -/
def GLB_SCRATCH : Nat := 0x28
def GLB_SCRATCH_DATA : FRef := ⟨GLB_SCRATCH, 0, 32⟩
/-- GLB_REG_ERR (R451). -/
def GLB_REG_ERR : Nat := 0x2c
def GLB_REG_ERR_CAUSE : FRef := ⟨GLB_REG_ERR, 0, 3⟩
def GLB_REG_ERR_WRITE : FRef := ⟨GLB_REG_ERR, 3, 1⟩
def GLB_REG_ERR_SIZE : FRef := ⟨GLB_REG_ERR, 4, 4⟩
def GLB_REG_ERR_CTX : FRef := ⟨GLB_REG_ERR, 8, 8⟩
def GLB_REG_ERR_VALID : FRef := ⟨GLB_REG_ERR, 31, 1⟩
/-- GLB_REG_ADDR (R451). -/
def GLB_REG_ADDR : Nat := 0x30
def GLB_REG_ADDR_ADDR : FRef := ⟨GLB_REG_ADDR, 0, 26⟩
/-- GLB_REG_CNT (R451). -/
def GLB_REG_CNT : Nat := 0x34
def GLB_REG_CNT_SIZE : FRef := ⟨GLB_REG_CNT, 0, 16⟩
def GLB_REG_CNT_OTHER : FRef := ⟨GLB_REG_CNT, 16, 16⟩
/-- CFG_UNLOCK (R452). -/
def CFG_UNLOCK : Nat := 0x20000
def CFG_UNLOCK_KEY : FRef := ⟨CFG_UNLOCK, 0, 32⟩
/-- CFG_COMMIT (R452). -/
def CFG_COMMIT : Nat := 0x20004
def CFG_COMMIT_COMMIT : FRef := ⟨CFG_COMMIT, 0, 1⟩
/-- CFG_CTL (R452). -/
def CFG_CTL : Nat := 0x20008
def CFG_CTL_ACTION : FRef := ⟨CFG_CTL, 0, 2⟩
def CFG_CTL_PERIOD : FRef := ⟨CFG_CTL, 8, 8⟩
def CFG_CTL_DIRTY_TMO : FRef := ⟨CFG_CTL, 16, 8⟩
/-- CFG_STAT (R452). -/
def CFG_STAT : Nat := 0x2000c
def CFG_STAT_MISMATCH : FRef := ⟨CFG_STAT, 0, 1⟩
def CFG_STAT_CAUSE : FRef := ⟨CFG_STAT, 1, 1⟩
def CFG_STAT_DIRTY : FRef := ⟨CFG_STAT, 2, 1⟩
def CFG_STAT_COMMIT_PEND : FRef := ⟨CFG_STAT, 3, 1⟩
def CFG_STAT_REF_VALID : FRef := ⟨CFG_STAT, 4, 1⟩
def CFG_STAT_SWEEPING : FRef := ⟨CFG_STAT, 5, 1⟩
def CFG_STAT_STARVED : FRef := ⟨CFG_STAT, 6, 1⟩
def CFG_STAT_UNLOCKED : FRef := ⟨CFG_STAT, 7, 1⟩
def CFG_STAT_UNLOCK_CTX : FRef := ⟨CFG_STAT, 8, 8⟩
/-- CFG_REF (R452). -/
def CFG_REF : Nat := 0x20010
def CFG_REF_CRC : FRef := ⟨CFG_REF, 0, 32⟩
/-- CFG_LAST (R452). -/
def CFG_LAST : Nat := 0x20014
def CFG_LAST_CRC : FRef := ⟨CFG_LAST, 0, 32⟩
/-- CFG_CNT0 (R452). -/
def CFG_CNT0 : Nat := 0x20018
def CFG_CNT0_SWEEPS : FRef := ⟨CFG_CNT0, 0, 16⟩
def CFG_CNT0_RESTARTS : FRef := ⟨CFG_CNT0, 16, 16⟩
/-- CFG_CNT1 (R452). -/
def CFG_CNT1 : Nat := 0x2001c
def CFG_CNT1_MISMATCH : FRef := ⟨CFG_CNT1, 0, 16⟩
def CFG_CNT1_GUARD_FAIL : FRef := ⟨CFG_CNT1, 16, 16⟩
/-- CFG_SWEEP_LEN (R452). -/
def CFG_SWEEP_LEN : Nat := 0x20020
def CFG_SWEEP_LEN_REGS : FRef := ⟨CFG_SWEEP_LEN, 0, 16⟩
/-- BOOT_STAT (R473). -/
def BOOT_STAT : Nat := 0x130000
def BOOT_STAT_PHASE : FRef := ⟨BOOT_STAT, 0, 3⟩
def BOOT_STAT_SLOT : FRef := ⟨BOOT_STAT, 3, 1⟩
def BOOT_STAT_TRIAL : FRef := ⟨BOOT_STAT, 4, 1⟩
def BOOT_STAT_BUSY : FRef := ⟨BOOT_STAT, 5, 1⟩
def BOOT_STAT_BOOTS_LEFT : FRef := ⟨BOOT_STAT, 8, 4⟩
def BOOT_STAT_REASON : FRef := ⟨BOOT_STAT, 16, 4⟩
def BOOT_STAT_LAST_RESULT : FRef := ⟨BOOT_STAT, 20, 4⟩
/-- BOOT_IMG (R473). -/
def BOOT_IMG : Nat := 0x130004
def BOOT_IMG_EPOCH : FRef := ⟨BOOT_IMG, 0, 16⟩
/-- BOOT_RANGE (R473). -/
def BOOT_RANGE : Nat := 0x130008
def BOOT_RANGE_LOW : FRef := ⟨BOOT_RANGE, 0, 16⟩
def BOOT_RANGE_HIGH : FRef := ⟨BOOT_RANGE, 16, 16⟩
/-- BOOT_SET (R473). -/
def BOOT_SET : Nat := 0x13000c
def BOOT_SET_SCHEMA : FRef := ⟨BOOT_SET, 0, 16⟩
def BOOT_SET_COPY : FRef := ⟨BOOT_SET, 16, 1⟩
/-- BOOT_SET_SEQ (R473). -/
def BOOT_SET_SEQ : Nat := 0x130010
def BOOT_SET_SEQ_SEQ : FRef := ⟨BOOT_SET_SEQ, 0, 32⟩
/-- BOOT_SLOT[x] (R473). -/
def BOOT_SLOT (x : Nat) : Nat := 0x130020 + 0x8 * x
def BOOT_SLOT_VALID (x : Nat) : FRef := ⟨BOOT_SLOT x, 0, 1⟩
def BOOT_SLOT_CONFIRMED (x : Nat) : FRef := ⟨BOOT_SLOT x, 1, 1⟩
def BOOT_SLOT_TRIAL_FAILED (x : Nat) : FRef := ⟨BOOT_SLOT x, 2, 1⟩
def BOOT_SLOT_EPOCH (x : Nat) : FRef := ⟨BOOT_SLOT x, 16, 16⟩
/-- BOOT_SLOTV[x] (R473). -/
def BOOT_SLOTV (x : Nat) : Nat := 0x130024 + 0x8 * x
def BOOT_SLOTV_VERSION (x : Nat) : FRef := ⟨BOOT_SLOTV x, 0, 32⟩
/-- BOOT_SRC (R473). -/
def BOOT_SRC : Nat := 0x130040
def BOOT_SRC_LBASE : FRef := ⟨BOOT_SRC, 12, 11⟩
/-- BOOT_DST (R473). -/
def BOOT_DST : Nat := 0x130044
def BOOT_DST_OFFSET : FRef := ⟨BOOT_DST, 12, 9⟩
/-- BOOT_LEN (R473). -/
def BOOT_LEN : Nat := 0x130048
def BOOT_LEN_UNITS : FRef := ⟨BOOT_LEN, 0, 4⟩
/-- BOOT_CMD (R473). -/
def BOOT_CMD : Nat := 0x13004c
def BOOT_CMD_OP : FRef := ⟨BOOT_CMD, 0, 4⟩
def BOOT_CMD_TARGET : FRef := ⟨BOOT_CMD, 4, 1⟩
def BOOT_CMD_FORCE : FRef := ⟨BOOT_CMD, 5, 1⟩
/-- BOOT_TRIAL_CFG (R473). -/
def BOOT_TRIAL_CFG : Nat := 0x130050
def BOOT_TRIAL_CFG_BOOTS : FRef := ⟨BOOT_TRIAL_CFG, 0, 4⟩
/-- BOOT_CONFIRM (R473). -/
def BOOT_CONFIRM : Nat := 0x130054
def BOOT_CONFIRM_CONFIRM : FRef := ⟨BOOT_CONFIRM, 0, 1⟩
/-- BOOT_FLASH (R473). -/
def BOOT_FLASH : Nat := 0x130058
def BOOT_FLASH_MODE : FRef := ⟨BOOT_FLASH, 0, 1⟩
def BOOT_FLASH_MHZ : FRef := ⟨BOOT_FLASH, 8, 8⟩
def BOOT_FLASH_ERRORS : FRef := ⟨BOOT_FLASH, 16, 16⟩
/-- BOOT_CNT (R473). -/
def BOOT_CNT : Nat := 0x13005c
def BOOT_CNT_STARTS : FRef := ⟨BOOT_CNT, 0, 16⟩
def BOOT_CNT_FALLBACKS : FRef := ⟨BOOT_CNT, 16, 16⟩
/-- BOOT_CNT1 (R473). -/
def BOOT_CNT1 : Nat := 0x130060
def BOOT_CNT1_CMD_DROP : FRef := ⟨BOOT_CNT1, 0, 16⟩
/-- SEC_LC (R487). -/
def SEC_LC : Nat := 0x140000
def SEC_LC_STATE : FRef := ⟨SEC_LC, 0, 2⟩
def SEC_LC_PENDING : FRef := ⟨SEC_LC, 2, 1⟩
def SEC_LC_KEY_HASH : FRef := ⟨SEC_LC, 3, 1⟩
def SEC_LC_DBG_HASH : FRef := ⟨SEC_LC, 4, 1⟩
def SEC_LC_VAULT_LOADED : FRef := ⟨SEC_LC, 5, 1⟩
/-- SEC_LC_CMD (R487). -/
def SEC_LC_CMD : Nat := 0x140004
def SEC_LC_CMD_TO : FRef := ⟨SEC_LC_CMD, 0, 2⟩
/-- SEC_FUSE_DATA[i] (R487). -/
def SEC_FUSE_DATA (i : Nat) : Nat := 0x140040 + 0x4 * i
def SEC_FUSE_DATA_DATA (i : Nat) : FRef := ⟨SEC_FUSE_DATA i, 0, 32⟩
/-- SEC_FUSE_CMD (R487). -/
def SEC_FUSE_CMD : Nat := 0x140070
def SEC_FUSE_CMD_KEY_HASH : FRef := ⟨SEC_FUSE_CMD, 0, 1⟩
def SEC_FUSE_CMD_DBG_HASH : FRef := ⟨SEC_FUSE_CMD, 1, 1⟩
/-- SEC_VAULT_KEY[i] (R487). -/
def SEC_VAULT_KEY (i : Nat) : Nat := 0x140080 + 0x4 * i
def SEC_VAULT_KEY_KEY (i : Nat) : FRef := ⟨SEC_VAULT_KEY i, 0, 32⟩
/-- SEC_VAULT_CMD (R487). -/
def SEC_VAULT_CMD : Nat := 0x1400a0
def SEC_VAULT_CMD_LOAD : FRef := ⟨SEC_VAULT_CMD, 0, 1⟩
/-- SEC_GLITCH (R487). -/
def SEC_GLITCH : Nat := 0x140100
def SEC_GLITCH_VOLT : FRef := ⟨SEC_GLITCH, 0, 1⟩
def SEC_GLITCH_CLOCK : FRef := ⟨SEC_GLITCH, 1, 1⟩
def SEC_GLITCH_TEMP : FRef := ⟨SEC_GLITCH, 2, 1⟩
def SEC_GLITCH_COUNT : FRef := ⟨SEC_GLITCH, 16, 16⟩
/-- SEC_DBG (R487). -/
def SEC_DBG : Nat := 0x140104
def SEC_DBG_UNLOCKED : FRef := ⟨SEC_DBG, 0, 1⟩
def SEC_DBG_AUTH_FAIL : FRef := ⟨SEC_DBG, 16, 16⟩
/-- DBG_FRZ (R488). -/
def DBG_FRZ : Nat := 0x150000
def DBG_FRZ_PIN : FRef := ⟨DBG_FRZ, 0, 1⟩
/-- DBG_TRC_CTL (R488). -/
def DBG_TRC_CTL : Nat := 0x150010
def DBG_TRC_CTL_EN : FRef := ⟨DBG_TRC_CTL, 0, 1⟩
def DBG_TRC_CTL_STOP : FRef := ⟨DBG_TRC_CTL, 1, 1⟩
def DBG_TRC_CTL_KINDS : FRef := ⟨DBG_TRC_CTL, 2, 7⟩
def DBG_TRC_CTL_TRIG_EVT : FRef := ⟨DBG_TRC_CTL, 16, 8⟩
def DBG_TRC_CTL_TRIG_EN : FRef := ⟨DBG_TRC_CTL, 24, 1⟩
/-- DBG_TRC_TRIG (R488). -/
def DBG_TRC_TRIG : Nat := 0x150014
def DBG_TRC_TRIG_POST : FRef := ⟨DBG_TRC_TRIG, 0, 13⟩
/-- DBG_TRC_STAT (R488). -/
def DBG_TRC_STAT : Nat := 0x150018
def DBG_TRC_STAT_NEXT : FRef := ⟨DBG_TRC_STAT, 0, 13⟩
def DBG_TRC_STAT_WRAPPED : FRef := ⟨DBG_TRC_STAT, 13, 1⟩
def DBG_TRC_STAT_STOPPED : FRef := ⟨DBG_TRC_STAT, 14, 1⟩
def DBG_TRC_STAT_DROPPED : FRef := ⟨DBG_TRC_STAT, 16, 16⟩
/-- DBG_TRC_IDX (R488). -/
def DBG_TRC_IDX : Nat := 0x150020
def DBG_TRC_IDX_INDEX : FRef := ⟨DBG_TRC_IDX, 0, 13⟩
/-- DBG_HIST_PTR (R488). -/
def DBG_HIST_PTR : Nat := 0x150024
def DBG_HIST_PTR_NEXT : FRef := ⟨DBG_HIST_PTR, 0, 7⟩
/-- DBG_TRC_DATA[w] (R488). -/
def DBG_TRC_DATA (w : Nat) : Nat := 0x150040 + 0x4 * w
def DBG_TRC_DATA_WORD (w : Nat) : FRef := ⟨DBG_TRC_DATA w, 0, 32⟩
/-- CRP_STAT (R503). -/
def CRP_STAT : Nat := 0x10000
def CRP_STAT_PLL_LOCK : FRef := ⟨CRP_STAT, 0, 1⟩
def CRP_STAT_TB_LOCKED : FRef := ⟨CRP_STAT, 1, 1⟩
def CRP_STAT_PWR_OK : FRef := ⟨CRP_STAT, 2, 1⟩
/-- CRP_REF (R503). -/
def CRP_REF : Nat := 0x10004
def CRP_REF_SSC : FRef := ⟨CRP_REF, 0, 1⟩
/-- CRP_PLL (R503). -/
def CRP_PLL : Nat := 0x10008
def CRP_PLL_WARN : FRef := ⟨CRP_PLL, 0, 8⟩
def CRP_PLL_WARN_CNT : FRef := ⟨CRP_PLL, 16, 16⟩
/-- CRP_RST_CAUSE (R503). -/
def CRP_RST_CAUSE : Nat := 0x10010
def CRP_RST_CAUSE_CAUSE : FRef := ⟨CRP_RST_CAUSE, 0, 3⟩
def CRP_RST_CAUSE_COUNT : FRef := ⟨CRP_RST_CAUSE, 16, 16⟩
/-- CRP_RST_HIST (R503). -/
def CRP_RST_HIST : Nat := 0x10014
def CRP_RST_HIST_HIST : FRef := ⟨CRP_RST_HIST, 0, 7⟩
/-- CRP_TB_CTL (R503). -/
def CRP_TB_CTL : Nat := 0x10020
def CRP_TB_CTL_SRC : FRef := ⟨CRP_TB_CTL, 0, 2⟩
/-- CRP_TSYNC (R503). -/
def CRP_TSYNC : Nat := 0x10024
def CRP_TSYNC_PERIOD : FRef := ⟨CRP_TSYNC, 0, 10⟩
/-- CRP_TB_TH (R503). -/
def CRP_TB_TH : Nat := 0x10028
def CRP_TB_TH_STEP_TH : FRef := ⟨CRP_TB_TH, 0, 10⟩
def CRP_TB_TH_PEER_TH : FRef := ⟨CRP_TB_TH, 16, 10⟩
/-- CRP_TB_PEER (R503). -/
def CRP_TB_PEER : Nat := 0x1002c
def CRP_TB_PEER_DLY : FRef := ⟨CRP_TB_PEER, 0, 16⟩
/-- CRP_TB_SET_LO (R503). -/
def CRP_TB_SET_LO : Nat := 0x10030
def CRP_TB_SET_LO_VALUE : FRef := ⟨CRP_TB_SET_LO, 0, 32⟩
/-- CRP_TB_SET_HI (R503). -/
def CRP_TB_SET_HI : Nat := 0x10034
def CRP_TB_SET_HI_VALUE : FRef := ⟨CRP_TB_SET_HI, 0, 32⟩
/-- CRP_TB_CMD (R503). -/
def CRP_TB_CMD : Nat := 0x10038
def CRP_TB_CMD_SET : FRef := ⟨CRP_TB_CMD, 0, 1⟩
def CRP_TB_CMD_SET_NOW : FRef := ⟨CRP_TB_CMD, 1, 1⟩
/-- CRP_TB_RATE (R503). -/
def CRP_TB_RATE : Nat := 0x10040
def CRP_TB_RATE_RATE : FRef := ⟨CRP_TB_RATE, 0, 21⟩
/-- CRP_TB_ERR (R503). -/
def CRP_TB_ERR : Nat := 0x10044
def CRP_TB_ERR_ERR : FRef := ⟨CRP_TB_ERR, 0, 32⟩
/-- CRP_TB_OFS (R503). -/
def CRP_TB_OFS : Nat := 0x10048
def CRP_TB_OFS_OFS : FRef := ⟨CRP_TB_OFS, 0, 32⟩
/-- CRP_TB_CNT (R503). -/
def CRP_TB_CNT : Nat := 0x1004c
def CRP_TB_CNT_STEPS : FRef := ⟨CRP_TB_CNT, 0, 16⟩
def CRP_TB_CNT_TSYNC_MISS : FRef := ⟨CRP_TB_CNT, 16, 16⟩
/-- CRP_SUP (R503). -/
def CRP_SUP : Nat := 0x10060
def CRP_SUP_IN_RANGE : FRef := ⟨CRP_SUP, 0, 10⟩
/-- CRP_SUP_LOW (R503). -/
def CRP_SUP_LOW : Nat := 0x10064
def CRP_SUP_LOW_LOW : FRef := ⟨CRP_SUP_LOW, 0, 10⟩
/-- CRP_GATE (R503). -/
def CRP_GATE : Nat := 0x10070
def CRP_GATE_COURIER : FRef := ⟨CRP_GATE, 0, 16⟩

/-- The registers of block GLB (R447). -/
def regsGlb0 : List RRow :=
  [⟨0x0, [], false, [⟨0, 16, .ro, 0, false, false, 0, 65535⟩, ⟨16, 8, .ro, 1, false, false, 0, 255⟩, ⟨24, 8, .ro, 85, false, false, 0, 255⟩]⟩,
   ⟨0x4, [], false, [⟨0, 5, .ro, 0, false, false, 0, 31⟩, ⟨5, 3, .ro, 0, false, false, 0, 7⟩, ⟨8, 2, .ro, 0, false, false, 0, 3⟩, ⟨10, 3, .ro, 0, false, false, 0, 7⟩, ⟨16, 8, .ro, 0, false, false, 0, 255⟩, ⟨24, 1, .ro, 0, false, false, 0, 1⟩]⟩,
   ⟨0x8, [], false, [⟨0, 32, .ro, 0, false, false, 0, 4294967295⟩]⟩,
   ⟨0xc, [], false, [⟨0, 32, .ro, 0, false, false, 0, 4294967295⟩]⟩,
   ⟨0x10, [], false, [⟨0, 32, .ro, 0, false, false, 0, 4294967295⟩]⟩,
   ⟨0x14, [], false, [⟨0, 32, .ro, 0, false, false, 0, 4294967295⟩]⟩,
   ⟨0x18, [], false, [⟨0, 32, .ro, 0, false, false, 0, 4294967295⟩]⟩,
   ⟨0x1c, [], false, [⟨0, 32, .ro, 0, false, false, 0, 4294967295⟩]⟩,
   ⟨0x20, [], false, [⟨0, 1, .ro, 0, false, false, 0, 1⟩, ⟨1, 1, .ro, 0, false, false, 0, 1⟩]⟩,
   ⟨0x24, [], false, [⟨0, 16, .rwm, 0, false, false, 0, 65535⟩]⟩,
   ⟨0x28, [], false, [⟨0, 32, .rw, 0, false, false, 0, 4294967295⟩]⟩,
   ⟨0x2c, [], false, [⟨0, 3, .ro, 0, false, false, 0, 7⟩, ⟨3, 1, .ro, 0, false, false, 0, 1⟩, ⟨4, 4, .ro, 0, false, false, 0, 15⟩, ⟨8, 8, .ro, 0, false, false, 0, 255⟩, ⟨31, 1, .w1c, 0, false, false, 0, 1⟩]⟩]
def regsGlb1 : List RRow :=
  [⟨0x30, [], false, [⟨0, 26, .ro, 0, false, false, 0, 67108863⟩]⟩,
   ⟨0x34, [], false, [⟨0, 16, .rc, 0, false, false, 0, 65535⟩, ⟨16, 16, .rc, 0, false, false, 0, 65535⟩]⟩]
@[inherit_doc regsGlb0] def regsGlb : List RRow := regsGlb0 ++ regsGlb1

/-- The registers of block CRP (R447). -/
def regsCrp0 : List RRow :=
  [⟨0x10000, [], false, [⟨0, 1, .ro, 0, false, false, 0, 1⟩, ⟨1, 1, .ro, 0, false, false, 0, 1⟩, ⟨2, 1, .ro, 0, false, false, 0, 1⟩]⟩,
   ⟨0x10004, [], false, [⟨0, 1, .rw, 0, true, true, 0, 1⟩]⟩,
   ⟨0x10008, [], false, [⟨0, 8, .rw, 20, true, true, 5, 255⟩, ⟨16, 16, .rc, 0, false, false, 0, 65535⟩]⟩,
   ⟨0x10010, [], true, [⟨0, 3, .ro, 0, false, false, 0, 7⟩, ⟨16, 16, .ro, 0, false, false, 0, 65535⟩]⟩,
   ⟨0x10014, [], true, [⟨0, 7, .w1c, 0, false, false, 0, 127⟩]⟩,
   ⟨0x10020, [], false, [⟨0, 2, .rw, 0, true, true, 0, 3⟩]⟩,
   ⟨0x10024, [], false, [⟨0, 10, .rw, 1000, true, true, 1, 1000⟩]⟩,
   ⟨0x10028, [], false, [⟨0, 10, .rw, 100, true, true, 1, 1000⟩, ⟨16, 10, .rw, 2, true, true, 1, 1000⟩]⟩,
   ⟨0x1002c, [], false, [⟨0, 16, .rw, 150, true, true, 0, 65535⟩]⟩,
   ⟨0x10030, [], false, [⟨0, 32, .rw, 0, false, false, 0, 4294967295⟩]⟩,
   ⟨0x10034, [], false, [⟨0, 32, .rw, 0, false, false, 0, 4294967295⟩]⟩,
   ⟨0x10038, [], false, [⟨0, 1, .w1s, 0, true, false, 0, 1⟩, ⟨1, 1, .w1s, 0, true, false, 0, 1⟩]⟩]
def regsCrp1 : List RRow :=
  [⟨0x10040, [], false, [⟨0, 21, .ro, 0, false, false, 0, 2097151⟩]⟩,
   ⟨0x10044, [], false, [⟨0, 32, .ro, 0, false, false, 0, 4294967295⟩]⟩,
   ⟨0x10048, [], false, [⟨0, 32, .ro, 0, false, false, 0, 4294967295⟩]⟩,
   ⟨0x1004c, [], false, [⟨0, 16, .rc, 0, false, false, 0, 65535⟩, ⟨16, 16, .rc, 0, false, false, 0, 65535⟩]⟩,
   ⟨0x10060, [], true, [⟨0, 10, .ro, 0, false, false, 0, 1023⟩]⟩,
   ⟨0x10064, [], true, [⟨0, 10, .w1c, 0, false, false, 0, 1023⟩]⟩,
   ⟨0x10070, [], false, [⟨0, 16, .ro, 0, false, false, 0, 65535⟩]⟩]
@[inherit_doc regsCrp0] def regsCrp : List RRow := regsCrp0 ++ regsCrp1

/-- The registers of block CFG (R447). -/
def regsCfg : List RRow :=
  [⟨0x20000, [], false, [⟨0, 32, .wo, 0, false, false, 0, 4294967295⟩]⟩,
   ⟨0x20004, [], false, [⟨0, 1, .w1s, 0, false, false, 0, 1⟩]⟩,
   ⟨0x20008, [], false, [⟨0, 2, .rw, 0, true, true, 0, 3⟩, ⟨8, 8, .rw, 10, true, true, 10, 255⟩, ⟨16, 8, .rw, 0, true, true, 0, 255⟩]⟩,
   ⟨0x2000c, [], false, [⟨0, 1, .w1c, 0, false, false, 0, 1⟩, ⟨1, 1, .ro, 0, false, false, 0, 1⟩, ⟨2, 1, .ro, 0, false, false, 0, 1⟩, ⟨3, 1, .ro, 0, false, false, 0, 1⟩, ⟨4, 1, .ro, 0, false, false, 0, 1⟩, ⟨5, 1, .ro, 0, false, false, 0, 1⟩, ⟨6, 1, .ro, 0, false, false, 0, 1⟩, ⟨7, 1, .ro, 0, false, false, 0, 1⟩, ⟨8, 8, .ro, 0, false, false, 0, 255⟩]⟩,
   ⟨0x20010, [], false, [⟨0, 32, .ro, 0, false, false, 0, 4294967295⟩]⟩,
   ⟨0x20014, [], false, [⟨0, 32, .ro, 0, false, false, 0, 4294967295⟩]⟩,
   ⟨0x20018, [], false, [⟨0, 16, .rc, 0, false, false, 0, 65535⟩, ⟨16, 16, .rc, 0, false, false, 0, 65535⟩]⟩,
   ⟨0x2001c, [], false, [⟨0, 16, .rc, 0, false, false, 0, 65535⟩, ⟨16, 16, .rc, 0, false, false, 0, 65535⟩]⟩,
   ⟨0x20020, [], false, [⟨0, 16, .ro, 0, false, false, 0, 65535⟩]⟩]

/-- The registers of block EVT (R447). -/
def regsEvt : List RRow :=
  [⟨0x30000, [(512, 0x4)], false, [⟨0, 1, .rw, 1, true, true, 0, 1⟩, ⟨1, 1, .rw, 1, true, true, 0, 1⟩, ⟨2, 1, .rw, 0, true, true, 0, 1⟩, ⟨4, 4, .rw, 0, true, true, 0, 15⟩, ⟨8, 8, .rw, 0, true, true, 0, 255⟩]⟩,
   ⟨0x30800, [(16, 0x4)], false, [⟨0, 32, .w1c, 0, false, false, 0, 4294967295⟩]⟩,
   ⟨0x30840, [], false, [⟨0, 9, .ro, 0, false, false, 0, 511⟩, ⟨9, 1, .ro, 0, false, false, 0, 1⟩]⟩,
   ⟨0x30844, [], false, [⟨0, 16, .rc, 0, false, false, 0, 65535⟩, ⟨16, 16, .rc, 0, false, false, 0, 65535⟩]⟩]

/-- The registers of block HP (R447). -/
def regsHp : List RRow :=
  [⟨0x40000, [(3, 0x4000)], false, [⟨0, 1, .rw, 0, false, true, 0, 1⟩, ⟨1, 1, .rw, 1, false, true, 0, 1⟩]⟩,
   ⟨0x40004, [(3, 0x4000)], false, [⟨0, 2, .ro, 0, false, false, 0, 3⟩, ⟨2, 1, .ro, 0, false, false, 0, 1⟩, ⟨3, 1, .ro, 0, false, false, 0, 1⟩, ⟨16, 16, .ro, 0, false, false, 0, 65535⟩]⟩,
   ⟨0x40008, [(3, 0x4000)], false, [⟨0, 8, .rw, 64, true, true, 8, 64⟩, ⟨8, 8, .rw, 128, true, true, 8, 128⟩, ⟨16, 9, .rw, 256, true, true, 1, 256⟩]⟩,
   ⟨0x4000c, [(3, 0x4000)], false, [⟨0, 12, .ro, 0, false, false, 0, 4095⟩, ⟨12, 12, .ro, 0, false, false, 0, 4095⟩]⟩,
   ⟨0x40010, [(3, 0x4000)], false, [⟨0, 9, .ro, 0, false, false, 0, 511⟩]⟩,
   ⟨0x40014, [(3, 0x4000)], false, [⟨0, 16, .rc, 0, false, false, 0, 65535⟩]⟩,
   ⟨0x40018, [(3, 0x4000)], false, [⟨0, 16, .rc, 0, false, false, 0, 65535⟩]⟩,
   ⟨0x40020, [(3, 0x4000), (4, 0x4)], false, [⟨0, 32, .ro, 0, false, false, 0, 4294967295⟩]⟩,
   ⟨0x40030, [(3, 0x4000)], false, [⟨0, 5, .ro, 0, false, false, 0, 31⟩, ⟨31, 1, .w1c, 0, false, false, 0, 1⟩]⟩]

/-- The registers of block LN (R447). -/
def regsLn0 : List RRow :=
  [⟨0x50000, [(10, 0x400)], false, [⟨0, 2, .rw, 0, true, true, 0, 3⟩, ⟨2, 1, .rw, 0, true, true, 0, 1⟩, ⟨3, 1, .rw, 0, true, true, 0, 1⟩, ⟨4, 1, .rw, 0, true, true, 0, 1⟩]⟩,
   ⟨0x50004, [(10, 0x400)], false, [⟨0, 1, .ro, 1, false, false, 0, 1⟩, ⟨1, 1, .ro, 1, false, false, 0, 1⟩, ⟨2, 1, .ro, 0, false, false, 0, 1⟩, ⟨3, 1, .ro, 0, false, false, 0, 1⟩, ⟨4, 1, .ro, 0, false, false, 0, 1⟩, ⟨5, 1, .ro, 0, false, false, 0, 1⟩]⟩,
   ⟨0x50008, [(10, 0x400)], false, [⟨0, 4, .ro, 8, false, false, 0, 15⟩, ⟨4, 4, .rw, 8, true, true, 0, 15⟩, ⟨8, 1, .rw, 0, true, true, 0, 1⟩, ⟨16, 4, .ro, 0, false, false, 0, 15⟩, ⟨20, 4, .ro, 0, false, false, 0, 15⟩]⟩,
   ⟨0x5000c, [(10, 0x400)], false, [⟨0, 3, .rw, 3, false, true, 0, 7⟩, ⟨8, 8, .rw, 48, false, true, 8, 255⟩]⟩,
   ⟨0x50010, [(10, 0x400)], false, [⟨0, 1, .wo, 0, false, false, 0, 1⟩, ⟨8, 4, .ro, 0, false, false, 0, 15⟩, ⟨16, 5, .ro, 0, false, false, 0, 31⟩]⟩,
   ⟨0x50014, [(10, 0x400)], false, [⟨0, 2, .rw, 2, false, true, 0, 3⟩, ⟨2, 1, .rw, 0, false, false, 0, 1⟩, ⟨3, 1, .rw, 0, false, false, 0, 1⟩, ⟨4, 1, .ro, 0, false, false, 0, 1⟩, ⟨5, 1, .wo, 0, false, false, 0, 1⟩]⟩,
   ⟨0x50018, [(10, 0x400)], false, [⟨0, 32, .rc, 0, false, false, 0, 4294967295⟩]⟩,
   ⟨0x5001c, [(10, 0x400)], false, [⟨0, 32, .rc, 0, false, false, 0, 4294967295⟩]⟩,
   ⟨0x50020, [(10, 0x400)], false, [⟨0, 1, .wo, 0, false, false, 0, 1⟩, ⟨1, 1, .wo, 0, false, false, 0, 1⟩, ⟨8, 8, .rw, 1, false, false, 1, 255⟩]⟩,
   ⟨0x54000, [(5, 0x100)], false, [⟨0, 10, .rw, 64, true, true, 16, 1000⟩, ⟨12, 4, .rw, 4, true, true, 1, 15⟩]⟩,
   ⟨0x54004, [(5, 0x100)], false, [⟨0, 4, .ro, 0, false, false, 0, 15⟩, ⟨4, 4, .ro, 0, false, false, 0, 15⟩, ⟨8, 1, .ro, 0, false, false, 0, 1⟩, ⟨9, 1, .ro, 0, false, false, 0, 1⟩, ⟨10, 1, .ro, 0, false, false, 0, 1⟩, ⟨11, 2, .ro, 0, false, false, 0, 3⟩, ⟨13, 1, .ro, 0, false, false, 0, 1⟩]⟩,
   ⟨0x54008, [(5, 0x100)], false, [⟨0, 8, .ro, 0, false, false, 0, 255⟩, ⟨8, 8, .ro, 255, false, false, 0, 255⟩, ⟨16, 8, .ro, 255, false, false, 0, 255⟩, ⟨24, 7, .ro, 0, false, false, 0, 127⟩]⟩]
def regsLn1 : List RRow :=
  [⟨0x5400c, [(5, 0x100)], false, [⟨0, 16, .rc, 0, false, false, 0, 65535⟩, ⟨16, 16, .rc, 0, false, false, 0, 65535⟩]⟩,
   ⟨0x54010, [(5, 0x100)], false, [⟨0, 16, .rc, 0, false, false, 0, 65535⟩, ⟨16, 16, .rc, 0, false, false, 0, 65535⟩]⟩,
   ⟨0x54014, [(5, 0x100)], false, [⟨0, 1, .w1s, 0, false, false, 0, 1⟩, ⟨1, 1, .w1s, 0, false, false, 0, 1⟩, ⟨2, 1, .w1s, 0, false, false, 0, 1⟩]⟩]
@[inherit_doc regsLn0] def regsLn : List RRow := regsLn0 ++ regsLn1

/-- The registers of block ACC (R447). -/
def regsAcc0 : List RRow :=
  [⟨0x60000, [], false, [⟨0, 8, .rw, 32, true, true, 1, 255⟩, ⟨8, 10, .rw, 100, true, true, 1, 1000⟩, ⟨24, 1, .rw, 1, true, true, 0, 1⟩]⟩,
   ⟨0x60004, [], false, [⟨0, 1, .ro, 0, false, false, 0, 1⟩, ⟨1, 1, .ro, 0, false, false, 0, 1⟩, ⟨2, 1, .ro, 0, false, false, 0, 1⟩, ⟨3, 1, .ro, 0, false, false, 0, 1⟩]⟩,
   ⟨0x60010, [(3, 0x4)], false, [⟨0, 1, .rw, 0, true, true, 0, 1⟩]⟩,
   ⟨0x60020, [(3, 0x4)], false, [⟨0, 1, .w1s, 0, false, false, 0, 1⟩, ⟨1, 1, .w1s, 0, false, false, 0, 1⟩]⟩,
   ⟨0x60030, [(3, 0x4)], false, [⟨0, 2, .ro, 2, false, false, 0, 3⟩, ⟨2, 2, .ro, 0, false, false, 0, 3⟩, ⟨8, 9, .ro, 0, false, false, 0, 511⟩, ⟨24, 8, .ro, 0, false, false, 0, 255⟩]⟩,
   ⟨0x60040, [], false, [⟨0, 12, .ro, 0, false, false, 0, 4095⟩, ⟨16, 12, .ro, 0, false, false, 0, 4095⟩, ⟨31, 1, .w1s, 0, false, false, 0, 1⟩]⟩,
   ⟨0x60044, [], false, [⟨0, 16, .rc, 0, false, false, 0, 65535⟩, ⟨16, 16, .rc, 0, false, false, 0, 65535⟩]⟩,
   ⟨0x60048, [], false, [⟨0, 16, .rc, 0, false, false, 0, 65535⟩, ⟨16, 16, .rc, 0, false, false, 0, 65535⟩]⟩,
   ⟨0x6004c, [], false, [⟨0, 16, .rc, 0, false, false, 0, 65535⟩, ⟨16, 16, .rc, 0, false, false, 0, 65535⟩]⟩,
   ⟨0x60100, [(3, 0x20)], false, [⟨0, 16, .rc, 0, false, false, 0, 65535⟩, ⟨16, 16, .rc, 0, false, false, 0, 65535⟩]⟩,
   ⟨0x60104, [(3, 0x20)], false, [⟨0, 16, .rc, 0, false, false, 0, 65535⟩, ⟨16, 16, .rc, 0, false, false, 0, 65535⟩]⟩,
   ⟨0x60108, [(3, 0x20)], false, [⟨0, 16, .rc, 0, false, false, 0, 65535⟩, ⟨16, 16, .rc, 0, false, false, 0, 65535⟩]⟩]
def regsAcc1 : List RRow :=
  [⟨0x6010c, [(3, 0x20)], false, [⟨0, 16, .rc, 0, false, false, 0, 65535⟩, ⟨16, 16, .rc, 0, false, false, 0, 65535⟩]⟩,
   ⟨0x60110, [(3, 0x20)], false, [⟨0, 16, .rc, 0, false, false, 0, 65535⟩, ⟨16, 16, .rc, 0, false, false, 0, 65535⟩]⟩,
   ⟨0x60114, [(3, 0x20)], false, [⟨0, 16, .rc, 0, false, false, 0, 65535⟩]⟩,
   ⟨0x60200, [], false, [⟨0, 3, .ro, 0, false, false, 0, 7⟩, ⟨3, 2, .ro, 0, false, false, 0, 3⟩, ⟨31, 1, .w1c, 0, false, false, 0, 1⟩]⟩,
   ⟨0x60204, [], false, [⟨0, 16, .ro, 0, false, false, 0, 65535⟩, ⟨16, 8, .ro, 0, false, false, 0, 255⟩]⟩,
   ⟨0x60210, [(4, 0x4)], false, [⟨0, 32, .ro, 0, false, false, 0, 4294967295⟩]⟩,
   ⟨0x60220, [(4, 0x4)], false, [⟨0, 32, .ro, 0, false, false, 0, 4294967295⟩]⟩,
   ⟨0x60230, [], false, [⟨0, 32, .ro, 0, false, false, 0, 4294967295⟩]⟩,
   ⟨0x60234, [], false, [⟨0, 32, .ro, 0, false, false, 0, 4294967295⟩]⟩,
   ⟨0x60238, [], false, [⟨0, 32, .ro, 0, false, false, 0, 4294967295⟩]⟩,
   ⟨0x6023c, [], false, [⟨0, 32, .ro, 0, false, false, 0, 4294967295⟩]⟩]
@[inherit_doc regsAcc0] def regsAcc : List RRow := regsAcc0 ++ regsAcc1

/-- The registers of block WIN (R447). -/
def regsWin : List RRow :=
  [⟨0x70000, [(64, 0x20)], false, [⟨0, 28, .rw, 1048576, true, true, 1048576, 268435455⟩]⟩,
   ⟨0x70004, [(64, 0x20)], false, [⟨0, 6, .rw, 12, true, true, 12, 32⟩]⟩,
   ⟨0x70008, [(64, 0x20)], false, [⟨12, 14, .rw, 0, true, true, 0, 16383⟩]⟩,
   ⟨0x7000c, [(64, 0x20)], false, [⟨0, 1, .rw, 0, true, true, 0, 1⟩, ⟨1, 3, .rw, 0, true, true, 0, 7⟩, ⟨4, 2, .rw, 0, true, true, 0, 3⟩, ⟨6, 1, .rw, 0, true, true, 0, 1⟩, ⟨7, 2, .rw, 0, true, true, 0, 3⟩, ⟨9, 2, .rw, 1, true, true, 0, 2⟩, ⟨11, 1, .rw, 0, true, true, 0, 1⟩, ⟨12, 1, .rw, 0, true, true, 0, 1⟩, ⟨13, 1, .rw, 0, true, true, 0, 1⟩, ⟨14, 1, .rw, 0, true, true, 0, 1⟩, ⟨15, 1, .rw, 0, true, true, 0, 1⟩, ⟨16, 1, .rw, 0, true, true, 0, 1⟩]⟩,
   ⟨0x70010, [(64, 0x20)], false, [⟨0, 9, .rw, 40, true, true, 1, 400⟩, ⟨12, 4, .rw, 3, true, true, 0, 15⟩, ⟨16, 6, .rw, 0, true, true, 0, 63⟩]⟩,
   ⟨0x70014, [(64, 0x20)], false, [⟨0, 16, .rc, 0, false, false, 0, 65535⟩, ⟨16, 16, .rc, 0, false, false, 0, 65535⟩]⟩,
   ⟨0x71000, [], false, [⟨0, 8, .rw, 50, true, true, 1, 200⟩]⟩,
   ⟨0x71004, [], false, [⟨0, 32, .ro, 0, false, false, 0, 4294967295⟩]⟩,
   ⟨0x71008, [], false, [⟨0, 32, .ro, 0, false, false, 0, 4294967295⟩]⟩,
   ⟨0x71010, [], false, [⟨0, 8, .rw, 0, true, true, 0, 255⟩, ⟨8, 8, .rw, 0, true, true, 0, 255⟩, ⟨16, 2, .rw, 0, true, true, 0, 3⟩]⟩,
   ⟨0x71100, [(64, 0x4)], false, [⟨0, 8, .ro, 0, false, false, 0, 255⟩, ⟨8, 1, .ro, 0, false, false, 0, 1⟩, ⟨9, 1, .ro, 0, false, false, 0, 1⟩]⟩]

/-- The registers of block SEG (R447). -/
def regsSeg0 : List RRow :=
  [⟨0x80000, [(4, 0x10000)], true, [⟨0, 1, .rw, 0, false, true, 0, 1⟩, ⟨1, 1, .rw, 0, true, true, 0, 1⟩, ⟨2, 1, .rw, 0, true, true, 0, 1⟩, ⟨3, 2, .rw, 1, true, true, 0, 2⟩, ⟨8, 8, .rw, 0, true, true, 0, 255⟩]⟩,
   ⟨0x80004, [(4, 0x10000)], true, [⟨0, 2, .ro, 0, false, false, 0, 3⟩, ⟨2, 1, .ro, 0, false, false, 0, 1⟩, ⟨3, 2, .ro, 0, false, false, 0, 3⟩, ⟨5, 1, .ro, 0, false, false, 0, 1⟩, ⟨6, 1, .ro, 0, false, false, 0, 1⟩, ⟨7, 1, .ro, 0, false, false, 0, 1⟩, ⟨8, 4, .ro, 0, false, false, 0, 15⟩, ⟨12, 1, .ro, 0, false, false, 0, 1⟩, ⟨16, 16, .ro, 0, false, false, 0, 65535⟩]⟩,
   ⟨0x80008, [(4, 0x10000)], true, [⟨0, 4, .rw, 0, true, true, 0, 15⟩, ⟨4, 4, .rw, 0, true, true, 0, 15⟩]⟩,
   ⟨0x8000c, [(4, 0x10000)], true, [⟨0, 9, .rw, 40, true, true, 1, 400⟩]⟩,
   ⟨0x80010, [(4, 0x10000)], true, [⟨0, 7, .rw, 1, true, true, 0, 100⟩]⟩,
   ⟨0x80014, [(4, 0x10000)], true, [⟨0, 8, .rw, 200, true, true, 50, 250⟩]⟩,
   ⟨0x80040, [(4, 0x10000)], true, [⟨0, 6, .rw, 8, true, true, 1, 40⟩]⟩,
   ⟨0x80044, [(4, 0x10000)], true, [⟨0, 4, .rw, 2, true, true, 1, 15⟩, ⟨8, 8, .rw, 20, true, true, 1, 255⟩]⟩,
   ⟨0x80018, [(4, 0x10000)], true, [⟨0, 7, .ro, 0, false, false, 0, 127⟩, ⟨7, 1, .ro, 0, false, false, 0, 1⟩, ⟨8, 1, .ro, 0, false, false, 0, 1⟩]⟩,
   ⟨0x8001c, [(4, 0x10000)], true, [⟨0, 16, .rc, 0, false, false, 0, 65535⟩, ⟨16, 16, .rc, 0, false, false, 0, 65535⟩]⟩,
   ⟨0x80020, [(4, 0x10000)], true, [⟨0, 24, .ro, 0, false, false, 0, 16777215⟩]⟩,
   ⟨0x80030, [(4, 0x10000), (4, 0x4)], true, [⟨0, 8, .rw, 0, true, true, 0, 255⟩, ⟨8, 4, .rw, 0, true, true, 0, 15⟩, ⟨12, 1, .rw, 0, true, true, 0, 1⟩, ⟨16, 8, .rw, 2, true, true, 0, 255⟩]⟩]
def regsSeg1 : List RRow :=
  [⟨0x800a0, [(4, 0x10000)], true, [⟨0, 1, .w1s, 0, true, false, 0, 1⟩, ⟨4, 4, .w1s, 0, false, false, 0, 15⟩]⟩,
   ⟨0x800a4, [(4, 0x10000)], true, [⟨0, 8, .rw, 10, true, true, 1, 255⟩]⟩,
   ⟨0x80080, [(4, 0x10000), (4, 0x10)], true, [⟨12, 12, .rw, 0, true, true, 0, 4095⟩]⟩,
   ⟨0x80084, [(4, 0x10000), (4, 0x10)], true, [⟨0, 1, .rw, 0, true, true, 0, 1⟩, ⟨1, 1, .rw, 0, true, true, 0, 1⟩, ⟨2, 1, .rw, 0, true, true, 0, 1⟩, ⟨8, 5, .rw, 12, true, true, 12, 20⟩]⟩,
   ⟨0x80088, [(4, 0x10000), (4, 0x10)], true, [⟨12, 11, .rw, 0, true, true, 0, 2047⟩]⟩,
   ⟨0x800c0, [(4, 0x10000)], true, [⟨0, 16, .rc, 0, false, false, 0, 65535⟩, ⟨16, 16, .rc, 0, false, false, 0, 65535⟩]⟩,
   ⟨0x800c4, [(4, 0x10000)], true, [⟨0, 16, .rc, 0, false, false, 0, 65535⟩, ⟨16, 16, .rc, 0, false, false, 0, 65535⟩]⟩,
   ⟨0x800c8, [(4, 0x10000)], true, [⟨0, 16, .rc, 0, false, false, 0, 65535⟩, ⟨16, 16, .rc, 0, false, false, 0, 65535⟩]⟩,
   ⟨0x800cc, [(4, 0x10000)], true, [⟨0, 16, .rc, 0, false, false, 0, 65535⟩, ⟨16, 16, .rc, 0, false, false, 0, 65535⟩]⟩,
   ⟨0x800d0, [(4, 0x10000)], true, [⟨0, 16, .rc, 0, false, false, 0, 65535⟩, ⟨16, 16, .rc, 0, false, false, 0, 65535⟩]⟩,
   ⟨0x800e0, [(4, 0x10000)], true, [⟨0, 4, .ro, 0, false, false, 0, 15⟩, ⟨16, 8, .ro, 0, false, false, 0, 255⟩, ⟨24, 1, .ro, 0, false, false, 0, 1⟩, ⟨31, 1, .w1c, 0, false, false, 0, 1⟩]⟩,
   ⟨0x800e4, [(4, 0x10000)], true, [⟨0, 24, .ro, 0, false, false, 0, 16777215⟩, ⟨24, 2, .ro, 0, false, false, 0, 3⟩]⟩]
@[inherit_doc regsSeg0] def regsSeg : List RRow := regsSeg0 ++ regsSeg1

/-- The registers of block CTX (R447). -/
def regsCtx0 : List RRow :=
  [⟨0xc0040, [(256, 0x100)], false, [⟨0, 1, .rw, 0, true, true, 0, 1⟩, ⟨1, 2, .rw, 0, true, true, 0, 2⟩, ⟨3, 1, .rw, 0, true, true, 0, 1⟩, ⟨4, 1, .rw, 0, true, true, 0, 1⟩, ⟨16, 10, .rw, 8, true, true, 1, 1000⟩]⟩,
   ⟨0xc0044, [(256, 0x100)], false, [⟨0, 1, .ro, 0, false, false, 0, 1⟩, ⟨1, 2, .ro, 0, false, false, 0, 3⟩, ⟨8, 8, .ro, 0, false, false, 0, 255⟩, ⟨16, 16, .ro, 0, false, false, 0, 65535⟩]⟩,
   ⟨0xc0048, [(256, 0x100)], false, [⟨0, 8, .wo, 0, false, false, 0, 255⟩]⟩,
   ⟨0xc0050, [(256, 0x100)], false, [⟨0, 32, .rw, 0, true, true, 0, 4294967295⟩]⟩,
   ⟨0xc0054, [(256, 0x100)], false, [⟨0, 32, .rw, 0, true, true, 0, 4294967295⟩]⟩,
   ⟨0xc0000, [(256, 0x100)], false, [⟨0, 1, .rw, 0, false, true, 0, 1⟩, ⟨1, 1, .rw, 0, true, true, 0, 1⟩, ⟨2, 2, .rw, 1, true, true, 0, 2⟩, ⟨4, 1, .rw, 0, true, true, 0, 1⟩]⟩,
   ⟨0xc0004, [(256, 0x100)], false, [⟨0, 2, .ro, 0, false, false, 0, 3⟩, ⟨2, 1, .ro, 0, false, false, 0, 1⟩, ⟨3, 3, .ro, 0, false, false, 0, 7⟩, ⟨6, 4, .ro, 0, false, false, 0, 15⟩, ⟨10, 2, .ro, 0, false, false, 0, 3⟩, ⟨12, 1, .ro, 0, false, false, 0, 1⟩, ⟨13, 1, .ro, 0, false, false, 0, 1⟩, ⟨16, 16, .ro, 0, false, false, 0, 65535⟩]⟩,
   ⟨0xc0008, [(256, 0x100)], false, [⟨0, 4, .rw, 0, true, true, 0, 14⟩, ⟨8, 8, .rw, 0, true, true, 0, 255⟩, ⟨16, 9, .rw, 0, true, true, 0, 256⟩, ⟨25, 3, .rw, 0, true, true, 0, 7⟩, ⟨28, 2, .rw, 0, true, true, 0, 3⟩]⟩,
   ⟨0xc000c, [(256, 0x100)], false, [⟨0, 14, .rw, 0, true, true, 0, 16383⟩, ⟨16, 14, .rw, 0, true, true, 0, 16383⟩, ⟨30, 1, .rw, 0, true, true, 0, 1⟩]⟩,
   ⟨0xc0010, [(256, 0x100)], false, [⟨0, 8, .rw, 0, true, true, 0, 127⟩, ⟨8, 4, .rw, 0, true, true, 0, 15⟩, ⟨12, 1, .rw, 0, true, true, 0, 1⟩, ⟨13, 1, .rw, 0, true, true, 0, 1⟩, ⟨16, 8, .rw, 0, true, true, 0, 159⟩]⟩,
   ⟨0xc0014, [(256, 0x100)], false, [⟨0, 16, .ro, 65535, false, false, 0, 65535⟩, ⟨16, 16, .ro, 65535, false, false, 0, 65535⟩]⟩,
   ⟨0xc0018, [(256, 0x100)], false, [⟨0, 1, .w1s, 0, false, false, 0, 1⟩, ⟨1, 1, .w1s, 0, false, false, 0, 1⟩]⟩]
def regsCtx1 : List RRow :=
  [⟨0xc001c, [(256, 0x100)], false, [⟨0, 1, .ro, 0, false, false, 0, 1⟩, ⟨8, 8, .ro, 0, false, false, 0, 255⟩]⟩,
   ⟨0xc0020, [(256, 0x100)], false, [⟨0, 5, .ro, 0, false, false, 0, 31⟩, ⟨16, 15, .ro, 0, false, false, 0, 32767⟩, ⟨31, 1, .w1c, 0, false, false, 0, 1⟩]⟩,
   ⟨0xc0024, [(256, 0x100)], false, [⟨0, 14, .ro, 0, false, false, 0, 16383⟩]⟩,
   ⟨0xc0028, [(256, 0x100)], false, [⟨0, 32, .ro, 0, false, false, 0, 4294967295⟩]⟩,
   ⟨0xc0060, [(256, 0x100)], false, [⟨0, 25, .rw, 0, true, true, 0, 33554431⟩]⟩,
   ⟨0xc0064, [(256, 0x100), (4, 0x4)], false, [⟨0, 16, .rw, 0, true, true, 0, 50000⟩, ⟨16, 16, .ro, 0, false, false, 0, 65535⟩]⟩,
   ⟨0xc0074, [(256, 0x100)], false, [⟨0, 7, .rw, 0, true, true, 0, 64⟩, ⟨8, 6, .rw, 0, true, true, 0, 63⟩]⟩,
   ⟨0xc0078, [(256, 0x100)], false, [⟨0, 25, .ro, 0, false, false, 0, 33554431⟩, ⟨25, 7, .ro, 0, false, false, 0, 127⟩]⟩,
   ⟨0xc007c, [(256, 0x100)], false, [⟨0, 8, .rc, 0, false, false, 0, 255⟩, ⟨8, 8, .rc, 0, false, false, 0, 255⟩, ⟨16, 4, .ro, 0, false, false, 0, 15⟩, ⟨20, 1, .ro, 0, false, false, 0, 1⟩, ⟨21, 1, .ro, 0, false, false, 0, 1⟩, ⟨24, 8, .ro, 0, false, false, 0, 255⟩]⟩,
   ⟨0xc0080, [(256, 0x100)], false, [⟨0, 1, .w1c, 0, false, false, 0, 1⟩, ⟨1, 3, .ro, 0, false, false, 0, 7⟩, ⟨4, 1, .ro, 0, false, false, 0, 1⟩, ⟨5, 1, .ro, 0, false, false, 0, 1⟩, ⟨16, 16, .ro, 0, false, false, 0, 65535⟩]⟩,
   ⟨0xc0084, [(256, 0x100)], false, [⟨0, 4, .ro, 0, false, false, 0, 15⟩, ⟨4, 4, .ro, 0, false, false, 0, 15⟩, ⟨8, 6, .ro, 0, false, false, 0, 63⟩, ⟨14, 2, .ro, 0, false, false, 0, 3⟩, ⟨16, 16, .ro, 0, false, false, 0, 65535⟩]⟩,
   ⟨0xc0088, [(256, 0x100)], false, [⟨0, 32, .ro, 0, false, false, 0, 4294967295⟩]⟩]
def regsCtx2 : List RRow :=
  [⟨0xc008c, [(256, 0x100)], false, [⟨0, 8, .ro, 0, false, false, 0, 255⟩, ⟨8, 24, .ro, 0, false, false, 0, 16777215⟩]⟩,
   ⟨0xc0090, [(256, 0x100)], false, [⟨0, 32, .ro, 0, false, false, 0, 4294967295⟩]⟩,
   ⟨0xc0094, [(256, 0x100)], false, [⟨0, 2, .ro, 0, false, false, 0, 3⟩, ⟨8, 8, .ro, 0, false, false, 0, 255⟩, ⟨16, 16, .ro, 0, false, false, 0, 65535⟩]⟩,
   ⟨0xc0098, [(256, 0x100)], false, [⟨0, 32, .ro, 0, false, false, 0, 4294967295⟩]⟩,
   ⟨0xc009c, [(256, 0x100)], false, [⟨0, 3, .ro, 0, false, false, 0, 7⟩]⟩,
   ⟨0xc00a0, [(256, 0x100), (3, 0x8)], false, [⟨0, 32, .ro, 0, false, false, 0, 4294967295⟩]⟩,
   ⟨0xc00a4, [(256, 0x100), (3, 0x8)], false, [⟨0, 32, .ro, 0, false, false, 0, 4294967295⟩]⟩,
   ⟨0xc00b8, [(256, 0x100)], false, [⟨0, 16, .rc, 0, false, false, 0, 65535⟩, ⟨16, 16, .rc, 0, false, false, 0, 65535⟩]⟩,
   ⟨0xc00bc, [(256, 0x100)], false, [⟨0, 16, .rc, 0, false, false, 0, 65535⟩, ⟨16, 16, .rc, 0, false, false, 0, 65535⟩]⟩]
@[inherit_doc regsCtx0] def regsCtx : List RRow := regsCtx0 ++ regsCtx1 ++ regsCtx2

/-- The registers of block STG (R447). -/
def regsStg0 : List RRow :=
  [⟨0xd8000, [(256, 0x20)], false, [⟨6, 17, .rw, 0, true, true, 0, 131071⟩]⟩,
   ⟨0xd8004, [(256, 0x20)], false, [⟨0, 11, .rw, 1, true, true, 1, 1024⟩]⟩,
   ⟨0xd8008, [(256, 0x20)], false, [⟨0, 1, .rw, 0, true, true, 0, 1⟩, ⟨1, 1, .rw, 0, true, true, 0, 1⟩, ⟨2, 2, .rw, 0, true, true, 0, 3⟩, ⟨4, 1, .rw, 1, true, true, 0, 1⟩, ⟨5, 1, .rw, 0, true, true, 0, 1⟩, ⟨6, 3, .rw, 5, true, true, 0, 7⟩, ⟨9, 2, .rw, 0, true, true, 0, 3⟩, ⟨16, 8, .rw, 0, true, true, 0, 255⟩]⟩,
   ⟨0xd800c, [(256, 0x20)], false, [⟨0, 7, .rw, 1, true, true, 1, 64⟩, ⟨8, 6, .rw, 0, true, true, 0, 63⟩, ⟨16, 8, .rw, 0, true, true, 0, 255⟩]⟩,
   ⟨0xd8010, [(256, 0x20)], false, [⟨0, 32, .ro, 0, false, false, 0, 4294967295⟩]⟩,
   ⟨0xd8014, [(256, 0x20)], false, [⟨0, 8, .ro, 0, false, false, 0, 255⟩, ⟨8, 1, .ro, 0, false, false, 0, 1⟩, ⟨9, 1, .ro, 0, false, false, 0, 1⟩, ⟨10, 1, .ro, 0, false, false, 0, 1⟩, ⟨11, 1, .ro, 0, false, false, 0, 1⟩, ⟨12, 1, .ro, 0, false, false, 0, 1⟩]⟩,
   ⟨0xd8018, [(256, 0x20)], false, [⟨0, 16, .rc, 0, false, false, 0, 65535⟩, ⟨16, 16, .rc, 0, false, false, 0, 65535⟩]⟩,
   ⟨0xd4000, [(16, 0x40)], false, [⟨0, 1, .rw, 1, true, true, 0, 1⟩]⟩,
   ⟨0xd4004, [(16, 0x40)], false, [⟨0, 2, .ro, 0, false, false, 0, 3⟩, ⟨2, 1, .ro, 0, false, false, 0, 1⟩, ⟨3, 2, .ro, 0, false, false, 0, 3⟩, ⟨8, 4, .ro, 0, false, false, 0, 15⟩, ⟨12, 4, .ro, 0, false, false, 0, 15⟩, ⟨16, 16, .ro, 0, false, false, 0, 65535⟩]⟩,
   ⟨0xd4008, [(16, 0x40)], false, [⟨0, 16, .rc, 0, false, false, 0, 65535⟩, ⟨16, 16, .rc, 0, false, false, 0, 65535⟩]⟩,
   ⟨0xd400c, [(16, 0x40)], false, [⟨0, 32, .ro, 0, false, false, 0, 4294967295⟩]⟩,
   ⟨0xd4400, [], false, [⟨0, 4, .ro, 15, false, false, 0, 15⟩, ⟨4, 1, .ro, 1, false, false, 0, 1⟩, ⟨16, 8, .rc, 0, false, false, 0, 255⟩, ⟨24, 8, .rc, 0, false, false, 0, 255⟩]⟩]
def regsStg1 : List RRow :=
  [⟨0xd4404, [], false, [⟨0, 8, .ro, 0, false, false, 0, 255⟩, ⟨8, 8, .ro, 0, false, false, 0, 255⟩, ⟨16, 16, .rc, 0, false, false, 0, 65535⟩]⟩,
   ⟨0xd4440, [(15, 0x4)], false, [⟨0, 4, .ro, 0, false, false, 0, 15⟩]⟩]
def regsStg2 : List RRow :=
  [⟨0xd0000, [], false, [⟨0, 17, .rw, 10000, true, true, 250, 100000⟩, ⟨24, 7, .rw, 10, true, true, 8, 64⟩]⟩,
   ⟨0xd0004, [], false, [⟨0, 17, .rw, 0, true, true, 0, 131071⟩]⟩,
   ⟨0xd0008, [], false, [⟨0, 3, .rw, 2, true, true, 1, 7⟩, ⟨4, 2, .rw, 0, true, true, 0, 3⟩]⟩,
   ⟨0xd000c, [], false, [⟨0, 5, .rw, 16, true, true, 0, 16⟩, ⟨8, 5, .rw, 16, true, true, 0, 16⟩, ⟨16, 5, .rw, 0, true, true, 0, 16⟩]⟩,
   ⟨0xd0010, [], false, [⟨0, 6, .ro, 0, false, false, 0, 63⟩, ⟨8, 2, .ro, 0, false, false, 0, 3⟩, ⟨10, 1, .ro, 0, false, false, 0, 1⟩, ⟨11, 1, .ro, 0, false, false, 0, 1⟩, ⟨16, 16, .ro, 0, false, false, 0, 65535⟩]⟩,
   ⟨0xd0014, [], false, [⟨0, 16, .rc, 0, false, false, 0, 65535⟩, ⟨16, 16, .rc, 0, false, false, 0, 65535⟩]⟩,
   ⟨0xd0018, [], false, [⟨0, 16, .rc, 0, false, false, 0, 65535⟩, ⟨16, 16, .rc, 0, false, false, 0, 65535⟩]⟩,
   ⟨0xd0020, [(4, 0x4)], false, [⟨0, 16, .ro, 0, false, false, 0, 65535⟩, ⟨16, 16, .ro, 0, false, false, 0, 65535⟩]⟩]
def regsStg3 : List RRow :=
  [⟨0xd0030, [], false, [⟨0, 1, .w1s, 0, false, false, 0, 1⟩]⟩]
@[inherit_doc regsStg0] def regsStg : List RRow := regsStg0 ++ regsStg1 ++ regsStg2 ++ regsStg3

/-- The registers of block QUE (R447). -/
def regsQue : List RRow :=
  [⟨0xe0000, [(160, 0x20)], false, [⟨0, 1, .rw, 0, true, true, 0, 1⟩, ⟨1, 1, .rw, 0, true, true, 0, 1⟩, ⟨8, 5, .rw, 8, true, true, 8, 18⟩]⟩,
   ⟨0xe0004, [(160, 0x20)], false, [⟨0, 12, .rw, 0, true, true, 0, 4095⟩]⟩,
   ⟨0xe0008, [(160, 0x20)], false, [⟨0, 16, .ro, 0, false, false, 0, 65535⟩, ⟨16, 16, .ro, 0, false, false, 0, 65535⟩]⟩,
   ⟨0xe000c, [(160, 0x20)], false, [⟨0, 1, .ro, 0, false, false, 0, 1⟩, ⟨1, 1, .ro, 0, false, false, 0, 1⟩, ⟨8, 8, .ro, 0, false, false, 0, 255⟩, ⟨16, 16, .ro, 0, false, false, 0, 65535⟩]⟩,
   ⟨0xe0010, [(160, 0x20)], false, [⟨0, 16, .rc, 0, false, false, 0, 65535⟩, ⟨16, 16, .rc, 0, false, false, 0, 65535⟩]⟩,
   ⟨0xe0014, [(160, 0x20)], false, [⟨0, 16, .rc, 0, false, false, 0, 65535⟩, ⟨16, 16, .rc, 0, false, false, 0, 65535⟩]⟩,
   ⟨0xe0018, [(160, 0x20)], false, [⟨0, 1, .w1s, 0, true, false, 0, 1⟩]⟩,
   ⟨0xe001c, [(160, 0x20)], false, [⟨0, 32, .wo, 0, false, false, 0, 4294967295⟩]⟩,
   ⟨0xe2000, [], false, [⟨0, 8, .rw, 100, true, true, 1, 255⟩, ⟨8, 8, .rc, 0, false, false, 0, 255⟩, ⟨16, 16, .rw, 100, true, true, 1, 10000⟩]⟩,
   ⟨0xe2004, [], false, [⟨0, 8, .ro, 0, false, false, 0, 255⟩, ⟨8, 2, .ro, 0, false, false, 0, 3⟩, ⟨31, 1, .w1c, 0, false, false, 0, 1⟩]⟩]

/-- The registers of block ARB (R447). -/
def regsArb0 : List RRow :=
  [⟨0xf0000, [(10, 0x100)], false, [⟨0, 1, .rw, 1, true, true, 0, 1⟩, ⟨4, 5, .rw, 8, true, true, 1, 31⟩, ⟨9, 7, .rw, 64, true, true, 8, 127⟩, ⟨16, 8, .rw, 8, true, true, 0, 255⟩]⟩,
   ⟨0xf0004, [(10, 0x100)], false, [⟨0, 1, .ro, 0, false, false, 0, 1⟩, ⟨16, 7, .ro, 0, false, false, 0, 127⟩]⟩,
   ⟨0xf0008, [(10, 0x100)], false, [⟨0, 16, .rc, 0, false, false, 0, 65535⟩, ⟨16, 16, .rc, 0, false, false, 0, 65535⟩]⟩,
   ⟨0xf000c, [(10, 0x100)], false, [⟨0, 16, .rc, 0, false, false, 0, 65535⟩, ⟨16, 16, .rc, 0, false, false, 0, 65535⟩]⟩,
   ⟨0xf0010, [(10, 0x100)], false, [⟨0, 5, .ro, 0, false, false, 0, 31⟩, ⟨8, 8, .ro, 0, false, false, 0, 255⟩, ⟨16, 1, .ro, 0, false, false, 0, 1⟩, ⟨31, 1, .w1c, 0, false, false, 0, 1⟩]⟩,
   ⟨0xf0040, [(1, 4)], false, [⟨0, 2, .rw, 1, true, true, 0, 3⟩, ⟨4, 2, .rw, 2, true, true, 0, 3⟩]⟩,
   ⟨0xf0044, [(16, 4)], false, [⟨0, 2, .rw, 1, true, true, 0, 3⟩, ⟨4, 2, .rw, 1, true, true, 0, 3⟩]⟩,
   ⟨0xf0084, [(5, 4)], false, [⟨0, 2, .rw, 1, true, true, 0, 3⟩, ⟨4, 2, .rw, 2, true, true, 0, 3⟩]⟩,
   ⟨0xf0098, [(1, 4)], false, [⟨0, 2, .rw, 1, true, true, 0, 3⟩, ⟨4, 2, .rw, 3, true, true, 0, 3⟩]⟩,
   ⟨0xf009c, [(1, 4)], false, [⟨0, 2, .rw, 2, true, true, 0, 3⟩, ⟨4, 2, .rw, 0, true, true, 0, 3⟩]⟩,
   ⟨0xf00a0, [(1, 4)], false, [⟨0, 2, .rw, 0, true, true, 0, 3⟩, ⟨4, 2, .rw, 3, true, true, 0, 3⟩]⟩,
   ⟨0xf0140, [(4, 0x100), (3, 4)], false, [⟨0, 2, .rw, 1, true, true, 0, 3⟩, ⟨4, 2, .rw, 1, true, true, 0, 3⟩]⟩]
def regsArb1 : List RRow :=
  [⟨0xf0540, [(2, 0x100), (2, 4)], false, [⟨0, 2, .rw, 1, true, true, 0, 3⟩, ⟨4, 2, .rw, 1, true, true, 0, 3⟩]⟩,
   ⟨0xf0548, [(2, 0x100), (2, 4)], false, [⟨0, 2, .ro, 0, false, false, 0, 3⟩]⟩,
   ⟨0xf0740, [(3, 0x100)], false, [⟨0, 2, .ro, 0, false, false, 0, 3⟩]⟩,
   ⟨0xf0744, [(3, 0x100), (2, 4)], false, [⟨0, 2, .rw, 1, true, true, 0, 3⟩, ⟨4, 2, .rw, 1, true, true, 0, 3⟩]⟩,
   ⟨0xf1000, [], false, [⟨0, 10, .w1s, 0, true, false, 0, 1023⟩]⟩]
@[inherit_doc regsArb0] def regsArb : List RRow := regsArb0 ++ regsArb1

/-- The registers of block SPN (R447). -/
def regsSpn : List RRow :=
  [⟨0x100000, [], false, [⟨0, 1, .rw, 0, false, true, 0, 1⟩, ⟨1, 1, .rw, 0, false, true, 0, 1⟩, ⟨2, 1, .rw, 1, true, true, 0, 1⟩]⟩,
   ⟨0x100004, [], false, [⟨0, 2, .ro, 0, false, false, 0, 3⟩, ⟨2, 2, .ro, 0, false, false, 0, 3⟩, ⟨4, 1, .ro, 0, false, false, 0, 1⟩, ⟨5, 1, .ro, 0, false, false, 0, 1⟩, ⟨16, 16, .ro, 0, false, false, 0, 65535⟩]⟩,
   ⟨0x100010, [(2, 0x4)], false, [⟨0, 2, .ro, 0, false, false, 0, 3⟩, ⟨2, 1, .ro, 0, false, false, 0, 1⟩, ⟨3, 1, .ro, 1, false, false, 0, 1⟩, ⟨16, 16, .ro, 0, false, false, 0, 65535⟩]⟩,
   ⟨0x100020, [], false, [⟨0, 6, .rw, 5, true, true, 1, 50⟩, ⟨8, 8, .rw, 30, true, true, 10, 250⟩]⟩,
   ⟨0x100024, [], false, [⟨0, 8, .rw, 64, true, true, 8, 64⟩, ⟨8, 8, .rw, 128, true, true, 8, 128⟩, ⟨16, 7, .rw, 64, true, true, 1, 64⟩]⟩,
   ⟨0x100028, [], false, [⟨0, 4, .w1s, 0, true, false, 0, 15⟩]⟩,
   ⟨0x100040, [(4, 0x4)], false, [⟨0, 1, .rw, 1, true, true, 0, 1⟩, ⟨1, 1, .rw, 1, true, true, 0, 1⟩, ⟨8, 3, .ro, 0, false, false, 0, 7⟩, ⟨11, 1, .ro, 0, false, false, 0, 1⟩, ⟨16, 9, .ro, 0, false, false, 0, 511⟩]⟩,
   ⟨0x100050, [(4, 0x4)], false, [⟨0, 16, .ro, 0, false, false, 0, 65535⟩]⟩,
   ⟨0x100060, [], false, [⟨0, 16, .rc, 0, false, false, 0, 65535⟩, ⟨16, 16, .rc, 0, false, false, 0, 65535⟩]⟩,
   ⟨0x100064, [], false, [⟨0, 16, .rc, 0, false, false, 0, 65535⟩, ⟨16, 16, .rc, 0, false, false, 0, 65535⟩]⟩,
   ⟨0x100068, [], false, [⟨0, 16, .rc, 0, false, false, 0, 65535⟩, ⟨16, 16, .rc, 0, false, false, 0, 65535⟩]⟩,
   ⟨0x10006c, [], false, [⟨0, 16, .rc, 0, false, false, 0, 65535⟩, ⟨16, 16, .rc, 0, false, false, 0, 65535⟩]⟩]

/-- The registers of block OPC (R447). -/
def regsOpc0 : List RRow :=
  [⟨0x110000, [(4, 0x4000)], true, [⟨0, 1, .rw, 0, false, true, 0, 1⟩, ⟨1, 1, .rw, 0, true, true, 0, 1⟩]⟩,
   ⟨0x110004, [(4, 0x4000)], true, [⟨0, 4, .rw, 8, true, true, 1, 8⟩, ⟨8, 8, .rw, 5, true, true, 2, 200⟩, ⟨16, 8, .rw, 0, true, true, 0, 255⟩, ⟨24, 8, .rw, 3, true, true, 1, 255⟩]⟩,
   ⟨0x110008, [(4, 0x4000)], true, [⟨0, 8, .rw, 0, true, true, 0, 255⟩, ⟨8, 1, .rw, 0, true, true, 0, 1⟩, ⟨16, 8, .rw, 0, true, true, 0, 255⟩, ⟨24, 1, .rw, 0, true, true, 0, 1⟩]⟩,
   ⟨0x11000c, [(4, 0x4000)], true, [⟨0, 8, .rw, 0, true, true, 0, 255⟩, ⟨8, 1, .rw, 0, true, true, 0, 1⟩]⟩,
   ⟨0x110010, [(4, 0x4000)], true, [⟨0, 2, .ro, 0, false, false, 0, 3⟩, ⟨2, 1, .ro, 0, false, false, 0, 1⟩, ⟨3, 1, .ro, 0, false, false, 0, 1⟩, ⟨8, 8, .ro, 0, false, false, 0, 255⟩, ⟨16, 16, .ro, 0, false, false, 0, 65535⟩]⟩,
   ⟨0x110014, [(4, 0x4000)], true, [⟨0, 8, .w1s, 0, true, false, 0, 255⟩]⟩,
   ⟨0x110020, [(4, 0x4000), (8, 0x4)], true, [⟨0, 8, .ro, 0, false, false, 0, 255⟩, ⟨8, 8, .ro, 0, false, false, 0, 255⟩, ⟨16, 8, .ro, 0, false, false, 0, 255⟩]⟩,
   ⟨0x110040, [(4, 0x4000), (8, 0x8)], true, [⟨0, 16, .ro, 0, false, false, 0, 65535⟩, ⟨16, 16, .ro, 0, false, false, 0, 65535⟩]⟩,
   ⟨0x110044, [(4, 0x4000), (8, 0x8)], true, [⟨0, 16, .ro, 0, false, false, 0, 65535⟩]⟩,
   ⟨0x110080, [(4, 0x4000)], true, [⟨0, 16, .rc, 0, false, false, 0, 65535⟩, ⟨16, 16, .rc, 0, false, false, 0, 65535⟩]⟩,
   ⟨0x110084, [(4, 0x4000)], true, [⟨0, 16, .rc, 0, false, false, 0, 65535⟩, ⟨16, 16, .rc, 0, false, false, 0, 65535⟩]⟩,
   ⟨0x110088, [(4, 0x4000)], true, [⟨0, 16, .rc, 0, false, false, 0, 65535⟩, ⟨16, 16, .rc, 0, false, false, 0, 65535⟩]⟩]
def regsOpc1 : List RRow :=
  [⟨0x110400, [(4, 0x4000), (8, 0x80), (16, 0x8)], true, [⟨0, 1, .rw, 0, true, true, 0, 1⟩, ⟨1, 1, .rw, 0, true, true, 0, 1⟩, ⟨2, 1, .rw, 0, true, true, 0, 1⟩, ⟨16, 8, .rw, 50, true, true, 1, 255⟩, ⟨24, 8, .rw, 25, true, true, 1, 255⟩]⟩,
   ⟨0x110404, [(4, 0x4000), (8, 0x80), (16, 0x8)], true, [⟨0, 16, .rw, 0, true, true, 0, 65535⟩, ⟨16, 8, .rw, 0, true, true, 0, 255⟩, ⟨24, 8, .rw, 0, true, true, 0, 255⟩]⟩]
@[inherit_doc regsOpc0] def regsOpc : List RRow := regsOpc0 ++ regsOpc1

/-- The registers of block FLT (R447). -/
def regsFlt0 : List RRow :=
  [⟨0x124000, [], false, [⟨0, 1, .rw, 1, true, true, 0, 1⟩, ⟨8, 7, .rw, 8, true, true, 1, 64⟩]⟩,
   ⟨0x124004, [], false, [⟨0, 20, .ro, 0, false, false, 0, 1048575⟩, ⟨20, 12, .ro, 0, false, false, 0, 4095⟩]⟩,
   ⟨0x124008, [], false, [⟨0, 16, .rc, 0, false, false, 0, 65535⟩, ⟨16, 16, .rc, 0, false, false, 0, 65535⟩]⟩,
   ⟨0x12400c, [], false, [⟨0, 8, .rc, 0, false, false, 0, 255⟩, ⟨8, 8, .rc, 0, false, false, 0, 255⟩, ⟨16, 16, .rc, 0, false, false, 0, 65535⟩]⟩,
   ⟨0x124010, [], false, [⟨0, 1, .ro, 0, false, false, 0, 1⟩, ⟨1, 2, .ro, 0, false, false, 0, 3⟩, ⟨8, 8, .ro, 0, false, false, 0, 255⟩, ⟨16, 8, .ro, 0, false, false, 0, 255⟩, ⟨31, 1, .w1c, 0, false, false, 0, 1⟩]⟩,
   ⟨0x124014, [], false, [⟨3, 20, .ro, 0, false, false, 0, 1048575⟩]⟩,
   ⟨0x124020, [(4, 0x8)], false, [⟨12, 11, .rw, 0, true, true, 0, 2047⟩]⟩,
   ⟨0x124024, [(4, 0x8)], false, [⟨0, 1, .rw, 0, true, true, 0, 1⟩, ⟨8, 5, .rw, 12, true, true, 12, 20⟩]⟩,
   ⟨0x120000, [], false, [⟨0, 1, .rw, 1, true, true, 0, 1⟩, ⟨4, 4, .rw, 3, true, true, 1, 15⟩, ⟨8, 8, .rw, 60, true, true, 1, 255⟩, ⟨16, 8, .rw, 2, true, true, 0, 255⟩]⟩,
   ⟨0x120004, [], false, [⟨0, 6, .ro, 0, false, false, 0, 63⟩, ⟨8, 8, .ro, 0, false, false, 0, 255⟩]⟩,
   ⟨0x120008, [], false, [⟨0, 16, .rc, 0, false, false, 0, 65535⟩, ⟨16, 16, .rc, 0, false, false, 0, 65535⟩]⟩,
   ⟨0x12000c, [], false, [⟨0, 16, .rc, 0, false, false, 0, 65535⟩, ⟨16, 16, .rc, 0, false, false, 0, 65535⟩]⟩]
def regsFlt1 : List RRow :=
  [⟨0x120010, [], false, [⟨0, 10, .w1c, 0, false, false, 0, 1023⟩]⟩,
   ⟨0x120014, [], false, [⟨0, 4, .ro, 0, false, false, 0, 15⟩, ⟨16, 16, .ro, 0, false, false, 0, 65535⟩]⟩,
   ⟨0x120100, [(32, 0x4)], false, [⟨0, 4, .ro, 0, false, false, 0, 15⟩, ⟨4, 4, .ro, 0, false, false, 0, 15⟩, ⟨8, 4, .ro, 0, false, false, 0, 15⟩]⟩,
   ⟨0x120180, [(16, 0x4)], false, [⟨0, 4, .ro, 0, false, false, 0, 15⟩, ⟨4, 4, .ro, 0, false, false, 0, 15⟩, ⟨8, 4, .ro, 0, false, false, 0, 15⟩]⟩,
   ⟨0x120200, [(16, 0x10)], false, [⟨0, 4, .ro, 0, false, false, 0, 15⟩, ⟨4, 2, .ro, 0, false, false, 0, 3⟩, ⟨8, 8, .ro, 0, false, false, 0, 255⟩, ⟨16, 16, .ro, 0, false, false, 0, 65535⟩]⟩,
   ⟨0x120204, [(16, 0x10)], false, [⟨0, 32, .ro, 0, false, false, 0, 4294967295⟩]⟩,
   ⟨0x120208, [(16, 0x10)], false, [⟨0, 32, .ro, 0, false, false, 0, 4294967295⟩]⟩,
   ⟨0x12020c, [(16, 0x10)], false, [⟨0, 8, .ro, 0, false, false, 0, 255⟩]⟩]
@[inherit_doc regsFlt0] def regsFlt : List RRow := regsFlt0 ++ regsFlt1

/-- The registers of block BOOT (R447). -/
def regsBoot0 : List RRow :=
  [⟨0x130000, [], false, [⟨0, 3, .ro, 0, false, false, 0, 7⟩, ⟨3, 1, .ro, 0, false, false, 0, 1⟩, ⟨4, 1, .ro, 0, false, false, 0, 1⟩, ⟨5, 1, .ro, 0, false, false, 0, 1⟩, ⟨8, 4, .ro, 0, false, false, 0, 15⟩, ⟨16, 4, .ro, 0, false, false, 0, 15⟩, ⟨20, 4, .ro, 0, false, false, 0, 15⟩]⟩,
   ⟨0x130004, [], false, [⟨0, 16, .ro, 0, false, false, 0, 65535⟩]⟩,
   ⟨0x130008, [], false, [⟨0, 16, .ro, 0, false, false, 0, 65535⟩, ⟨16, 16, .ro, 0, false, false, 0, 65535⟩]⟩,
   ⟨0x13000c, [], false, [⟨0, 16, .ro, 0, false, false, 0, 65535⟩, ⟨16, 1, .ro, 0, false, false, 0, 1⟩]⟩,
   ⟨0x130010, [], false, [⟨0, 32, .ro, 0, false, false, 0, 4294967295⟩]⟩,
   ⟨0x130020, [(2, 0x8)], false, [⟨0, 1, .ro, 0, false, false, 0, 1⟩, ⟨1, 1, .ro, 0, false, false, 0, 1⟩, ⟨2, 1, .ro, 0, false, false, 0, 1⟩, ⟨16, 16, .ro, 0, false, false, 0, 65535⟩]⟩,
   ⟨0x130024, [(2, 0x8)], false, [⟨0, 32, .ro, 0, false, false, 0, 4294967295⟩]⟩,
   ⟨0x130040, [], false, [⟨12, 11, .rw, 0, false, false, 0, 2047⟩]⟩,
   ⟨0x130044, [], false, [⟨12, 9, .rw, 0, false, false, 0, 511⟩]⟩,
   ⟨0x130048, [], false, [⟨0, 4, .rw, 0, false, false, 0, 15⟩]⟩,
   ⟨0x13004c, [], false, [⟨0, 4, .wo, 0, true, false, 0, 15⟩, ⟨4, 1, .wo, 0, true, false, 0, 1⟩, ⟨5, 1, .wo, 0, true, false, 0, 1⟩]⟩,
   ⟨0x130050, [], false, [⟨0, 4, .rw, 3, true, true, 1, 15⟩]⟩]
def regsBoot1 : List RRow :=
  [⟨0x130054, [], false, [⟨0, 1, .w1s, 0, false, false, 0, 1⟩]⟩,
   ⟨0x130058, [], false, [⟨0, 1, .ro, 0, false, false, 0, 1⟩, ⟨8, 8, .ro, 25, false, false, 0, 255⟩, ⟨16, 16, .rc, 0, false, false, 0, 65535⟩]⟩,
   ⟨0x13005c, [], false, [⟨0, 16, .ro, 0, false, false, 0, 65535⟩, ⟨16, 16, .ro, 0, false, false, 0, 65535⟩]⟩,
   ⟨0x130060, [], false, [⟨0, 16, .rc, 0, false, false, 0, 65535⟩]⟩]
@[inherit_doc regsBoot0] def regsBoot : List RRow := regsBoot0 ++ regsBoot1

/-- The registers of block SEC (R447). -/
def regsSec : List RRow :=
  [⟨0x140000, [], false, [⟨0, 2, .ro, 0, false, false, 0, 3⟩, ⟨2, 1, .ro, 0, false, false, 0, 1⟩, ⟨3, 1, .ro, 0, false, false, 0, 1⟩, ⟨4, 1, .ro, 0, false, false, 0, 1⟩, ⟨5, 1, .ro, 0, false, false, 0, 1⟩]⟩,
   ⟨0x140004, [], false, [⟨0, 2, .wo, 0, true, false, 0, 3⟩]⟩,
   ⟨0x140040, [(12, 0x4)], false, [⟨0, 32, .wo, 0, true, false, 0, 4294967295⟩]⟩,
   ⟨0x140070, [], false, [⟨0, 1, .w1s, 0, true, false, 0, 1⟩, ⟨1, 1, .w1s, 0, true, false, 0, 1⟩]⟩,
   ⟨0x140080, [(8, 0x4)], false, [⟨0, 32, .wo, 0, true, false, 0, 4294967295⟩]⟩,
   ⟨0x1400a0, [], false, [⟨0, 1, .w1s, 0, true, false, 0, 1⟩]⟩,
   ⟨0x140100, [], true, [⟨0, 1, .w1c, 0, false, false, 0, 1⟩, ⟨1, 1, .w1c, 0, false, false, 0, 1⟩, ⟨2, 1, .w1c, 0, false, false, 0, 1⟩, ⟨16, 16, .ro, 0, false, false, 0, 65535⟩]⟩,
   ⟨0x140104, [], false, [⟨0, 1, .ro, 0, false, false, 0, 1⟩, ⟨16, 16, .rc, 0, false, false, 0, 65535⟩]⟩]

/-- The registers of block DBG (R447). -/
def regsDbg : List RRow :=
  [⟨0x150000, [], false, [⟨0, 1, .ro, 0, false, false, 0, 1⟩]⟩,
   ⟨0x150010, [], false, [⟨0, 1, .rw, 1, false, true, 0, 1⟩, ⟨1, 1, .rw, 0, false, true, 0, 1⟩, ⟨2, 7, .rw, 127, false, true, 0, 127⟩, ⟨16, 8, .rw, 0, false, true, 0, 255⟩, ⟨24, 1, .rw, 0, false, true, 0, 1⟩]⟩,
   ⟨0x150014, [], false, [⟨0, 13, .rw, 4096, false, true, 0, 8191⟩]⟩,
   ⟨0x150018, [], false, [⟨0, 13, .ro, 0, false, false, 0, 8191⟩, ⟨13, 1, .ro, 0, false, false, 0, 1⟩, ⟨14, 1, .ro, 0, false, false, 0, 1⟩, ⟨16, 16, .rc, 0, false, false, 0, 65535⟩]⟩,
   ⟨0x150020, [], false, [⟨0, 13, .rw, 0, false, false, 0, 8191⟩]⟩,
   ⟨0x150024, [], false, [⟨0, 7, .ro, 0, false, false, 0, 127⟩]⟩,
   ⟨0x150040, [(8, 0x4)], false, [⟨0, 32, .ro, 0, false, false, 0, 4294967295⟩]⟩]

/-- The registers of block NRG (R447). -/
def regsNrg0 : List RRow :=
  [⟨0x160000, [(6, 0x4)], true, [⟨0, 10, .ro, 0, false, false, 0, 1023⟩, ⟨16, 10, .ro, 0, false, false, 0, 1023⟩]⟩,
   ⟨0x160018, [], true, [⟨0, 10, .ro, 0, false, false, 0, 1023⟩]⟩,
   ⟨0x160020, [], true, [⟨0, 10, .rw, 0, true, true, 0, 1023⟩, ⟨16, 10, .rw, 0, true, true, 0, 1023⟩, ⟨26, 4, .rw, 4, true, true, 1, 15⟩]⟩,
   ⟨0x160024, [], true, [⟨0, 8, .rw, 10, true, true, 1, 255⟩, ⟨8, 8, .rw, 8, true, true, 0, 255⟩]⟩,
   ⟨0x160028, [], true, [⟨0, 10, .rw, 0, true, true, 0, 1023⟩, ⟨16, 10, .rw, 0, true, true, 0, 1023⟩]⟩,
   ⟨0x16002c, [], true, [⟨0, 10, .rw, 0, true, true, 0, 1023⟩]⟩,
   ⟨0x160030, [], true, [⟨0, 10, .rw, 660, true, true, 0, 1023⟩, ⟨16, 10, .rw, 700, true, true, 0, 1023⟩, ⟨26, 5, .rw, 5, true, true, 1, 31⟩]⟩,
   ⟨0x160034, [], false, [⟨0, 20, .rw, 0, true, true, 0, 1048575⟩]⟩,
   ⟨0x160038, [], false, [⟨0, 20, .rw, 0, true, true, 0, 1048575⟩]⟩,
   ⟨0x160040, [], false, [⟨0, 16, .ro, 2000, false, false, 0, 65535⟩, ⟨16, 16, .ro, 140, false, false, 0, 65535⟩]⟩,
   ⟨0x160044, [], false, [⟨0, 16, .ro, 90, false, false, 0, 65535⟩, ⟨16, 16, .ro, 80, false, false, 0, 65535⟩]⟩,
   ⟨0x160048, [], false, [⟨0, 16, .rw, 0, true, true, 0, 65535⟩]⟩]
def regsNrg1 : List RRow :=
  [⟨0x160050, [], false, [⟨0, 24, .ro, 0, false, false, 0, 16777215⟩]⟩,
   ⟨0x160054, [], false, [⟨0, 24, .ro, 0, false, false, 0, 16777215⟩]⟩,
   ⟨0x160058, [], false, [⟨0, 24, .ro, 0, false, false, 0, 16777215⟩]⟩,
   ⟨0x16005c, [], false, [⟨0, 24, .ro, 0, false, false, 0, 16777215⟩]⟩,
   ⟨0x160060, [], false, [⟨0, 8, .ro, 0, false, false, 0, 255⟩]⟩,
   ⟨0x160070, [], true, [⟨0, 1, .ro, 0, false, false, 0, 1⟩, ⟨1, 1, .ro, 0, false, false, 0, 1⟩, ⟨2, 1, .ro, 0, false, false, 0, 1⟩, ⟨3, 1, .ro, 0, false, false, 0, 1⟩]⟩,
   ⟨0x160074, [], true, [⟨0, 1, .ro, 0, false, false, 0, 1⟩, ⟨31, 1, .w1c, 0, false, false, 0, 1⟩]⟩,
   ⟨0x160078, [], true, [⟨0, 1, .w1s, 0, true, false, 0, 1⟩, ⟨1, 1, .w1s, 0, false, false, 0, 1⟩]⟩]
@[inherit_doc regsNrg0] def regsNrg : List RRow := regsNrg0 ++ regsNrg1

/-- The registers of the 64 KiB block numbered `b` in the block map (R447). -/
def blockRegs : Nat → List RRow
  | 0 => regsGlb
  | 1 => regsCrp
  | 2 => regsCfg
  | 3 => regsEvt
  | 4 => regsHp
  | 5 => regsLn
  | 6 => regsAcc
  | 7 => regsWin
  | 8 => regsSeg
  | 9 => regsSeg
  | 10 => regsSeg
  | 11 => regsSeg
  | 12 => regsCtx
  | 13 => regsStg
  | 14 => regsQue
  | 15 => regsArb
  | 16 => regsSpn
  | 17 => regsOpc
  | 18 => regsFlt
  | 19 => regsBoot
  | 20 => regsSec
  | 21 => regsDbg
  | 22 => regsNrg
  | _ => []

/-- The row of the register at real host address `a`, if one is listed there. -/
def regRow (a : Nat) : Option RRow := (blockRegs (a / 0x10000)).find? (fun r => r.hits a)

/-- The word that a list of fields resets to. -/
def fieldsReset (fs : List FRow) : Word :=
  fs.foldl (fun w f => setBits w f.lo f.w f.reset) 0

/-- The value after reset of the register at `a`: the reset column of its table, where COUR_LMAP[l] has l. Fields
whose reset column names the member, a strap or a fuse are read live and hold zero here. -/
def resetWord (a : Nat) : Word :=
  if COUR_LMAP 0 ≤ a ∧ a < COUR_LMAP 15 ∧ a % 4 = 0 then BitVec.ofNat 32 ((a - COUR_LMAP 0) / 4)
  else
  match regRow a with
  | some r => fieldsReset r.fields
  | none => 0

end Sys2Proof.Machine
end

