-- ==== Sys2Proof/Machine/State.lean ====
section
/-! DEFINITION. The state of the block as plain data, its stop reasons, and the state after reset.
What a register shows and the spec gives no other home lives in the register file `regs`; everything
else that the spec gives the machine (queues, memories, records, cycles in progress) has a field of
its own. A sparse collection is a list of (key, value) pairs with rising keys in which no entry
equals the value that an unlisted key has. -/

namespace Sys2Proof.Machine

/-- A sparse map from numbers: rising keys, no entry equal to the default of its use. -/
abbrev SMap (α : Type) := List (Nat × α)

/-- The three members of the family (R1). -/
inductive Member where
  | ux4816 | ux4808 | ux4804
  deriving DecidableEq, Repr, Inhabited

/-- Whether the device is held in reset, runs, or is frozen (R484, R498). -/
inductive Power where
  | held | run | frozen
  deriving DecidableEq, Repr, Inhabited

/-! ## Ports and links -/

/-- A message that the bridge sends upstream: the MSG of R54. -/
structure Msg where
  ctx : Nat
  seq : Nat
  voted : Bool
  origin : Nat
  event : Nat
  queue : Nat
  kind : Nat
  items : Nat
  time : Nat
  deriving DecidableEq, Repr, Inhabited

/-- One entry of a host port's pending list (R55): a message, or the completion of an RPL (its tag, its
request's header, its data), which does not pass the messages it replays (R49). -/
inductive PMsg where
  | msg (m : Msg)
  | rpl (tag : Nat) (req : Hdr) (data : List Byte)
  deriving DecidableEq, Repr, Inhabited

/-- Phases of a port's lanes: idle, the training steps 1 to 8 (R73), the wait before a new attempt
(R74), and the retrain phases of R87. -/
inductive LinkPhase where
  | off | quiet | presence | phase | align | equalise | deskew | handshake | up | failed
  | rtPrbs | rtRealign | rtHandshake
  deriving DecidableEq, Repr, Inhabited

/-- What depends on the far end's acknowledgement of a packet sent on the Span (R17, R50, R85): a posted write
forwarded for the accepted request of the given order, or inbound posted data, the entry of the given number of a
segment. -/
inductive SpanMark where
  | write (order : Nat)
  | inbound (g n : Nat)
  deriving DecidableEq, Repr, Inhabited

/-- A flit held for replay: its FSEQ, its 58 payload bytes (R78, R85), and the marks of the packets that end in it. -/
structure HeldFlit where
  fseq : Nat
  payload : List Byte
  marks : List SpanMark
  deriving DecidableEq, Repr, Inhabited

/-- The link layer of one port (R72, R78 to R91): the phase of its lanes, the replay buffer, the bytes
that wait to be sent with the mark of each packet among them, the bytes of a packet that has not arrived whole, how
often the oldest flit has been resent, the instants of the last retrains, the CNT of the next TS word, and the TS2
words sent in this handshake. -/
structure Link where
  phase : LinkPhase
  replay : List HeldFlit
  txq : List (List Byte)
  marks : List (Option SpanMark)
  rxBytes : List Byte
  resends : Nat
  retrains : List Nat
  cnt : Nat
  ts2 : Nat
  deriving DecidableEq, Repr, Inhabited

/-- What a lane holds beside its registers: the level index last sent and last received under precoding (R65), the
bits of the PRBS generator's register (R92), the symbols still to be injected (R94), the register of the PRBS checker, its
error-free symbols in a row and the errors of its last 128 symbols (R93), and the CTLE setting that training chose
(R68, R73). -/
structure Lane where
  txP : Nat
  rxP : Nat
  gen : Nat
  inject : Nat
  chk : Nat
  run : Nat
  hist : Nat
  chosen : Nat
  deriving DecidableEq, Repr, Inhabited

/-- Credits of the kinds of R43: headers and data, posted and non-posted. -/
structure Credits where
  ph : Nat
  pd : Nat
  nh : Nat
  nd : Nat
  deriving DecidableEq, Repr, Inhabited

/-- A packet that waits in a port's receive buffer (R49, R103), and when it arrived: for a vote record or slots if it
`needs` them, else behind packets that do. -/
structure StalledCopy where
  pkt : Pkt
  arrived : Nat
  needs : Bool
  deriving DecidableEq, Repr, Inhabited

/-- The transaction layer of one port: the tags with a completion owed (R38), the credits the bridge
holds for sending, the receive buffer space in use, whether the initial grant has been sent and how much it was
(R46), the pending messages (R55) and the copies that wait for a record (R103). -/
structure Port where
  tags : List Nat
  tx : Credits
  rxUsed : Credits
  granted : Bool
  grant : Credits
  msgs : List PMsg
  stalled : List StalledCopy
  deriving DecidableEq, Repr, Inhabited

/-- A context that a REJOINING channel has synced, with the snapshot of its DOWN_SEQ and UP_SEQ (R127). -/
structure Synced where
  ch : Nat
  ctx : Nat
  down : Nat
  up : Nat
  deriving DecidableEq, Repr, Inhabited

/-- Who completes: the copies of a vote record, a host port's tag, a span port's tag, or a direct
register or aperture access that a command of the table names; the prefetch slot of an inbound read that the
partner serves (R196); `gone` when the link that was owed the
completion was lost (R48). -/
inductive Dest where
  | record (ctx seq : Nat)
  | port (p tag : Nat)
  | direct (ctx : Nat)
  | inbound (g id : Nat)
  | gone
  deriving DecidableEq, Repr, Inhabited

/-- One data pulse of the bridge (R147): CAD, of which only the lanes selected mean anything, none on a read; CUB_N and
CLB_N; CBE_N. -/
structure BusWord where
  cad : Word
  strobes : BitVec 2
  enables : BitVec 4
  deriving DecidableEq, Repr, Inhabited

/-- What leaves the block: a packet handed to a port, the mark of the uncorrectable words of the mirrored line just
handed to it (R221), a flit on its lanes, a control block on a port's lanes, the pattern that a port's lanes send
from now on (0 TP1, 1 TS1, 3 TS2, 4 PRBS31), the words that a lane sends (R64), a JTAG answer, the value of a direct read, a down frame, a bus cycle with its address words, whether it writes, whether it is a CB32 cycle, whether CAS_N
falls for it (within a held tenure two address pulses open it), and its data pulses, CLAST_N low for the beat that follows, a keeper pulse, an answer to a legacy master (0 CACK_N, 1 CERR_N, 2 CRTY_N). -/
inductive Out where
  | pkt (p : Nat) (k : Pkt)
  | badWords (p bad : Nat)
  | flit (p : Nat) (bytes : List Byte)
  | control (p code value : Nat)
  | pattern (p : Nat) (what : Nat)
  | lane (k : Nat) (words : List (BitVec 64))
  | read (ctx addr : Nat) (data : List Byte)
  | done (ctx addr status : Nat)
  | jtag (what : Nat) (value : Nat)
  | frame (chain : Nat) (bytes : List Byte) (line : List (BitVec 10))
  | cycle (g a1 a2 : Nat) (write cb32 cas : Bool) (beats : List BusWord)
  | last (g : Nat)
  | keeper (g a2 : Nat)
  | respond (g : Nat) (what : Nat) (data : List Byte)
  deriving DecidableEq, Repr, Inhabited

/-! ## Accord -/

/-- One copy in a vote record (R102): its channel, header, payload and arrival, whether its channel
is REJOINING, and whether its completion has been sent. -/
structure Copy where
  ch : Nat
  pkt : Pkt
  arrived : Nat
  rejoining : Bool
  answered : Bool
  deriving DecidableEq, Repr, Inhabited

/-- A completion part or a final completion: the status, the address of its first byte, the data. -/
structure Part where
  status : Nat
  addr : Nat
  data : List Byte
  final : Bool
  deriving DecidableEq, Repr, Inhabited

/-- What a vote record has decided: nothing yet, an execution for the copies that equal the given
reference copy, or no execution. -/
inductive Decision where
  | undecided
  | execute (ref : Copy)
  | none
  deriving DecidableEq, Repr, Inhabited

/-- A vote record (R102): a request record or an RPL record (R114). -/
structure Record where
  rpl : Bool
  ctx : Nat
  seq : Nat
  copies : List Copy
  mode : Nat
  voters : List Nat
  window : Nat
  fullCmp : Bool
  started : Bool
  closed : Bool
  decision : Decision
  ended : Bool
  retained : List Part
  msgs : List Msg
  slots : Nat
  perVoter : Nat
  charged : List Nat
  ue : Bool
  deriving DecidableEq, Repr, Inhabited

/-! ## Executions -/

/-- The targets a request resolves to: a segment, the Ledger, the partner, the compatibility region,
or the register space and internal memories (R49, R141). -/
inductive Target where
  | seg (s : Nat)
  | ledger
  | partner
  | compat
  | internal
  deriving DecidableEq, Repr, Inhabited

/-- Where an accepted request stands: it has been accepted and is not yet resolved (R140), waits for earlier
requests (R49, R50), waits for a slow domain (R435; the number orders its arrival there), waits at a segment, waits to be forwarded on a span port, was
sent on it as a posted write that the link layer has not yet acknowledged (R50), was forwarded under a tag (R24), waits on a compatibility port
(R330, R331), or has ended at its target and waits for its end to be reported. -/
inductive Stage where
  | accepted
  | waiting
  | slow (dom at_ : Nat)
  | segment
  | spanWait (p : Nat)
  | sent (p : Nat)
  | forwarded (p tag : Nat)
  | compatWait
  | finished
  deriving DecidableEq, Repr, Inhabited

/-- A unit with a generation (R445, R446). -/
inductive UnitRef where
  | port (p : Nat) | seg (s : Nat) | ctx (n : Nat) | cour (c : Nat) | chain (k : Nat)
  deriving DecidableEq, Repr, Inhabited

/-- An accepted request that executes (R15, R16, R446). -/
structure Exec where
  dest : Dest
  who : Who
  pkt : Pkt
  posted : Bool
  viaSpan : Option Nat
  win : Option Nat
  attr : Word
  winSeg : Word
  target : Target
  taddr : Nat
  stage : Stage
  status : Nat
  rdata : List Byte
  sent : Nat
  got : List (Nat × Byte)
  gens : List (UnitRef × Nat)
  order : Nat
  deriving DecidableEq, Repr, Inhabited

/-! ## Segments -/

/-- One beat (R146, R147): its target address, its width in bytes, and its enabled bytes with, for a
write, their values. -/
structure Beat where
  addr : Nat
  lanes : List (Nat × Byte)
  deriving DecidableEq, Repr, Inhabited

/-- The owner of a bus job: an accepted request by its order number, a courier token of a context, a
courier write without a token (R275), a
cycle whose context was restarted (R245), or the reissue of a journal entry (R373) of the given number. -/
inductive JobOwner where
  | host (order : Nat)
  | token (ctx t : Nat)
  | courierWrite (ctx : Nat)
  | orphan (ctx : Nat)
  | recovery (n : Nat)
  deriving DecidableEq, Repr, Inhabited

/-- What a bus job is doing about a lock: nothing; a locked read (R154); the unlocking write; an ATM or
a CYL that locks for its own sequence (R151, R277). -/
inductive LockRole where
  | none | acquire | release | whole
  deriving DecidableEq, Repr, Inhabited

/-- Why a waiting job is not offered to the arbiter: it is ready, in the delay after CRTY_N (R181),
waiting for a semaphore (R157), deferred for budget (R296), or held for its journal entry (R367). -/
inductive JobWait where
  | ready | retryDelay | semaphore | budget | journal
  deriving DecidableEq, Repr, Inhabited

/-- What a read-modify-write does to the bytes it has read, in request order: an atomic operation with its
data (R151), or the bits of a mask replaced by those of a value (R277). -/
inductive Rmw where
  | none
  | atomic (op : Nat) (data : List Byte)
  | merge (mask value : Nat)
  deriving DecidableEq, Repr, Inhabited

/-- A request at a segment, split into beats (R146): the beats not moved are `beats`; byte `i` of
the request is the card byte `base` + ((`off` + i) XOR `xor`) (R145); `buf` is where a courier read's bytes land (R273): 0 the
token, 1 data memory, 2 the Ledger, from `bufAt`. `poll` is the line of a POLL. -/
structure Job where
  owner : JobOwner
  ctx : Nat
  spc : Nat
  write : Bool
  width : Nat
  burst : Bool
  beats : List Beat
  base : Nat
  off : Nat
  xor : Nat
  len : Nat
  retries : Nat
  retryMax : Nat
  answers : Nat
  tmo : Nat
  wait : JobWait
  defers : Nat
  deferred : Bool
  lock : Option LockName
  role : LockRole
  poll : Option Nat
  rmw : Rmw
  back : Bool
  got : List (Nat × Byte)
  moved : Nat
  busNs : Nat
  order : Nat
  buf : Nat
  bufAt : Nat
  deriving DecidableEq, Repr, Inhabited

/-- What is on the bus: nothing; a cycle of the job with the given order number (when it was granted,
when CAS_N fell or its first address pulse came, when the beat in progress started, the beats still to
move in it, the beats moved, whether it was granted under the ceiling rule, whether it is a CB32 cycle, whether it is
the first cycle since CAS_N was high); what follows a cycle until the bus is idle (until when its phases with CAS_N low
run, whether it was a CB32 cycle, whether it wrote); a grant to a legacy
master; a legacy master's tenure with its space and address, and whether the bridge answers a read in it (R191). -/
inductive Cycle where
  | idle
  | job (order granted cas beatAt left done : Nat) (ceiling cb32 first : Bool)
  | release (ends : Nat) (cb32 write : Bool)
  | lmGrant (granted : Nat)
  | lmTenure (granted cas spc addr : Nat) (reads : Bool)
  deriving DecidableEq, Repr, Inhabited

/-- Whether a cycle is over and the bus not yet idle. -/
def Cycle.isRelease (c : Cycle) : Bool :=
  match c with
  | .release _ _ _ => true
  | _ => false

/-- A native lock tenure (R183): CAS_N is held low for the context since the instant, and for the job of
one order number alone if it is that of an ATM or a CYL. -/
structure Tenure where
  ctx : Nat
  since : Nat
  only : Option Nat
  deriving DecidableEq, Repr, Inhabited

/-- One entry of the inbound posted buffer (R194): its Ledger offset, the card address it came to, whether the partner
holds its target, its bytes. -/
structure InbEntry where
  addr : Nat
  card : Nat
  partner : Bool
  bytes : List (Nat × Byte)
  deriving DecidableEq, Repr, Inhabited

/-- A prefetch slot (R195): a number of its own, the address and the enabled byte addresses of the read,
its data once fetched, whether the partner's Ledger holds it. -/
structure Prefetch where
  id : Nat
  addr : Nat
  lanes : List Nat
  data : List Byte
  ready : Bool
  partner : Bool
  deriving DecidableEq, Repr, Inhabited

/-- The inbound access of the current tenure that waits for its answer (R194, R195). -/
inductive InbWait where
  | none
  | write (e : InbEntry)
  | read (addr : Nat) (lanes : List Nat) (partner : Bool)
  deriving DecidableEq, Repr, Inhabited

/-- The backoff account of one requester of an arbiter (R340, R341). -/
structure Backoff where
  who : Nat
  count : Nat
  waiting : Bool
  ceiling : Bool
  grants : Nat
  masked : Bool
  deriving DecidableEq, Repr, Inhabited

/-- One arbiter instance (R339 to R346): its requesters' accounts, the requester last granted, the
grants of the quota window, whether a commit waits. -/
structure Arb where
  acc : List Backoff
  last : Nat
  used : Nat
  commitWait : Bool
  deriving DecidableEq, Repr, Inhabited

/-- One segment controller; `inbErrs` counts the inbound cycles that a lost Span refused (R196), `lmDeferred` tells
whether a legacy master's grant is deferred to the next stage start (R296). -/
structure Seg where
  cycle : Cycle
  jobs : List Job
  tenure : Option Tenure
  armed : List Nat
  held : List Word
  inb : List InbEntry
  mark : Nat
  drained : Nat
  away : List Nat
  inbWait : InbWait
  prefetch : List Prefetch
  keepDue : Bool
  keepCount : Nat
  keepLast : Option Nat
  casLast : Nat
  takePending : Bool
  releasing : Bool
  rspLow : Bool
  overheld : Bool
  inbErrs : Nat
  lmDeferred : Bool
  deriving DecidableEq, Repr, Inhabited

/-- A lock that is held, or that has timed out and whose unlocking write has not come (R156): its name,
its context, whether the holder's request was forwarded by the partner, the window that took it, and the segment on
which it lies (R158). -/
structure HeldLock where
  name : LockName
  ctx : Nat
  remote : Bool
  timedOut : Bool
  window : Nat
  seg : Nat
  deriving DecidableEq, Repr, Inhabited

/-! ## Images, the stage plan, energy -/

/-- The part of an image that no register shows (R209 to R225): whether its buffers are exchanged behind
the views, the producer's marks in the fill view's head, word 1 and TIME of the committed head, the
fill buffer's lines written since the exchange, the lines still to carry, whether the next commit sends
every line, whether a full mirror is awaited after a gap, with the lines that have arrived since the last commit record
(their place in the view, data and uncorrectable words), whether the partner has asked for a full mirror, and whether
EV_IMG_STALE has been raised since the last commit. -/
structure Image where
  swapped : Bool
  marks : Nat
  flags : Nat
  time : Nat
  written : List Nat
  carry : List Nat
  full : Bool
  gap : Bool
  staged : List (Nat × List Byte × Nat)
  asked : Bool
  stale : Bool
  deriving DecidableEq, Repr, Inhabited

/-! ## The Span -/

/-- A packet that waits for a span port's arbiter: its source of R338 (0 forwarded request, 1 mirroring, 2
link control), its context, the accepted request that it forwards, what waits for its acknowledgement, and of a mirrored line the words that are uncorrectable
(a bit each, R221). -/
structure SpanItem where
  src : Nat
  ctx : Nat
  pkt : Pkt
  order : Option Nat
  mark : Option SpanMark
  bad : Nat
  deriving DecidableEq, Repr, Inhabited

/-- A journal entry (R367 to R369): its number, the host request it describes, whether it is an unlocking
write, the window that resolved it, the SIDE of the device that received it. On the owner also the
accepted request it belongs to, and whether the link layer has acknowledged its packet. -/
structure JEntry where
  jseq : Nat
  pkt : Pkt
  locked : Bool
  window : Nat
  rxSide : Bool
  order : Nat
  acked : Bool
  deriving DecidableEq, Repr, Inhabited

/-- What a device knows of its partner and its pair (R355 to R374): the arrival of the last heartbeat on
each port and the heartbeats counted, the contents of the latest heartbeat, the renewal of each lease
(segment, instant), packets that wait for the port arbiters, the journal as owner (next number and
unretired entries by segment) and as partner (entries by segment, marks by segment and context), the
last packet received, handovers begun, handovers whose release waits for the partner's OWN,
segments about to be taken (1 by takeover, 2 by handover), walks that have reported an uncertain entry, entries
still to walk after a takeover, and the commit records discarded until a full mirror. -/
structure Span where
  hbAt : SMap Nat
  hbCount : SMap Nat
  own : Nat
  avail : Nat
  jrn : Nat
  side : Bool
  heard : Bool
  known : Bool
  renewed : SMap Nat
  queue : SMap (List SpanItem)
  nextJ : SMap Nat
  sent : SMap (List JEntry)
  held : SMap (List JEntry)
  marks : List (Nat × Nat × Nat)
  lastRx : Nat
  handover : List Nat
  released : List Nat
  taking : SMap Nat
  unsure : List Nat
  walk : SMap (List JEntry)
  reissued : List (Nat × Nat × JEntry)
  deriving DecidableEq, Repr, Inhabited

/-! ## Contexts on couriers -/

/-- A token t0 to t7 (R242, R243, R279): its state 0 FREE, 1 PENDING, 2 DONE; the completion status, the
read data, the bus time in ns, the CRTY_N answers received. -/
structure Token where
  state : Nat
  status : Nat
  data : Word
  busNs : Nat
  retries : Nat
  deriving DecidableEq, Repr, Inhabited

/-- A token resolution that arrives while the context's courier is migrating (R247 step 4). -/
structure HeldToken where
  ctx : Nat
  token : Nat
  status : Nat
  data : Word
  busNs : Nat
  answers : Nat
  deriving DecidableEq, Repr, Inhabited

/-- What a WAIT waits for (R281): nothing, tokens by mask (any or all), an event, or a time. -/
inductive WaitFor where
  | none
  | tokens (mask : Nat) (all : Bool)
  | event (e : Nat)
  | time
  deriving DecidableEq, Repr, Inhabited

/-- The architectural state of a context with a program (R237), its item slot (R241) and whether an
interrupt line put the item, and where it stands with the scheduler: the WAIT it is in, whether a wake has
been recorded (R239), since when it is READY and bound and under which class (R240), the inbound marks of
the work items it has taken since its last MSG (R284), its last trap, when its WAIT ends by time on the time base
(R282), since when its WAIT holds its thread (R240),
whether its instruction already waits for a courier tag (R242). -/
structure Arch where
  w : List Word
  z : Bool
  n : Bool
  c : Bool
  v : Bool
  d : List (BitVec 128)
  t : List Token
  pc : Nat
  inTrap : Bool
  trapPc : Nat
  item : Option Word
  waitFor : WaitFor
  wake : Bool
  readyAt : Nat
  boundAt : Nat
  marks : List (Nat × Nat)
  lastCause : Nat
  lastInfo : Word
  due : Option Nat
  waitSince : Option Nat
  itemLine : Bool
  boundCls : Nat
  tagWait : Bool
  deriving DecidableEq, Repr, Inhabited

/-! ## Queues -/

/-- One word of a queue with its check state (R332). -/
structure QWord where
  val : Word
  ecc : Ecc
  deriving DecidableEq, Repr, Inhabited

/-- One packet of a notice or event queue (R323): its producer, its words not yet taken, the count of
its data words, whether its length word is still to be taken, and whether it is open. -/
structure QPacket where
  ctx : Nat
  src : Nat
  trunc : Bool
  words : List QWord
  count : Nat
  lenLeft : Bool
  lenEcc : Ecc
  isOpen : Bool
  deriving DecidableEq, Repr, Inhabited

/-- One item of a work queue (R326): whether it holds a line's reserved word, whether an interrupt line put it, and its
check state (R332). -/
structure WorkItem where
  val : Word
  reserved : Bool
  line : Bool
  ecc : Ecc
  deriving DecidableEq, Repr, Inhabited

/-- One Flacon queue (R317 to R336). -/
structure Queue where
  packets : List QPacket
  items : List WorkItem
  loss : Bool
  lossQuiet : Bool
  truncNext : List (Nat × Nat)
  wpos : Nat
  testing : Bool
  retired : Bool
  deriving DecidableEq, Repr, Inhabited

/-- A record that waits to enter a notice or event queue behind an open packet (R285, R324): with `notice` its notice
follows, and an event's record is followed by its message (R417). -/
structure BridgeRecord where
  queue : Nat
  ctx : Nat
  src : Nat
  words : List Word
  notice : Bool
  event : Option Nat
  deriving DecidableEq, Repr, Inhabited

/-! ## Events, faults and tests -/

/-- An event record (R418). -/
structure EvRec where
  event : Nat
  ctx : Nat
  rep : Nat
  detail : Nat
  time : Nat
  deriving DecidableEq, Repr, Inhabited

/-- The merge account of a source with RATE (R419): the time of its last record and the raises merged
since, with the last of them. -/
structure Merge where
  event : Nat
  merged : Nat
  lastRec : EvRec
  deriving DecidableEq, Repr, Inhabited

/-- A notice that waits for inbound posted data (R17). -/
structure HeldNotice where
  ctx : Nat
  queue : Nat
  origin : Nat
  marks : List (Nat × Nat)
  deriving DecidableEq, Repr, Inhabited

/-- A resource that a targeted test concerns (R406). -/
inductive Resource where
  | ledgerRow (bank row : Nat)
  | queueRow (block row : Nat)
  | chain (q : Nat)
  | courier (c : Nat)
  | lane (k : Nat)
  | slot (n slots : Nat)
  deriving DecidableEq, Repr, Inhabited

/-- A test in the Innkeeper's queue (R410). -/
structure Test where
  res : Resource
  detail : Nat
  deriving DecidableEq, Repr, Inhabited

/-- The step that a row test has reached (R407). -/
inductive RowStep where
  | copying | marching | restoring
  deriving DecidableEq, Repr, Inhabited

/-- A running test: the test, and for a row its spare and step. -/
structure ActiveTest where
  test : Test
  spare : Nat
  step : RowStep
  deriving DecidableEq, Repr, Inhabited

/-! ## Outpost chains -/

/-- What a chain controller holds of one Outpost (R387, R396 to R398, R403): the SEQ expected next, whether
the next edge accepted carries LOSS, the NEDGE of its record in the frame before, whether this frame's record
was good, the fields of the last good record with the TIME of its frame (IN, DIAG, byte 0, VF), frames in a row
without a good record, whether it is absent, whether it had cleared UNCONF, the next parameter of its
configuration. -/
structure Outpost where
  expect : Nat
  lossNext : Bool
  nedge : Nat
  good : Bool
  inp : Nat
  diag : Nat
  b0 : Nat
  vf : Nat
  time : Nat
  miss : Nat
  absent : Bool
  conf : Bool
  confPos : Nat
  deriving DecidableEq, Repr, Inhabited

/-- A service slot (R395): the Outpost, the parameter, the value written. -/
structure Slot where
  outpost : Nat
  param : Nat
  value : Nat
  deriving DecidableEq, Repr, Inhabited

/-- One Outpost chain controller (R382 to R403): the next FSEQ, the frame in progress (whether there is one, its
FSEQ, its TIME in µs, the up records received, whether it started in DRAINING), its Outposts, the parameters
marked to be sent, the service slot of the frame in progress, the place of the rotation, the edge entry words
of the frame, the copy of the commands, frame ends without an output commit, whether every record carries
SAFE, frames since entry to ON, frames still to send in DRAINING, whether an image does not fit. -/
structure Chain where
  fseq : Nat
  busy : Bool
  cur : Nat
  timeUs : Nat
  pos : Nat
  last : Bool
  posts : SMap Outpost
  marked : List (Nat × Nat)
  slot : Option Slot
  rot : Nat
  edges : List Word
  copy : List Nat
  silent : Nat
  safe : Bool
  frames : Nat
  drain : Nat
  inBad : Bool
  outBad : Bool
  rd : Bool
  deriving DecidableEq, Repr, Inhabited

/-! ## Timers -/

/-- The intervals that the device measures and that a row of the table ends. -/
inductive Timer where
  | vote (rpl : Bool) (ctx seq : Nat)
  | rejoinCopy (ctx seq ch : Nat)
  | rejoin (ch : Nat)
  | lock (l : LockName)
  | semWait (order : Nat)
  | openPkt (q : Nat)
  | compat (ctx : Nat)
  | backoff (a who : Nat)
  | retry (s order : Nat)
  | losDown (k : Nat)
  | nak (p : Nat)
  | train (p : Nat)
  | replay (p : Nat)
  | rtPhase (p : Nat)
  | keep (s : Nat)
  | keepCut (s : Nat)
  | rspLow (s : Nat)
  | cintRearm (s l : Nat)
  | cardReset (s : Nat)
  | prefetch (s id : Nat)
  | inb (s : Nat)
  | grant (s : Nat)
  | tenure (s : Nat)
  | guard
  | pass
  | dirty
  | rate (ev : Nat)
  | silent (p : Nat)
  | beat (p : Nat)
  | miss (p : Nat)
  | lease (s : Nat)
  | cold (s : Nat)
  | handover (s : Nat)
  | frame (k : Nat)
  | frameTmo (k : Nat)
  | chainStart (k : Nat)
  | huExit
  | tsync
  | xspi
  | scrub
  deriving DecidableEq, Repr, Inhabited

/-- The scheduler beside its registers (R289 to R310): the timing in force (stage and offset in µs, legs),
the instant at which the leg in progress started (device clock), the instant of the time base of the last boundary
or step, the pending plan and HOT; runs of successive
conversions at or below ENTER, LOW and LG, and of die conversions above or below the thresholds; the die
sensor converted next; whether EV_NRG_SHORT has been raised since HOLD-UP was entered; lane time outside
electrical idle and bus time by segment in this stage, in ns. -/
structure Sched where
  stage : Nat
  offset : Nat
  legs : Nat
  legClk : Nat
  past : Nat
  pend : Option (Nat × Bool)
  huRun : Nat
  vinRun : Nat
  lgRun : Nat
  warmUp : Nat
  hotUp : Nat
  warmDown : Nat
  hotDown : Nat
  sensor : Fin 4
  shortSaid : Bool
  laneNs : Nat
  segNs : SMap Nat
  deriving DecidableEq, Repr, Inhabited

/-- The discipline of the time base beside its registers (R493 to R495): the last TSYNC edge taken (device
clock), corrections in a row within the slew limit, whether the peer offset alarm has been raised. -/
structure Discipline where
  lastEdge : Option Nat
  good : Nat
  peerSaid : Bool
  deriving DecidableEq, Repr, Inhabited

/-! ## Boot and security -/

/-- The one-time programmable memory and the vault (R475, R476): the lifecycle fuses, the two key hashes, the
device key, the die number, the energy calibration. -/
structure Otp where
  fuses : Nat
  keyHash : Option (List Byte)
  dbgHash : Option (List Byte)
  vault : Option (List Byte)
  die : BitVec 64
  energy : BitVec 64
  deriving DecidableEq, Repr, Inhabited

/-- What the boot directory in force holds (R456, R461): the active slot, the slot on trial, its boots left, the
slots CONFIRMED and TRIAL_FAILED (a bit each), the flash mode and clock, starts and fallbacks, and the reason and
the failed slots of a start that ended in a reset after its step 4. -/
structure Directory where
  active : Nat
  trial : Option Nat
  bootsLeft : Nat
  confirmed : Nat
  failed : Nat
  mode : Nat
  mhz : Nat
  starts : Nat
  fallbacks : Nat
  pend : Option (Nat × Nat)
  deriving DecidableEq, Repr, Inhabited

/-- A copy of the boot directory in the flash that is valid (R456): its sequence number, and what it holds. -/
structure DirCopy where
  seq : Nat
  dir : Directory
  deriving DecidableEq, Repr, Inhabited

/-- The two copies of the boot directory (R455, R456); a copy that is not valid is none. -/
structure DirCopies where
  copy0 : Option DirCopy
  copy1 : Option DirCopy
  deriving DecidableEq, Repr, Inhabited

/-- Whether copy 1 is the one in force: it is valid, and copy 0 is not or has the lower number (R456). -/
def DirCopies.second (x : DirCopies) : Bool :=
  match x.copy0, x.copy1 with
  | some a, some b => decide (a.seq < b.seq)
  | _, b => b.isSome

/-- The copy in force: the valid one with the higher number. -/
def DirCopies.best (x : DirCopies) : Option DirCopy := if x.second then x.copy1 else x.copy0

/-- A directory written (R456): into the copy with the lower number, or one that is not valid, with the higher
number plus 1. The first number of a blank flash is 1, which no later choice of a copy rests on. -/
def DirCopies.write (x : DirCopies) (d : Directory) : DirCopies :=
  let n := match x.best with | some c => (c.seq + 1) % 2 ^ 32 | none => 1
  if x.second then { x with copy0 := some ⟨n, d⟩ }
  else if x.copy0.isSome then { x with copy1 := some ⟨n, d⟩ } else { x with copy0 := some ⟨n, d⟩ }

/-- A boot command that runs (R468): its operation, its slot, the flash place it writes, the staging area, and the
bytes staged there when it began. -/
structure BootCmd where
  op : Nat
  slot : Nat
  dst : Nat
  src : Nat
  data : List Byte
  deriving DecidableEq, Repr, Inhabited

/-- The start beside its registers: whether an image runs, and the settings schemas that it reads. -/
structure Boot where
  running : Bool
  schemas : List Nat
  deriving DecidableEq, Repr, Inhabited

/-- The TAP (R481, R482): the instruction in force, the boundary register preloaded, the challenge drawn, and
until when no authentication is accepted. -/
structure Tap where
  ir : Nat
  boundary : List Bool
  challenge : List Byte
  blocked : Nat
  deriving DecidableEq, Repr, Inhabited

/-- The machine. -/
structure State where
  power : Power
  clk : Nat
  member : Member
  side : Bool
  supOut : Nat
  regs : SMap Word
  arbActive : SMap Word
  latches : SMap (Nat × Word)
  timers : List (Timer × Nat)
  tb : Nat
  tbSlew : Int
  tbHold : Nat
  disc : Discipline
  out : List Out
  ports : SMap Port
  links : SMap Link
  lanes : SMap Lane
  records : List Record
  discords : List (Nat × Nat)
  synced : List Synced
  noQuorum : Bool
  recsOut : Nat
  slotsOut : Nat
  ahead : SMap Nat
  advances : SMap Nat
  retention : SMap (List Msg)
  execs : List Exec
  order : Nat
  segs : SMap Seg
  locks : List HeldLock
  arbs : SMap Arb
  queues : SMap Queue
  qram : List Host.Cell
  ledger : List Host.Cell
  ledgerBad : SMap Ecc
  images : SMap Image
  span : Span
  bridgeWait : List BridgeRecord
  history : List EvRec
  merges : List Merge
  heldNotices : List HeldNotice
  tests : List Test
  active : List ActiveTest
  errAt : SMap Nat
  transients : List (Resource × Nat)
  replaced : List Resource
  spareUsed : SMap Nat
  compat : SMap Word
  archs : SMap Arch
  busNs : SMap Nat
  imem : List Host.Cell
  dmem : List Host.Cell
  dmemBad : SMap Ecc
  imemBad : SMap Ecc
  trace : SMap (List Word)
  traceNum : Nat
  tracePost : Option Nat
  /-- The CORE cycle of the last occurrence that the trace took, and how many of that cycle it has taken (R486). -/
  traceAt : Nat × Nat
  restarts : Nat
  commitRuns : Bool
  migrating : List (Nat × Nat × Nat)
  heldTokens : List HeldToken
  courSlots : SMap Nat
  chains : SMap Chain
  sched : Sched
  lastGasp : List Host.Cell
  dirtySince : Nat
  otp : Otp
  lifecycle : Nat
  fusing : List Nat
  flash : List Host.Cell
  dirs : DirCopies
  bootCmd : Option BootCmd
  boot : Boot
  tap : Tap
  freezeHigh : Bool
  xspiLow : Bool
  pllSaid : Option Nat
  nextFree : Nat
  pending : List Instr
  deriving DecidableEq, Repr, Inhabited

/-- An empty queue. -/
def Queue.empty : Queue := ⟨[], [], false, false, [], 0, false, false⟩

/-- A port without tags, credits or messages. -/
def Port.idle : Port := ⟨[], ⟨0, 0, 0, 0⟩, ⟨0, 0, 0, 0⟩, false, ⟨0, 0, 0, 0⟩, [], []⟩

/-- A link layer whose lanes are idle. -/
def Link.idle : Link := ⟨.off, [], [], [], [], 0, [], 0, 0⟩

/-- A lane at reset: the CTLE setting is the reset value of LN_CTLE.SETTING. -/
def Lane.idle : Lane := ⟨0, 0, 0, 0, 0, 0, 0, 8⟩

/-- A segment with nothing on its bus. -/
def Seg.idle : Seg :=
  ⟨.idle, [], none, [], [], [], 0, 0, [], .none, [], false, 0, none, 0, false, false, false, false, 0, false⟩

/-- An arbiter instance without accounts. -/
def Arb.idle : Arb := ⟨[], 0, 0, false⟩

/-- A Span unit that has heard nothing. -/
def Span.fresh : Span :=
  { hbAt := [], hbCount := [], own := 0, avail := 0, jrn := 0, side := false,
    heard := false, known := false, renewed := [], queue := [], nextJ := [], sent := [], held := [],
    marks := [], lastRx := 0, handover := [], released := [], taking := [], unsure := [], walk := [], reissued := [] }

/-- The scheduler at reset: the timing of the reset values of STG_TIM and STG_OFS. -/
def Sched.fresh : Sched :=
  { stage := 10000, offset := 0, legs := 10, legClk := 0, past := 0, pend := none, huRun := 0, vinRun := 0, lgRun := 0,
    warmUp := 0, hotUp := 0, warmDown := 0, hotDown := 0, sensor := 0, shortSaid := false, laneNs := 0,
    segNs := [] }

/-- An Outpost of which nothing has been heard. -/
def Outpost.fresh : Outpost := ⟨0, false, 0, false, 0, 0, 0, 0, 0, 0, false, false, 0⟩

/-- A chain controller that has sent no frame. -/
def Chain.fresh : Chain :=
  { fseq := 0, busy := false, cur := 0, timeUs := 0, pos := 0, last := false, posts := [], marked := [],
    slot := none, rot := 0, edges := [], copy := List.replicate 8 0, silent := 0, safe := false, frames := 0,
    drain := 0, inBad := false, outBad := false, rd := false }

/-- An image with its buffers as at enable and nothing written. -/
def Image.fresh : Image := ⟨false, 0, 0, 0, [], [], true, false, [], false, false⟩

/-- The architectural state of a context on entry to ON, but for PC (R237). -/
def Arch.fresh : Arch :=
  { w := List.replicate 32 0, z := false, n := false, c := false, v := false,
    d := List.replicate 8 0, t := List.replicate 8 ⟨0, 0, 0, 0, 0⟩, pc := 0, inTrap := false,
    trapPc := 0, item := none, waitFor := .none, wake := false,
    readyAt := 0, boundAt := 0, marks := [], lastCause := 0, lastInfo := 0, due := none, waitSince := none,
    itemLine := false, boundCls := 0, tagWait := false }

/-- The TAP after power-on. -/
def Tap.fresh : Tap := ⟨0x02, [], [], 0⟩

/-- Why a step faults: every state and every operand of a command of this block has an effect, if only none. -/
inductive Fault where
  /-- Raised by nothing; safe. -/
  | none
  deriving DecidableEq, Repr

/-- Why a step refuses. -/
inductive Refusal where
  /-- Raised by `exec` for a command whose meaning is not written; safe. -/
  | notModelled (mnemonic : String)
  deriving DecidableEq, Repr

/-- The machine held in the reset of power-on (R496 to R498): every register at its reset value, with the
cause POWER_ON in the history, the flash blank, the fuses and the vault as a part in MANUFACTURE has them. -/
def State.reset : State :=
  { power := .held, clk := 0, member := .ux4816, side := false, supOut := 0,
    regs := [(CRP_RST_HIST, 1)], arbActive := [], latches := [], timers := [], tb := 0, tbSlew := 0,
    tbHold := 0, disc := ⟨none, 0, false⟩, out := [], ports := [], links := [], lanes := [], records := [],
    discords := [], synced := [], noQuorum := false, recsOut := 0, slotsOut := 0, ahead := [],
    advances := [], retention := [], execs := [], order := 0, segs := [], locks := [], arbs := [],
    queues := [], qram := [], ledger := [], ledgerBad := [], images := [], span := Span.fresh,
    bridgeWait := [], history := [], merges := [], heldNotices := [], tests := [], active := [],
    errAt := [], transients := [], replaced := [], spareUsed := [], compat := [], archs := [], busNs := [],
    imem := [], dmem := [], dmemBad := [], imemBad := [], trace := [], traceNum := 0, tracePost := none, traceAt := (0, 0), restarts := 0,
    commitRuns := false, migrating := [], heldTokens := [], courSlots := [], chains := [], sched := Sched.fresh,
    lastGasp := [], dirtySince := 0,
    otp := ⟨0, none, none, none, Config.dieNumber, Config.energyCal⟩, lifecycle := 0, fusing := [],
    flash := [], dirs := ⟨none, none⟩, bootCmd := none, boot := ⟨false, []⟩, tap := Tap.fresh,
    freezeHigh := true, xspiLow := true, pllSaid := none, nextFree := 0, pending := [] }

end Sys2Proof.Machine
end

