-- ==== Sys2Proof/Machine/Ops.lean ====
section
/-! DEFINITION. The named operations over the state that every family shares: sparse maps, the register
file, time and timers, units present on the member, checksums, the notice and event queues, event
raising (R417), the release of messages (R54, R55), and the error record of a context (R423). -/

namespace Sys2Proof.Machine

/-! ## Sparse maps -/

/-- The entry of key `k`, if one is listed. -/
def mfind {α : Type} : SMap α → Nat → Option α
  | [], _ => none
  | (k', v) :: t, k => if k' = k then some v else mfind t k

/-- The value of key `k`: the listed one, or the default `d`. -/
def mget {α : Type} (m : SMap α) (k : Nat) (d : α) : α := (mfind m k).getD d

/-- The map with key `k` listed with value `v`, keys rising. -/
def mins {α : Type} : SMap α → Nat → α → SMap α
  | [], k, v => [(k, v)]
  | (k', v') :: t, k, v =>
    if k < k' then (k, v) :: (k', v') :: t
    else if k = k' then (k, v) :: t
    else (k', v') :: mins t k v

/-- The map without an entry for key `k`. -/
def mdel {α : Type} : SMap α → Nat → SMap α
  | [], _ => []
  | (k', v') :: t, k => if k' = k then mdel t k else (k', v') :: mdel t k

/-- The map in which key `k` has value `v`: listed unless `v` is the default `d`. -/
def mput {α : Type} [DecidableEq α] (m : SMap α) (k : Nat) (v d : α) : SMap α :=
  if v = d then mdel m k else mins m k v

/-- Keys strictly rise along the list, from above `lo`. -/
def rising {α : Type} : SMap α → Option Nat → Bool
  | [], _ => true
  | (k, _) :: t, none => rising t (some k)
  | (k, _) :: t, some lo => decide (lo < k) && rising t (some k)

/-- The canonical form of a sparse map with default `d`. -/
def mwf {α : Type} [DecidableEq α] (m : SMap α) (d : α) : Bool :=
  rising m none && m.all (fun e => decide (e.2 ≠ d))

/-! ## Bytes and checksums -/

/-- `n` bytes of a number, least significant first (R28). -/
def leBytes : Nat → Nat → List Byte
  | 0, _ => []
  | n + 1, x => BitVec.ofNat 8 x :: leBytes n (x / 256)

/-- The number whose bytes, least significant first, are given. -/
def leNat : List Byte → Nat
  | [] => 0
  | b :: t => b.toNat + 256 * leNat t

/-- `f` applied `n` times. -/
def iter {α : Type} (f : α → α) : Nat → α → α
  | 0, x => x
  | n + 1, x => iter f n (f x)

/-- One bit of the CRC-32C of R82, reflected. -/
def crc32cBit (c : Word) : Word :=
  if c.getLsbD 0 then (c >>> 1) ^^^ 0x82F63B78#32 else c >>> 1

/-- The running CRC-32C advanced over one byte (R82, R267). -/
def crc32cByte (c : Word) (b : Byte) : Word := iter crc32cBit 8 (c ^^^ b.setWidth 32)

/-- The CRC-32C of R82 over bytes. -/
def crc32c (bs : List Byte) : Word := (bs.foldl crc32cByte 0xFFFFFFFF#32) ^^^ 0xFFFFFFFF#32

/-- One bit of the CRC-64 of R108. -/
def crc64Bit (c : BitVec 64) : BitVec 64 :=
  if c.getLsbD 63 then (c <<< 1) ^^^ 0x42F0E1EBA9EA3693#64 else c <<< 1

/-- The CRC-64 of R108 over bytes. -/
def crc64 (bs : List Byte) : BitVec 64 :=
  bs.foldl (fun c b => iter crc64Bit 8 (c ^^^ BitVec.ofNat 64 (b.toNat * 2 ^ 56))) 0

/-- Bytes of a sparse byte memory from an address up. -/
def readMem (m : List Host.Cell) (d : Byte) : Nat → Nat → List Byte
  | _, 0 => []
  | a, n + 1 => mget m a d :: readMem m d (a + 1) n

/-- A sparse byte memory with bytes written from an address up. -/
def writeMem (m : List Host.Cell) (d : Byte) : Nat → List Byte → List Host.Cell
  | _, [] => m
  | a, b :: bs => writeMem (mput m a b d) d (a + 1) bs

/-! ## The register file -/

/-- The stored word of the register at `a`. -/
def State.word (s : State) (a : Nat) : Word := mget s.regs a (resetWord a)

/-- The state with the register word at `a` replaced. -/
def State.setWord (s : State) (a : Nat) (w : Word) : State :=
  { s with regs := mput s.regs a w (resetWord a) }

/-- The value of a field. -/
def State.get (s : State) (f : FRef) : Nat := bits (s.word f.reg) f.lo f.w

/-- Whether a field is not zero. -/
def State.on (s : State) (f : FRef) : Bool := s.get f != 0

/-- The state with a field replaced. -/
def State.put (s : State) (f : FRef) (v : Nat) : State :=
  s.setWord f.reg (setBits (s.word f.reg) f.lo f.w v)

/-- The state with a counting field advanced by `k`, saturating. -/
def State.bumpBy (s : State) (f : FRef) (k : Nat) : State :=
  s.put f (satAdd (2 ^ f.w - 1) (s.get f) k)

/-- The state with a counting field advanced by one, saturating. -/
def State.bump (s : State) (f : FRef) : State := s.bumpBy f 1

/-- The state with a counting field advanced by one, modulo its width. -/
def State.incr (s : State) (f : FRef) : State := s.put f (s.get f + 1)

/-! ## Members and units -/

/-- Couriers of the member (R1). -/
def Member.couriers : Member → Nat
  | .ux4816 => 16 | .ux4808 => 8 | .ux4804 => 4

/-- Segments of the member (R1). -/
def Member.segments : Member → Nat
  | .ux4816 => 4 | .ux4808 => 2 | .ux4804 => 1

/-- Span ports of the member (R1). -/
def Member.spans : Member → Nat
  | .ux4816 => 2 | .ux4808 => 1 | .ux4804 => 0

/-- Outpost chains of the member (R1). -/
def Member.chains : Member → Nat
  | .ux4816 => 4 | .ux4808 => 2 | .ux4804 => 1

/-- Bytes of Ledger of the member (R1). -/
def Member.ledgerBytes : Member → Nat
  | .ux4816 => 0x800000 | .ux4808 => 0x400000 | .ux4804 => 0x200000

/-- Ports of the member: H0 to H2, then its span ports. -/
def Member.ports (m : Member) : Nat := 3 + m.spans

/-- Whether the port is present on the member (R1). -/
def State.hasPort (s : State) (p : Nat) : Bool := decide (p < s.member.ports)

/-- Whether the segment is present on the member (R1). -/
def State.hasSeg (s : State) (g : Nat) : Bool := decide (g < s.member.segments)

/-- The inbound areas whose registers an address reaches (R193, R203): those of area 2 have no address of their own, and
the area stays disabled, as its EN is after reset. -/
def inbAreas : List Nat := [0, 1, 3]

/-- Whether an event source belongs to a unit present on the member and is not reserved (R4, R416). -/
def eventExists (m : Member) (e : Nat) : Bool :=
  if e < 15 then true
  else if e < 20 then false
  else if e < 22 then true
  else if e < 24 then false
  else if e < 70 then true
  else if e < 80 then decide (e - 70 < 2 * m.ports)
  else if e < 90 then decide (e - 80 < 2 * m.ports)
  else if e < 95 then decide (e - 90 < m.ports)
  else if e < 100 then decide (e - 95 < m.ports)
  else if e < 105 then decide (e - 100 < m.ports)
  else if e < 114 then decide (0 < m.spans)
  else if e < 128 then false
  else if e < 192 then decide ((e - 128) / 16 < m.segments) && decide ((e - 128) % 16 ≠ 15)
  else if e < 256 then decide ((e - 192) / 16 < m.chains)
  else decide (e < 512)

/-! ## Accessors of the parts -/

/-- The transaction layer of port `p`. -/
def State.port (s : State) (p : Nat) : Port := mget s.ports p Port.idle

/-- The state with the transaction layer of port `p` replaced. -/
def State.setPort (s : State) (p : Nat) (x : Port) : State :=
  { s with ports := mput s.ports p x Port.idle }

/-- The link layer of port `p`. -/
def State.link (s : State) (p : Nat) : Link := mget s.links p Link.idle

/-- The state with the link layer of port `p` replaced. -/
def State.setLink (s : State) (p : Nat) (x : Link) : State :=
  { s with links := mput s.links p x Link.idle }

/-- What lane `k` holds beside its registers. -/
def State.lane (s : State) (k : Nat) : Lane := mget s.lanes k Lane.idle

/-- The state with what lane `k` holds replaced. -/
def State.setLane (s : State) (k : Nat) (x : Lane) : State :=
  { s with lanes := mput s.lanes k x Lane.idle }

/-- The controller of segment `g`. -/
def State.seg (s : State) (g : Nat) : Seg := mget s.segs g Seg.idle

/-- The state with the controller of segment `g` replaced. -/
def State.setSeg (s : State) (g : Nat) (x : Seg) : State :=
  { s with segs := mput s.segs g x Seg.idle }

/-- Arbiter instance `a`. -/
def State.arb (s : State) (a : Nat) : Arb := mget s.arbs a Arb.idle

/-- The state with arbiter instance `a` replaced. -/
def State.setArb (s : State) (a : Nat) (x : Arb) : State :=
  { s with arbs := mput s.arbs a x Arb.idle }

/-- Queue `q`. -/
def State.queue (s : State) (q : Nat) : Queue := mget s.queues q Queue.empty

/-- The state with queue `q` replaced. -/
def State.setQueue (s : State) (q : Nat) (x : Queue) : State :=
  { s with queues := mput s.queues q x Queue.empty }

/-- The architectural state of context `n`. -/
def State.arch (s : State) (n : Nat) : Arch := mget s.archs n Arch.fresh

/-- The state with the architectural state of context `n` replaced. -/
def State.setArch (s : State) (n : Nat) (x : Arch) : State :=
  { s with archs := mput s.archs n x Arch.fresh }

/-- The state with an output added. -/
def State.emit (s : State) (o : Out) : State := { s with out := s.out ++ [o] }

/-! ## Time -/

/-- The time base in ns (R492). -/
def State.now (s : State) : Nat := s.tb / 2 ^ 24

/-- The time base in µs. -/
def State.nowUs (s : State) : Nat := s.now / 1000

/-- The signed trim of CRP_TB_RATE in ppb (R492). -/
def State.rate (s : State) : Int :=
  let r := s.get CRP_TB_RATE_RATE
  if r < 2 ^ 20 then (r : Int) else (r : Int) - 2 ^ 21

/-- The advance of the time base in `k` TIME cycles before any slew, in 2^-24 ns (R492). -/
def State.tbAdvance (s : State) (k : Nat) : Int :=
  let ssc : Int := if s.on CRP_REF_SSC then 2500000 else 0
  (k : Int) * 10 * (1000000000 + ssc + s.rate) * 2 ^ 24 / 1000000000

/-- The time base after `k` TIME cycles: it stands while it holds (R493), and a slew adds or takes at
most 1 ns per µs. -/
def State.tbRun (s : State) (k : Nat) : State :=
  if s.tbHold = 0 then
    let room : Int := (k : Int) * 10 * 2 ^ 24 / 1000
    let step : Int := max (-room) (min room s.tbSlew)
    { s with tb := s.tb + (s.tbAdvance k + step).toNat, tbSlew := s.tbSlew - step }
  else
    { s with tbHold := s.tbHold - min s.tbHold (k * 10) }

/-- Lanes whose transmitter is outside electrical idle. -/
def State.lanesAwake (s : State) : Nat :=
  ((List.range (2 * s.member.ports)).filter (fun k => !s.on (LN_STAT_EIDLE_TX k))).length

/-- Time moves on by `n` ns: the clock, the time base by the TIME cycles that pass, and the lanes' time
outside electrical idle (R306). -/
def State.elapse (s : State) (n : Nat) : State :=
  { s.tbRun ((s.clk + n) / 10 - s.clk / 10) with
    clk := s.clk + n, sched := { s.sched with laneNs := s.sched.laneNs + n * s.lanesAwake } }

/-- TIME cycles by which the time base certainly stays short of an instant, at least one. -/
def State.cyclesTo (s : State) (t : Nat) : Nat :=
  max 1 ((t * 2 ^ 24 - s.tb) * 1000 / ((s.tbAdvance 1000).toNat + 10 * 2 ^ 24))

/-- Time moves on until the time base reaches an instant (ns); not at all if it has. -/
def State.untilTb : Nat → State → Nat → State
  | 0, s, _ => s
  | fuel + 1, s, t =>
    if t ≤ s.now then s
    else State.untilTb fuel (s.elapse (s.tbHold + 10 * s.cyclesTo t)) t

/-- When an armed timer is due. -/
def State.dueAt (s : State) (t : Timer) : Option Nat := (s.timers.find? (fun e => e.1 == t)).map (·.2)

/-- The state with a timer off. -/
def State.disarm (s : State) (t : Timer) : State :=
  { s with timers := s.timers.filter (fun e => !(e.1 == t)) }

/-- The state with a timer armed to be due in `n` ns. -/
def State.arm (s : State) (t : Timer) (n : Nat) : State :=
  let s := s.disarm t
  { s with timers := s.timers ++ [(t, s.clk + n)] }

/-- The state with a timer armed to be due at the instant `d` of the device clock. -/
def State.armAt (s : State) (t : Timer) (d : Nat) : State :=
  let s := s.disarm t
  { s with timers := s.timers ++ [(t, d)] }

/-- The CORE cycle of 1.25 ns in which an instant lies (R21, R105). -/
def coreCycle (clk : Nat) : Nat := clk * 4 / 5

/-- The interval of an armed timer passes: time moves on to the instant it is due, and the timer is
off. Nothing for a timer that is not armed. -/
def State.expire (s : State) (t : Timer) : Option State :=
  match s.dueAt t with
  | none => none
  | some d => some ((s.elapse (d - s.clk)).disarm t)

end Sys2Proof.Machine
end

