-- ==== Sys2Proof/Machine/Queues.lean ====
section
/-! DEFINITION. The Flacon queues (R317 to R336): capacity, putting words and items, closing packets,
taking words, resets. Raising the events of a loss is left to the callers (`Events.lean`). -/

namespace Sys2Proof.Machine

/-- Whether a queue number is a courier work queue (R317). -/
def isWorkQueue (q : Nat) : Bool := decide (144 ≤ q)

/-- The ring of queue `q` as its first byte and its size in bytes (R319). -/
def State.ring (s : State) (q : Nat) : Nat × Nat :=
  (s.get (QUE_RBASE_RBASE q) * 256, 2 ^ s.get (QUE_CFG_LOG2 q))

/-- Whether two byte ranges, each a base and a size, share a byte. -/
def rangesMeet (a b : Nat × Nat) : Bool :=
  decide (0 < a.2) && decide (0 < b.2) && decide (a.1 < b.1 + b.2) && decide (b.1 < a.1 + a.2)

/-- Whether the ring of queue `q` breaks a rule of R321. -/
def State.ringConflict (s : State) (q : Nat) : Bool :=
  s.on (QUE_CFG_RING q) &&
    let r := s.ring q
    (decide (0x100000 < r.1 + r.2) || r.1 % r.2 != 0 ||
      (List.range q).any (fun j => s.on (QUE_CFG_RING j) && rangesMeet r (s.ring j)))

/-- Whether queue `q` keeps its words in its ring (R319, R321). -/
def State.usesRing (s : State) (q : Nat) : Bool := s.on (QUE_CFG_RING q) && !s.ringConflict q

/-- How many words queue `q` holds at most (R319). -/
def State.queueCap (s : State) (q : Nat) : Nat := if s.usesRing q then (s.ring q).2 / 4 else 32

/-- Words that a packet occupies: those not yet taken and its length word. -/
def QPacket.size (p : QPacket) : Nat := p.words.length + ofBool p.lenLeft

/-- Words that a queue holds. -/
def Queue.size (x : Queue) : Nat := (x.packets.map QPacket.size).sum + x.items.length

/-- The closed packets of a queue, or its items. -/
def Queue.closed (x : Queue) : Nat :=
  (x.packets.filter (fun p => !p.isOpen)).length + x.items.length

/-- The open packet of a queue, if there is one: always the last. -/
def Queue.openPacket (x : Queue) : Option QPacket := x.packets.find? (·.isOpen)

/-- The length word of a packet (R323). -/
def QPacket.lengthWord (p : QPacket) : Word :=
  BitVec.ofNat 32 (p.count * 4 % 4096 + p.ctx * 2 ^ 16 + p.src * 2 ^ 24 + ofBool p.trunc * 2 ^ 31)

/-- Whether a line's interrupt item has a reserved word in work queue `q` (R326): its segment is on the
member, SEG_INT.EN = 1 and SEG_INT.WQ names the queue. -/
def State.lineFeeds (s : State) (q g l : Nat) : Bool :=
  s.hasSeg g && s.on (SEG_INT_EN g l) && s.get (SEG_INT_WQ g l) + 144 == q

/-- The lines with a word reserved in work queue `q` (R326). -/
def State.reservedLines (s : State) (q : Nat) : Nat :=
  ((List.range 4).map (fun g => ((List.range 4).filter (fun l => s.lineFeeds q g l)).length)).sum

/-- Whether an item stands on the reserved word of a line that still has one in work queue `q` (R326). -/
def State.onReserved (s : State) (q : Nat) (i : WorkItem) : Bool :=
  i.reserved && s.lineFeeds q (bits i.val 10 2) (bits i.val 8 2)

/-- Free shared credits of work queue `q` (R326). -/
def State.credits (s : State) (q : Nat) : Nat :=
  s.queueCap q - s.reservedLines q - ((s.queue q).items.filter (fun i => !s.onReserved q i)).length

/-- A word stored at the write position of queue `q`'s ring, if it uses its ring: host reads of queue
RAM see it there (R321). `back` counts words back from the next write position. -/
def State.ringStore (s : State) (q back : Nat) (w : Word) : State :=
  if s.usesRing q then
    let n := (s.ring q).2 / 4
    let pos := ((s.queue q).wpos + n - back) % n
    { s with qram := writeMem s.qram 0 ((s.ring q).1 + 4 * pos) (leBytes 4 w.toNat) }
  else s

/-- The state with queue `q`'s write position advanced by `k` words. -/
def State.advance (s : State) (q k : Nat) : State :=
  let x := s.queue q
  s.setQueue q { x with wpos := (x.wpos + k) % (s.queueCap q) }

/-- The open packet of queue `q` closed (R323): its length word is written into its slot; with `trunc`
it carries TRUNC, which QUE_LOSS.TRUNC counts. -/
def State.closePacket (s : State) (q : Nat) (trunc : Bool) : State :=
  let x := s.queue q
  match x.openPacket with
  | none => s
  | some p =>
    let p' := { p with isOpen := false, trunc := p.trunc || trunc }
    let s := s.ringStore q (p.count + 1) p'.lengthWord
    let x := s.queue q
    let s := s.setQueue q { x with packets := x.packets.map (fun r => if r.isOpen then p' else r) }
    let s := s.disarm (.openPkt q)
    if p'.trunc then s.bump (QUE_LOSS_TRUNC q) else s

/-- The open packet of queue `q` closed as by the timeout of R324: with TRUNC, and the producer's next
packet also carries TRUNC. -/
def State.closeTruncated (s : State) (q : Nat) : State :=
  match (s.queue q).openPacket with
  | none => s
  | some p =>
    let s := s.closePacket q true
    let x := s.queue q
    s.setQueue q { x with truncNext := x.truncNext ++ [(p.ctx, p.src)] }

/-- Closed packets dropped from the head of a list until `need` words are free or none is left to drop:
the packets that stay and how many were dropped (R325). -/
def dropOldest (cap need : Nat) : List QPacket → List QPacket × Nat
  | [] => ([], 0)
  | p :: t =>
    if ((p :: t).map QPacket.size).sum + need ≤ cap then (p :: t, 0)
    else if p.isOpen then (p :: t, 0)
    else
      let r := dropOldest cap need t
      (r.1, r.2 + 1)

/-- The outcome of putting a word: the state, whether the word was lost or its packet is the
continuation of a truncated one (the C of QPUT, R283), and whether a packet was lost (R325). -/
structure PutResult where
  st : State
  c : Bool
  lost : Bool
  deriving DecidableEq, Repr

/-- One word put into notice or event queue `q` by a producer (R323 to R325, R411). -/
def State.putWord (s : State) (q ctx src : Nat) (w : Word) : PutResult :=
  let x := s.queue q
  if x.retired then ⟨s.bump (QUE_LOSS_LOST q), true, true⟩
  else
    let isOpen := x.openPacket.isSome
    if ((x.openPacket.map (·.count)).getD 0) == 1023 then ⟨s.closeTruncated q, true, true⟩
    else
      let need := if isOpen then 1 else 2
      let r := dropOldest (s.queueCap q) need x.packets
      let s := s.bumpBy (QUE_LOSS_LOST q) r.2
      let x := { x with packets := r.1, loss := x.loss || decide (0 < r.2) }
      let s := s.setQueue q x
      let lost := decide (0 < r.2)
      if s.queueCap q < (x.packets.map QPacket.size).sum + need then
        ⟨s.closeTruncated q, true, true⟩
      else if isOpen then
        let s := s.ringStore q 0 w
        let x := s.queue q
        let s := s.setQueue q { x with packets := x.packets.map (fun p =>
          if p.isOpen then { p with words := p.words ++ [⟨w, .ok⟩], count := p.count + 1 } else p) }
        ⟨s.advance q 1, false, lost⟩
      else
        let cont := x.truncNext.contains (ctx, src)
        let p : QPacket := ⟨ctx, src, cont, [⟨w, .ok⟩], 1, true, .ok, true⟩
        let s := s.advance q 1
        let s := s.ringStore q 0 w
        let x := s.queue q
        let s := s.setQueue q { x with
          packets := x.packets ++ [p], truncNext := x.truncNext.filter (fun e => !(e == (ctx, src))) }
        let s := (s.advance q 1).arm (.openPkt q) (s.get QUE_GLB_OPEN_TMO * 1000)
        ⟨s, cont, lost⟩

/-- Words put one after the other: the state and whether a packet was lost. -/
def State.putWords (s : State) (q ctx src : Nat) : List Word → State × Bool
  | [] => (s, false)
  | w :: ws =>
    let r := s.putWord q ctx src w
    let t := r.st.putWords q ctx src ws
    (t.1, r.lost || t.2)

/-- An empty packet opened and left open (R283: MSG with no packet open). -/
def State.openEmpty (s : State) (q ctx src : Nat) : State × Bool :=
  let x := s.queue q
  if x.retired then (s.bump (QUE_LOSS_LOST q), true)
  else
    let r := dropOldest (s.queueCap q) 1 x.packets
    let s := s.bumpBy (QUE_LOSS_LOST q) r.2
    let cont := x.truncNext.contains (ctx, src)
    let p : QPacket := ⟨ctx, src, cont, [], 0, true, .ok, true⟩
    let s := s.setQueue q { x with
      packets := r.1 ++ [p], loss := x.loss || decide (0 < r.2),
      truncNext := x.truncNext.filter (fun e => !(e == (ctx, src))) }
    ((s.advance q 1).arm (.openPkt q) (s.get QUE_GLB_OPEN_TMO * 1000), decide (0 < r.2))

/-- Whether a producer may put into queue `q` now: no other producer's packet is open and no chain
test runs (R324, R411). -/
def State.mayPut (s : State) (q ctx src : Nat) : Bool :=
  let x := s.queue q
  !x.testing && match x.openPacket with
    | none => true
    | some p => p.ctx == ctx && p.src == src

/-- An item put into work queue `q` on a shared credit (R326), if one is free and no test runs. -/
def State.pushItem (s : State) (q : Nat) (w : Word) (line : Bool := false) : Option State :=
  let x := s.queue q
  if x.testing then none
  else if x.retired then some (s.bump (QUE_LOSS_LOST q))
  else if s.credits q = 0 then none
  else
    let s := s.ringStore q 0 w
    let x := s.queue q
    some ((s.setQueue q { x with items := x.items ++ [⟨w, false, line, .ok⟩] }).advance q 1)

/-- An interrupt item put into its work queue: on the line's reserved word if that is free, else on a
shared credit; none if it must wait (R326). -/
def State.pushInterrupt (s : State) (q : Nat) (w : Word) : Option State :=
  let x := s.queue q
  if x.testing || x.retired then s.pushItem q w true
  else if x.items.any (fun i => i.reserved && bits i.val 8 4 == bits w 8 4) then s.pushItem q w true
  else if s.lineFeeds q (bits w 10 2) (bits w 8 2) && decide (x.items.length < s.queueCap q) then
    let s := s.ringStore q 0 w
    let x := s.queue q
    some ((s.setQueue q { x with items := x.items ++ [⟨w, true, true, .ok⟩] }).advance q 1)
  else s.pushItem q w true

/-- What taking words from a queue gives: the queue left, the words (uncorrectable ones as zero), the
length word first if it was taken, whether the packet began and ended, how many words were
uncorrectable and corrected, and whether the length word was uncorrectable. -/
structure Taken where
  q : Queue
  words : List Word
  start : Bool
  finish : Bool
  ue : Bool
  ce : Nat
  lenUe : Bool
  deriving DecidableEq, Repr

/-- A word as its consumer sees it (R332). -/
def QWord.seen (w : QWord) : Word := if w.ecc = .ue then 0 else w.val

/-- An item as its consumer sees it (R332). -/
def WorkItem.seen (i : WorkItem) : Word := if i.ecc = .ue then 0 else i.val

/-- How many words stand in the queue before the first that the check does not find clean. -/
def Queue.firstBad (x : Queue) : Nat :=
  match x.items, x.packets with
  | [], p :: _ =>
    if p.lenLeft && p.lenEcc != .ok then 0
    else ofBool p.lenLeft + (p.words.takeWhile (·.ecc == .ok)).length
  | _, _ => 0

/-- Up to `n` words of the head packet of a queue, the length word counted as the first (R328). -/
def Queue.take (x : Queue) (n : Nat) : Option Taken :=
  match x.items, x.packets with
  | i :: is, _ =>
    some ⟨{ x with items := is }, [i.seen], true, true, i.ecc == .ue, ofBool (i.ecc == .ce), false⟩
  | [], [] => none
  | [], p :: ps =>
    if p.isOpen then none
    else
      let k := if p.lenLeft then n - 1 else n
      let ws := p.words.take k
      let rest := p.words.drop k
      let p' := { p with words := rest, lenLeft := false }
      let q' := if rest.isEmpty then { x with packets := ps } else { x with packets := p' :: ps }
      some ⟨q', (if p.lenLeft then [p.lengthWord] else []) ++ ws.map QWord.seen, p.lenLeft,
        rest.isEmpty, ws.any (·.ecc == .ue), (ws.filter (·.ecc == .ce)).length +
          ofBool (p.lenLeft && p.lenEcc == .ce), p.lenLeft && p.lenEcc == .ue⟩

/-- The next data word of a queue: length words are skipped, and with them closed packets that hold no word (R283,
R329). `fuel` bounds the packets looked at. -/
def Queue.takeDataN : Nat → Queue → Option Taken
  | 0, _ => none
  | fuel + 1, x =>
    match x.items, x.packets with
    | [], p :: ps =>
      if p.lenLeft && !p.isOpen && p.words.isEmpty && p.lenEcc != .ue then
        (Queue.takeDataN fuel { x with packets := ps }).map (fun t => { t with ce := t.ce + ofBool (p.lenEcc == .ce) })
      else if p.lenLeft then (x.take 2).map (fun t => { t with words := t.words.drop 1 })
      else x.take 1
    | _, _ => x.take 1

/-- The next data word of a queue (R329). -/
def Queue.takeData (x : Queue) : Option Taken := x.takeDataN (x.packets.length + 1)

/-- The asserted lines CINT_N[3:0] of segment `g` (SEG_STAT.CINT). -/
def State.cintLow (s : State) (g l : Nat) : Bool := bitAt (s.get (SEG_STAT_CINT g)) l

/-- Whether this device is OWNER of segment `g` and the segment is ON (R197). -/
def State.owns (s : State) (g : Nat) : Bool :=
  s.hasSeg g && s.get (SEG_STAT_STATE g) == 2 && s.get (SEG_STAT_ROLE g) == 2

/-- An interrupt line looked at (R188): if the segment is ON and OWNER, the line enabled, armed and
asserted, its work item is queued, or waits in the segment for a credit (R326), and it is disarmed. -/
def State.cintTry (s : State) (g l : Nat) : State :=
  if s.owns g && s.on (SEG_INT_EN g l) && (s.seg g).armed.contains l && s.cintLow g l then
    let w : Word := BitVec.ofNat 32
      (s.get (SEG_INT_CTX g l) + l * 2 ^ 8 + g * 2 ^ 10 + (s.seg g).mark % 2 ^ 16 * 2 ^ 16)
    let x := s.seg g
    let s := s.setSeg g { x with armed := x.armed.filter (· != l) }
    match s.pushInterrupt (144 + s.get (SEG_INT_WQ g l)) w with
    | some s => s
    | none =>
      let x := s.seg g
      s.setSeg g { x with held := x.held ++ [w] }
  else s

/-- A line rearmed at once (R189): a line still asserted yields a new work item. -/
def State.rearm (s : State) (g l : Nat) : State :=
  let x := s.seg g
  (s.setSeg g { x with armed := l :: x.armed.filter (· != l) }).cintTry g l

/-- Queue `q` reset (R334): every word and item discarded, packets and items (R328; DEDUCED, log 74) counted in LOST, RESETS
counted, LOSS set for the next pop, the producer of an open packet marked to continue with TRUNC, and
the line of each discarded interrupt item rearmed. -/
def State.resetQueue (s : State) (q : Nat) : State :=
  let x := s.queue q
  let s := s.bumpBy (QUE_LOSS_LOST q) x.closed
  let s := (s.bump (QUE_ECC_RESETS q)).disarm (.openPkt q)
  let cont := match x.openPacket with
    | none => x.truncNext
    | some p => x.truncNext ++ [(p.ctx, p.src)]
  let lines := if isWorkQueue q then x.items.map (fun i => (bits i.val 10 2, bits i.val 8 2)) else []
  let s := s.setQueue q { x with packets := [], items := [], loss := true, truncNext := cont, wpos := 0 }
  lines.foldl (fun s gl => if s.lineFeeds q gl.1 gl.2 then s.rearm gl.1 gl.2 else s) s

end Sys2Proof.Machine
end

