-- ==== Sys2Proof/Machine/Events.lean ====
section
/-! DEFINITION. The Sillage trace (R486), event raising and merging (R417 to R422), the release of
messages and notices (R37, R54, R55, R420), the error record of a context (R423), and records of the
bridge in notice queues (R285). -/

namespace Sys2Proof.Machine

/-! ## The trace -/

/-- Whether the trace records occurrences of a kind (R486). -/
def State.tracing (s : State) (kind : Nat) : Bool :=
  s.on DBG_TRC_CTL_EN && bitAt (s.get DBG_TRC_CTL_KINDS) (kind - 1) && !s.on DBG_TRC_STAT_STOPPED

/-- How many entries the trace has written in the CORE cycle in progress. -/
def State.tracedNow (s : State) : Nat := if s.traceAt.1 = coreCycle s.clk then s.traceAt.2 else 0

/-- An entry written into the trace (R486): where it overwrites one, WRAPPED shows it; a trace that stops when full, or
POST entries after its trigger, stops. -/
def State.traceWrite (s : State) (e : List Word) : State :=
  let i := s.get DBG_TRC_STAT_NEXT
  let s := if (mfind s.trace i).isSome then s.put DBG_TRC_STAT_WRAPPED 1 else s
  let s := { s with trace := mins s.trace i e, traceNum := s.traceNum + 1,
                    traceAt := (coreCycle s.clk, s.tracedNow + 1) }
  let s := s.put DBG_TRC_STAT_NEXT (i + 1)
  let s := if i = 8191 && s.on DBG_TRC_CTL_STOP then s.put DBG_TRC_STAT_STOPPED 1 else s
  match s.tracePost with
  | none => s
  | some k =>
    if k ≤ 1 then { s.put DBG_TRC_STAT_STOPPED 1 with tracePost := none }
    else { s with tracePost := some (k - 1) }

/-- An occurrence for the Sillage trace (R486), recorded where its kind is enabled; beyond two in one CORE cycle it is
dropped and counted. The words 3 to 6 and 7 are the caller's. -/
def State.traceRec (s : State) (kind port : Nat) (body : List Word) (digest : Word) : State :=
  if !s.tracing kind then s
  else if 2 ≤ s.tracedNow then s.bump DBG_TRC_STAT_DROPPED
  else
    let w0 : Word := BitVec.ofNat 32 (kind + port * 2 ^ 4 + s.traceNum % 2 ^ 16 * 2 ^ 16)
    s.traceWrite ([w0, BitVec.ofNat 32 s.now, BitVec.ofNat 32 (s.now / 2 ^ 32)] ++
      (body ++ List.replicate 4 0).take 4 ++ [digest])

/-- The trigger of the trace at an event (R486): the trace stops POST entries later. -/
def State.traceTrigger (s : State) (ev : Nat) : State :=
  if s.on DBG_TRC_CTL_TRIG_EN && s.get DBG_TRC_CTL_TRIG_EVT == ev && s.tracePost.isNone then
    if s.get DBG_TRC_TRIG_POST = 0 then s.put DBG_TRC_STAT_STOPPED 1
    else { s with tracePost := some (s.get DBG_TRC_TRIG_POST) }
  else s

/-! ## Wakes -/

/-- Whether this device holds Outpost chain `k` (R402). -/
def State.holdsChain (s : State) (k : Nat) : Bool :=
  decide (k < s.member.chains) && s.get (OPC_STAT_STATE k) == 2

/-- Whether GATE admits context `n` (R238). -/
def State.gateOpen (s : State) (n : Nat) : Bool :=
  let g := s.get (CTX_PLACE_GATE n)
  if g = 0 then true
  else if g ≤ 4 then s.hasSeg (g - 1) && s.get (SEG_STAT_ROLE (g - 1)) == 2
  else if g = 5 then s.holdsChain (s.get (CTX_PLACE_CHAIN n))
  else false

/-- The RUN state of a context: 0 IDLE, 1 READY, 2 RUNNING, 3 WAITING, 4 SUSPENDED, 5 HALTED, 6 MIGRATING,
7 EVICTED. -/
def State.run (s : State) (n : Nat) : Nat := s.get (CTX_STAT_RUN n)

/-- The physical courier on which context `n` is placed (R246, R247, R249). -/
def State.courOf (s : State) (n : Nat) : Nat :=
  if s.on (CTX_RELOC_RELOCATED n) then s.get (CTX_STAT_COURIER n)
  else s.get (COUR_LMAP_PHYS (s.get (CTX_PLACE_LCOUR n)))

/-- A context that becomes READY takes its place behind those already READY (R240). -/
def State.makeReady (s : State) (n : Nat) : State :=
  let a := s.arch n
  { (s.setArch n { a with readyAt := s.order }).put (CTX_STAT_RUN n) 1 with order := s.order + 1 }

/-- Slots charged to context `n` (R294). -/
def State.charge_ (s : State) (n k : Nat) : State :=
  let c := s.courOf n
  let s := s.bumpBy (CTX_CHG_SLOTS n) k
  { s with courSlots := mput s.courSlots c (mget s.courSlots c 0 + k) 0 }

/-- Slots of a WAIT whose condition is met `t` ns after its issue, the first at once; a slot of a thread is 5 ns (R232,
R281). -/
def slotsOf (t : Nat) : Nat := 1 + (t + 4) / 5

/-- A context leaves its thread with a RUN state; the slots of a WAIT that still held it are charged (R240, R294). -/
def State.unbind (s : State) (n run : Nat) : State :=
  let a := s.arch n
  let s := match a.waitSince with
    | none => s
    | some t => (s.setArch n { a with waitSince := none }).charge_ n (min 4 (slotsOf (s.clk - t)))
  let c := s.get (CTX_STAT_COURIER n)
  let k := s.get (CTX_STAT_THREAD n)
  let v := s.get (COUR_STAT_BUSY c)
  let s := s.put (COUR_STAT_BUSY c) (if bitAt v k then v - 2 ^ k else v)
  (s.put (CTX_STAT_THREAD n) 0).put (CTX_STAT_RUN n) run

/-- A WAIT that has not ended within 4 of its slots leaves its thread (R240, R281). -/
def State.settleWait (s : State) (n : Nat) : State :=
  match (s.arch n).waitSince with
  | none => s
  | some t => if slotsOf (s.clk - t) ≤ 4 then s else s.unbind n 3

/-- Whether context `n` is bound to a thread: RUNNING, or in a WAIT that still holds it (R253). -/
def State.isBound (s : State) (n : Nat) : Bool := s.run n == 2 || ((s.settleWait n).arch n).waitSince.isSome

/-- A context's WAIT ended (R240, R281): the flag C tells a timeout. A context still bound goes on, its slots charged; one
that is WAITING becomes READY, and where GATE does not admit it the wake is discarded and the WAIT goes on (R238); in any
other state the wake is kept. -/
def State.endWait (s : State) (n : Nat) (timedOut : Bool) : State :=
  let s := s.settleWait n
  let a := s.arch n
  let t := s.setArch n { a with waitFor := .none, due := none, c := timedOut, waitSince := none }
  match a.waitSince with
  | some b => (t.charge_ n (slotsOf (s.clk - b))).put (CTX_STAT_RUN n) 2
  | none => if s.run n = 3 then (if s.gateOpen n then t.makeReady n else s) else t

/-- The contexts whose WAIT on event `ev` resolves as it is raised (R281, R417). -/
def State.wakeOnEvent (s : State) (ev : Nat) : State :=
  s.archs.foldl (fun t e => if decide (e.1 < 256) && e.2.waitFor == .event ev then t.endWait e.1 false else t) s

/-! ## Messages -/

/-- Whether context `n` is a VOTED context: context 0 counts as one, since its messages go to every
channel of R18 (R99, R417). -/
def State.isVoted (s : State) (n : Nat) : Bool := n == 0 || !s.on (CTX_VOTE_MODE n)

/-- The channels that a message of context `n` goes to (R18, R54): those ACTIVE, SUSPECT or REJOINING, or
the owner of a SINGLE context. -/
def State.msgPorts (s : State) (n : Nat) : List Nat :=
  if s.isVoted n then (List.range 3).filter (fun c => s.get (ACC_CH_STAT_STATE c) != 2)
  else [s.get (CTX_VOTE_OWNER n)]

/-- Whether a host port takes messages: it is ON or DRAINING (R60). -/
def State.takesMsgs (s : State) (p : Nat) : Bool := decide (2 ≤ s.get (HP_STAT_STATE p))

/-- Whether an entry of a pending list is a message. -/
def PMsg.isMsg : PMsg → Bool
  | .msg _ => true
  | .rpl _ _ _ => false

/-- A pending list without its oldest message (R55). -/
def dropMsg : List PMsg → List PMsg
  | [] => []
  | .msg _ :: t => t
  | .rpl a b c :: t => .rpl a b c :: dropMsg t

/-- A message added to a host port's pending list (R55): with 512 waiting, the oldest is dropped and
counted. The second component tells whether one was dropped. -/
def State.pendMsg (s : State) (p : Nat) (m : Msg) : State × Bool :=
  if !s.takesMsgs p then (s, false)
  else
    let x := s.port p
    if (x.msgs.filter PMsg.isMsg).length < 512 then
      (s.setPort p { x with msgs := x.msgs ++ [.msg m] }, false)
    else
      ((s.setPort p { x with msgs := dropMsg x.msgs ++ [.msg m] }).bump (HP_MSG_DROP_DROPPED p), true)

/-- A message released upstream by context `n` (R37, R54): it takes the next UP_SEQ, enters the
retention buffer of 64, and is pending on the ports of R18. The second component lists the ports that
dropped a message. ITEMS, 'waiting in QUEUE after this one', counts every other complete packet of the queue, those
released before and not yet taken among them (DEDUCED, log 116). -/
def State.releaseMsg (s : State) (n event queue kind origin : Nat) : State × List Nat :=
  let up := (s.get (CTX_SEQ_UP_SEQ n) + 1) % 65536
  let m : Msg := { ctx := n, seq := up, voted := s.isVoted n, origin := origin, event := event,
                   queue := queue, kind := kind,
                   items := min 0xFFFF ((s.queue queue).closed - 1), time := s.now % 2 ^ 32 }
  let s := s.put (CTX_SEQ_UP_SEQ n) up
  let old := mget s.retention n []
  let s := { s with retention := mput s.retention n ((old ++ [m]).drop (old.length + 1 - 64)) [] }
  (s.msgPorts n).foldl (fun r p =>
    let t := r.1.pendMsg p m
    (t.1, if t.2 then r.2 ++ [p] else r.2)) (s, [])

/-! ## Raising events -/

/-- DETAIL of a source by unit (R418). -/
def detail (unit sub aux : Nat) : Nat := unit % 256 + sub % 256 * 2 ^ 8 + aux % 65536 * 2 ^ 16

/-- The words of an event record (R418). -/
def EvRec.words (r : EvRec) : List Word :=
  [BitVec.ofNat 32 (r.event % 512 + r.ctx % 256 * 2 ^ 16 + min r.rep 255 * 2 ^ 24),
   BitVec.ofNat 32 r.detail, BitVec.ofNat 32 r.time, BitVec.ofNat 32 (r.time / 2 ^ 32)]

/-- Pending bit of source `e` set (R417, R420). -/
def State.setPend (s : State) (e : Nat) : State :=
  let f := EVT_PEND_PEND (e / 32)
  let w := s.get f
  if bitAt w (e % 32) then s else s.put f (w + 2 ^ (e % 32))

/-- Whether a loss on queue `q` is the first since the reset or the last 32-bit read of QUE_LOSS, and so
raises EV_QUE_LOSS (R325); it is then marked as raised. -/
def State.noteLoss (s : State) (q : Nat) (lost : Bool) : State × Bool :=
  let x := s.queue q
  if lost && !x.lossQuiet then (s.setQueue q { x with lossQuiet := true }, true) else (s, false)

/-- Whether a producer may put into queue `q` now, with no record of the bridge waiting for it (R285, R324). -/
def State.mayEnter (s : State) (q ctx src : Nat) : Bool :=
  s.mayPut q ctx src && (s.queue q).openPacket.isNone && !s.bridgeWait.any (fun r => r.queue == q)

/-- The record of an event put into its event queue and its MSG released (R417 steps 3 and 4). The
second component lists the events that this itself raises: a queue loss, dropped messages. A drop that the event's own
MSG makes raises the same event again where RATE merges it; without RATE that would never end, and it is left out (DESIGN
CHOICE, log 130). -/
def State.putEvent (s : State) (e q : Nat) (ws : List Word) : State × List (Nat × Nat) :=
  let put := s.putWords q 0 3 ws
  let s := (put.1.closePacket q false).bump EVT_CNT_RECORDS
  let l := s.noteLoss q put.2
  let more := if l.2 then [(46, detail q 0 0)] else []
  if l.1.on (EVT_CFG_HOST e) then
    let m := l.1.releaseMsg 0 e q 1 9
    (m.1, more ++ (m.2.filter (fun p => 67 + p != e || s.on (EVT_CFG_RATE e))).map (fun p => (67 + p, detail p 0 0)))
  else (l.1, more)

/-- The record of an event written (R417): behind another producer's open packet it waits (R324). -/
def State.writeEvent (s : State) (r : EvRec) : State × List (Nat × Nat) :=
  if !s.on (EVT_CFG_EN r.event) then (s, [])
  else
    let q := 128 + s.get (EVT_CFG_EQ r.event)
    if s.mayEnter q 0 3 then s.putEvent r.event q r.words
    else ({ s with bridgeWait := s.bridgeWait ++ [⟨q, 0, 3, r.words, false, some r.event⟩] }, [])

/-- A source from 0 to 255 raised (R417, R419, R421, R422). `fuel` bounds the events that raising one
event can itself raise. -/
def State.raiseN : Nat → State → Nat → Nat → Nat → State
  | 0, s, _, _, _ => s
  | fuel + 1, s, e, ctx, det =>
    if !eventExists s.member e then s
    else
      let r : EvRec := { event := e, ctx := ctx, rep := 0, detail := det, time := s.now }
      let s := (s.setPend e).wakeOnEvent e
      let s := { s.incr DBG_HIST_PTR_NEXT with
        history := (s.history ++ [r]).drop (s.history.length + 1 - 128) }
      let w := r.words
      let s := (s.traceRec 4 9 [w.getD 0 0, w.getD 1 0, 0, 0] 0).traceTrigger e
      let merging := s.merges.any (·.event == e)
      if s.on (EVT_CFG_RATE e) && merging then
        let s := s.bump EVT_CNT_MERGED
        { s with merges := s.merges.map (fun m =>
            if m.event == e then { m with merged := m.merged + 1, lastRec := r } else m) }
      else
        let s := if s.on (EVT_CFG_RATE e) && s.on (EVT_CFG_EN e) then
            { (s.arm (.rate e) (s.get (EVT_CFG_RATE e) * 1000)) with
              merges := s.merges ++ [⟨e, 0, r⟩] }
          else s
        let t := s.writeEvent r
        t.2.foldl (fun s ed => State.raiseN fuel s ed.1 0 ed.2) t.1

/-- A source raised with its context and detail (R417, R418). -/
def State.raise (s : State) (e ctx det : Nat) : State := State.raiseN 4 s e ctx det

/-- The events that dropped messages raise (R55). -/
def State.raiseDrops (s : State) (ps : List Nat) : State :=
  ps.foldl (fun s p => s.raise (67 + p) 0 (detail p 0 0)) s

/-- A loss on a queue counted by its unit raises EV_QUE_LOSS when it is the first (R325). -/
def State.raiseLoss (s : State) (q : Nat) (lost : Bool) : State :=
  let l := s.noteLoss q lost
  if l.2 then l.1.raise 46 0 (detail q 0 0) else l.1

/-- Whether POLLED suppresses the notice of a packet of context `n` in queue `q` (R336). -/
def State.polled (s : State) (q n : Nat) : Bool :=
  s.on (QUE_CFG_POLLED q) && s.get (CTX_CTL_NOTE n) == 0

/-- A notice of context `n` released for a packet in queue `q` (R54, R336, R420). -/
def State.releaseNotice (s : State) (n q origin : Nat) : State :=
  let s := (s.setPend (256 + n)).wakeOnEvent (256 + n)
  if s.polled q n then s
  else
    let m := s.releaseMsg n (256 + n) q 0 origin
    m.1.raiseDrops m.2

/-- Whether position `a` of an inbound buffer, modulo 65536, is not behind position `b`. -/
def notBehind (a b : Nat) : Bool := decide ((a + 65536 - b % 65536) % 65536 < 32768)

/-- Whether the inbound data of a list of (segment, position) marks has all been written (R17): it has left the buffer,
and none of it is still on its way over the Span. -/
def State.marksDone (s : State) (ms : List (Nat × Nat)) : Bool :=
  ms.all (fun m => notBehind (s.seg m.1).drained m.2 && (s.seg m.1).away.all (fun n => !notBehind m.2 n))

/-- A notice released at once, or held while inbound posted data that it follows is still open (R17). -/
def State.notice (s : State) (n q origin : Nat) (marks : List (Nat × Nat)) : State :=
  if s.marksDone marks && !s.heldNotices.any (·.ctx == n) then s.releaseNotice n q origin
  else { s with heldNotices := s.heldNotices ++ [⟨n, q, origin, marks⟩] }

/-! ## Records of the bridge -/

/-- A record of the bridge or of an event enters its queue as one packet of its own (R152, R285, R417): its notice is
released with ORIGIN 9. -/
def State.enterRecord (s : State) (r : BridgeRecord) : State :=
  match r.event with
  | some e =>
    let t := s.putEvent e r.queue r.words
    t.2.foldl (fun s ed => s.raise ed.1 0 ed.2) t.1
  | none =>
    let t := s.putWords r.queue r.ctx r.src r.words
    let s := (t.1.closePacket r.queue false).raiseLoss r.queue t.2
    if r.notice then s.notice r.ctx r.queue 9 [] else s

/-- A record of the bridge put into a notice queue (R152, R285): behind another producer's open packet it waits. -/
def State.bridgeRecord (s : State) (r : BridgeRecord) : State :=
  if s.mayEnter r.queue r.ctx r.src then s.enterRecord r else { s with bridgeWait := s.bridgeWait ++ [r] }

/-! ## The error record of a context -/

/-- What the error record captures of an error (R423, R425). -/
structure CtxErr where
  cause : Nat
  status : Nat
  window : Nat
  channel : Nat
  seq : Nat
  haddr : Nat
  card : Nat
  target : Nat
  posted : Bool
  courier : Bool
  deriving DecidableEq, Repr

/-- The counter of an error cause, if it has one (R423). -/
def errCounter (n cause : Nat) : Option FRef :=
  if cause = 1 ∨ cause = 7 then some (CTX_ERR_CNT0_HOST_FAIL n)
  else if cause = 2 then some (CTX_ERR_CNT0_COURIER_FAIL n)
  else if cause = 3 then some (CTX_ERR_CNT1_MODE n)
  else if cause = 6 then some (CTX_ERR_CNT1_FAILOVER n)
  else none

/-- The first capture of context `n` filled (R423). -/
def State.errCapture (s : State) (n : Nat) (e : CtxErr) : State :=
  let s := (s.put (CTX_ERR_CTL_TARGET n) e.target).put (CTX_ERR_CTL_POSTED n) (ofBool e.posted)
  let s := (s.put (CTX_ERR_CTL_COURIER n) (ofBool e.courier)).put (CTX_ERR_CAUSE_CAUSE n) e.cause
  let s := ((s.put (CTX_ERR_CAUSE_STATUS n) e.status).put (CTX_ERR_CAUSE_WINDOW n) e.window).put
    (CTX_ERR_CAUSE_CHANNEL n) e.channel
  let s := ((s.put (CTX_ERR_CAUSE_SEQ n) e.seq).put (CTX_ERR_ADDR0_HOST_ADDR n) e.haddr).put
    (CTX_ERR_ADDR1_HOST_ADDR_HI n) (e.haddr / 2 ^ 32)
  let s := (s.put (CTX_ERR_ADDR1_CARD_ADDR n) e.card).put (CTX_ERR_TIME_TIME n) s.nowUs
  { s with errAt := mput s.errAt n (coreCycle s.clk + 1) 0 }

/-- Whether a captured error gives way to one of a lower cause in the same CORE cycle (R423). -/
def State.errYields (s : State) (n cause : Nat) : Bool :=
  mget s.errAt n 0 == coreCycle s.clk + 1 && decide (cause < s.get (CTX_ERR_CAUSE_CAUSE n))

/-- An error of context `n` (R423): counted, and captured with EV_CTX_ERROR while no capture is held; of errors in one
CORE cycle, the one with the lowest cause. -/
def State.ctxError (s : State) (n : Nat) (e : CtxErr) : State :=
  let s := s.bump (CTX_ERR_CTL_COUNT n)
  let s := match errCounter n e.cause with
    | some f => s.bump f
    | none => s
  if s.on (CTX_ERR_CTL_VALID n) then (if s.errYields n e.cause then s.errCapture n e else s)
  else ((s.errCapture n e).put (CTX_ERR_CTL_VALID n) 1).raise 12 n (detail 0 0 0)

end Sys2Proof.Machine
end

