-- ==== Sys2Proof/Machine/Operands.lean ====
section
/-! DEFINITION. The operand forms: packet headers and their fields (R28, R31), packets as bytes, and the
translation of a request through a window into beats (R137 to R148). -/

namespace Sys2Proof

/-! ## Header fields (R28) -/

/-- TYPE. -/
def Hdr.type (h : Hdr) : Nat := bits h.w0 27 5
/-- VC. -/
def Hdr.vc (h : Hdr) : Nat := bits h.w0 25 2
/-- VOTED. -/
def Hdr.voted (h : Hdr) : Bool := bits h.w0 24 1 == 1
/-- CTX. -/
def Hdr.ctx (h : Hdr) : Nat := bits h.w0 16 8
/-- SEQ. -/
def Hdr.seq (h : Hdr) : Nat := bits h.w0 0 16
/-- TAG. -/
def Hdr.tag (h : Hdr) : Nat := bits h.w1 22 10
/-- LEN. -/
def Hdr.len (h : Hdr) : Nat := bits h.w1 13 9
/-- STATUS, ATOMIC OP or SEQ OP. -/
def Hdr.op (h : Hdr) : Nat := bits h.w1 9 4
/-- FENCE. -/
def Hdr.fence (h : Hdr) : Bool := bits h.w1 8 1 == 1
/-- ADDR[39:0]. -/
def Hdr.addr (h : Hdr) : Nat := bits h.w1 0 8 * 2 ^ 32 + h.w2.toNat
/-- ORIGIN. -/
def Hdr.origin (h : Hdr) : Nat := bits h.w3 28 4
/-- EVENT. -/
def Hdr.event (h : Hdr) : Nat := bits h.w3 16 9

/-- The header with another TYPE. -/
def Hdr.withType (h : Hdr) (t : Nat) : Hdr := { h with w0 := setBits h.w0 27 5 t }
/-- The header with other bits [12:9]. -/
def Hdr.withOp (h : Hdr) (o : Nat) : Hdr := { h with w1 := setBits h.w1 9 4 o }
/-- The header with ORIGIN and TAG zero: what a comparison leaves (R107). -/
def Hdr.compared (h : Hdr) : Hdr := { h with w1 := setBits h.w1 22 10 0, w3 := setBits h.w3 28 4 0 }
/-- The four words of a header. -/
def Hdr.words (h : Hdr) : List Word := [h.w0, h.w1, h.w2, h.w3]

/-- A header from its fields (R28). -/
def mkHdr (type vc : Nat) (voted : Bool) (ctx seq tag len op addr origin event : Nat) : Hdr :=
  { w0 := BitVec.ofNat 32 (type % 32 * 2 ^ 27 + vc % 4 * 2 ^ 25 + ofBool voted * 2 ^ 24 +
      ctx % 256 * 2 ^ 16 + seq % 65536),
    w1 := BitVec.ofNat 32 (tag % 1024 * 2 ^ 22 + len % 512 * 2 ^ 13 + op % 16 * 2 ^ 9 +
      addr / 2 ^ 32 % 256),
    w2 := BitVec.ofNat 32 addr,
    w3 := BitVec.ofNat 32 (origin % 16 * 2 ^ 28 + event % 512 * 2 ^ 16) }

end Sys2Proof

namespace Sys2Proof.Machine

/-- The bytes of a packet as they travel (R28): header words and data, little-endian. -/
def pktBytes (k : Pkt) : List Byte :=
  (k.h.words.map (fun w => leBytes 4 w.toNat)).flatten ++ k.data

/-- Packet type codes (R31). -/
def tMWR : Nat := 0x01
@[inherit_doc tMWR] def tNPW : Nat := 0x02
@[inherit_doc tMWR] def tMRD : Nat := 0x03
@[inherit_doc tMWR] def tATM : Nat := 0x04
@[inherit_doc tMWR] def tCPL : Nat := 0x08
@[inherit_doc tMWR] def tCPLD : Nat := 0x09
@[inherit_doc tMWR] def tMSG : Nat := 0x10
@[inherit_doc tMWR] def tSEQ : Nat := 0x11
@[inherit_doc tMWR] def tRPL : Nat := 0x12
@[inherit_doc tMWR] def tNOP : Nat := 0x1F

/-- The virtual channel of a type (R31), none for a reserved type. -/
def typeVc (t : Nat) : Option Nat :=
  if t = tMWR ∨ t = tMSG then some 0
  else if t = tNPW ∨ t = tMRD ∨ t = tATM ∨ t = tSEQ ∨ t = tRPL then some 1
  else if t = tCPL ∨ t = tCPLD then some 2
  else if t = tNOP then some 0
  else none

/-- Whether a type uses LEN (R29). -/
def usesLen (t : Nat) : Bool :=
  t == tMWR || t == tNPW || t == tMRD || t == tATM || t == tCPL || t == tCPLD || t == tMSG

/-- Whether a type carries data (R31). -/
def hasData (t : Nat) : Bool := t == tMWR || t == tNPW || t == tATM || t == tCPLD || t == tMSG

/-- Whether a type is a request that takes a tag (R38, R39). -/
def nonPosted (t : Nat) : Bool := t == tNPW || t == tMRD || t == tATM || t == tSEQ || t == tRPL

/-- Whether a type is a request with an address that the boundary rule of R30 concerns. -/
def isAccess (t : Nat) : Bool := t == tMWR || t == tNPW || t == tMRD || t == tATM

/-- Completion status codes (R42). -/
def stSC : Nat := 0
@[inherit_doc stSC] def stUR : Nat := 1
@[inherit_doc stSC] def stTE : Nat := 2
@[inherit_doc stSC] def stTO : Nat := 3
@[inherit_doc stSC] def stRT : Nat := 4
@[inherit_doc stSC] def stUN : Nat := 5
@[inherit_doc stSC] def stFE : Nat := 6
@[inherit_doc stSC] def stDV : Nat := 7
@[inherit_doc stSC] def stAB : Nat := 8
@[inherit_doc stSC] def stLK : Nat := 9

/-- The size of an atomic's operand in bytes, if its OP, length and alignment are allowed (R52). -/
def atomicSize (op len addr : Nat) : Option Nat :=
  let n := len + 1
  let size := if op = 3 then n / 2 else n
  if op = 0 ∨ 3 < op then none
  else if (size = 4 ∨ size = 8) ∧ (op ≠ 3 ∨ n = 2 * size) ∧ addr % size = 0 then some size
  else none

/-- The value an atomic writes back, from the old operand and the packet data (R52). -/
def atomicNew (op size : Nat) (old : List Byte) (data : List Byte) : List Byte :=
  if op = 1 then leBytes size (leNat old + leNat data)
  else if op = 2 then data
  else if old = data.take size then data.drop size
  else old

/-! ## Windows (R137 to R148) -/

/-- Whether window `w` is bound to context `n` (R165). -/
def State.bound (s : State) (n w : Nat) : Bool :=
  if w < 32 then bitAt (s.get (CTX_WIN0_BIND n)) w else bitAt (s.get (CTX_WIN1_BIND n)) (w - 32)

/-- Whether window `w` matches host address `a` (R137). -/
def State.winMatch (s : State) (w a : Nat) : Bool :=
  let size := s.get (WIN_SIZE_LOG2 w)
  s.on (WIN_ATTR_EN w) && a / 2 ^ size == s.get (WIN_BASE_BASE w) * 4096 / 2 ^ size

/-- The window that a request of context `n` at host address `a` resolves to (R138). -/
def State.resolve (s : State) (n a : Nat) : Option Nat :=
  (List.range 64).find? (fun w => s.bound n w && s.winMatch w a)

/-- The target that a TARGET code names (R136). -/
def targetOf (code : Nat) : Target :=
  if code < 4 then .seg code else if code = 4 then .ledger else if code = 5 then .partner
  else if code = 6 then .compat else .internal

/-- The target that host address `a` has for a request of context `n` (R13, R136): register space and the internal
memories also where the address has none. -/
def State.targetAt (s : State) (n a : Nat) : Target :=
  if 0x1000000 ≤ a ∧ a < 0x1800000 then .ledger
  else if 0x3800000 ≤ a ∧ a < 0x4000000 then .compat
  else if a < 0x100000000 then .internal
  else match s.resolve n a with
    | some w => targetOf (s.get (WIN_ATTR_TARGET w))
    | none => .internal

/-- The target address of host address `a` through window `w` (R139). -/
def State.winTarget (s : State) (w a : Nat) : Nat :=
  s.get (WIN_TBASE_TBASE w) * 4096 + a % 2 ^ s.get (WIN_SIZE_LOG2 w)

/-- The exchange mask of a byte order mode (R145). -/
def orderMask (order : Nat) : Nat :=
  if order = 0 then 0 else if order = 1 then 1 else if order = 2 then 3 else 2

/-- The bytes per beat of a width code (R146). -/
def beatBytes (width : Nat) : Nat := if width = 0 then 1 else if width = 1 then 2 else 4

/-- A byte added to the beat that holds it, beats rising by address (R146). -/
def addByte (w c : Nat) (b : Byte) : List Beat → List Beat
  | [] => [⟨c / w * w, [(c, b)]⟩]
  | x :: t =>
    if c / w * w < x.addr then ⟨c / w * w, [(c, b)]⟩ :: x :: t
    else if c / w * w = x.addr then { x with lanes := x.lanes ++ [(c, b)] } :: t
    else x :: addByte w c b t

/-- A request split into beats (R146): host byte `x` of it goes to target byte base + (x XOR k). -/
def splitBeats (base k w off : Nat) (bytes : List Byte) : List Beat :=
  (List.range bytes.length).foldl
    (fun bs i => addByte w (base + Nat.xor (off + i) k) (bytes.getD i 0) bs) []

/-- How many beats from the head of a list a burst moves at most (R148): up to 16, within one 64-byte
target block. -/
def burstLen (burst : Bool) (width : Nat) (bs : List Beat) : Nat :=
  match bs with
  | [] => 0
  | b :: t =>
    if burst && width == 4 then
      min 16 (1 + (t.takeWhile (fun x => x.addr / 64 == b.addr / 64)).length)
    else 1

end Sys2Proof.Machine
end

