-- ==== Sys2Proof/Machine/Symbols.lean ====
section
/-! DEFINITION. The lane words of a LINK cycle: the symbol map and the precoder (R64 to R67), the training patterns and
the match rule (R72, R76), the placement of a flit on the lanes of its port (R63, R79), and the PRBS generators and
checkers (R92, R93). -/

namespace Sys2Proof.Machine

/-! ## Symbols (R64 to R67) -/

/-- The level index of a bit pair, and the bit pair of a level index (R64). -/
def grayOf (x : Nat) : Nat := if x = 2 then 3 else if x = 3 then 2 else x

/-- The level of a level index (R64). -/
def levelOf (x : Nat) : Int := 2 * (x : Int) - 3

/-- The 32 bit pairs of a lane word, the first sent first (R64). -/
def pairsOf (w : BitVec 64) : List Nat := (List.range 32).map (fun i => natBits w.toNat (2 * i) 2)

/-- The number whose bit pairs are given, the lowest first. -/
def pairsNat : List Nat → Nat
  | [] => 0
  | x :: t => x + 4 * pairsNat t

/-- The lane word of 32 bit pairs. -/
def ofPairs (ps : List Nat) : BitVec 64 := BitVec.ofNat 64 (pairsNat ps)

/-- The levels of a lane word, the first sent first (R64). -/
def wordLevels (w : BitVec 64) : List Int := (pairsOf w).map (fun x => levelOf (grayOf x))

/-- Level indices precoded behind the index `p` sent last, and the last one sent (R65). -/
def precodeLevels : Nat → List Nat → List Nat × Nat
  | p, [] => ([], p)
  | p, l :: t =>
    let q := (l + 4 - p) % 4
    let r := precodeLevels q t
    (q :: r.1, r.2)

/-- Received level indices decoded behind the index `p` received last, and the last one received (R65). -/
def decodeLevels : Nat → List Nat → List Nat × Nat
  | p, [] => ([], p)
  | p, q :: t =>
    let r := decodeLevels q t
    ((q + p) % 4 :: r.1, r.2)

/-- Lane words with their symbols changed by a precoder or decoder `f` that holds a level index. -/
def mapWords (f : Nat → List Nat → List Nat × Nat) : Nat → List (BitVec 64) → List (BitVec 64) × Nat
  | p, [] => ([], p)
  | p, w :: t =>
    let a := f p ((pairsOf w).map grayOf)
    let r := mapWords f a.2 t
    (ofPairs (a.1.map grayOf) :: r.1, r.2)

/-- A lane word on an inverted pair: the first bit of every symbol flips (R67). -/
def invertWord (w : BitVec 64) : BitVec 64 := w ^^^ 0xAAAAAAAAAAAAAAAA#64

/-- Lane words with the second bit of their first `n` symbols flipped, and the symbols still to flip (R94). -/
def injectWords : Nat → List (BitVec 64) → List (BitVec 64) × Nat
  | n, [] => ([], n)
  | n, w :: t =>
    let k := min n 32
    let r := injectWords (n - k) t
    ((w ^^^ BitVec.ofNat 64 ((4 ^ k - 1) / 3)) :: r.1, r.2)

/-! ## Training patterns (R72, R76) -/

/-- A lane word of TP1: level indices 0 and 3 in turn (R72). -/
def tp1Word : BitVec 64 := 0x8888888888888888#64

/-- A TS word: LANE, KIND (1 TS1, 2 TS2), PRECODE and CNT as its info bits (R72). -/
def tsWord (lane kind : Nat) (pre : Bool) (cnt : Nat) : BitVec 64 :=
  let info := lane + kind * 2 + ofBool pre * 2 ^ 3 + cnt % 256 * 2 ^ 8
  BitVec.ofNat 64 (0x5555555580000000 +
    ((List.range 16).map (fun j => ofBool (bitAt info j) * 2 ^ (33 + 2 * j))).sum)

/-- Whether a received word matches, and if it does whether in inverted polarity (R76). -/
def wordMatch (w : BitVec 64) : Option Bool :=
  let lo := natBits w.toNat 0 32
  if natBits w.toNat 32 32 &&& 0x55555555 ≠ 0x55555555 then none
  else if lo = 0x80000000 then some false
  else if lo = 0x2AAAAAAA then some true
  else none

/-- The info bits of a word received in a polarity (R72, R76). -/
def wordInfo (inv : Bool) (w : BitVec 64) : Nat :=
  ((List.range 16).map (fun j => ofBool (bitAt w.toNat (33 + 2 * j) != inv) * 2 ^ j)).sum

/-- LANE, KIND, PRECODE and CNT of info bits (R72). -/
def infoLane (i : Nat) : Nat := natBits i 0 1
@[inherit_doc infoLane] def infoKind (i : Nat) : Nat := natBits i 1 2
@[inherit_doc infoLane] def infoPre (i : Nat) : Bool := bitAt i 3
@[inherit_doc infoLane] def infoCnt (i : Nat) : Nat := natBits i 8 8

/-- MATCH and the polarity of the last match after words received (R76). -/
def matchRun : Nat → Bool → List (BitVec 64) → Nat × Bool
  | m, inv, [] => (m, inv)
  | m, inv, w :: t =>
    match wordMatch w with
    | some i => matchRun (min 15 (m + 1)) i t
    | none => matchRun 0 inv t

/-! ## Flits on lanes (R63, R79) -/

/-- Unit `u` of 64 bytes as a lane word (R79). -/
def unitWord (bs : List Byte) (u : Nat) : BitVec 64 := BitVec.ofNat 64 (leNat ((bs.drop (8 * u)).take 8))

/-- The four words of 64 bytes that lane `i` of a port carries (R63, R79). -/
def laneWords (bs : List Byte) (i : Nat) : List (BitVec 64) := [0, 2, 4, 6].map (fun u => unitWord bs (u + i))

/-- The bytes that the words of lanes 0 and 1 of a port carry (R79). -/
def mergeLanes : List (BitVec 64) → List (BitVec 64) → List Byte
  | a :: s, b :: t => leBytes 8 a.toNat ++ leBytes 8 b.toNat ++ mergeLanes s t
  | _, _ => []

/-! ## PRBS generators and checkers (R92, R93) -/

/-- The length of the register of a pattern and the other bit of its recurrence (R92): PRBS7, PRBS15, PRBS31. -/
def prbsTaps (pattern : Nat) : Nat × Nat :=
  if pattern = 0 then (7, 6) else if pattern = 1 then (15, 14) else (31, 28)

/-- The register of a generator as it is enabled: all ones (R92). -/
def prbsSeed (pattern : Nat) : Nat := 2 ^ (prbsTaps pattern).1 - 1

/-- The next bit of a pattern behind the bits of a register, the newest lowest (R92). -/
def prbsBit (pattern reg : Nat) : Nat :=
  let t := prbsTaps pattern
  (reg / 2 ^ (t.1 - 1) + reg / 2 ^ (t.2 - 1)) % 2

/-- A register with a bit shifted in. -/
def prbsShift (pattern reg b : Nat) : Nat := (2 * reg + b) % 2 ^ (prbsTaps pattern).1

/-- The next `n` bit pairs of a generator, the first bit of a pair the first generated, and its register (R92). -/
def prbsPairs (pattern : Nat) : Nat → Nat → List Nat × Nat
  | 0, reg => ([], reg)
  | n + 1, reg =>
    let a := prbsBit pattern reg
    let reg := prbsShift pattern reg a
    let b := prbsBit pattern reg
    let r := prbsPairs pattern n (prbsShift pattern reg b)
    ((2 * a + b) :: r.1, r.2)

/-- The next `n` lane words of a generator, and its register (R92). -/
def prbsWords (pattern : Nat) : Nat → Nat → List (BitVec 64) × Nat
  | 0, reg => ([], reg)
  | n + 1, reg =>
    let a := prbsPairs pattern 32 reg
    let r := prbsWords pattern n a.2
    (ofPairs a.1 :: r.1, r.2)

/-- A checker at work (R93): whether it is locked, its register, its error-free symbols in a row, the errors of its last
128 symbols, and the symbols and bits in error counted. -/
structure Checker where
  lock : Bool
  reg : Nat
  run : Nat
  hist : Nat
  sym : Nat
  bit : Nat
  deriving DecidableEq, Repr

/-- How many of the lowest bits of a number are one. -/
def onesIn : Nat → Nat → Nat
  | 0, _ => 0
  | k + 1, x => x % 2 + onesIn k (x / 2)

/-- One symbol checked (R93). While it is not locked the register takes the bits received, so that it seeds itself; once
locked it runs on alone (DESIGN CHOICE, log 131). -/
def Checker.symbol (pattern : Nat) (c : Checker) (pair : Nat) : Checker :=
  let a := pair / 2 % 2
  let b := pair % 2
  let p := prbsBit pattern c.reg
  let reg := prbsShift pattern c.reg (if c.lock then p else a)
  let q := prbsBit pattern reg
  let reg := prbsShift pattern reg (if c.lock then q else b)
  let errs := ofBool (p != a) + ofBool (q != b)
  if c.lock then
    let h := (2 * c.hist + ofBool (0 < errs)) % 2 ^ 128
    let c := { c with reg := reg, hist := h, sym := c.sym + ofBool (0 < errs), bit := c.bit + errs }
    if 0 < errs ∧ 64 ≤ onesIn 128 h then { c with lock := false, run := 0 } else c
  else
    let n := if 0 < errs then 0 else c.run + 1
    { c with reg := reg, run := n, lock := decide (64 ≤ n), hist := 0 }

/-- A lane word checked (R93). -/
def Checker.word (pattern : Nat) (c : Checker) (w : BitVec 64) : Checker :=
  (pairsOf w).foldl (Checker.symbol pattern) c

/-- The words of a retrain's PRBS check (R87): once the checker has locked, `n` more words are counted. -/
def Checker.check (pattern : Nat) : Nat → Checker → List (BitVec 64) → Checker
  | _, c, [] => c
  | n, c, w :: t =>
    if c.lock then
      match n with
      | 0 => c
      | n + 1 => Checker.check pattern n (c.word pattern w) t
    else Checker.check pattern n (c.word pattern w) t

end Sys2Proof.Machine
end

