-- ==== Sys2Proof/Machine/Ports.lean ====
section
/-! DEFINITION. The transaction layer's sending side: packets and completions handed to the ports
(R33, R39, R40, R115), tags, receive buffer space and its return (R43 to R48), and protocol errors
(R59). -/

namespace Sys2Proof.Machine

/-- Whether the link of port `p` is up (R73). -/
def State.linkUp (s : State) (p : Nat) : Bool := s.on (LL_STAT_LINK_UP p)

/-- The state of a port: HP_STAT.STATE or SPN_PORT.STATE (R60, R351). -/
def portStateRef (p : Nat) : FRef := if p < 3 then HP_STAT_STATE p else SPN_PORT_STATE (p - 3)

/-- The state of a port: 0 OFF, 1 STARTING, 2 ON, 3 DRAINING. -/
def State.portState (s : State) (p : Nat) : Nat := s.get (portStateRef p)

/-- Words sent on lane `k`: precoded if `pre` and the lane precodes (R65, R66), with the injections that are pending
(R94) behind the precoder, on a pair inverted by TX_POL_INV (R67). -/
def State.sendLane (s : State) (k : Nat) (ws : List (BitVec 64)) (pre : Bool) : State :=
  let x := s.lane k
  let r := if pre && s.on (LN_CTL_TX_PRECODE k) then mapWords precodeLevels x.txP ws else (ws, x.txP)
  let j := injectWords x.inject r.1
  (s.setLane k { x with txP := r.2, inject := j.2 }).emit
    (.lane k (if s.on (LN_CTL_TX_POL_INV k) then j.1.map invertWord else j.1))

/-- The 64 bytes of a flit or control block sent on the two lanes of port `p` (R63, R79). -/
def State.sendBlock (s : State) (p : Nat) (bs : List Byte) : State :=
  (s.sendLane (2 * p) (laneWords bs 0) true).sendLane (2 * p + 1) (laneWords bs 1) true

/-- The next `n` TS words of a kind for lane `i` of port `p` (R72). -/
def State.tsWords (s : State) (p i kind n : Nat) : List (BitVec 64) :=
  (List.range n).map (fun j => tsWord i kind (s.on (LN_CTL_TX_PRECODE (2 * p + i))) ((s.link p).cnt + j))

/-- The CNT of port `p`'s TS words after `n` more (R72). -/
def State.tsSent (s : State) (p n : Nat) : State :=
  let x := s.link p
  s.setLink p { x with cnt := (x.cnt + n) % 256 }

/-- The precoders of port `p`'s transmitters start anew (R65). -/
def State.txReset (s : State) (p : Nat) : State :=
  (s.setLane (2 * p) { s.lane (2 * p) with txP := 0 }).setLane (2 * p + 1) { s.lane (2 * p + 1) with txP := 0 }

/-- What a lane sends to leave electrical idle (R90): 160 ns of TP1 and the wake burst of four TS1 words, never precoded
(R66); an injection that is pending waits for the flits (R94). -/
def State.wakeLane (s : State) (p i : Nat) : State :=
  let k := 2 * p + i
  let ws := List.replicate 64 tp1Word ++ s.tsWords p i 1 4
  s.emit (.lane k (if s.on (LN_CTL_TX_POL_INV k) then ws.map invertWord else ws))

/-- A transmitter in electrical idle that has something to send leaves it (R90, R91): preamble, wake
burst, and flits again. -/
def State.wakeTx (s : State) (p : Nat) : State :=
  if s.on (LN_STAT_EIDLE_TX (2 * p)) then
    let s := (s.put (LN_STAT_EIDLE_TX (2 * p)) 0).put (LN_STAT_EIDLE_TX (2 * p + 1)) 0
    (((s.wakeLane p 0).wakeLane p 1).tsSent p 4).txReset p
  else s

/-- Whether a packet on a span port is one of the Span unit (R354). -/
def isSpanControl (k : Pkt) : Bool :=
  k.h.type == tMWR && k.h.ctx == 0 && !k.h.voted && decide (0xFE00000000 ≤ k.h.addr)

/-- A control packet of the Span, sent or received on port `p`, for the trace (R354, R486). -/
def State.traceSpan (s : State) (p : Nat) (k : Pkt) : State :=
  if 3 ≤ p && isSpanControl k then s.traceRec 6 p k.h.words 0 else s

/-- A packet handed to port `p`'s link layer, after those handed before, with what its acknowledgement will end; a port
without a link carries none (R48). -/
def State.sendMarked (s : State) (p : Nat) (k : Pkt) (m : Option SpanMark) : State :=
  if s.linkUp p then
    let s := (s.traceSpan p k).emit (.pkt p k)
    let x := s.link p
    (s.setLink p { x with txq := x.txq ++ [pktBytes k], marks := x.marks ++ [m] }).wakeTx p
  else s

/-- A packet handed to port `p`'s link layer. -/
def State.sendPkt (s : State) (p : Nat) (k : Pkt) : State := s.sendMarked p k none

/-- Credit returns handed to port `p` as a NOP (R45). Its ORIGIN, which the spec gives for completions and messages
alone (R33), is that of a completion on the port (DESIGN CHOICE, log 115). -/
def State.sendNop (s : State) (p : Nat) (c : Credits) : State :=
  let w2 := c.ph % 256 + c.pd % 256 * 2 ^ 8 + c.nh % 256 * 2 ^ 16 + c.nd % 256 * 2 ^ 24
  s.sendPkt p ⟨mkHdr tNOP 0 false 0 0 0 0 0 w2 (if p < 3 then p else p + 1) 0, []⟩

/-- The ORIGIN of a completion on port `p`: the channel of a host port (R33), the port itself on the
Span. -/
def portOrigin (p : Nat) : Nat := if p < 3 then p else p + 1

/-- The packet of a completion part for a request (R31, R40, R42): a CPLD when it carries data. -/
def cplPkt (p tag : Nat) (req : Hdr) (c : Part) : Pkt :=
  if c.data.isEmpty then
    ⟨mkHdr tCPL 2 req.voted req.ctx req.seq tag req.len c.status req.addr (portOrigin p) 0, []⟩
  else
    ⟨mkHdr tCPLD 2 req.voted req.ctx req.seq tag (c.data.length - 1) c.status c.addr (portOrigin p) 0,
      c.data⟩

/-- The digest of a payload in the trace (R486): the low half of its CRC-64, zero without one. -/
def digestOf (d : List Byte) : Word := if d.isEmpty then 0 else BitVec.ofNat 32 (crc64 d).toNat

/-- A completion part sent on port `p` under a tag, if the completion is still owed there (R48, R115); the last part
frees the tag. The trace takes the first completion that a request has on the port (R486, DEDUCED, log 149). -/
def State.sendPart (s : State) (p tag : Nat) (req : Hdr) (c : Part) : State :=
  let x := s.port p
  if x.tags.contains tag then
    let k := cplPkt p tag req c
    let s := s.sendPkt p k
    let s := if c.addr = req.addr then s.traceRec 2 p k.h.words (digestOf k.data) else s
    if c.final then
      let x := s.port p
      s.setPort p { x with tags := x.tags.filter (· != tag) }
    else s
  else s

/-- A completion without data sent at once on port `p` under a tag (R39). -/
def State.complete (s : State) (p tag : Nat) (req : Hdr) (status : Nat) : State :=
  s.sendPart p tag req ⟨status, req.addr, [], true⟩

/-- Credits a packet costs (R43). -/
def pktCost (k : Pkt) : Credits :=
  let d := (k.data.length + 63) / 64
  if k.h.vc = 0 then ⟨1, d, 0, 0⟩ else ⟨0, 0, 1, d⟩

/-- The receive buffer that port `p` grants (R46, R60, R352). -/
def State.grantOf (s : State) (p : Nat) : Credits :=
  if p < 3 then ⟨s.get (HP_GRANT_PH p), s.get (HP_GRANT_PD p), s.get (HP_GRANT_NH p), 128⟩
  else ⟨s.get SPN_GRANT_PH, s.get SPN_GRANT_PD, s.get SPN_GRANT_NH, 64⟩

/-- Sum and difference of credits. -/
def Credits.add (a b : Credits) : Credits := ⟨a.ph + b.ph, a.pd + b.pd, a.nh + b.nh, a.nd + b.nd⟩
@[inherit_doc Credits.add]
def Credits.sub (a b : Credits) : Credits := ⟨a.ph - b.ph, a.pd - b.pd, a.nh - b.nh, a.nd - b.nd⟩
/-- Whether credits cover a cost (R43). -/
def Credits.covers (a b : Credits) : Bool :=
  decide (b.ph ≤ a.ph) && decide (b.pd ≤ a.pd) && decide (b.nh ≤ a.nh) && decide (b.nd ≤ a.nd)

/-- Receive buffer space of a packet freed and its credits returned (R46). -/
def State.freeRx (s : State) (p : Nat) (k : Pkt) : State :=
  let x := s.port p
  (s.setPort p { x with rxUsed := x.rxUsed.sub (pktCost k) }).sendNop p (pktCost k)

/-- A protocol error on port `p` (R59): on a host port counted, captured while no capture is held, and
raised with the capture. Span ports have no error registers. -/
def State.protoError (s : State) (p : Nat) (h : Hdr) (cause : Nat) : State :=
  if p < 3 then
    let s := s.bump (HP_ERR_CNT_PROTOCOL p)
    if s.on (HP_ERR_CAUSE_VALID p) then s
    else
      let s := ((s.put (HP_ERR_LOG_WORD p 0) h.w0.toNat).put (HP_ERR_LOG_WORD p 1) h.w1.toNat).put
        (HP_ERR_LOG_WORD p 2) h.w2.toNat
      let s := ((s.put (HP_ERR_LOG_WORD p 3) h.w3.toNat).put (HP_ERR_CAUSE_CAUSE p) cause).put
        (HP_ERR_CAUSE_VALID p) 1
      s.raise (64 + p) h.ctx (detail p 0 0)
  else s

/-- The tags that a port accepts (R38). -/
def tagRange (p : Nat) : Nat := if p < 3 then 256 else 64

/-- The tag of a non-posted request taken on port `p` (R38). -/
def State.takeTag (s : State) (p tag : Nat) : State :=
  let x := s.port p
  s.setPort p { x with tags := x.tags ++ [tag] }

/-! ## Inbound prefetch slots (R195) -/

/-- A fetch of a prefetch slot has ended: with data the slot waits for SEG_LM.HOLD, without (an
uncorrectable word, R207, or a partner that cannot be reached, R196) it is freed; the read that still
waits for it is answered. -/
def State.inbFill (s : State) (g id : Nat) (d : List Byte) (ok : Bool) : State :=
  let x := s.seg g
  match x.prefetch.find? (fun p => p.id == id) with
  | none => s
  | some p =>
    let waits := match x.inbWait with
      | .read a ls _ => a == p.addr && ls == p.lanes
      | _ => false
    let slots := if ok then
        x.prefetch.map (fun (q : Prefetch) => if q.id == id then { q with data := d, ready := true } else q)
      else x.prefetch.filter (fun (q : Prefetch) => q.id != id)
    let s := s.setSeg g { x with prefetch := slots, inbWait := if waits then .none else x.inbWait }
    let s := if ok then s.arm (.prefetch g id) (s.get (SEG_LM_HOLD g) * 1000) else s
    if waits then (s.disarm (.inb g)).emit (.respond g (if ok then 0 else 1) d) else s

end Sys2Proof.Machine
end

