-- ==== Sys2Proof/Machine/FaultOps.lean ====
section
/-! DEFINITION. Free values, and the fault log and test queue (R406 to R410): what every unit that finds
an error does with it. -/

namespace Sys2Proof.Machine

/-- A free value, and the state in which it is used up. -/
def State.free (s : State) : Word × State :=
  (Config.freeWord s.nextFree, { s with nextFree := s.nextFree + 1 })

/-- KIND, UNIT and INDEX of a resource in the fault log (R428). -/
def Resource.key : Resource → Nat × Nat × Nat
  | .ledgerRow b r => (1, b, r)
  | .queueRow k r => (2, k, r)
  | .chain q => (3, q, 0)
  | .courier c => (4, c, 0)
  | .lane k => (5, k, 0)
  | .slot n _ => (6, 0, n)

/-- A result written to the fault log and counted, and its event raised (R409): 1 TRANSIENT, 2 LASTING,
3 UNTESTED. -/
def State.faultLog (s : State) (r : Resource) (result det reps : Nat) : State :=
  let i := s.get FLT_LOG_PTR_NEXT
  let k := r.key
  let s := ((s.put (FLT_LOG0_KIND i) k.1).put (FLT_LOG0_RESULT i) result).put (FLT_LOG0_UNIT i) k.2.1
  let s := ((s.put (FLT_LOG0_INDEX i) k.2.2).put (FLT_LOG1_DETAIL i) det).put (FLT_LOG2_TIME i) s.nowUs
  let s := ((s.put (FLT_LOG3_REPEATS i) reps).put FLT_LOG_PTR_NEXT (i + 1)).incr FLT_LOG_PTR_TOTAL
  let s := s.bump (if result = 1 then FLT_CNT0_TRANSIENT else if result = 2 then FLT_CNT0_LASTING
    else FLT_CNT1_UNTESTED)
  s.raise (if result = 1 then 8 else if result = 2 then 9 else 11) 0 (detail k.2.1 k.1 k.2.2)

/-- The distinct resources of a list of results, latest last. -/
def resources : List (Resource × Nat) → List Resource
  | [] => []
  | (r, _) :: t => if (resources t).contains r then resources t else r :: resources t

/-- The results remembered of the last 16 resources classified TRANSIENT (R409). -/
def lastSixteen (ts : List (Resource × Nat)) : List (Resource × Nat) :=
  let rs := resources ts
  let keep := rs.drop (rs.length - 16)
  ts.filter (fun e => keep.contains e.1)

/-- The TRANSIENT results of a resource within WIN (R409, R428). -/
def State.transientsOf (s : State) (r : Resource) : Nat :=
  (s.transients.filter (fun e => e.1 == r && decide (s.now < e.2 + s.get FLT_CFG_WIN * 1000000000))).length

/-- A detection for which no test can run (R409). -/
def State.untested (s : State) (r : Resource) (det : Nat) : State := s.faultLog r 3 det (s.transientsOf r)

/-- A test ended (R409): the result is TRANSIENT on a pass, unless the resource reaches REPEAT such
results within WIN; else LASTING. The second component is whether it is LASTING. -/
def State.classify (s : State) (r : Resource) (det : Nat) (pass : Bool) : State × Bool :=
  let reps := s.transientsOf r + ofBool pass
  if pass && decide (reps < s.get FLT_CFG_REPEAT) then
    let s := { s with transients := lastSixteen (s.transients ++ [(r, s.now)]) }
    (s.faultLog r 1 det reps, false)
  else (s.faultLog r 2 det reps, true)

/-- An error found in a resource is handed to its targeted test (R406, R408, R410). -/
def State.queueTest (s : State) (r : Resource) (det : Nat) : State :=
  if s.replaced.contains r || s.active.any (fun a => a.test.res == r) ||
      s.tests.any (fun t => t.res == r) then s
  else if s.on FLT_CFG_TEST_EN && decide (s.tests.length < 32) then
    { s with tests := s.tests ++ [⟨r, det⟩] }
  else s.untested r det

/-- A test that the detection itself runs to its end (R410, R412, R413): with TEST_EN = 0 it is UNTESTED. The second
component is whether the resource is LASTING. -/
def State.testedNow (s : State) (r : Resource) (det : Nat) (pass : Bool) : State × Bool :=
  if s.on FLT_CFG_TEST_EN then (s.bump FLT_CNT1_TESTS).classify r det pass else (s.untested r det, false)

/-! ## Errors of queue words (R332, R335, R406) -/

/-- The capture of a queue fault (R335): 1 position mismatch, 2 uncorrectable length word, 3 uncorrectable
data word. A later fault replaces it only with a lower cause. -/
def State.queueCapture (s : State) (q cause : Nat) : State :=
  if s.on QUE_FAULT_VALID && decide (s.get QUE_FAULT_CAUSE ≤ cause) then s
  else ((s.put QUE_FAULT_VALID 1).put QUE_FAULT_QUEUE q).put QUE_FAULT_CAUSE cause

/-- Offset in queue RAM of the word `k` behind the head word of queue `q`'s ring. -/
def State.headPlace (s : State) (q k : Nat) : Nat :=
  let r := s.ring q
  let n := s.queueCap q
  r.1 + 4 * (((s.queue q).wpos + n - (s.queue q).size % n + k) % n)

/-- The row test of a queue RAM word (R406): in a ring alone. -/
def State.ringTest (s : State) (q place : Nat) : State :=
  if s.usesRing q then s.queueTest (.queueRow (place / 0x10000) (place % 0x10000 / 512)) place else s

/-- Words taken from queue `q`, of which `ce` were corrected and, with `ue`, one was not correctable: counted, captured,
and the row of the first tested, which stands at `place` (R332, R335). -/
def State.wordsChecked (s : State) (q place ce : Nat) (ue : Bool) : State :=
  let s := s.bumpBy (QUE_ECC_CE q) ce
  let s := if ue then s.queueCapture q 3 else s
  if ue || decide (0 < ce) then s.ringTest q place else s

end Sys2Proof.Machine
end

