-- ==== Sys2Proof/Machine/Accord.lean ====
section
/-! DEFINITION. The Accord (R98 to R135, R528): voters and modes, sequence acceptance (R35), fences,
channel states and discords, vote records and the decision table, rejoining, replay and queries. What
an accepted request executes is added to `execs`; `Crossbar.lean` runs it. -/

namespace Sys2Proof.Machine

/-! ## Voters and modes -/

/-- The state of a channel: 0 ACTIVE, 1 SUSPECT, 2 EXCLUDED, 3 REJOINING (R121). -/
def State.chState (s : State) (c : Nat) : Nat := s.get (ACC_CH_STAT_STATE c)

/-- Whether a channel is a voter (R98). -/
def State.isVoter (s : State) (c : Nat) : Bool := s.chState c == 0 || s.chState c == 1

/-- The voter set (R98). -/
def State.voters (s : State) : List Nat := (List.range 3).filter s.isVoter

/-- The effective vote mode of VOTED context `n` (R99): 0 TMR, 1 DMR, 2 SIMPLEX, 3 quorum short. -/
def State.effMode (s : State) (n : Nat) : Nat :=
  match s.voters.length with
  | 3 => 0
  | 2 => 1
  | 1 => if s.on (CTX_VOTE_SIMPLEX_OK n) then 2 else 3
  | _ => 3

/-- The MODE that SEQ QUERY reports (R56, R99). -/
def State.modeReported (s : State) (n : Nat) : Nat :=
  if !s.isVoted n then 3 else if s.effMode n = 3 then 1 else s.effMode n

/-- The state of a context: 0 OFF, 1 STARTING, 2 ON, 3 DRAINING; context 0 is always ON (R250, R251). -/
def State.ctxState (s : State) (n : Nat) : Nat := if n = 0 then 2 else s.get (CTX_STAT_STATE n)

/-- Whether two copies match (R107). -/
def copiesMatch (full : Bool) (a b : Pkt) : Bool :=
  a.h.compared == b.h.compared &&
    if a.data.length ≤ 64 || full then a.data == b.data else crc64 a.data == crc64 b.data

/-! ## Sequence numbers -/

/-- How many trailing ones a number has, at most `fuel`. -/
def trailingOnes : Nat → Nat → Nat
  | 0, _ => 0
  | fuel + 1, a => if a % 2 = 1 then 1 + trailingOnes fuel (a / 2) else 0

/-- Whether SEQ `q` of context `n` has been accepted since the context's start (R35). -/
def State.accepted (s : State) (n q : Nat) : Bool :=
  let down := s.get (CTX_SEQ_DOWN_SEQ n)
  let d := (q + 65536 - down) % 65536
  if 1 ≤ d ∧ d ≤ 64 then bitAt (mget s.ahead n 0) (d - 1)
  else decide ((down + 65536 - q) % 65536 < mget s.advances n 0)

/-- Whether SEQ `q` lies in DOWN_SEQ + 1 to DOWN_SEQ + 64 (R35). -/
def State.inRange (s : State) (n q : Nat) : Bool :=
  let d := (q + 65536 - s.get (CTX_SEQ_DOWN_SEQ n)) % 65536
  decide (1 ≤ d) && decide (d ≤ 64)

/-- A host request counted as accepted (R451). -/
def State.countAccept (s : State) : State :=
  let n := s.get GLB_ACCEPT_LO_COUNT + s.get GLB_ACCEPT_HI_COUNT * 2 ^ 32 + 1
  (s.put GLB_ACCEPT_LO_COUNT n).put GLB_ACCEPT_HI_COUNT (n / 2 ^ 32)

/-- SEQ `q` of context `n` accepted (R35). -/
def State.accept (s : State) (n q : Nat) : State :=
  if s.inRange n q && !s.accepted n q then
    let d := (q + 65536 - s.get (CTX_SEQ_DOWN_SEQ n)) % 65536
    let a := mget s.ahead n 0 + 2 ^ (d - 1)
    let k := trailingOnes 64 a
    let s := { s with ahead := mput s.ahead n (a / 2 ^ k) 0,
                      advances := mput s.advances n (min 65472 (mget s.advances n 0 + k)) 0 }
    (s.put (CTX_SEQ_DOWN_SEQ n) (s.get (CTX_SEQ_DOWN_SEQ n) + k)).countAccept
  else s

/-! ## Messages and queries -/

/-- UP_OLDEST of a context (R56). -/
def State.upOldest (s : State) (n : Nat) : Nat :=
  match mget s.retention n [] with
  | [] => (s.get (CTX_SEQ_UP_SEQ n) + 1) % 65536
  | m :: _ => m.seq

/-- The 16-byte completion data of a SEQ for channel `c` (R56): live, but for a context that the channel has synced
the DOWN_SEQ and UP_SEQ of the snapshot that a SYNC gives (R57, R127). -/
def State.seqData (s : State) (n c : Nat) (snap : Option Synced := none) : List Byte :=
  let w0 := match snap with
    | some x => x.down + x.up * 2 ^ 16
    | none => s.get (CTX_SEQ_DOWN_SEQ n) + s.get (CTX_SEQ_UP_SEQ n) * 2 ^ 16
  let w1 := s.get (CTX_FENCE_FENCED n) + s.modeReported n * 2 + s.chState c * 16 +
    s.upOldest n * 2 ^ 16
  leBytes 4 w0 ++ leBytes 4 w1 ++ leBytes 8 (mget s.ahead n 0)

/-- A SEQ answered with its 16 bytes of data (R56, R57). -/
def State.answerSeq (s : State) (p tag : Nat) (h : Hdr) (snap : Option Synced := none) : State :=
  s.sendPart p tag h ⟨stSC, h.addr, s.seqData h.ctx p snap, true⟩

/-- The completions of RPLs at the head of a port's pending list sent (R49, R58). `fuel` is at least
the length of the list. -/
def State.flushRpl : Nat → State → Nat → State
  | 0, s, _ => s
  | fuel + 1, s, p =>
    let x := s.port p
    match x.msgs with
    | .rpl tag h d :: t =>
      State.flushRpl fuel ((s.setPort p { x with msgs := t }).sendPart p tag h
        ⟨stSC, h.addr, d, true⟩) p
    | _ => s

/-- The messages that an RPL of context `n` from number `f` replays, and its completion data (R58): the first number
is that of the first message held, UP_SEQ + 1 where none is. -/
def State.replayOf (s : State) (n f : Nat) : List Msg × List Byte :=
  let up := s.get (CTX_SEQ_UP_SEQ n)
  if (up + 65536 - f) % 65536 ≤ 32767 then
    let ms := (mget s.retention n []).filter
      (fun m => decide ((up + 65536 - m.seq) % 65536 ≤ (up + 65536 - f) % 65536))
    match ms with
    | [] => ([], leBytes 4 (s.upOldest n))
    | m :: _ => (ms, leBytes 4 (m.seq + ms.length * 2 ^ 16))
  else ([], leBytes 4 f)

/-- Messages replayed on port `p`, and behind them the completion of the RPL with the given tag and
header (R49, R58). -/
def State.replayTo (s : State) (p tag : Nat) (h : Hdr) (ms : List Msg) (d : List Byte) : State :=
  let r := ms.foldl (fun (r : State × Bool) m =>
    let t := r.1.pendMsg p m
    (t.1, r.2 || t.2)) (s, false)
  let x := r.1.port p
  let s := r.1.setPort p { x with msgs := x.msgs ++ [.rpl tag h d] }
  let s := s.flushRpl (x.msgs.length + 1) p
  s.raiseDrops (if r.2 then [p] else [])

/-! ## Fences -/

/-- The part of the fence record that describes one copy (R424): payload bytes 0 to 3, or ADDR[31:0],
and the low word of the digest over header and payload. -/
def fenceCopy (k : Pkt) : Nat × Nat :=
  (if k.data.isEmpty then k.h.addr % 2 ^ 32 else leNat (k.data.take 4),
   (crc64 (pktBytes ⟨k.h.compared, k.data⟩)).toNat % 2 ^ 32)

/-- The fence trigger of context `n` (R118, R424): counted; if the context is not fenced, it becomes
fenced with the reason, and the fence part of the error record describes the given copies by entry. -/
def State.fence (s : State) (n reason seq present : Nat) (copies : List (Nat × Pkt)) : State :=
  let s := s.bump ACC_OUTCOME2_FENCES
  if s.on (CTX_FENCE_FENCED n) then s
  else
    let s := ((s.put (CTX_FENCE_FENCED n) 1).put (CTX_FENCE_REASON n) reason).incr
      (CTX_FENCE_FENCE_ID n)
    let s := ((s.put (CTX_ERR_FENCE_REASON n) reason).put (CTX_ERR_FENCE_FENCE_ID n)
      (s.get (CTX_FENCE_FENCE_ID n))).put (CTX_ERR_FENCE_SEQ n) seq
    let s := (s.put (CTX_ERR_FTIME_TIME n) s.nowUs).put (CTX_ERR_FCOPY_PRESENT n) present
    let s := (List.range 3).foldl (fun s c =>
      let d := match copies.find? (fun e => e.1 == c) with
        | some e => fenceCopy e.2
        | none => (0, 0)
      (s.put (CTX_ERR_DATA_DATA n c) d.1).put (CTX_ERR_DIG_DIG n c) d.2) s
    s.raise 34 n (detail 3 (if reason = 1 then 5 else if reason = 2 then 6 else 0) seq)

/-! ## Captures and counters -/

/-- The capture of the first discord (R135): the kind, the channel charged, the key, the captured
copy, the reference copy. -/
def State.dlog (s : State) (kind ch n seq : Nat) (cap ref : Option Pkt) : State :=
  if s.on ACC_DLOG_CTL_VALID then s
  else
    let hw (k : Option Pkt) (i : Nat) : Nat := match k with
      | some k => (k.h.words.getD i 0).toNat
      | none => 0
    let dg (k : Option Pkt) : Nat := match k with
      | some k => if k.data.isEmpty then 0 else (crc64 k.data).toNat
      | none => 0
    let s := ((s.put ACC_DLOG_CTL_KIND kind).put ACC_DLOG_CTL_CHANNEL ch).put ACC_DLOG_CTL_VALID 1
    let s := (s.put ACC_DLOG_KEY_SEQ seq).put ACC_DLOG_KEY_CTX n
    let s := (List.range 4).foldl (fun s i =>
      (s.put (ACC_DLOG_HDR_WORD i) (hw cap i)).put (ACC_DLOG_REF_WORD i) (hw ref i)) s
    let s := (s.put ACC_DLOG_DIG_LO_DIGEST (dg cap)).put ACC_DLOG_DIG_HI_DIGEST (dg cap / 2 ^ 32)
    (s.put ACC_DLOG_REF_DIG_LO_DIGEST (dg ref)).put ACC_DLOG_REF_DIG_HI_DIGEST (dg ref / 2 ^ 32)

/-- An error of a context at a request that its context's state or mode turns away (R100, R250, R252,
R423 MODE). -/
def State.modeError (s : State) (p : Nat) (k : Pkt) (status : Nat) : State :=
  s.ctxError k.h.ctx
    { cause := 3, status := status, window := 0,
      channel := if k.h.voted || decide (2 < p) then 3 else p,
      seq := k.h.seq, haddr := k.h.addr, card := 0, target := 0, posted := k.h.type == tMWR,
      courier := false }

/-- ACC_REC.OPEN and HIGH after records were opened or freed (R134). -/
def State.countRecs (s : State) : State :=
  let k := s.records.length
  let s := s.put ACC_REC_OPEN k
  if s.get ACC_REC_HIGH < k then s.put ACC_REC_HIGH k else s

/-! ## Records -/

/-- The record of a key, if there is one. -/
def State.findRec (s : State) (rpl : Bool) (n seq : Nat) : Option Record :=
  s.records.find? (fun r => r.rpl == rpl && r.ctx == n && r.seq == seq)

/-- Whether two records have one key. -/
def sameKey (a b : Record) : Bool := a.rpl == b.rpl && a.ctx == b.ctx && a.seq == b.seq

/-- The state with a record replaced by one of the same key. -/
def State.setRec (s : State) (r : Record) : State :=
  { s with records := s.records.map (fun x => if sameKey x r then r else x) }

/-- The test of a freed record and of its `k` slots asked for (R414). Which record and slots of the device they
are, and what DETAIL shows for them, the spec does not say. -/
def State.slotFault (s : State) (k : Nat) : State :=
  let i := s.free
  let d := i.2.free
  d.2.queueTest (.slot (i.1.toNat % 2560) k) d.1.toNat

/-- The state without a record: its slots are free, its timers off. A record with an uncorrectable
word queues the test of its slots (R414). -/
def State.freeRec (s : State) (r : Record) : State :=
  let s := { s with records := s.records.filter (fun x => !sameKey x r) }
  let s := s.disarm (.vote r.rpl r.ctx r.seq)
  let s := (List.range 3).foldl (fun s c => s.disarm (.rejoinCopy r.ctx r.seq c)) s
  let s := if r.ue then s.slotFault r.slots else s
  s.countRecs

/-- The state with a record freed if its window has closed and nothing of it executes (R104). -/
def State.freeIfDone (s : State) (rpl : Bool) (n seq : Nat) : State :=
  match s.findRec rpl n seq with
  | none => s
  | some r =>
    let running := match r.decision with
      | .execute _ => !r.ended
      | _ => false
    if r.closed && !running then s.freeRec r else s

/-- A copy of a record answered with a status at once, if it is non-posted and its port is up (R110,
R115). -/
def State.answer (s : State) (c : Copy) (status : Nat) : State :=
  if nonPosted c.pkt.h.type then s.complete c.ch c.pkt.h.tag c.pkt.h status else s

/-- The copies of a record marked answered, those for which `f` holds. -/
def Record.mark (r : Record) (f : Copy → Bool) : Record :=
  { r with copies := r.copies.map (fun c => if f c then { c with answered := true } else c) }

/-- The copies of a record for which `f` holds, and that are not answered, completed with DV (R110). -/
def State.denyCopies (s : State) (r : Record) (f : Copy → Bool) : State :=
  let s := (r.copies.filter (fun c => f c && !c.answered)).foldl (fun s c => s.answer c stDV) s
  s.setRec (r.mark f)

/-- The parts of a record's result given to one copy (R15, R116). -/
def State.giveParts (s : State) (c : Copy) (ps : List Part) : State :=
  if nonPosted c.pkt.h.type then ps.foldl (fun s q => s.sendPart c.ch c.pkt.h.tag c.pkt.h q) s else s

/-- A part of the result of a record's execution given to every copy that agrees, and retained (R15,
R16). -/
def State.recordPart (s : State) (n seq : Nat) (q : Part) : State :=
  match s.findRec false n seq with
  | none => s
  | some r =>
    match r.decision with
    | .execute ref =>
      let owed := r.copies.filter (fun c => !c.answered && copiesMatch r.fullCmp ref.pkt c.pkt)
      let s := owed.foldl (fun s c => s.giveParts c [q]) s
      let r := { r with retained := r.retained ++ [q], ended := r.ended || q.final }
      let s := s.setRec (if q.final then r.mark (fun c => copiesMatch r.fullCmp ref.pkt c.pkt) else r)
      s.freeIfDone false n seq
    | _ => s

/-- A part of an accepted request's result given to those to whom it is owed. A posted request is owed
none. -/
def State.deliver (s : State) (d : Dest) (req : Hdr) (q : Part) : State :=
  match d with
  | .record n seq => s.recordPart n seq q
  | .port p tag => if nonPosted req.type then s.sendPart p tag req q else s
  | .direct n =>
    let s := if q.data.isEmpty then s else s.emit (.read n q.addr q.data)
    if q.final then s.emit (.done n req.addr q.status) else s
  | .inbound g id => if q.final then s.inbFill g id q.data (q.status == stSC) else s
  | .gone => s

/-- The requester of an accepted request, as a register access has it. -/
def recordWho : Who := .voted

/-- The generations that a request accepted for context `n` from port `p` depends on (R446). -/
def State.gensOf (s : State) (n : Nat) (ports : List Nat) : List (UnitRef × Nat) :=
  (UnitRef.ctx n, s.get (CTX_STAT_GEN n)) ::
    ports.map (fun p => (UnitRef.port p,
      if p < 3 then s.get (HP_STAT_GEN p) else s.get (SPN_PORT_GEN (p - 3))))

/-- An accepted request added to those that execute (R106). The trace records it (R486). -/
def State.addExec (s : State) (d : Dest) (who : Who) (k : Pkt) (via : Option Nat) (port : Nat)
    (ports : List Nat) : State :=
  let s := s.traceRec 1 port k.h.words (digestOf k.data)
  let e : Exec :=
    { dest := d, who := who, pkt := k, posted := k.h.type == tMWR, viaSpan := via, win := none,
      attr := 0, winSeg := 0, target := .internal, taddr := k.h.addr, stage := .accepted,
      status := 0, rdata := [], sent := 0, got := [], gens := s.gensOf k.h.ctx ports,
      order := s.order }
  { s with execs := s.execs ++ [e], order := s.order + 1 }

/-- A request that is accepted but does not start, because its context is fenced or draining: FE or AB
(R119, R250), or none if it may execute. The state counts a rejection. -/
def State.turnedAway (s : State) (n : Nat) : State × Option Nat :=
  if s.on (CTX_FENCE_FENCED n) then (s.bump (CTX_FENCE_REJECTED n), some stFE)
  else if s.ctxState n = 3 then (s, some stAB)
  else (s, none)

/-- The vote formed by an accepted voted request (R122). -/
def State.formVote (s : State) : State :=
  if 2 ≤ s.voters.length then s.put ACC_STAT_FORMED 1 else s

/-- A record decides an execution with reference copy `ref` (R106, R109, R119). -/
def State.release (s : State) (r : Record) (ref : Copy) : State :=
  let s := (s.accept r.ctx r.seq).formVote
  let s := s.setRec { r with decision := .execute ref }
  let t := s.turnedAway r.ctx
  match t.2 with
  | some st => t.1.recordPart r.ctx r.seq ⟨st, ref.pkt.h.addr, [], true⟩
  | none =>
    let s := t.1.addExec (.record r.ctx r.seq) .voted ref.pkt none ref.ch []
    if ref.pkt.h.type = tMWR then
      s.setRec ({ r with decision := .execute ref }.mark (fun c => copiesMatch r.fullCmp ref.pkt c.pkt))
    else s

/-- A record decides that nothing executes: the SEQ is accepted and every copy gets DV (R112). -/
def State.noExec (s : State) (r : Record) : State :=
  let s := (s.accept r.ctx r.seq).formVote
  s.denyCopies { r with decision := .none } (fun _ => true)

/-- Rows T6, T7 and D2 (R110, R112): no execution, the context fenced with the reason, the discord
counted, captured and raised, and the error of the context recorded (R423). The capture takes the header of the second
voter copy (DESIGN CHOICE, log 124). -/
def State.discordRow (s : State) (r : Record) (reason : Nat) : State :=
  let vc := r.copies.filter (fun c => !c.rejoining)
  let s := s.noExec r
  let s := if reason = 1 then s.bump ACC_OUTCOME0_DISCORD_ALL else s.bump ACC_OUTCOME0_DISCORD_PAIR
  let s := s.dlog (4 + reason) 3 r.ctx r.seq ((vc[1]?).map (·.pkt)) ((vc[0]?).map (·.pkt))
  let s := s.raise (24 + reason) r.ctx (detail 3 (4 + reason) r.seq)
  let s := s.fence r.ctx reason r.seq ((vc.map (fun c => 2 ^ c.ch)).sum) (vc.map (fun c => (c.ch, c.pkt)))
  let k : Pkt := (vc[0]?).elim default (·.pkt)
  s.ctxError r.ctx
    { cause := 3 + reason, status := stDV, window := 0, channel := 3, seq := r.seq,
      haddr := k.h.addr, card := 0, target := 0, posted := k.h.type == tMWR, courier := false }

/-- The outcome of looking at a record after a copy of a voter has joined it, by the rows of its mode:
the state and the channel charged MISMATCH with its copy and the reference. -/
def State.decideRec (s : State) (r : Record) : State × List (Copy × Copy) :=
  let vc := r.copies.filter (fun c => !c.rejoining)
  if r.decision ≠ .undecided then (s, [])
  else if r.ue then (s.noExec r, [])
  else
    let eq := fun (a b : Copy) => copiesMatch r.fullCmp a.pkt b.pkt
    match r.mode, vc with
    | _, [] => (s, [])
    | 3, _ :: _ =>
      let s := (s.noExec r).bump ACC_OUTCOME1_NO_QUORUM
      if s.noQuorum then (s, [])
      else ({ s with noQuorum := true }.raise 33 r.ctx (detail 3 0 r.seq), [])
    | 2, a :: _ => (s.release r a, [])
    | 1, a :: b :: _ => if eq a b then (s.release r a, []) else (s.discordRow r 2, [])
    | 0, [a, b] => if eq a b then (s.release r a, []) else (s, [])
    | 0, a :: b :: c :: _ =>
      if eq a b then (s.release r a, [])
      else if eq a c then (s.release r a, [(b, a)])
      else if eq b c then (s.release r b, [(a, b)])
      else (s.discordRow r 1, [])
    | _, _ => (s, [])

/-- A record's decision, and DV for its copies that differ from the one executed. -/
def State.settleRec (s : State) (r : Record) : State × List (Copy × Copy) :=
  let t := s.decideRec r
  match t.1.findRec r.rpl r.ctx r.seq with
  | some r' =>
    match r'.decision with
    | .execute ref => (t.1.denyCopies r' (fun c => !copiesMatch r'.fullCmp ref.pkt c.pkt), t.2)
    | _ => t
  | none => t

/-! ## Channel states -/

/-- The discords of channel `c` within the last second (R528). -/
def State.recentDiscords (s : State) (c : Nat) : Nat :=
  (s.discords.filter (fun d => d.1 == c && decide (s.now < d.2 + 1000000000))).length

/-- ACC_STAT's voter bits and the effects of a voter set changed by channel `c` (R99, R125, R132): EV_ACC_MODE, and the
next row Q1 raises EV_ACC_NO_QUORUM again; with no voter, FORMED is 0 (R122). -/
def State.votersChanged (s : State) (c : Nat) : State :=
  let s := ((s.put ACC_STAT_VOTER_A (ofBool (s.isVoter 0))).put ACC_STAT_VOTER_B
    (ofBool (s.isVoter 1))).put ACC_STAT_VOTER_C (ofBool (s.isVoter 2))
  let s := if s.voters.isEmpty then s.put ACC_STAT_FORMED 0 else s
  { s with noQuorum := false }.raise 32 0 (detail c 0 0)

/-- One open record after channel `c` left the voter set (R102, R113, R427): the channel's copies are
removed and get DV; the record goes on under the new mode; a record left without copies is freed. -/
def State.dropVoter (s : State) (c : Nat) (r : Record) : State :=
  let gone := r.copies.filter (fun x => x.ch == c && !x.rejoining)
  let s := (gone.filter (fun x => !x.answered)).foldl (fun s x => s.answer x stDV) s
  let per := if r.voters.contains c then r.perVoter else 0
  let r := { r with copies := r.copies.filter (fun x => x.ch != c || x.rejoining),
                    voters := r.voters.filter (· != c), slots := r.slots - per }
  let s := s.setRec r
  if r.rpl || r.decision ≠ .undecided || !r.started then s
  else if (r.copies.filter (fun x => !x.rejoining)).isEmpty then
    (s.denyCopies r (fun _ => true)).freeRec r
  else
    let r := { r with mode := s.effMode r.ctx }
    ((s.setRec r).settleRec r).1

/-- Every open record after channel `c` left the voter set. -/
def State.dropVoterAll (s : State) (c : Nat) : State :=
  s.records.foldl (fun s r =>
    match s.findRec r.rpl r.ctx r.seq with
    | some r => if r.closed then s else s.dropVoter c r
    | none => s) s

/-- The copies of a REJOINING channel whose rejoin ends that wait alone in a record: DV, and the record
freed if nothing is left in it (R128). -/
def State.dropRejoiner (s : State) (c : Nat) : State :=
  s.records.foldl (fun s r =>
    if r.started || r.rpl then s
    else
      let gone := r.copies.filter (fun x => x.ch == c && !x.answered)
      let s := gone.foldl (fun s x => s.answer x stDV) s
      let r := { r with copies := r.copies.filter (fun x => x.ch != c) }
      let s := (s.setRec r).disarm (.rejoinCopy r.ctx r.seq c)
      if r.copies.isEmpty then s.freeRec r else s) s

/-- Channel `c` enters EXCLUDED (R117, R121, R125, R528); under HOLD-UP its lanes are asked to idle (R91). Where a
discord or a copy is its cause, the event carries that one's kind, context and SEQ (R132). -/
def State.exclude (s : State) (c : Nat) (kind : Nat := 0) (n : Nat := 0) (seq : Nat := 0) : State :=
  if s.chState c = 2 then s
  else
    let was := s.isVoter c
    let s := ((s.put (ACC_CH_STAT_STATE c) 2).put (ACC_CH_STAT_RECENT c) 0).bump
      (ACC_CH_TRANS_EXCLUSIONS c)
    let s := (s.put (ACC_CH_STAT_SYNC_LEFT c) 0).put (ACC_CH_STAT_CLEAN c) 0
    let s := { s with discords := s.discords.filter (fun d => d.1 != c),
                      synced := s.synced.filter (fun x => x.ch != c) }
    let s := s.disarm (.rejoin c)
    let x := s.port c
    let s := s.setPort c { x with msgs := x.msgs.filter (fun m => !m.isMsg) }
    let s := s.flushRpl x.msgs.length c
    let s := s.raise 29 n (detail c kind seq)
    let s := if s.get STG_STAT_PLAN = 2 then s.put (LL_CMD_EIDLE c) 1 else s
    if was then (s.votersChanged c).dropVoterAll c else s.dropRejoiner c

/-- A channel's rejoin fails (R130), with the context and the SEQ of the copy that failed it, if one did (R132). -/
def State.rejoinFail (s : State) (c : Nat) (n : Nat := 0) (seq : Nat := 0) : State :=
  if s.chState c = 3 then
    (s.exclude c 4 n seq).bump (ACC_CH_REJ_REJOIN_FAILS c) |>.raise 31 n (detail c 4 seq)
  else s

/-- A SUSPECT channel whose last discord is a second old is ACTIVE (R121, R528). -/
def State.suspectLapse (s : State) (c : Nat) : State :=
  if s.chState c == 1 && s.recentDiscords c == 0 then
    (s.put (ACC_CH_STAT_STATE c) 0).put (ACC_CH_STAT_RECENT c) 0
  else s

/-- The counter of a discord kind (R124): 0 MISMATCH, 1 OMIT, 2 LONELY, 3 PROTOCOL. -/
def discCounter (c kind : Nat) : FRef :=
  if kind = 0 then ACC_CH_DISC0_MISMATCH c
  else if kind = 1 then ACC_CH_DISC0_OMIT c
  else if kind = 2 then ACC_CH_DISC1_LONELY c
  else ACC_CH_DISC1_PROTOCOL c

/-- A discord charged to voter `c` (R121, R124, R132, R135, R528). -/
def State.charge (s : State) (c kind n seq : Nat) (cap ref : Option Pkt) : State :=
  if !s.isVoter c then s
  else
    let s := s.suspectLapse c
    let s := (s.bump (discCounter c kind)).dlog kind c n seq cap ref
    let s := { s with discords :=
      s.discords.filter (fun (d : Nat × Nat) => d.1 != c || decide (s.now < d.2 + 1000000000)) ++
        [(c, s.now)] }
    let k := s.recentDiscords c
    let s := (s.put (ACC_CH_STAT_RECENT c) (min 2 k)).raise 24 n (detail c kind seq)
    if 3 ≤ k then s.exclude c kind n seq
    else if s.chState c = 0 then
      ((s.put (ACC_CH_STAT_STATE c) 1).bump (ACC_CH_TRANS_SUSPECTS c)).raise 28 n (detail c kind seq)
    else s

/-- A discord that a record charges, at most one to each channel (R111). -/
def State.chargeRec (s : State) (rpl : Bool) (n seq c kind : Nat) (cap ref : Option Pkt) : State :=
  match s.findRec rpl n seq with
  | none => s.charge c kind n seq cap ref
  | some r =>
    if r.charged.contains c then s
    else (s.setRec { r with charged := c :: r.charged }).charge c kind n seq cap ref

/-- A record settled and the channels that it charges MISMATCH charged. -/
def State.settle (s : State) (r : Record) : State :=
  let t := s.settleRec r
  t.2.foldl (fun s e =>
    s.chargeRec false r.ctx r.seq e.1.ch 0 (some e.1.pkt) (some e.2.pkt)) t.1

/-- The voted contexts in state ON other than context 0 (R127). -/
def State.votedOn (s : State) : List Nat :=
  (List.range 256).filter (fun n => decide (0 < n) && s.isVoted n && s.ctxState n == 2)

/-- Channel `c` enters REJOINING (R121, R127). -/
def State.enterRejoining (s : State) (c : Nat) : State :=
  let s := s.put (ACC_CH_STAT_STATE c) 3
  let s := (s.put (ACC_CH_STAT_SYNC_LEFT c) s.votedOn.length).put (ACC_CH_STAT_CLEAN c) 0
  { s with synced := s.synced.filter (fun x => x.ch != c) }.arm (.rejoin c)
    (s.get ACC_CTL_REJOIN_TMO * 1000000)

/-- A rejoin that is level completes (R129), whatever FORMED is by then: R122 names the entry into ON alone, and R129
completes a rejoin without asking for it (DEDUCED, log 117). -/
def State.rejoinCheck (s : State) (c : Nat) : State :=
  if s.chState c == 3 && s.get (ACC_CH_STAT_SYNC_LEFT c) == 0 &&
      decide (s.get ACC_CTL_REJOIN_CLEAN ≤ s.get (ACC_CH_STAT_CLEAN c)) then
    let s := (s.put (ACC_CH_STAT_STATE c) 0).bump (ACC_CH_REJ_REJOINS c)
    let s := { s with synced := s.synced.filter (fun x => x.ch != c) }.disarm (.rejoin c)
    (s.raise 30 0 (detail c 0 0)).votersChanged c
  else s

/-- A clean copy of a REJOINING channel (R128). -/
def State.cleanCopy (s : State) (c : Nat) : State :=
  (s.bump (ACC_CH_STAT_CLEAN c)).rejoinCheck c

/-- A host port's entry into ON as its channel sees it (R121, R122). -/
def State.channelPortOn (s : State) (c : Nat) : State :=
  if s.chState c ≠ 2 then s
  else if !s.on ACC_STAT_FORMED then (s.put (ACC_CH_STAT_STATE c) 0).votersChanged c
  else if s.on (ACC_CH_CTL_AUTO_REJOIN c) then s.enterRejoining c
  else s

/-- A voted context leaves ON by entering DRAINING, as the rejoining channels see it (R127). -/
def State.rejoinCtxOff (s : State) (n : Nat) : State :=
  (List.range 3).foldl (fun s c =>
    if s.chState c == 3 && s.isVoted n && decide (0 < n) then
      if s.synced.any (fun x => x.ch == c && x.ctx == n) then
        { s with synced := s.synced.filter (fun x => !(x.ch == c && x.ctx == n)) }
      else (s.put (ACC_CH_STAT_SYNC_LEFT c) (s.get (ACC_CH_STAT_SYNC_LEFT c) - 1)).rejoinCheck c
    else s) s

/-- A voted context enters ON, as the rejoining channels see it (R127). -/
def State.rejoinCtxOn (s : State) (n : Nat) : State :=
  (List.range 3).foldl (fun s c =>
    if s.chState c == 3 && s.isVoted n && decide (0 < n) then
      { s with synced := s.synced.filter (fun x => !(x.ch == c && x.ctx == n)) }.put
        (ACC_CH_STAT_SYNC_LEFT c) (s.get (ACC_CH_STAT_SYNC_LEFT c) + 1)
    else s) s

/-- A SYNC from a rejoining channel on context `n` (R57, R127): the snapshot is taken on a context not
yet synced, and the answer is that of a QUERY with the snapshot's numbers. -/
def State.sync (s : State) (p tag : Nat) (h : Hdr) : State :=
  let n := h.ctx
  let held := s.synced.find? (fun x => x.ch == p && x.ctx == n)
  let s' := s.answerSeq p tag h held
  if held.isSome || s.ctxState n != 2 then s'
  else
    let new : Synced := ⟨p, n, s.get (CTX_SEQ_DOWN_SEQ n), s.get (CTX_SEQ_UP_SEQ n)⟩
    let s := { s' with synced := s'.synced ++ [new] }
    (s.put (ACC_CH_STAT_SYNC_LEFT p) (s.get (ACC_CH_STAT_SYNC_LEFT p) - 1)).rejoinCheck p

/-- A protocol error of cause SEQ_RANGE or SEQ_DUPLICATE found by the Accord (R59, R131). -/
def State.seqError (s : State) (p : Nat) (k : Pkt) (cause : Nat) (ref : Option Pkt) : State :=
  let s := s.protoError p k.h cause
  let s := if nonPosted k.h.type then s.complete p k.h.tag k.h stUR else s
  if s.on ACC_CTL_PROTO_DISCORD && s.isVoted k.h.ctx then
    if s.isVoter p then s.charge p 3 k.h.ctx k.h.seq (some k) ref
    else s.rejoinFail p k.h.ctx k.h.seq
  else s

/-! ## Arrival of a copy -/

/-- A copy put among those of its record in order of arrival, copies of one CORE cycle in port order (R105). -/
def insertCopy (c : Copy) : List Copy → List Copy
  | [] => [c]
  | x :: t =>
    if coreCycle c.arrived < coreCycle x.arrived ∨
        (coreCycle c.arrived = coreCycle x.arrived ∧ c.ch < x.ch) then c :: x :: t
    else x :: insertCopy c t

/-- A record with a copy added (R105). -/
def Record.addCopy (r : Record) (c : Copy) : Record := { r with copies := insertCopy c r.copies }

/-- The reference copy of a record's captures (R134): the first of the agreeing copies, or its first copy. -/
def Record.refCopy (r : Record) : Option Pkt :=
  match r.decision with
  | .execute ref => some ref.pkt
  | _ => ((r.copies.filter (fun c => !c.rejoining)) ++ r.copies).head?.map (·.pkt)

/-- Slots in use (R102). -/
def State.slotsUsed (s : State) : Nat := (s.records.map (·.slots)).sum

/-- The retained-data slots that a record opened by this packet takes: in all, and for each voter
(R102). -/
def State.slotsFor (s : State) (k : Pkt) : Nat × Nat :=
  if k.h.type = tMRD ∨ k.h.type = tATM then ((k.h.len + 64) / 64, 0)
  else if 64 < k.data.length && s.on (CTX_VOTE_FULL_CMP k.h.ctx) then
    ((k.data.length + 63) / 64 * s.voters.length, (k.data.length + 63) / 64)
  else (0, 0)

/-- Whether a record and its slots are free for this packet (R103, R414). -/
def State.recFree (s : State) (k : Pkt) : Bool :=
  decide (s.records.length + s.recsOut < 2048) &&
    decide (s.slotsUsed + (if k.h.type = tRPL then 0 else (s.slotsFor k).1) + s.slotsOut ≤ 512)

/-- A record opened (R99, R102, R104); its window starts with the first copy of a voter. -/
def State.openRec (s : State) (rpl : Bool) (k : Pkt) : State :=
  let sl := if rpl then (0, 0) else s.slotsFor k
  let r : Record :=
    { rpl := rpl, ctx := k.h.ctx, seq := k.h.seq, copies := [], mode := s.effMode k.h.ctx,
      voters := s.voters, window := s.get (CTX_VOTE_WINDOW k.h.ctx) * 500,
      fullCmp := s.on (CTX_VOTE_FULL_CMP k.h.ctx), started := false, closed := false,
      decision := .undecided, ended := false, retained := [], msgs := [], slots := sl.1,
      perVoter := sl.2, charged := [], ue := false }
  { s with records := s.records ++ [r] }.countRecs

/-- The window of a record started at the arrival of its first copy, if it is not yet (R104). -/
def State.startWindow (s : State) (r : Record) (arrived : Nat) : State × Record :=
  if r.started then (s, r)
  else
    let r := { r with started := true }
    let s := (List.range 3).foldl (fun s c => s.disarm (.rejoinCopy r.ctx r.seq c)) (s.setRec r)
    (s.armAt (.vote r.rpl r.ctx r.seq) (arrived + r.window), r)

/-- The lateness of a copy behind the first voter copy of its record (R134). -/
def State.skew (s : State) (r : Record) (c : Copy) : State :=
  match r.copies.find? (fun x => !x.rejoining) with
  | none => s
  | some f =>
    let d := min 65535 ((c.arrived - f.arrived) / 10)
    if s.get (ACC_CH_SKEW_MAX c.ch) < d then s.put (ACC_CH_SKEW_MAX c.ch) d else s

/-- A copy that joins a record that has decided (R15, R110): from retained data if it matches, DV if it
differs or nothing executed. -/
def State.lateCopy (s : State) (r : Record) (c : Copy) : State :=
  match r.decision with
  | .execute ref =>
    if copiesMatch r.fullCmp ref.pkt c.pkt then
      let s := if c.rejoining then s else s.bump (ACC_CH_LATE_LATE_MATCH c.ch)
      let done := r.ended || c.pkt.h.type == tMWR
      let s := (if r.ue then s.answer c stAB else s.giveParts c r.retained).setRec
        (r.addCopy { c with answered := done || r.ue })
      if c.rejoining then s.cleanCopy c.ch else s
    else
      let s := (s.answer c stDV).setRec (r.addCopy { c with answered := true })
      if c.rejoining then (s.dlog 4 c.ch r.ctx r.seq (some c.pkt) (some ref.pkt)).rejoinFail c.ch r.ctx r.seq
      else s.chargeRec false r.ctx r.seq c.ch 0 (some c.pkt) (some ref.pkt)
  | _ => (s.answer c stDV).setRec (r.addCopy { c with answered := true })

/-- The copies of REJOINING channels that wait in a record compared with its first voter copy (R128). -/
def State.compareRejoiners (s : State) (r : Record) (first : Copy) : State :=
  (r.copies.filter (fun x => x.rejoining && !x.answered)).foldl (fun s x =>
    if copiesMatch r.fullCmp first.pkt x.pkt then s.cleanCopy x.ch
    else
      let s := match s.findRec r.rpl r.ctx r.seq with
        | some r' => (s.answer x stDV).setRec (r'.mark (fun y => y.ch == x.ch))
        | none => s
      (s.dlog 4 x.ch r.ctx r.seq (some x.pkt) (some first.pkt)).rejoinFail x.ch r.ctx r.seq) s

/-- A voter's copy joins a record (R104, R110). -/
def State.joinVoter (s : State) (r : Record) (c : Copy) : State :=
  let t := s.startWindow r c.arrived
  let s := t.1.skew t.2 c
  let r := t.2
  if r.decision ≠ .undecided then s.lateCopy r c
  else
    let first := !(r.copies.any (fun x => !x.rejoining))
    let r := r.addCopy c
    let s := s.setRec r
    let s := if first then s.compareRejoiners r c else s
    match s.findRec r.rpl r.ctx r.seq with
    | some r => s.settle r
    | none => s

/-- A REJOINING channel's copy joins an open record (R128). -/
def State.joinRejoiner (s : State) (r : Record) (c : Copy) : State :=
  let s := s.skew r c
  if r.decision ≠ .undecided then
    match r.decision with
    | .none =>
      match r.copies.find? (fun x => !x.rejoining) with
      | none => s.lateCopy r c
      | some f =>
        let s := s.lateCopy r c
        if copiesMatch r.fullCmp f.pkt c.pkt then s.cleanCopy c.ch
        else (s.dlog 4 c.ch r.ctx r.seq (some c.pkt) (some f.pkt)).rejoinFail c.ch r.ctx r.seq
    | _ => s.lateCopy r c
  else
    match r.copies.find? (fun x => !x.rejoining) with
    | none =>
      (s.setRec (r.addCopy c)).armAt (.rejoinCopy r.ctx r.seq c.ch)
        (c.arrived + s.get (CTX_VOTE_WINDOW r.ctx) * 500)
    | some f =>
      if copiesMatch r.fullCmp f.pkt c.pkt then
        (s.setRec (r.addCopy c)).cleanCopy c.ch
      else
        let s := (s.answer c stDV).setRec (r.addCopy { c with answered := true })
        (s.dlog 4 c.ch r.ctx r.seq (some c.pkt) (some f.pkt)).rejoinFail c.ch r.ctx r.seq

/-- The replay of a voted RPL to one copy (R58, R114). -/
def State.serveRpl (s : State) (c : Copy) (ms : List Msg) (d : List Byte) : State :=
  s.replayTo c.ch c.pkt.h.tag c.pkt.h ms d

/-- A copy of a voted RPL joins its record (R114). -/
def State.joinRpl (s : State) (r : Record) (c : Copy) : State :=
  let t := s.startWindow r c.arrived
  let s := t.1
  let r := t.2
  match r.decision with
  | .execute ref =>
    if copiesMatch false ref.pkt c.pkt then
      let d := match r.retained with
        | q :: _ => q.data
        | [] => []
      (s.serveRpl c r.msgs d).setRec (r.addCopy { c with answered := true })
    else s.setRec (r.addCopy c)
  | _ =>
    if r.copies.any (fun x => copiesMatch false x.pkt c.pkt) then
      let p := s.replayOf r.ctx r.seq
      let r := r.addCopy c
      let owed := r.copies.filter (fun x => copiesMatch false x.pkt c.pkt)
      let s := owed.foldl (fun s x => s.serveRpl x p.1 p.2) s
      s.setRec ({ r with decision := .execute c, ended := true, msgs := p.1,
                         retained := [⟨stSC, 0, p.2, true⟩] }.mark
        (fun x => copiesMatch false x.pkt c.pkt))
    else s.setRec (r.addCopy c)

/-- Whether a record is open: its window has not closed. -/
def State.openFor (s : State) (rpl : Bool) (n seq : Nat) : Option Record :=
  match s.findRec rpl n seq with
  | some r => if r.closed then none else some r
  | none => none

/-- A copy of a voter's request of a VOTED context (R35, R110). The Bool tells that it waits for a
record or slots (R103). `at_` is the instant of its arrival. -/
def State.voterCopy (s : State) (p : Nat) (k : Pkt) (at_ : Nat) : State × Bool :=
  let c : Copy := ⟨p, k, at_, false, false⟩
  match s.openFor false k.h.ctx k.h.seq with
  | some r =>
    if r.copies.any (fun x => x.ch == p) then
      (s.seqError p k 0x0A r.refCopy, false)
    else (s.joinVoter r c, false)
  | none =>
    if s.accepted k.h.ctx k.h.seq then
      let s := s.bump (ACC_CH_LATE_LATE_DROP p)
      (if nonPosted k.h.type then s.complete p k.h.tag k.h stDV else s, false)
    else if !s.inRange k.h.ctx k.h.seq then (s.seqError p k 0x09 none, false)
    else if !s.recFree k then (s, true)
    else
      let s := s.openRec false k
      match s.findRec false k.h.ctx k.h.seq with
      | some r => (s.joinVoter r c, false)
      | none => (s, false)

/-- A copy of a REJOINING channel's request of a VOTED context (R128, R131). -/
def State.rejoinerCopy (s : State) (p : Nat) (k : Pkt) (at_ : Nat) : State × Bool :=
  let n := k.h.ctx
  let c : Copy := ⟨p, k, at_, true, false⟩
  let dv (s : State) : State := if nonPosted k.h.type then s.complete p k.h.tag k.h stDV else s
  match s.synced.find? (fun x => x.ch == p && x.ctx == n) with
  | none => (dv s, false)
  | some x =>
    if (x.down + 65536 - k.h.seq) % 65536 < 32768 then (dv s, false)
    else
      match s.openFor false n k.h.seq with
      | some r =>
        if r.copies.any (fun y => y.ch == p) then
          (s.seqError p k 0x0A r.refCopy, false)
        else (s.joinRejoiner r c, false)
      | none =>
        if s.accepted n k.h.seq then (dv (s.put (ACC_CH_STAT_CLEAN p) 0), false)
        else if !s.inRange n k.h.seq then (s.seqError p k 0x09 none, false)
        else if !s.recFree k then (s, true)
        else
          let s := s.openRec false k
          match s.findRec false n k.h.seq with
          | some r => (s.joinRejoiner r c, false)
          | none => (s, false)

/-- A copy of a voted RPL (R114, R128): a channel's second copy is served for that channel alone. -/
def State.rplCopy (s : State) (p : Nat) (k : Pkt) (rejoining : Bool) (at_ : Nat) : State × Bool :=
  let c : Copy := ⟨p, k, at_, rejoining, false⟩
  match s.openFor true k.h.ctx k.h.seq with
  | some r =>
    if r.copies.any (fun x => x.ch == p) then
      let q := s.replayOf k.h.ctx k.h.seq
      (s.serveRpl c q.1 q.2, false)
    else (s.joinRpl r c, false)
  | none =>
    if !s.recFree k then (s, true)
    else
      let s := s.openRec true k
      match s.findRec true k.h.ctx k.h.seq with
      | some r => (s.joinRpl r c, false)
      | none => (s, false)

/-- A request refused whole at its arrival with a status: answered if non-posted, discarded if posted. -/
def State.refuse (s : State) (p : Nat) (k : Pkt) (status : Nat) : State :=
  if nonPosted k.h.type then s.complete p k.h.tag k.h status else s

/-- A request of context `n` that needs no vote is accepted and executed, or turned away with FE
(R100, R101, R119). -/
def State.passUnvoted (s : State) (p : Nat) (k : Pkt) (who : Who) (via : Option Nat) : State :=
  let t := s.turnedAway k.h.ctx
  match t.2 with
  | some st => t.1.refuse p k st
  | none => t.1.addExec (if nonPosted k.h.type then .port p k.h.tag else .port p 0) who k via p [p]

/-- The Accord's admission of a request from a host port (R12, R99, R100, R250, R252). The Bool tells
that the copy waits in its port's buffer for a record or slots (R103). `at_` is the instant of its arrival. -/
def State.admitCopy (s : State) (p : Nat) (k : Pkt) (at_ : Nat) : State × Bool :=
  let n := k.h.ctx
  let t := k.h.type
  let st := s.ctxState n
  if t = tSEQ ∧ k.h.op = 0 then (s.answerSeq p k.h.tag k.h, false)
  else if st = 0 ∨ st = 1 then
    ((if t = tSEQ ∨ t = tRPL then s else s.modeError p k stUR).refuse p k stUR, false)
  else if t = tRPL ∧ (n = 0 ∨ k.h.voted = false) then
    let q := s.replayOf n k.h.seq
    (s.replayTo p k.h.tag k.h q.1 q.2, false)
  else if n = 0 then (s.refuse p k stUR, false)
  else if t = tSEQ then
    if s.isVoted n && s.chState p == 3 then (s.sync p k.h.tag k.h, false)
    else (s.complete p k.h.tag k.h stUR, false)
  else if s.isVoted n ≠ k.h.voted ∨ (s.isVoted n = false ∧ s.get (CTX_VOTE_OWNER n) ≠ p) then
    ((s.modeError p k stUR).refuse p k stUR, false)
  else if st = 3 ∧ t ≠ tRPL ∧ (s.openFor false n k.h.seq).isNone then
    ((s.modeError p k stAB).refuse p k stAB, false)
  else if s.isVoted n = false then
    if s.accepted n k.h.seq then ((s.protoError p k.h 0x0A).refuse p k stUR, false)
    else if !s.inRange n k.h.seq then ((s.protoError p k.h 0x09).refuse p k stUR, false)
    else ((s.accept n k.h.seq).passUnvoted p k
      (.single (if p = 0 then 0 else if p = 1 then 1 else 2)) none, false)
  else if s.chState p = 2 then (s.refuse p k stDV, false)
  else if t = tRPL then s.rplCopy p k (s.chState p == 3) at_
  else if s.chState p = 3 then s.rejoinerCopy p k at_
  else s.voterCopy p k at_

/-! ## The close of a window -/

/-- The window of a record closes (R104, R110, R114). At row T7 the capture takes the row, not the omission of the voter
that is missing (DESIGN CHOICE, log 125). -/
def State.closeRec (s : State) (r : Record) : State :=
  let r := { r with closed := true }
  let s := s.setRec r
  let vc := r.copies.filter (fun c => !c.rejoining)
  let missing := s.voters.filter (fun c => r.voters.contains c && !vc.any (fun x => x.ch == c))
  let chargeOmit (s : State) (ref : Option Pkt) : State :=
    missing.foldl (fun s c => s.chargeRec false r.ctx r.seq c 1 none ref) s
  if r.rpl then
    let alone := r.copies.filter (fun c => !c.answered)
    let s := alone.foldl (fun s c =>
      let q := s.replayOf r.ctx r.seq
      s.serveRpl c q.1 q.2) s
    s.freeRec r
  else
    let s := match r.decision, r.mode, vc with
      | .execute ref, 0, _ => if vc.length = 2 then chargeOmit s (some ref.pkt) else s
      | .undecided, 0, [a, _] => chargeOmit (s.discordRow r 2) (some a.pkt)
      | .undecided, m, [a] =>
        let s := (s.denyCopies r (fun _ => true)).bump ACC_OUTCOME2_LONELY
        let s := s.raise 27 r.ctx (detail a.ch 2 r.seq)
        if m = 0 then s.chargeRec false r.ctx r.seq a.ch 2 (some a.pkt) (some a.pkt) else s
      | _, _, _ => s
    s.freeIfDone false r.ctx r.seq

/-! ## The receive buffer (R49, R103) -/

/-- The record of a copy's key, if its window is still open: one whose closing instant lies before the copy's arrival
closes now (R104). -/
def State.closeLapsed (s : State) (rpl : Bool) (n seq at_ : Nat) : State :=
  match s.dueAt (.vote rpl n seq), s.openFor rpl n seq with
  | some d, some r => if d < at_ then (s.disarm (.vote rpl n seq)).closeRec r else s
  | _, _ => s

/-- Whether a request that waits in a port's receive buffer holds back a later one that would start an execution or a
vote (R49): a non-posted one passes no posted one; two of one kind pass each other unless they have one context and one
target. -/
def State.holdsBack (s : State) (x k : Pkt) : Bool :=
  let one := x.h.ctx == k.h.ctx && s.targetAt x.h.ctx x.h.addr == s.targetAt k.h.ctx k.h.addr
  let px := x.h.type == tMWR
  let pk := k.h.type == tMWR
  if pk then px && one else px || one

/-- What becomes of a copy that arrived at port `p` at the instant `at_`, with `earlier` before it in the port's receive
buffer (R49, R103): the state without it, or that it waits, for a record or slots if `needs`, else behind those. A copy
of an open record, and one that starts neither a vote nor an execution, waits for nothing. -/
inductive CopyFate where
  | left (s : State)
  | waits (needs : Bool)

/-- The Accord takes a copy, or leaves it in its port's receive buffer (R103). -/
def State.tryCopy (s : State) (p : Nat) (k : Pkt) (at_ : Nat) (earlier : List StalledCopy) : CopyFate :=
  let rpl := k.h.type == tRPL
  let votes := k.h.voted && k.h.type != tSEQ
  let s := if votes then s.closeLapsed rpl k.h.ctx k.h.seq at_ else s
  let joins := votes && (s.openFor rpl k.h.ctx k.h.seq).isSome
  let t := s.admitCopy p k at_
  let starts := !joins && (decide (s.records.length < t.1.records.length) || decide (s.execs.length < t.1.execs.length))
  if t.2 then .waits true
  else if starts && earlier.any (fun y => s.holdsBack y.pkt k) then .waits false
  else .left (t.1.freeRx p k)

/-- The first copy in port `p`'s receive buffer, from place `i` on, that may leave it without a new record: the state
without it (R49, R103). -/
def State.freeCopy (s : State) (p : Nat) : Nat → Nat → Option State
  | 0, _ => none
  | fuel + 1, i =>
    let ws := (s.port p).stalled
    match ws[i]? with
    | none => none
    | some y =>
      let joins := y.pkt.h.voted && (s.openFor (y.pkt.h.type == tRPL) y.pkt.h.ctx y.pkt.h.seq).isSome
      if y.needs && !joins then State.freeCopy s p fuel (i + 1)
      else
        let x := s.port p
        match (s.setPort p { x with stalled := ws.eraseIdx i }).tryCopy p y.pkt y.arrived (ws.take i) with
        | .left t => some t
        | .waits _ => State.freeCopy s p fuel (i + 1)

/-- The copies that wait in the receive buffers of the host ports for no record of their own leave them, as far as
they may (R49, R103). -/
def State.releaseHeld : Nat → State → State
  | 0, s => s
  | fuel + 1, s =>
    match (List.range 3).findSome? (fun p => s.freeCopy p (s.port p).stalled.length 0) with
    | some t => State.releaseHeld fuel t
    | none => s

/-- The copies that wait in the receive buffers of the host ports. -/
def State.stalledCount (s : State) : Nat := ((List.range 3).map (fun p => (s.port p).stalled.length)).sum

/-- A copy taken from its port (R46, R103): it leaves the receive buffer, unless it waits for a record
or slots, which REC_STALL counts, or behind a copy that does. -/
def State.takeCopy (s : State) (p : Nat) (k : Pkt) : State :=
  let x := s.port p
  match s.tryCopy p k s.clk x.stalled with
  | .left t => t.releaseHeld t.stalledCount
  | .waits needs =>
    let s := s.setPort p { x with stalled := x.stalled ++ [⟨k, s.clk, needs⟩] }
    if needs then s.bump ACC_OUTCOME1_REC_STALL else s

/-! ## Exclusion and unfencing as commands -/

/-- Who may command the Accord (R126): a voted request decided by the Accord, or the Innkeeper. -/
def votedOrInn (b : By) : Bool :=
  match b.who with
  | .voted => true
  | .innkeeper => true
  | .span v => v
  | .single _ => false
  | .debug => false

/-- The effect of a write of ACC_CH_CMD (R121, R126): EXCLUDE acts alone. -/
def State.chCommand (s : State) (c : Nat) (excl rej : Bool) : State :=
  if excl then s.exclude c
  else if rej && s.chState c == 2 && s.on ACC_STAT_FORMED && s.portState c == 2 then s.enterRejoining c
  else s

/-- The effect of a write of CTX_UNFENCE (R120): the completion status and the state. An unvoted write from the partner
comes from the owner there of the context it travels on; that owner is the owner of context `n` if both have one OWNER
(DEDUCED, log 118). -/
def State.unfence (s : State) (b : By) (n id : Nat) : State × Nat :=
  let owner := s.get (CTX_VOTE_OWNER n)
  let allowed := if s.isVoted n then votedOrInn b
    else match b.who with
      | .voted => true
      | .span v => v || s.get (CTX_VOTE_OWNER b.ctx.toNat) == owner
      | .single ch => owner == ch.val
      | _ => false
  if b.ctx.toNat = n && n != 0 then
    if s.on (CTX_FENCE_FENCED n) then (s, stFE) else (s, stUR)
  else if !allowed || id != s.get (CTX_FENCE_FENCE_ID n) then (s, stUR)
  else if s.on (CTX_FENCE_FENCED n) then
    (((s.put (CTX_FENCE_FENCED n) 0).put (CTX_FENCE_REASON n) 0).put (CTX_FENCE_REJECTED n) 0, stSC)
  else (s, stSC)

end Sys2Proof.Machine
end

