-- ==== Sys2Proof/Machine/Ledger.lean ====
section
/-! DEFINITION. The Ledger and its images (R205 to R226): views, reads and writes, errors, commits, the
carry and the mirroring of images and plain ranges to the partner. -/

namespace Sys2Proof.Machine

/-! ## Banks, words and errors -/

/-- Banks of the member's Ledger (R205). -/
def Member.banks : Member → Nat
  | .ux4816 => 32 | .ux4808 => 16 | .ux4804 => 8

/-- The row of a Ledger word: its bank and its row in the bank (R205). -/
def State.rowOf (s : State) (word : Nat) : Resource :=
  .ledgerRow (word % s.member.banks) (word / s.member.banks / 64)

/-- A Ledger error found at a word (R206, R207, R229): counted, captured, raised and handed to the row
test. `src` is SOURCE of LDG_ERR_CAUSE. -/
def State.ledgerFault (s : State) (ue : Bool) (src ctx word : Nat) : State :=
  let s := s.bump (if ue then LDG_ECC_CNT_UE else LDG_ECC_CNT_CE)
  let s :=
    if !s.on LDG_ERR_CAUSE_VALID || (ue && !s.on LDG_ERR_CAUSE_UE) then
      let f := s.free
      let s := ((f.2.put LDG_ERR_CAUSE_UE (ofBool ue)).put LDG_ERR_CAUSE_SOURCE src).put
        LDG_ERR_CAUSE_CTX ctx
      ((s.put LDG_ERR_CAUSE_SYNDROME (1 + f.1.toNat % 255)).put LDG_ERR_CAUSE_VALID 1).put
        LDG_ERR_ADDR_WORD word
    else s
  let s := s.raise (if ue then 37 else 36) ctx (8 * word)
  s.queueTest (s.rowOf word) (8 * word)

/-- The time in ns from one scrub read to that of word `w` (R208): with the N words of the Ledger spread evenly over
PERIOD, rounded so that a pass takes exactly PERIOD (DESIGN CHOICE, log entry 140). -/
def State.scrubNs (s : State) (w : Nat) : Nat :=
  let n := s.member.ledgerBytes / 8
  let p := s.get LDG_CTL_PERIOD * 250000000
  (w + 1) * p / n - w * p / n

/-- The scrubber waits for its next read while SCRUB_EN = 1 (R208). -/
def State.scrubWatch (s : State) : State :=
  if !s.on LDG_CTL_SCRUB_EN then s.disarm .scrub
  else if (s.dueAt .scrub).isSome then s
  else s.arm .scrub (s.scrubNs (s.get LDG_SCRUB_POS))

/-! ## Images and views -/

/-- Image `i` beside its registers. -/
def State.image (s : State) (i : Nat) : Image := mget s.images i Image.fresh

/-- The state with image `i` replaced. -/
def State.setImage (s : State) (i : Nat) (x : Image) : State :=
  { s with images := mput s.images i x Image.fresh }

/-- The base of an image's region (R209). -/
def State.imgBase (s : State) (i : Nat) : Nat := s.get (IMG_BASE_BASE i) * 64

/-- The size S of one view of an image (R209). -/
def State.imgSize (s : State) (i : Nat) : Nat := s.get (IMG_SIZE_LINES i) * 64

/-- Whether an image is enabled and not kept disabled by its HOME or its place (R227). -/
def State.imgOn (s : State) (i : Nat) : Bool :=
  s.on (IMG_CFG_EN i) && decide (s.get (IMG_CFG_HOME i) < 6) &&
    decide (s.imgBase i + 2 * s.imgSize i ≤ s.member.ledgerBytes)

/-- The number of the image whose IMG_CFG register is at an address. -/
def imgOfCfg (a : Nat) : Option Nat :=
  if IMG_CFG 0 ≤ a ∧ a < IMG_CFG 256 ∧ (a - IMG_CFG 0) % 0x20 = 0 then some ((a - IMG_CFG 0) / 0x20)
  else none

/-- The enabled images, in ascending order: EN resets to 0, so each has its IMG_CFG listed in `regs`. -/
def State.imagesOn (s : State) : List Nat :=
  (s.regs.filterMap (fun e => imgOfCfg e.1)).filter s.imgOn

/-- The image whose region holds Ledger offset `o`: the lowest-numbered (R210). -/
def State.imageAt (s : State) (o : Nat) : Option Nat :=
  s.imagesOn.find? (fun i => decide (s.imgBase i ≤ o) && decide (o < s.imgBase i + 2 * s.imgSize i))

/-- Whether this device is the home device of image `i` (R221, R223). -/
def State.homeHere (s : State) (i : Nat) : Bool :=
  let h := s.get (IMG_CFG_HOME i)
  if h < 4 then s.hasSeg h && s.get (SEG_STAT_ROLE h) == 2
  else if h = 4 then s.holdsChain (s.get (IMG_CFG_CHAIN i))
  else true

/-- Whether the pair is PAIRED (R356). -/
def State.paired (s : State) : Bool := s.get SPN_STAT_PAIR == 2

/-- Whether the partner can be home of image `i` (R223). -/
def State.partnerHome (s : State) (i : Nat) : Bool :=
  s.paired && decide (0 < s.member.spans) &&
    (decide (4 ≤ s.get (IMG_CFG_HOME i)) || bitAt s.span.own (s.get (IMG_CFG_HOME i)))

/-- A place in an image: the image, whether in its fill view, the view offset, the view's size. -/
structure View where
  img : Nat
  fill : Bool
  x : Nat
  size : Nat
  deriving DecidableEq, Repr

/-- The place in an image that Ledger offset `o` names, if it lies in one (R209). -/
def State.viewAt (s : State) (o : Nat) : Option View :=
  match s.imageAt o with
  | none => none
  | some i =>
    let y := o - s.imgBase i
    let n := s.imgSize i
    some ⟨i, decide (n ≤ y), y % n, n⟩

/-- Whether a place is in the head or the tail (R211). -/
def View.isHead (v : View) : Bool := decide (v.x < 16) || decide (v.size - 16 ≤ v.x)

/-- The offset of a head or tail byte within the head. -/
def View.headOff (v : View) : Nat := if v.x < 16 then v.x else v.x - (v.size - 16)

/-- Where the byte of a place is stored: the two buffers lie behind the views as `swapped` says. -/
def State.physOf (s : State) (v : View) : Nat :=
  s.imgBase v.img + (if v.fill == (s.image v.img).swapped then 0 else v.size) + v.x

/-- The 16 bytes of the head of a view (R211, R217). -/
def State.headBytes (s : State) (i : Nat) (fill : Bool) : List Byte :=
  let x := s.image i
  if fill then leBytes 4 0 ++ leBytes 4 x.marks ++ leBytes 8 0
  else
    let stale := s.on (IMG_TIM_MAX_AGE i) &&
      decide (s.get (IMG_TIM_MAX_AGE i) < s.get (IMG_STAT_AGE i))
    leBytes 4 (s.get (IMG_GEN_GEN i)) ++ leBytes 4 (x.flags + ofBool stale * 32) ++ leBytes 8 x.time

/-- Where the word of the byte at Ledger offset `o` is stored. -/
def State.ledgerAt (s : State) (o : Nat) : Nat :=
  match s.viewAt o with
  | none => o
  | some v => s.physOf v

/-- Whether a write of the byte at Ledger offset `o` changes it (R212): of a head or tail only the producer's marks. -/
def State.byteCounts (s : State) (o : Nat) : Bool :=
  match s.viewAt o with
  | none => true
  | some v => !v.isHead || v.x == 4 || v.x == 5

/-- The byte that a read of Ledger offset `o` returns. -/
def State.ledgerByte (s : State) (o : Nat) : Byte :=
  match s.viewAt o with
  | none => mget s.ledger o 0
  | some v =>
    if v.isHead then (s.headBytes v.img v.fill).getD v.headOff 0 else mget s.ledger (s.physOf v) 0

/-- A read of the Ledger word that holds offset `o`: the state after corrections, and whether the word
is uncorrectable (R206, R207). -/
def State.checkWord (s : State) (src ctx o : Nat) : State × Bool :=
  let w := s.ledgerAt o / 8
  match mget s.ledgerBad w .ok with
  | .ok => (s, false)
  | .ce => ({ s with ledgerBad := mput s.ledgerBad w .ok .ok }.ledgerFault false src ctx w, false)
  | .ue => (s.ledgerFault true src ctx w, true)

/-- A read of `n` Ledger bytes from offset `o`, at most `fuel` words of it: the bytes up to the first
uncorrectable word, and whether there is one. -/
def State.ledgerReadN (src ctx : Nat) : Nat → State → Nat → Nat → State × List Byte × Bool
  | 0, s, _, _ => (s, [], false)
  | fuel + 1, s, o, n =>
    if n = 0 then (s, [], false)
    else
      let c := s.checkWord src ctx o
      if c.2 then (c.1, [], true)
      else
        let k := min n (8 - o % 8)
        let r := State.ledgerReadN src ctx fuel c.1 (o + k) (n - k)
        (r.1, (List.range k).map (fun j => c.1.ledgerByte (o + j)) ++ r.2.1, r.2.2)

/-- A read of `n` Ledger bytes from offset `o`: the bytes up to the first uncorrectable word, and whether
there is one (R207). -/
def State.ledgerRead (s : State) (src ctx o n : Nat) : State × List Byte × Bool :=
  State.ledgerReadN src ctx n s o n

/-- A read of single Ledger bytes, each of their words checked once: the bytes, and whether an uncorrectable word is
among them (R207). -/
def State.ledgerGather (s : State) (src ctx : Nat) (os : List Nat) : State × List Byte × Bool :=
  let r := ((os.map (· / 8)).eraseDups).foldl (fun (r : State × Bool) w =>
    let c := r.1.checkWord src ctx (8 * w)
    (c.1, r.2 || c.2)) (s, false)
  (r.1, os.map r.1.ledgerByte, r.2)

/-! ## Writing -/

/-- What becomes of a write to the Ledger (R207, R212, R214, R222): it is written; it is refused; it
meets an uncorrectable word that it does not cover; it goes to the home device; no home device can take
it. -/
inductive Verdict where
  | ok | refused | te | forward | un
  deriving DecidableEq, Repr

/-- Whether writer context `c` may write the byte at Ledger offset `o` (R212, R222): 0 yes, 1 refused,
2 it belongs to an output image whose home device is elsewhere. -/
def State.byteRule (s : State) (c o : Nat) : Nat × Nat :=
  match s.viewAt o with
  | none => (0, 0)
  | some v =>
    if !v.fill then (1, v.img)
    else if s.homeHere v.img then
      if s.on (IMG_CFG_DIR v.img) then (0, v.img)
      else if v.isHead && !(v.x == 4 || v.x == 5) then (0, v.img)
      else if s.get (IMG_CFG_CTX v.img) = c then (0, v.img)
      else (1, v.img)
    else if s.on (IMG_CFG_DIR v.img) then (2, v.img)
    else (1, v.img)

/-- The words that a write changes without covering all their bytes and that are uncorrectable make it fail (R207). -/
def State.meetsUe (s : State) (ws : List (Nat × Byte)) : Option Nat :=
  let at_ := ws.map (fun e => s.ledgerAt e.1)
  let changed := (ws.filter (fun e => s.byteCounts e.1)).map (fun e => s.ledgerAt e.1)
  (changed.find? (fun a => mget s.ledgerBad (a / 8) .ok == .ue &&
    decide ((at_.filter (fun b => b / 8 == a / 8)).length < 8))).map (· / 8)

/-- The verdict on a write of bytes at Ledger offsets by context `c`. -/
def State.verdict (s : State) (c : Nat) (ws : List (Nat × Byte)) : Verdict :=
  let rs := ws.map (fun e => s.byteRule c e.1)
  if rs.any (fun r => r.1 == 1) then .refused
  else
    match rs.find? (fun r => r.1 == 2) with
    | some r => if s.partnerHome r.2 then .forward else .un
    | none => if (s.meetsUe ws).isSome then .te else .ok

/-- A data line of an image carried into its fill buffer (R218): raw, single-bit errors corrected,
uncorrectable words kept. -/
def State.carryLine (s : State) (i l : Nat) : State :=
  let n := s.imgSize i
  let src := s.physOf ⟨i, false, 64 * l, n⟩
  let dst := s.physOf ⟨i, true, 64 * l, n⟩
  let s := (List.range 8).foldl (fun s k =>
    let x := 64 * l + 8 * k
    if x < 16 ∨ n - 16 ≤ x then s
    else
      let e := mget s.ledgerBad (src / 8 + k) .ok
      let s := { s with
        ledger := writeMem s.ledger 0 (dst + 8 * k) (readMem s.ledger 0 (src + 8 * k) 8),
        ledgerBad := mput s.ledgerBad (dst / 8 + k) (if e = .ue then .ue else .ok) .ok }
      match e with
      | .ok => s
      | .ce => { s with ledgerBad := mput s.ledgerBad (src / 8 + k) .ok .ok }.ledgerFault false 0 0
          (src / 8 + k)
      | .ue => s.ledgerFault true 0 0 (src / 8 + k)) s
  let x := s.image i
  s.setImage i { x with carry := x.carry.filter (· != l) }

/-- The carry of an image ended: every line still to carry is carried (R218). -/
def State.carryAll (s : State) (i : Nat) : State :=
  ((s.image i).carry.foldl (fun s l => s.carryLine i l) s).put (IMG_STAT_CARRYING i) 0

/-- The lines of fill views that a write meets and the carry has not reached are carried first: the write waits for it
(R218). -/
def State.carryMet (s : State) (ws : List (Nat × Byte)) : State :=
  ws.foldl (fun (s : State) e =>
    match s.viewAt e.1 with
    | some v =>
      if v.fill && !v.isHead && (s.image v.img).carry.contains (v.x / 64) then s.carryLine v.img (v.x / 64) else s
    | none => s) s

/-- One byte written into a fill view (R212): a head byte sets only the producer's marks. -/
def State.writeView (s : State) (v : View) (b : Byte) : State :=
  let x := s.image v.img
  if v.isHead then
    if v.x = 4 then
      s.setImage v.img { x with marks := x.marks / 256 * 256 + b.toNat / 2 % 2 * 2 + b.toNat / 8 % 2 * 8 }
    else if v.x = 5 then s.setImage v.img { x with marks := x.marks % 256 + b.toNat * 256 }
    else s
  else
    let l := v.x / 64
    let s := s.setImage v.img { x with written := if x.written.contains l then x.written else l :: x.written }
    { s with ledger := mput s.ledger (s.physOf v) b 0 }

/-- Words wholly or partly written are correct afterwards (R206, R207): a correctable one that is merged
counts. -/
def State.mendWords (s : State) (src c : Nat) (ws : List (Nat × Byte)) : State :=
  let at_ := ws.map (fun e => s.ledgerAt e.1)
  ((ws.filter (fun e => s.byteCounts e.1)).map (fun e => s.ledgerAt e.1)).foldl (fun s a =>
    match mget s.ledgerBad (a / 8) .ok with
    | .ok => s
    | .ce =>
      let s := { s with ledgerBad := mput s.ledgerBad (a / 8) .ok .ok }
      if (at_.filter (fun b => b / 8 == a / 8)).length < 8 then s.ledgerFault false src c (a / 8) else s
    | .ue => { s with ledgerBad := mput s.ledgerBad (a / 8) .ok .ok }) s

/-- The port that carries mirror traffic (R353): S0 while it is ON and not SILENT, or where it is alone. -/
def State.mirrorPort (s : State) : Nat :=
  if s.member.spans < 2 ∨ (s.get (SPN_PORT_STATE 0) = 2 ∧ !s.on (SPN_PORT_SILENT 0)) then 0 else 1

/-- A control packet of the Span (R354) for span port `q`. -/
def spanCtl (q addr : Nat) (d : List Byte) : Pkt :=
  ⟨mkHdr tMWR 0 false 0 0 0 (d.length - 1) 0 addr (4 + q) 0, d⟩

/-- A packet queued at span port `q` for its arbiter (R338). -/
def State.spanPut (s : State) (q src ctx : Nat) (k : Pkt) (order : Option Nat := none)
    (mark : Option SpanMark := none) (bad : Nat := 0) : State :=
  { s with span := { s.span with
      queue := mput s.span.queue q (mget s.span.queue q [] ++ [⟨src, ctx, k, order, mark, bad⟩]) [] } }

/-- A control packet queued on the mirror port (R353). -/
def State.mirrorPut (s : State) (addr : Nat) (d : List Byte) : State :=
  s.spanPut s.mirrorPort 1 0 (spanCtl s.mirrorPort addr d)

/-- The 64-byte line at Ledger offset `src` sent to the partner for its offset `dst` (R221, R226): its words are checked
as they are read, and an uncorrectable one is sent as uncorrectable. -/
def State.lineOut (s : State) (src dst : Nat) : State :=
  let r := (List.range 8).foldl (fun (r : State × Nat) k =>
    let x := r.1.checkWord 3 0 (src + 8 * k)
    (x.1, r.2 + ofBool x.2 * 2 ^ k)) (s, 0)
  let d := (List.range 64).map (fun j => r.1.ledgerByte (src + j))
  r.1.spanPut r.1.mirrorPort 1 0 (spanCtl r.1.mirrorPort (0xFE00000000 + dst) d) none none r.2

/-- The Ledger mirror range that holds offset `o` (R226). -/
def State.mirrorRange (s : State) (o : Nat) : Bool :=
  decide (0 < s.member.spans) && (List.range 4).any (fun r =>
    s.on (LDG_MIR_CFG_EN r) &&
      o / 2 ^ s.get (LDG_MIR_CFG_LOG2 r) == s.get (LDG_MIR_BASE_BASE r) * 4096 / 2 ^ s.get (LDG_MIR_CFG_LOG2 r))

/-- A write to plain mirrored ranges sent to the partner line by line, or counted as lost while the Span is down
(R226). -/
def State.mirrorPlain (s : State) (ws : List (Nat × Byte)) : State :=
  let os := (ws.map (·.1)).filter (fun o => s.mirrorRange o && (s.imageAt o).isNone)
  if os.isEmpty then s
  else if s.paired then ((os.map (· / 64)).eraseDups).foldl (fun s l => s.lineOut (64 * l) (64 * l)) s
  else s.bump LDG_CNT_MIRROR_GAP

/-- Bytes written to the Ledger through the views (R209, R212, R214), without mirroring. -/
def State.ledgerPut (s : State) (src c : Nat) (ws : List (Nat × Byte)) : State :=
  let s := (s.carryMet ws).mendWords src c ws
  ws.foldl (fun s e =>
    match s.viewAt e.1 with
    | none => { s with ledger := mput s.ledger e.1 e.2 0 }
    | some v => if v.fill then s.writeView v e.2 else s) s

/-- A write of bytes at Ledger offsets by context `c` (R207, R212, R214): the verdict, and the state in
which it has been written if the verdict is ok. A refused write counts. -/
def State.ledgerWrite (s : State) (src c : Nat) (ws : List (Nat × Byte)) : State × Verdict :=
  let s := match s.verdict c ws with
    | .ok => s.carryMet ws
    | .te => s.carryMet ws
    | _ => s
  match s.verdict c ws with
  | .ok => ((s.ledgerPut src c ws).mirrorPlain ws, .ok)
  | .refused => (s.bump LDG_CNT_WR_REFUSED, .refused)
  | .te =>
    match s.meetsUe ws with
    | some w => (s.ledgerFault true src c w, .te)
    | none => (s, .te)
  | v => (s, v)

/-- Bytes paired with rising offsets. -/
def offsets (o : Nat) (bs : List Byte) : List (Nat × Byte) :=
  (List.range bs.length).map (fun i => (o + i, bs.getD i 0))

/-! ## Commits -/

/-- The generation after `g`: 0 is skipped (R211). -/
def nextGen (g : Nat) : Nat := if g + 1 = 2 ^ 32 then 1 else g + 1

/-- The data lines of an image. -/
def State.imgLines (s : State) (i : Nat) : List Nat := List.range (s.get (IMG_SIZE_LINES i))

/-- The head and tail words of both buffers of a region of two views of `n` bytes from `b` are written: they are correct
from then on. -/
def State.headsWhole (s : State) (b n : Nat) : State :=
  { s with ledgerBad := s.ledgerBad.filter (fun e =>
      !([b, b + n - 16, b + n, b + 2 * n - 16].any (fun a => e.1 == a / 8 || e.1 == a / 8 + 1))) }

/-- The effects common to local and mirrored commits (R216, R217, R218): the buffers exchanged, the head
written, the marks cleared, the carry begun. -/
def State.commitCore (s : State) (i gen flags time : Nat) : State :=
  let x := s.image i
  let s := (s.carryAll i).headsWhole (s.imgBase i) (s.imgSize i)
  let s := s.setImage i { x with
    swapped := !x.swapped, marks := 0, flags := flags, time := time, written := [],
    carry := if s.on (IMG_CFG_CARRY i) then s.imgLines i else [], stale := false }
  let s := (s.put (IMG_GEN_GEN i) gen).put (IMG_STAT_AGE i) 0
  s.put (IMG_STAT_CARRYING i) (s.get (IMG_CFG_CARRY i))

/-- The mirror of a commit sent to the partner (R221): the lines of the committed buffer given, and the
commit record, whose word 1 carries RESYNC if the partner asked for the full mirror (R224). -/
def State.mirrorCommit (s : State) (i : Nat) (lines : List Nat) (resync : Bool) : State :=
  let b := s.imgBase i
  let n := s.imgSize i
  let s := lines.foldl (fun (s : State) l => s.lineOut (b + 64 * l) (b + n + 64 * l)) s
  s.mirrorPut 0xFF00000005 (leBytes 4 i ++ leBytes 4 (s.get (IMG_GEN_GEN i)) ++
    leBytes 4 ((s.image i).flags + ofBool resync * 64) ++ leBytes 4 (s.image i).time)

/-- A commit of image `i` on its home device at the end of leg `leg` (R216, R221). -/
def State.commitImage (s : State) (i leg : Nat) (marks : Nat) : State :=
  let x := s.image i
  let gen := nextGen (s.get (IMG_GEN_GEN i))
  let partial_ := marks / 2 % 2 == 0
  let flags := 1 + marks / 2 % 2 * 2 + ofBool partial_ * 4 + marks / 8 % 2 * 8 +
    marks / 256 % 256 * 256 + leg % 64 * 2 ^ 16
  let lines := (s.imgLines i).filter (fun l => x.full || x.written.contains l)
  let s := s.commitCore i gen flags s.now
  let s := if partial_ then s.bump (IMG_CNT_PARTIAL i) else s
  if s.on (IMG_CFG_MIRROR i) && s.get (IMG_CFG_HOME i) != 5 && s.paired &&
      decide (0 < s.member.spans) then
    let y := s.image i
    (s.setImage i { y with full := false, asked := false }).mirrorCommit i lines x.asked
  else s

/-- Whether an image is due at the end of leg `leg` (R215). -/
def State.due (s : State) (i leg : Nat) : Bool :=
  leg % s.get (IMG_TIM_DIV i) == s.get (IMG_TIM_PHASE i) % s.get (IMG_TIM_DIV i)

/-- What a leg end does to one image (R215, R217): the commit that is due, AGE otherwise. -/
def State.legEndImage (s : State) (leg i : Nat) : State :=
  let x := s.image i
  let mode := s.get (IMG_CFG_COMMIT i)
  let isDue := s.homeHere i && s.due i leg && decide (mode < 2)
  if isDue && (mode == 0 || x.marks / 2 % 2 == 1) then s.commitImage i leg x.marks
  else
    let s := if isDue then s.bump (IMG_CNT_SKIPPED i) else s
    let s := s.bump (IMG_STAT_AGE i)
    let x := s.image i
    if s.on (IMG_TIM_MAX_AGE i) && decide (s.get (IMG_TIM_MAX_AGE i) < s.get (IMG_STAT_AGE i)) && !x.stale then
      (s.setImage i { x with stale := true }).raise 38 0 i
    else s

/-- What a leg end does to the images (R215 to R217). -/
def State.legEndImages (s : State) (leg : Nat) : State :=
  s.imagesOn.foldl (fun s i => s.legEndImage leg i) s

/-- The heads and tails of both views of a region set to zero (R210). -/
def State.zeroHeads (s : State) (b n : Nat) : State :=
  let s := s.headsWhole b n
  let zero (m : List Host.Cell) (a : Nat) := writeMem m 0 a (List.replicate 16 0)
  { s with ledger := zero (zero (zero (zero s.ledger b) (b + n - 16)) (b + n)) (b + 2 * n - 16) }

/-- Both buffers of an image discarded (R210), where `old` places it before the write that does so: the heads and tails of
its region, the old and the new, are zero. -/
def State.discardImage (s : State) (old : State) (i : Nat) : State :=
  let s := if old.imgOn i then s.zeroHeads (old.imgBase i) (old.imgSize i) else s
  let s := if s.imgOn i then s.zeroHeads (s.imgBase i) (s.imgSize i) else s
  let s := s.setImage i Image.fresh
  ((s.put (IMG_GEN_GEN i) 0).put (IMG_STAT_AGE i) 0).put (IMG_STAT_CARRYING i) 0

/-- A device becomes home of image `i` (R225): lines mirrored since the last commit are discarded by a
carry. -/
def State.becomeHome (s : State) (i : Nat) : State :=
  let x := s.image i
  (s.setImage i { x with marks := 0, written := [], carry := s.imgLines i, gap := false, staged := [] }).put
    (IMG_STAT_CARRYING i) 1

/-- The images that a changed home makes this device's own (R225): those for which `was` says it was not
home. -/
def State.homesGained (s : State) (was : List Nat) : State :=
  (s.imagesOn.filter (fun i => s.homeHere i && !was.contains i)).foldl (fun s i => s.becomeHome i) s

/-- The images of which this device is home now. -/
def State.homes (s : State) : List Nat := s.imagesOn.filter s.homeHere

/-- The words of a mirrored line that arrive as uncorrectable marked (R221). -/
def State.markBad (s : State) (bad : Nat) (ws : List (Nat × Byte)) : State :=
  ws.foldl (fun (s : State) e =>
    if bitAt bad (e.1 / 8 % 8) then
      { s with ledgerBad := mput s.ledgerBad (s.ledgerAt e.1 / 8) .ue .ok }
    else s) s

/-- A mirrored line written into the Ledger, but for bytes of a head or tail, its uncorrectable words marked (R222). -/
def State.lineIn (s : State) (o : Nat) (d : List Byte) (bad : Nat) : State :=
  let ws := (offsets o d).filter (fun e =>
    match s.viewAt e.1 with
    | some w => !w.isHead
    | none => true)
  (s.ledgerPut 3 0 ws).markBad bad ws

/-- A mirrored line of 64 bytes for Ledger offset `o` (R222, R226), `bad` its uncorrectable words: into the fill buffer
of an image of which this device is not home, into plain Ledger, or dropped. After a gap the lines since the last commit
record are kept aside: its record tells whether they are the full mirror or are to be discarded (R224). -/
def State.mirroredLine (s : State) (o : Nat) (d : List Byte) (bad : Nat) : State :=
  if s.member.ledgerBytes < o + 64 then s.bump LDG_CNT_WR_REFUSED
  else
    match s.viewAt o with
    | none => s.lineIn o d bad
    | some v =>
      if !v.fill || s.homeHere v.img then s.bump LDG_CNT_WR_REFUSED
      else
        let x := s.image v.img
        if x.gap then s.setImage v.img { x with staged := x.staged.filter (·.1 != v.x) ++ [(v.x, d, bad)] }
        else s.lineIn o d bad

/-- The lines of a full mirror written into the fill buffer of image `i`: the wait for it is over (R224). -/
def State.takeFull (s : State) (i : Nat) : State :=
  let x := s.image i
  x.staged.foldl (fun s l => s.lineIn (s.imgBase i + s.imgSize i + l.1) l.2.1 l.2.2)
    (s.setImage i { x with gap := false, staged := [] })

/-- A commit record whose GEN does not follow is discarded, with the lines of its commit (R224): counted, raised, and a
full mirror requested. -/
def State.mirrorGap (s : State) (i : Nat) : State :=
  let x := s.image i
  let s := ((s.setImage i { x with gap := true, staged := [] }).bump LDG_CNT_MIRROR_GAP).raise 39 0 i
  if s.paired then s.mirrorPut 0xFF00000006 (leBytes 4 i) else s

/-- TIME of a commit taken from a record, which has room for its low word alone (R213, R354): the spec does not say what
the head's high word then is, which is left open (DESIGN CHOICE, log entry 146). -/
def State.recordTime (s : State) (time : Nat) : State × Nat :=
  let v := s.free
  (v.2, time % 2 ^ 32 + v.1.toNat * 2 ^ 32)

/-- The commit that a record describes, with flags as the head shows them (R222). -/
def State.commitFrom (s : State) (i gen f time : Nat) : State :=
  let t := s.recordTime time
  t.1.commitCore i gen f t.2

/-- A mirror commit record (R222, R224): applied on a device that is not home if GEN is the successor of
its own, or if a full mirror is awaited and has arrived: the record says so, or every line of the image came before it
(DEDUCED, log entry 139). -/
def State.commitRecord (s : State) (i gen flags time : Nat) : State :=
  if !s.imgOn i || s.homeHere i then s
  else
    let x := s.image i
    let f := flags / 128 * 128 + flags % 16 + 16
    let follows := gen == nextGen (s.get (IMG_GEN_GEN i))
    if x.gap then
      if flags / 64 % 2 = 1 ∨ x.staged.length = s.get (IMG_SIZE_LINES i) then
        (s.takeFull i).commitFrom i gen (f + 64) time
      else if follows then s.setImage i { x with staged := [] }
      else s.mirrorGap i
    else if follows then s.commitFrom i gen (f + flags / 64 % 2 * 64) time
    else s.mirrorGap i

/-- A resync request of the partner (R221, R224): the next commit sends every data line. -/
def State.resyncAsked (s : State) (i : Nat) : State :=
  if s.imgOn i && s.homeHere i then
    let x := s.image i
    s.setImage i { x with full := true, asked := true }
  else s

end Sys2Proof.Machine
end

