-- ==== Sys2Proof/Machine/Finish.lean ====
section
/-! DEFINITION. What ends work: wakes of contexts (R238, R239), budgets (R296, R300), tokens (R243), locks
and semaphores (R154 to R158), the ends of accepted requests with their records (R152, R153, R423). -/

namespace Sys2Proof.Machine

/-! ## Wakes -/

/-- Whether context `n` is runnable (R238). -/
def State.runnable (s : State) (n : Nat) : Bool :=
  s.on (CTX_CTL_PROG_EN n) && s.ctxState n == 2 && s.gateOpen n && s.run n != 4 && s.run n != 5 &&
    s.run n != 7 && decide (0 < n)

/-- A wake aimed at context `n` (R238, R239): an IDLE context becomes READY; for one that is READY, RUNNING, WAITING or
SUSPENDED it is recorded, and the next YIELD returns at once (R239, R282, R293), and so for one in migration; one that
GATE does not let through, that is halted, evicted or not ON, discards it. -/
def State.wake (s : State) (n : Nat) : State :=
  if !(s.on (CTX_CTL_PROG_EN n) && s.ctxState n == 2 && s.gateOpen n) || n == 0 then s
  else
    let a := s.arch n
    match s.run n with
    | 0 => s.makeReady n
    | 5 => s
    | 7 => s
    | _ => s.setArch n { a with wake := true }

/-! ## Budgets -/

/-- A NORMAL budget scaled by the plan (R300): 0 NORMAL, 1 WARM, 2 HOLD-UP. -/
def State.scaled (s : State) (plan : Nat) (hot : Bool) (n b : Nat) : Nat :=
  let note := s.get (CTX_CTL_NOTE n)
  if s.on (CTX_CTL_ESSENTIAL n) || plan == 0 then b
  else if plan = 1 then
    if note = 0 then b * s.get STG_WARM_TOP_SCALE / 16
    else if hot then 0
    else if note = 1 then b * s.get STG_WARM_HEART_SCALE / 16
    else b * s.get STG_WARM_BASE_SCALE / 16
  else 0

/-- The effective courier budget of context `n`, in slots (R300). -/
def State.slotBudget (s : State) (n : Nat) : Nat :=
  s.scaled (s.get STG_STAT_PLAN) (s.on STG_STAT_HOT) n (s.get (CTX_BUD_SLOT_SLOTS n))

/-- The effective bus budget of context `n` on segment `g`, in ns (R300, R314). -/
def State.busBudget (s : State) (n g : Nat) : Nat :=
  s.scaled (s.get STG_STAT_PLAN) (s.on STG_STAT_HOT) n (s.get (CTX_BUD_BUS_BUDGET n g)) * 2000

/-- The bus time charged to context `n` on segment `g` in this stage, in ns (R298). -/
def State.busCharged (s : State) (n g : Nat) : Nat := mget s.busNs (4 * n + g) 0

/-- Whether the charge of context `n` on segment `g` has reached its budget (R296); never for context 0
(R251). -/
def State.busSpent (s : State) (n g : Nat) : Bool :=
  decide (0 < n) && decide (s.busBudget n g ≤ s.busCharged n g)

/-- Bus time of a cycle on segment `g`, of whatever context (R306). -/
def State.countBus (s : State) (g ns : Nat) : State :=
  { s with sched := { s.sched with segNs := mput s.sched.segNs g (mget s.sched.segNs g 0 + ns) 0 } }

/-- The charge of a cycle's bus time when it ends (R182, R296). -/
def State.chargeBus (s : State) (n g ns : Nat) : State :=
  let s := s.countBus g ns
  if n = 0 then s
  else
    let c := s.busCharged n g + ns
    { s with busNs := mput s.busNs (4 * n + g) c 0 }.put (CTX_BUD_BUS_CHARGED n g)
      (min 65535 ((c + 1999) / 2000))

/-! ## Tokens -/

/-- Token `t` of context `n`. -/
def State.token (s : State) (n t : Nat) : Token := (s.arch n).t.getD t ⟨0, 0, 0, 0, 0⟩

/-- The state with a token replaced. -/
def State.setToken (s : State) (n t : Nat) (x : Token) : State :=
  let a := s.arch n
  s.setArch n { a with t := a.t.set t x }

/-- Whether the token condition of a WAIT holds (R281). -/
def tokensMet (ts : List Token) (mask : Nat) (all : Bool) : Bool :=
  let listed := (List.range 8).filter (bitAt mask)
  let free (i : Nat) : Bool := (ts.getD i ⟨0, 0, 0, 0, 0⟩).state != 1
  if all then listed.all free else listed.any free

/-- A token resolution applied (R243): DONE, its courier tag freed, and a WAIT that it satisfies ended. -/
def State.applyToken (s : State) (n t status : Nat) (d : Word) (ns answers : Nat) : State :=
  let s := if (s.token n t).state = 1 then s.setToken n t ⟨2, status, d, ns, answers⟩ else s
  let s := s.put COUR_TAGS_IN_USE (s.get COUR_TAGS_IN_USE - 1)
  match (s.arch n).waitFor with
  | .tokens mask all => if tokensMet (s.arch n).t mask all then s.endWait n false else s
  | _ => s

/-- A token resolves (R243): at once, or, while its context's courier is migrated, at step 4 (R247). -/
def State.resolveToken (s : State) (n t status : Nat) (d : Word) (ns answers : Nat) : State :=
  if s.migrating.any (fun m => m.2.1 == s.courOf n) && s.on (CTX_CTL_PROG_EN n) then
    { s with heldTokens := s.heldTokens ++ [⟨n, t, status, d, ns, answers⟩] }
  else s.applyToken n t status d ns answers

/-! ## Locks and semaphores -/

/-- The lock that a request through a window onto segment `g` names (R155). -/
def lockOf (attr winSeg : Word) (g : Nat) : LockName :=
  if bits attr 13 1 = 1 then .native (if g = 0 then 0 else if g = 1 then 1 else if g = 2 then 2 else 3)
  else .sem (Fin.ofNat 64 (bits winSeg 16 6))

/-- The holder of a lock, if it is held and has not timed out. -/
def State.lockHeld (s : State) (l : LockName) : Option HeldLock :=
  s.locks.find? (fun h => h.name == l && !h.timedOut)

/-- WIN_SEM_HELD and WIN_SEM_OWNER after a semaphore was taken or freed (R164). -/
def State.showSem (s : State) (n : Nat) : State :=
  let h := s.lockHeld (.sem (Fin.ofNat 64 n))
  let set (s : State) (f : FRef) (i : Nat) : State :=
    let v := s.get f
    s.put f (if h.isSome then (if bitAt v i then v else v + 2 ^ i)
      else if bitAt v i then v - 2 ^ i else v)
  let s := if n < 32 then set s WIN_SEM_HELD0_HELD n else set s WIN_SEM_HELD1_HELD (n - 32)
  match h with
  | some h => ((s.put (WIN_SEM_OWNER_CTX n) h.ctx).put (WIN_SEM_OWNER_HELD n) 1).put
      (WIN_SEM_OWNER_REMOTE n) (ofBool h.remote)
  | none => ((s.put (WIN_SEM_OWNER_CTX n) 0).put (WIN_SEM_OWNER_HELD n) 0).put (WIN_SEM_OWNER_REMOTE n) 0

/-- The registers that show a lock after it changed: the semaphore registers, or SEG_STAT.LOCK_HELD. -/
def State.showLock (s : State) : LockName → State
  | .sem n => s.showSem n.val
  | .native g => s.put (SEG_STAT_LOCK_HELD g.val) (ofBool (s.seg g.val).tenure.isSome)

/-- A lock on segment `g` acquired by context `n` through window `w` (R154 to R156). -/
def State.acquire (s : State) (l : LockName) (n w g : Nat) (remote : Bool) : State :=
  let new : HeldLock := { name := l, ctx := n, remote := remote, timedOut := false, window := w, seg := g }
  let kept := s.locks.filter (fun (h : HeldLock) => !(h.name == l && (!h.timedOut || h.ctx == n)))
  let s := { s with locks := kept ++ [new] }
  ((s.arm (.lock l) (s.get WIN_LOCK_CTL_TMO * 1000))).showLock l

/-- The unlocking write of context `n` has come: the lock that it held is released, or one that has timed out is waited
for no more (R156). Another context's hold of the lock stands. -/
def State.releaseLock (s : State) (l : LockName) (n : Nat) : State :=
  let held := (s.lockHeld l).any (fun h => h.ctx == n)
  let s := { s with locks := s.locks.filter (fun h => !(h.name == l && h.ctx == n)) }
  if held then (s.disarm (.lock l)).showLock l else s

/-- A lock ends by timeout or as if by it (R156, R158, R159, R199): counted and raised; the unlocking
write, when it comes, is not executed. -/
def State.lockTimedOut (s : State) (l : LockName) : State :=
  match s.lockHeld l with
  | none => s
  | some h =>
    let s := { s with locks := s.locks.map (fun x => if x == h then { x with timedOut := true } else x) }
    let s := match l with
      | .native g =>
        let x := s.seg g.val
        s.setSeg g.val { x with tenure := none }
      | .sem _ => s
    let s := (s.disarm (.lock l)).showLock l
    let s := if h.window < 64 then s.bump (WIN_STAT_LOCK_TO h.window) else s
    s.raise 35 0 0

/-! ## The end of an accepted request -/

/-- The accepted request with an order number. -/
def State.execOf (s : State) (o : Nat) : Option Exec := s.execs.find? (fun e => e.order == o)

/-- The state with an accepted request replaced. -/
def State.setExec (s : State) (e : Exec) : State :=
  { s with execs := s.execs.map (fun x => if x.order == e.order then e else x) }

/-- Whether a unit still has the generation recorded (R446). -/
def State.sameGen (s : State) (g : UnitRef × Nat) : Bool :=
  (match g.1 with
    | .port p => if p < 3 then s.get (HP_STAT_GEN p) else s.get (SPN_PORT_GEN (p - 3))
    | .seg i => s.get (SEG_STAT_GEN i)
    | .ctx n => s.get (CTX_STAT_GEN n)
    | .cour c => s.get (COUR_STAT_GEN c)
    | .chain k => s.get (OPC_STAT_GEN k)) == g.2

/-- The target kind of a request as WIN_ATTR.TARGET codes it, 0 where no window resolved it (R425); 6 for the
compatibility region (R162, R331). -/
def Exec.targetCode (e : Exec) : Nat :=
  if e.target = .compat then 6 else if e.win.isSome then bits e.attr 1 3 else 0

/-- What CTX_ERR_CAUSE.CHANNEL shows for a request (R425). -/
def Exec.channel (e : Exec) : Nat :=
  match e.who with
  | .single c => c.val
  | _ => 3

/-- The error record of a request that failed at its target or was refused by its window (R423, R425). -/
def Exec.error (e : Exec) (cause status idx card : Nat) : CtxErr :=
  { cause := cause, status := status, window := e.win.getD 0, channel := e.channel,
    seq := e.pkt.h.seq, haddr := e.pkt.h.addr + idx, card := card % 2 ^ 24,
    target := e.targetCode, posted := e.posted, courier := false }

/-- The words of a WRITE_FAIL record (R152). -/
def Exec.writeFail (e : Exec) (status idx card : Nat) (fenced : Bool) : List Word :=
  let a := e.pkt.h.addr + idx
  [BitVec.ofNat 32 (1 + status % 16 * 2 ^ 8 + e.targetCode % 8 * 2 ^ 12 + ofBool fenced * 2 ^ 15 +
      e.pkt.h.ctx * 2 ^ 16 + e.win.getD 0 % 64 * 2 ^ 24),
   BitVec.ofNat 32 (e.pkt.h.seq + idx % 512 * 2 ^ 16), BitVec.ofNat 32 a,
   BitVec.ofNat 32 (a / 2 ^ 32 % 256 + card % 2 ^ 24 * 2 ^ 8)]

/-- A failed posted write (R152, R153, R162): the fence of its context if its window asks for it, then the
WRITE_FAIL record with its notice. The compatibility region never fences. -/
def State.postedFail (s : State) (e : Exec) (status idx card : Nat) : State :=
  let n := e.pkt.h.ctx
  let fof := bits e.attr 14 1 == 1 && e.target != .compat && e.win.isSome
  let fences := fof && !s.on (CTX_FENCE_FENCED n)
  let s := if fof then s.fence n 3 e.pkt.h.seq 0 [(0, e.pkt)] else s
  s.bridgeRecord ⟨s.get (CTX_QUE_NQ n), n, 1, e.writeFail status idx card fences, true, none⟩

/-- The accepted request leaves the list of those that execute, and its bytes go no further. -/
def State.dropExec (s : State) (o : Nat) : State :=
  { s with execs := s.execs.filter (fun e => e.order != o) }

/-- Whether a unit that an accepted request depends on has another generation by now (R446). -/
def State.stale (s : State) (e : Exec) : Bool := !e.gens.all s.sameGen

/-- A failure counted in the window of the request (R163). -/
def State.countFail (s : State) (e : Exec) : State :=
  match e.win with
  | some w => s.bump (WIN_STAT_FAILS w)
  | none => s

/-- The failure of an accepted request at its target noted (R152, R423): it counts in its window and in the error
record of its context, and if it was posted it is reported. `idx` is the index of the first failed byte,
`card` its target address. A refusal with UR is noted by `refuseExec`, which knows its ground. -/
def State.noteFail (s : State) (e : Exec) (status idx card cause : Nat) : State :=
  if status = stSC then s
  else if status = stUR then s.countFail e
  else
    let s := (s.countFail e).ctxError e.pkt.h.ctx (e.error cause status idx card)
    let s := if status = stUN then s.bump SPN_CNT3_UN else s
    if e.posted then s.postedFail e status idx card else s

/-- An accepted request ends (R16, R446): its failure is noted, and the final completion with the data still owed
goes to those to whom it is owed. -/
def State.endExec (s : State) (e : Exec) (status idx card cause : Nat) (d : List Byte) : State :=
  let status := if s.stale e then stAB else status
  let s := (s.dropExec e.order).noteFail e status idx card cause
  s.deliver e.dest e.pkt.h
    ⟨status, e.pkt.h.addr + e.sent, if status = stSC then d else [], true⟩

/-- An access that its target has executed at once: a posted one is over, and the completion of another is sent at
the end of its execution. `d` is the data that it has read, on a failure the bytes before it (R207). -/
def State.finishExec (s : State) (e : Exec) (status idx card : Nat) (d : List Byte) : State :=
  if e.posted then s.endExec e status idx card 1 d
  else (s.noteFail e status idx card 1).setExec { e with stage := .finished, status := status, rdata := d }

/-- A request refused whole with UR on a ground of its own: `err` if the refusal is an error of its context (R139, R142,
R143, R423), `rep` if a posted write is reported (R152, R162, R212). -/
def State.refuseExec (s : State) (e : Exec) (card : Nat) (err rep : Bool) : State :=
  let s := if err then s.ctxError e.pkt.h.ctx (e.error 1 stUR 0 card) else s
  let s := if rep && e.posted then s.postedFail e stUR 0 card else s
  s.finishExec e stUR 0 card []

/-- The execution of an access that its target has executed ends (R16, R40): its data and its completion go out. -/
def State.executionEnd (s : State) (e : Exec) : State :=
  let status := if s.stale e then stAB else e.status
  let s := s.dropExec e.order
  if status = stSC ∨ status = stAB ∨ e.rdata.isEmpty then
    s.deliver e.dest e.pkt.h ⟨status, e.pkt.h.addr, if status = stSC then e.rdata else [], true⟩
  else
    (s.deliver e.dest e.pkt.h ⟨stSC, e.pkt.h.addr, e.rdata, false⟩).deliver e.dest e.pkt.h
      ⟨status, e.pkt.h.addr, [], true⟩

/-- A request ends whole with a status and no data. -/
def State.failExec (s : State) (e : Exec) (status : Nat) : State :=
  s.endExec e status 0 e.taddr 1 []

/-- A request that was refused with FE before it began (R119): no error of its target. -/
def State.fenceExec (s : State) (e : Exec) : State :=
  let s := (s.dropExec e.order).bump (CTX_FENCE_REJECTED e.pkt.h.ctx)
  s.deliver e.dest e.pkt.h ⟨stFE, e.pkt.h.addr, [], true⟩

/-- A part of a request's data that goes out before its end (R40, R150). -/
def State.partExec (s : State) (e : Exec) (d : List Byte) : State :=
  let s := s.deliver e.dest e.pkt.h ⟨stSC, e.pkt.h.addr + e.sent, d, false⟩
  s.setExec { e with sent := e.sent + d.length }

end Sys2Proof.Machine
end

