-- ==== Sys2Proof/Machine/Arbiters.lean ====
section
/-! DEFINITION. The arbiter of every site (R337 to R350): the choice among requesters, backoff, ceiling,
quota, and the commit of shadowed settings. -/

namespace Sys2Proof.Machine

/-- A request that may go next at an arbiter: its requester (a context at the segment sites, a source
elsewhere), its source, its class, its place in order of arrival, and its context, 0 where none applies (R350). -/
structure Cand where
  who : Nat
  src : Nat
  cls : Nat
  order : Nat
  ctx : Nat
  deriving DecidableEq, Repr

/-- The class of a context's requests (R338): its NOTE; context 0 counts as TOP. -/
def State.noteOf (s : State) (n : Nat) : Nat := if n = 0 then 0 else min 2 (s.get (CTX_CTL_NOTE n))

/-- A field of an arbiter's active settings (R346). -/
def State.arbGet (s : State) (f : FRef) : Nat := bits (mget s.arbActive f.reg (resetWord f.reg)) f.lo f.w

/-- The class that ARB_SRC gives a source (R348). -/
def State.srcClass (s : State) (a k : Nat) : Nat := min 2 (s.arbGet (ARB_SRC_CLASS a k))

/-- ns in `k` cycles of the clock of an arbiter instance (R337, R489); `k` is a multiple of four. -/
def arbNs (a k : Nat) : Nat :=
  if a = 0 then k * 5 / 4 else if a ≤ 4 then k * 20 else k * 5 / 2

/-- The account of a requester. -/
def Arb.account (x : Arb) (who : Nat) : Backoff :=
  (x.acc.find? (fun b => b.who == who)).getD ⟨who, 0, false, false, 0, false⟩

/-- The arbiter with an account replaced. -/
def Arb.setAccount (x : Arb) (b : Backoff) : Arb :=
  { x with acc := x.acc.filter (fun (c : Backoff) => c.who != b.who) ++ [b] }

/-- A new quota window (R345). -/
def Arb.newWindow (x : Arb) : Arb :=
  { x with used := 0, acc := x.acc.map (fun (b : Backoff) => { b with grants := 0, masked := false }) }

/-- The registers of an arbiter instance that are shadowed (R346). -/
def arbRegs (a : Nat) : List Nat :=
  ARB_CFG a :: (List.range (if a = 0 then 25 else if a ≤ 4 then 3 else if a ≤ 6 then 4 else 3)).map
    (fun k => ARB_SRC a k)

/-- The shadow settings of an instance become its active ones, its quota window ends, and its bit in
ARB_COMMIT clears (R346). -/
def State.arbApply (s : State) (a : Nat) : State :=
  let act := (arbRegs a).foldl (fun m r => mput m r (s.word r) (resetWord r)) s.arbActive
  let x := s.arb a
  let s := { s with arbActive := act }.setArb a { x.newWindow with commitWait := false }
  let v := s.get ARB_COMMIT_INST
  let s := s.put ARB_COMMIT_INST (if bitAt v a then v - 2 ^ a else v)
  s.put (ARB_STAT_QUSED a) 0

/-- A commit that waits takes effect at an arbitration (R346). -/
def State.arbCommitted (s : State) (a : Nat) : State :=
  if (s.arb a).commitWait then s.arbApply a else s

/-- Whether candidate `x` goes before `y` (R339, R341): the ceiling rule, class, rank, the first after the
one last granted, then order of arrival. -/
def State.goesBefore (s : State) (a last : Nat) (ceil : Nat → Bool) (x y : Cand) : Bool :=
  if ceil x.who != ceil y.who then ceil x.who
  else if !ceil x.who && x.cls != y.cls then decide (x.cls < y.cls)
  else
    let rx := s.arbGet (ARB_SRC_RANK a x.src)
    let ry := s.arbGet (ARB_SRC_RANK a y.src)
    if !ceil x.who && rx != ry then decide (ry < rx)
    else if x.who = y.who then decide (x.order < y.order)
    else
      let dx := decide (last < x.who)
      let dy := decide (last < y.who)
      if dx != dy then dx else decide (x.who < y.who)

/-- The first of a list of candidates under an order. -/
def firstBy (lt : Cand → Cand → Bool) : List Cand → Option Cand
  | [] => none
  | c :: t =>
    match firstBy lt t with
    | none => some c
    | some d => if lt d c then some d else some c

/-- A requester loses an arbitration (R340, R341): its backoff doubles, and a loss at 1024 puts it under the
ceiling rule. -/
def State.lose (s : State) (a : Nat) (c : Cand) : State :=
  let x := s.arb a
  let b := x.account c.who
  let n := if b.count = 0 then 4 else min 1024 (2 * b.count)
  let s := s.setArb a (x.setAccount
    { b with count := n, waiting := true, ceiling := b.ceiling || b.count == 1024 })
  s.arm (.backoff a c.who) (arbNs a n)

/-- A grant (R340, R341, R345): the winner's count resets, the grant counts in the quota window and, for a
TOP requester, against its quota. -/
def State.win (s : State) (a : Nat) (c : Cand) : State × Bool :=
  let x := s.arb a
  let b := x.account c.who
  let ceil := b.ceiling
  let g := b.grants + ofBool (c.cls == 0)
  let spent := c.cls == 0 && decide (s.arbGet (ARB_CFG_QUOTA a) ≤ g)
  let x := { (x.setAccount ⟨c.who, 0, false, false, g, b.masked || spent⟩) with
    last := c.who, used := x.used + 1 }
  let x := if s.arbGet (ARB_CFG_QWIN a) ≤ x.used then x.newWindow else x
  let s := (s.setArb a x).put (ARB_STAT_QUSED a) x.used
  let s := if spent && !b.masked then s.bump (ARB_CNT1_MASKED a) else s
  if ceil then
    ((s.bump (ARB_CNT1_CEILING a)).raise 21 c.ctx (detail a c.src 0), true)
  else (s, false)

/-- One arbitration (R339 to R345). `ready` are the requesters with a request, `offered` those requests that
may go next. The answer is the request granted and whether the ceiling rule granted it. -/
def State.arbitrate (s : State) (a : Nat) (ready : List Nat) (offered : List Cand) :
    State × Option (Cand × Bool) :=
  let s := s.arbCommitted a
  let x := s.arb a
  let gone := x.acc.filter (fun (b : Backoff) => !ready.contains b.who && b.count != 0)
  let s := gone.foldl (fun s (b : Backoff) => s.disarm (.backoff a b.who)) s
  let x := { x with acc := x.acc.map (fun (b : Backoff) =>
    if ready.contains b.who then b else { b with count := 0, waiting := false, ceiling := false }) }
  let masked (x : Arb) (c : Cand) : Bool := c.cls == 0 && (x.account c.who).masked
  let x := if !offered.isEmpty && offered.all (masked x) then x.newWindow else x
  let s := (s.setArb a x).put (ARB_STAT_QUSED a) x.used
  let can := offered.filter (fun c => !(x.account c.who).waiting && !masked x c)
  match firstBy (s.goesBefore a x.last (fun w => (x.account w).ceiling)) can with
  | none => (s, none)
  | some c =>
    let losers := can.filter (fun d => d.who != c.who)
    let firsts := losers.filter (fun d => (losers.find? (fun e => e.who == d.who)) == some d)
    let s := firsts.foldl (fun s d => s.lose a d) s
    let w := s.win a c
    (w.1, some (c, w.2))

/-- The backoff of a requester ends (R340). -/
def State.backoffEnd (s : State) (a who : Nat) : State :=
  match s.expire (.backoff a who) with
  | none => s
  | some s =>
    let x := s.arb a
    s.setArb a (x.setAccount { x.account who with waiting := false })

/-- A requester withdraws (R340): it loses its count. -/
def State.withdraw (s : State) (a who : Nat) : State :=
  let x := s.arb a
  let b := x.account who
  (s.disarm (.backoff a who)).setArb a (x.setAccount { b with count := 0, waiting := false, ceiling := false })

/-- ARB_STAT.DIFF (R346): the shadow and active settings differ. -/
def State.arbDiff (s : State) (a : Nat) : Bool :=
  (arbRegs a).any (fun r => mget s.arbActive r (resetWord r) != s.word r)

end Sys2Proof.Machine
end

