-- ==== Sys2Proof/Machine/CourMem.lean ====
section
/-! DEFINITION. The couriers' memories (R231 to R236): where a context's data area lies, reads and writes
of data memory with its check words, and what hosts read. -/

namespace Sys2Proof.Machine

/-- The first byte of context `n`'s data area in the data memory of its courier (R236): where the Innkeeper
has moved it, there. -/
def State.dataBase (s : State) (n : Nat) : Nat :=
  (if s.on (CTX_RELOC_RELOCATED n) then s.get (CTX_RELOC_DBASE n) else s.get (CTX_PLACE_DBASE n)) * 256

/-- The size of context `n`'s data area in bytes (R236). -/
def State.dataSize (s : State) (n : Nat) : Nat := s.get (CTX_PLACE_DSIZE n) * 256

/-- The place of a byte of context `n`'s data area among all data memories. -/
def State.dataAt (s : State) (n off : Nat) : Nat := s.courOf n * 0x10000 + s.dataBase n + off

/-- The check state of the data memory word that holds a byte. -/
def State.dmemEcc (s : State) (a : Nat) : Ecc := mget s.dmemBad (a / 8) .ok

/-- The check of a data memory word finds what the command says it finds. -/
def State.dmemFound (s : State) (a : Nat) (e : Ecc) : State :=
  if e = .ok then s else { s with dmemBad := mput s.dmemBad (a / 8) e .ok }

/-- Bytes of data memory from place `a`, and whether an uncorrectable word was met. -/
def State.dmemRead (s : State) (a n : Nat) : List Byte × Bool :=
  (readMem s.dmem 0 a n, (List.range n).any (fun i => s.dmemEcc (a + i) == .ue))

/-- Whether writing `n` bytes at place `a` meets an uncorrectable word that it does not cover. -/
def State.dmemMeets (s : State) (a n : Nat) : Bool :=
  (List.range n).any (fun i => s.dmemEcc (a + i) == .ue &&
    (decide ((a + i) / 8 * 8 < a) || decide (a + n < (a + i) / 8 * 8 + 8)))

/-- Bytes written to data memory; the words they cover are whole again. -/
def State.dmemWrite (s : State) (a : Nat) (bs : List Byte) : State :=
  let bad := (List.range bs.length).foldl (fun (m : SMap Ecc) i =>
    if a ≤ (a + i) / 8 * 8 ∧ (a + i) / 8 * 8 + 8 ≤ a + bs.length then mdel m ((a + i) / 8) else m) s.dmemBad
  { s with dmem := writeMem s.dmem 0 a bs, dmemBad := bad }

/-- The check state of the instruction at index `i` of courier `c` (R231): every courier holds the same image (R235). -/
def State.imemEcc (s : State) (c i : Nat) : Ecc := mget s.imemBad (c * 0x4000 + i) .ok

/-- The check state of an instruction of courier `c` set. -/
def State.setImemEcc (s : State) (c i : Nat) (e : Ecc) : State :=
  { s with imemBad := mput s.imemBad (c * 0x4000 + i) e .ok }

/-- Instruction memory of courier `c` loaded anew: every word whole (R235, R412). -/
def State.imemReloaded (s : State) (c : Nat) : State :=
  { s with imemBad := s.imemBad.filter (fun e => e.1 / 0x4000 != c) }

/-- What a host reads of a courier's memories from offset `o` of the range of R234: bytes up to the first
uncorrectable word, and whether one was met. -/
def State.courRead (s : State) (o n : Nat) : List Byte × Bool :=
  let at_ (i : Nat) : Byte × Bool :=
    let c := (o + i) / 0x20000
    let x := (o + i) % 0x20000
    if x < 0x10000 then (mget s.imem x 0, s.imemEcc c (x / 4) == .ue)
    else
      let a := c * 0x10000 + (x - 0x10000)
      (mget s.dmem a 0, s.dmemEcc a == .ue)
  let ok := (List.range n).takeWhile (fun i => !(at_ i).2)
  (ok.map (fun i => (at_ i).1), decide (ok.length < n))

end Sys2Proof.Machine
end

