-- ==== Sys2Proof/Machine/Segment.lean ====
section
/-! DEFINITION. The Carriage segments: the requests that wait for one, the cycles of the bridge with
their beats, responses and timeouts (R172 to R183), the write journal (R367), keeper pulses, interrupts,
legacy masters and inbound areas (R184 to R196), and the states of a segment (R197 to R201). -/

namespace Sys2Proof.Machine

/-! ## What a segment shows -/

/-- Whether the I/O bank of segment `g` is in range (R501). -/
def State.bankOk (s : State) (g : Nat) : Bool := !bitAt s.supOut (4 + g)

/-- STATE of segment `g`: 0 OFF, 1 STARTING, 2 ON, 3 DRAINING. -/
def State.segState (s : State) (g : Nat) : Nat := s.get (SEG_STAT_STATE g)

/-- Whether nothing keeps the segment from issuing a cycle of its own (R175, R198, R199, R501). -/
def State.segIssues (s : State) (g : Nat) : Bool :=
  let x := s.seg g
  s.owns g && s.bankOk g && !s.on (SEG_STAT_RSP_STUCK g) && !x.rspLow && !x.releasing &&
    !x.takePending

/-- A segment event (R202, R418): EV_SEGs_NAME with index `i`. -/
def State.segEvent (s : State) (g i n : Nat) : State := s.raise (128 + 16 * g + i) n (detail g 0 0)

/-- STATE of a segment changes (R202). -/
def State.setSegState (s : State) (g st : Nat) : State :=
  if s.segState g = st then s else (s.put (SEG_STAT_STATE g) st).segEvent g 0 0

/-- ROLE of a segment changes (R202). -/
def State.setSegRole (s : State) (g r : Nat) : State :=
  if s.get (SEG_STAT_ROLE g) = r then s else (s.put (SEG_STAT_ROLE g) r).segEvent g 1 0

/-- The capture of a failed cycle (R204). -/
def State.segCapture (s : State) (g cause ctx : Nat) (cour : Bool) (addr spc : Nat) : State :=
  if s.on (SEG_ERR_CAUSE_VALID g) then s
  else
    let s := ((s.put (SEG_ERR_CAUSE_CAUSE g) cause).put (SEG_ERR_CAUSE_CTX g) ctx).put
      (SEG_ERR_CAUSE_COURIER g) (ofBool cour)
    ((s.put (SEG_ERR_CAUSE_VALID g) 1).put (SEG_ERR_ADDR_ADDR g) addr).put (SEG_ERR_ADDR_SPC g) spc

/-- A falling edge of CAS_N at an instant (R187). -/
def State.casFell (s : State) (g at_ : Nat) : State :=
  let x := s.seg g
  s.setSeg g { x with casLast := max x.casLast at_ }

/-- µs since the last falling edge of CAS_N (R187). -/
def State.silence (s : State) (g : Nat) : Nat := min 0xFFFFFF ((s.clk - (s.seg g).casLast) / 1000)

/-! ## Jobs -/

/-- The job of an order number. -/
def State.job (s : State) (g o : Nat) : Option Job := (s.seg g).jobs.find? (fun j => j.order == o)

/-- The state with a job replaced. -/
def State.setJob (s : State) (g : Nat) (j : Job) : State :=
  let x := s.seg g
  s.setSeg g { x with jobs := x.jobs.map (fun (k : Job) => if k.order == j.order then j else k) }

/-- The state without a job. -/
def State.dropJob (s : State) (g o : Nat) : State :=
  let x := s.seg g
  s.setSeg g { x with jobs := x.jobs.filter (fun (k : Job) => k.order != o) }

/-- The state with a job added behind the others. -/
def State.addJob (s : State) (g : Nat) (j : Job) : State :=
  let x := s.seg g
  s.setSeg g { x with jobs := x.jobs ++ [j] }

/-- Whether a courier issued the job. -/
def Job.isCourier (j : Job) : Bool :=
  match j.owner with
  | .token _ _ => true
  | .courierWrite _ => true
  | .orphan _ => true
  | _ => false

/-- The byte of the request that card byte `c` carries (R145, R273). -/
def Job.index (j : Job) (c : Nat) : Nat := Nat.xor (c - j.base) j.xor - j.off

/-- The card byte of request byte `i` (R145, R273). -/
def Job.cardByte (j : Job) (i : Nat) : Nat := j.base + Nat.xor (j.off + i) j.xor

/-- The byte that the job has read for request byte `i`, if it has. -/
def Job.gotByte (j : Job) (i : Nat) : Option Byte := mfind j.got (j.cardByte i)

/-- The bytes read, in request order, up to the first not read. -/
def Job.readBytes (j : Job) : List Byte :=
  ((List.range j.len).map j.gotByte).takeWhile Option.isSome |>.map (fun b => b.getD 0)

/-- Every byte of the request in order, unread bytes zero. -/
def Job.allBytes (j : Job) : List Byte := (List.range j.len).map (fun i => (j.gotByte i).getD 0)

/-- The lowest request byte of a beat, and the card address of its first enabled byte (R152). -/
def Job.place (j : Job) : Nat × Nat :=
  match j.beats with
  | [] => (0, j.cardByte 0)
  | b :: _ =>
    let cs := b.lanes.map (·.1)
    match cs.map j.index, cs with
    | i :: is, c :: ct => (is.foldl min i, ct.foldl min c)
    | _, _ => (0, b.addr)

/-! ## The write journal (R367 to R369) -/

/-- The head of a JOURNAL packet (R369). -/
def JEntry.head (e : JEntry) (g : Nat) : List Byte :=
  let h := e.pkt.h
  let ty := if h.type = tMWR then 0 else if h.type = tNPW then 1 else 2
  leBytes 4 (e.jseq % 65536 + g * 2 ^ 16 + ofBool e.rxSide * 2 ^ 18 + ty * 2 ^ 19 +
      ofBool e.locked * 2 ^ 21 + e.window % 64 * 2 ^ 24) ++
    leBytes 4 (h.seq + h.ctx * 2 ^ 16 + h.len % 256 * 2 ^ 24) ++
    leBytes 4 (h.addr % 2 ^ 32) ++ leBytes 4 (h.addr / 2 ^ 32 % 256)

/-- The JOURNAL packet of an entry, put on the mirror port (R367). -/
def State.sendJournal (s : State) (g : Nat) (e : JEntry) : State :=
  s.mirrorPut 0xFF00000003 (e.head g ++ e.pkt.data)

/-- Whether the owner journals a host request onto segment `g` (R367). -/
def State.journals (s : State) (e : Exec) : Bool :=
  s.on SPN_CTL_JRN_EN && s.paired &&
    (e.pkt.h.type == tMWR || e.pkt.h.type == tNPW || e.pkt.h.type == tATM)

/-- The unretired entries of segment `g` on the owner. -/
def State.sentOf (s : State) (g : Nat) : List JEntry := mget s.span.sent g []

/-- The state with the owner's unretired entries of a segment replaced. -/
def State.setSent (s : State) (g : Nat) (es : List JEntry) : State :=
  let s := { s with span := { s.span with sent := mput s.span.sent g es [] } }
  s.put (SPN_SEG_JRN_OPEN g) es.length

/-- A journal entry made for an accepted request that waits at segment `g`, and its packet sent (R367). -/
def State.journalReq (s : State) (g : Nat) (e : Exec) (locked : Bool) : State :=
  let n := mget s.span.nextJ g 0
  let side := if e.viaSpan.isSome then !s.side else s.side
  let j : JEntry := { jseq := n, pkt := e.pkt, locked := locked, window := e.win.getD 0, rxSide := side,
                      order := e.order, acked := false }
  let s := { s with span := { s.span with nextJ := mput s.span.nextJ g ((n + 1) % 65536) 0 } }
  (s.setSent g (s.sentOf g ++ [j])).sendJournal g j

/-- The next request held for want of a free entry is journaled (R368). -/
def State.journalNext (s : State) (g : Nat) : State :=
  if 256 ≤ (s.sentOf g).length then s
  else
    match (s.seg g).jobs.find? (fun j => j.wait == .journal && match j.owner with
      | .host o => !(s.sentOf g).any (fun e => e.order == o)
      | _ => false) with
    | none => s
    | some j =>
      match j.owner with
      | .host o =>
        match s.execOf o with
        | some e => s.journalReq g e (j.role == .release)
        | none => s
      | _ => s

/-- The entry of an accepted request is retired, and RETIRE sent for it while PAIRED (R356, R368). -/
def State.retire (s : State) (g o : Nat) : State :=
  match (s.sentOf g).find? (fun e => e.order == o) with
  | none => s
  | some e =>
    let s := s.setSent g ((s.sentOf g).filter (fun x => x.order != o))
    if s.paired then
      (s.mirrorPut 0xFF00000004 (leBytes 4 (e.jseq + g * 2 ^ 16 + 1 * 2 ^ 24))).journalNext g
    else s

/-! ## Takeover recovery (R373, R374) -/

/-- A failover record (R374). -/
def failRec (kind status g ctx w seq addr card : Nat) (fenced rx np tail : Bool) : List Word :=
  [BitVec.ofNat 32 (kind + status % 16 * 2 ^ 8 + g % 8 * 2 ^ 12 + ofBool fenced * 2 ^ 15 +
      ctx * 2 ^ 16 + w % 64 * 2 ^ 24 + ofBool rx * 2 ^ 30 + ofBool np * 2 ^ 31),
   BitVec.ofNat 32 (seq + ofBool tail * 2 ^ 16), BitVec.ofNat 32 addr,
   BitVec.ofNat 32 (addr / 2 ^ 32 % 256 + card % 2 ^ 24 * 2 ^ 8)]

/-- A failover record put into the notice queue of its context. -/
def State.putFailRec (s : State) (n : Nat) (ws : List Word) : State :=
  s.bridgeRecord ⟨s.get (CTX_QUE_NQ n), n, 1, ws, true, none⟩

/-- The marks of segment `g`, in ascending order of context (R370). -/
def State.marksOf (s : State) (g : Nat) : List (Nat × Nat) :=
  (List.range 256).filterMap (fun n =>
    (s.span.marks.find? (fun m => m.1 == g && m.2.1 == n)).map (fun m => (n, m.2.2)))

/-- The end of the walk (R373): one FAILOVER_MARK for each mark, and the journal copy is discarded. -/
def State.walkMarks (s : State) (g : Nat) : State :=
  let tail := s.on (SPN_SEG_OPEN_TAIL g)
  let s := (s.marksOf g).foldl (fun s m =>
    s.putFailRec m.1 (failRec 4 0 g m.1 0 m.2 0 0 false s.span.side false tail)) s
  let unsure := s.span.unsure.contains g
  let s := { s with span := { s.span with
      unsure := s.span.unsure.filter (· != g), walk := mdel s.span.walk g, held := mdel s.span.held g,
      marks := s.span.marks.filter (fun (m : Nat × Nat × Nat) => m.1 != g) } }
  let s := s.put (SPN_SEG_JRN_OPEN g) 0
  if unsure then s.raise 113 0 (detail g 0 0) else s

/-- An entry that is not issued again (R373): FAILOVER_UNCERTAIN, and the fence if its window asks. -/
def State.uncertain (s : State) (g : Nat) (e : JEntry) : State :=
  let h := e.pkt.h
  let fof := s.on (WIN_ATTR_FOF e.window)
  let fences := fof && !s.on (CTX_FENCE_FENCED h.ctx)
  let s := if fof then s.fence h.ctx 3 h.seq 0 [(0, e.pkt)] else s
  let s := s.putFailRec h.ctx (failRec 2 0 g h.ctx e.window h.seq h.addr 0 fences e.rxSide
    (h.type != tMWR) false)
  let s := s.ctxError h.ctx
    { cause := 6, status := 0, window := e.window, channel := 3, seq := h.seq, haddr := h.addr,
      card := 0, target := g, posted := h.type == tMWR, courier := false }
  let u := s.span.unsure
  { s.bump SPN_CNT2_UNCERTAIN with
    span := { s.span with unsure := if u.contains g then u else g :: u } }

/-- The width code of a request through attributes on segment `g` (R146), as bytes per beat. -/
def State.beatWidth (s : State) (g code : Nat) : Nat :=
  min (beatBytes code) (if s.on (SEG_CTL_MODE g) then 4 else 2)

/-- The bus job that issues a journal entry again through the device's own window (R373). -/
def State.reissueJob (s : State) (g : Nat) (e : JEntry) : Job :=
  let w := e.window
  let k := orderMask (s.get (WIN_ATTR_ORDER w))
  let off := e.pkt.h.addr % 2 ^ s.get (WIN_SIZE_LOG2 w)
  let base := s.get (WIN_TBASE_TBASE w) * 4096
  let width := s.beatWidth g (s.get (WIN_ATTR_WIDTH w))
  { owner := .recovery s.order, ctx := e.pkt.h.ctx, spc := s.get (WIN_ATTR_SPACE w), write := true,
    width := width, burst := s.on (WIN_ATTR_BURST w), beats := splitBeats base k width off e.pkt.data,
    base := base, off := off, xor := k, len := e.pkt.data.length, retries := 0,
    retryMax := s.get (WIN_SEG_RETRY_MAX w), answers := 0, tmo := s.get (WIN_SEG_TMO w) * 500,
    wait := .ready, defers := 0, deferred := false, lock := none, role := .none, poll := none,
    rmw := .none, back := false, got := [], moved := 0, busNs := 0, order := s.order, buf := 0, bufAt := 0 }

/-- The walk goes on (R373): uncertain entries are recorded, up to an entry that is issued again; after
the last, the marks. -/
def State.walkOn : Nat → State → Nat → State
  | 0, s, _ => s
  | fuel + 1, s, g =>
    match mget s.span.walk g [] with
    | [] => s.walkMarks g
    | e :: es =>
      let s := { s with span := { s.span with walk := mput s.span.walk g es [] } }
      if e.pkt.h.type != tATM && !e.locked && s.on (WIN_ATTR_RSAFE e.window) then
        let j := s.reissueJob g e
        let n := s.order
        let s := { s with order := n + 1, span := { s.span with
            reissued := s.span.reissued ++ [(n, g, e)] } }
        (s.bump SPN_CNT2_REISSUED).addJob g j
      else State.walkOn fuel (s.uncertain g e) g

/-- A reissued entry has ended (R373): its record, the fence of a failure under FOF, and the walk goes
on. -/
def State.reissueEnd (s : State) (n status card : Nat) : State :=
  match s.span.reissued.find? (fun r => r.1 == n) with
  | none => s
  | some (_, g, e) =>
    let s := { s with span := { s.span with
        reissued := s.span.reissued.filter (fun (r : Nat × Nat × JEntry) => r.1 != n) } }
    let h := e.pkt.h
    let fof := s.on (WIN_ATTR_FOF e.window) && status != stSC
    let fences := fof && !s.on (CTX_FENCE_FENCED h.ctx)
    let s := if fof then s.fence h.ctx 3 h.seq 0 [(0, e.pkt)] else s
    let s := s.putFailRec h.ctx (failRec 3 status g h.ctx e.window h.seq h.addr card fences e.rxSide
      (h.type != tMWR) false)
    State.walkOn 257 s g

/-! ## The end of a job -/

/-- The aperture's error capture (R161, R162). -/
def State.apertureError (s : State) (status card : Nat) : State :=
  if bits (mget s.compat 0x10 0) 31 1 = 1 then s
  else
    let c := mput s.compat 0x10 (BitVec.ofNat 32 (status % 16 + 2 ^ 31)) 0
    { s with compat := mput c 0x14 (BitVec.ofNat 32 (card % 2 ^ 24)) 0 }

/-- Two little-endian bytes as a word: what a poll leaves in its token. -/
def pollWord (j : Job) : Word := BitVec.ofNat 32 (leNat (j.got.map (·.2)))

/-- STRETCH of a segment in ns (R173). -/
def State.stretch (s : State) (g : Nat) : Nat := 20 * s.get (SEG_TIM_STRETCH g)

/-- TURN of a segment in ns (R173). -/
def State.turn (s : State) (g : Nat) : Nat := 20 * s.get (SEG_TIM_TURN g)

/-- Whether segment `g` holds CAS_N low for a tenure with no cycle in progress. -/
def State.holdsIdle (s : State) (g : Nat) : Bool := (s.seg g).cycle == .idle && (s.seg g).tenure.isSome

/-- The recovery P8 at the end of a tenure (R183), where `now` says that no cycle in progress precedes it. -/
def State.tenureOver (s : State) (g : Nat) (now : Bool) : State := if now then s.elapse (40 + s.turn g) else s

/-- A native lock tenure ends (R183): CAS_N goes high after the cycle in progress, else at once. -/
def State.endTenure (s : State) (g : Nat) : State :=
  let x := s.seg g
  ((s.setSeg g { x with tenure := none }).put (SEG_STAT_LOCK_HELD g) 0).tenureOver g (s.holdsIdle g)

/-- The poll of a line has ended, whatever its status: the line is rearmed after REARM (R189). -/
def State.pollOver (s : State) (g : Nat) (poll : Option Nat) : State :=
  match poll with
  | some l => s.arm (.cintRearm g l) (s.get (SEG_INT_REARM g l) * 1000)
  | none => s

/-- A job has ended with a status (R149, R189, R243, R275): it leaves its segment, a lock of its own sequence
and the lock that it unlocks are released, a poll's line is to be rearmed, and its owner learns the outcome. `idx` and
`card` place the first failed beat. -/
def State.endJob (s : State) (g : Nat) (j : Job) (status idx card cause : Nat) : State :=
  let s := (s.dropJob g j.order).pollOver g j.poll
  let s := match j.role, j.lock with
    | .release, some l => s.releaseLock l j.ctx
    | .whole, some l => if (s.lockHeld l).any (fun h => h.ctx == j.ctx) then s.releaseLock l j.ctx else s
    | _, _ => s
  let s := match j.role, j.lock with
    | .release, some (.native _) => if (s.seg g).tenure.any (fun t => t.ctx == j.ctx) then s.endTenure g else s
    | .whole, some (.native _) => if ((s.seg g).tenure.bind (·.only)) == some j.order then s.endTenure g else s
    | _, _ => s
  match j.owner with
  | .host o =>
    match s.execOf o with
    | none => s
    | some e =>
      let s := s.retire g o
      let s := if e.target == .compat && status != stSC then s.apertureError status card else s
      s.endExec e status idx card cause (j.readBytes.drop e.sent)
  | .token n t =>
    let d : Word := if j.poll.isSome then (if status = stSC then pollWord j else 0)
      else if j.buf = 0 && (!j.write || j.rmw != .none) then BitVec.ofNat 32 (leNat j.allBytes) else 0
    s.resolveToken n t status d j.busNs j.answers
  | .courierWrite n =>
    if status = stSC then s
    else s.ctxError n
      { cause := 2, status := status, window := 0, channel := 3, seq := 0, haddr := 0,
        card := card % 2 ^ 24, target := g, posted := true, courier := true }
  | .orphan _ => s.put COUR_TAGS_IN_USE (s.get COUR_TAGS_IN_USE - 1)
  | .recovery n => s.reissueEnd n status (j.base + j.off)

/-- Whether a request has begun on its segment: a cycle of it has been issued (R153). -/
def Job.begun (j : Job) : Bool := decide (0 < j.moved) || j.back || decide (0 < j.answers) || decide (0 < j.busNs)

/-- A waiting job ends, none of its beats having failed on the bus (R152): placed at the beat that it would have issued
next, or at the request's own address if it has issued none. -/
def State.stopJob (s : State) (g : Nat) (j : Job) (status cause : Nat) : State :=
  let p := if j.begun then j.place else (0, j.base + j.off)
  s.endJob g j status p.1 p.2 cause

/-- A request of a fenced context that is not on the bus falls under R119 (R153). -/
def State.fenceJob (s : State) (g : Nat) (j : Job) : State :=
  match j.owner with
  | .host o =>
    match s.execOf o with
    | none => s
    | some e => ((s.dropJob g j.order).retire g o).fenceExec e
  | _ => s

/-- The job whose cycle is on the bus. -/
def Seg.busy (x : Seg) : Option Nat :=
  match x.cycle with
  | .job o _ _ _ _ _ _ _ _ => some o
  | _ => none

/-- Host requests of a fenced context that have not been issued end with FE (R153); one that has begun runs to its end. -/
def State.sweepFenced (s : State) : State :=
  (List.range 4).foldl (fun s g =>
    (s.seg g).jobs.foldl (fun s j =>
      if !j.isCourier && s.on (CTX_FENCE_FENCED j.ctx) && (s.seg g).busy != some j.order && !j.begun then
        s.fenceJob g j
      else s) s) s

/-! ## Arbitration of cycles (R296, R339) -/

/-- The courier job of context `n` that is next in the order of its instructions (R276). -/
def Seg.courierHead (x : Seg) (n : Nat) : Option Job :=
  x.jobs.find? (fun j => j.isCourier && j.ctx == n)

/-- Whether a job is that of a posted host request. -/
def State.jobPosted (s : State) (j : Job) : Bool :=
  match j.owner with
  | .host o => (s.execOf o).any (·.posted)
  | _ => false

/-- Whether a later host job of one context may go before an earlier one on the same segment (R49): a posted write
before a non-posted request, but for the write that unlocks what the earlier one locks (R154). -/
def State.mayPass (s : State) (late early : Job) : Bool :=
  s.jobPosted late && !s.jobPosted early && !(late.role == .release && late.lock == early.lock)

/-- The host job of context `n` that may be issued next: the first that is ready and need not wait for one before
it (R49). While a takeover's walk is open only reissued entries go (R373). -/
def State.hostHead (s : State) (g n : Nat) : Option Job :=
  let walking := s.span.reissued.any (fun r => r.2.1 == g) || !(mget s.span.walk g []).isEmpty
  let reissue (j : Job) : Bool := match j.owner with
    | .recovery _ => true
    | _ => false
  let jobs := (s.seg g).jobs.filter (fun j => !j.isCourier && j.ctx == n && (!walking || reissue j))
  jobs.find? (fun j => j.wait == .ready &&
    jobs.all (fun k => decide (j.order ≤ k.order) || s.mayPass j k))

/-- Whether a native lock tenure lets a job go (R155, R183). -/
def Seg.lets (x : Seg) (j : Job) : Bool :=
  match x.tenure with
  | none => true
  | some t => t.ctx == j.ctx && match t.only with
    | none => true
    | some o => o == j.order

/-- The contexts with a job on segment `g`. -/
def Seg.ctxs (x : Seg) : List Nat := (List.range 256).filter (fun n => x.jobs.any (fun j => j.ctx == n))

/-- The jobs that may be issued next but for their budget. -/
def State.nextJobs (s : State) (g : Nat) : List Job :=
  let x := s.seg g
  (x.ctxs.map (fun n =>
    (match s.hostHead g n with
      | some j => [j]
      | none => []) ++
    (match x.courierHead n with
      | some j => if j.wait == .ready then [j] else []
      | none => []))).flatten.filter (fun j => x.lets j)

/-- CTX_USE.DEFERRED of a context on a segment (R315). -/
def State.showDeferred (s : State) (n g : Nat) : State :=
  let v := s.get (CTX_USE_DEFERRED n)
  let now := (s.seg g).jobs.any (fun j => j.ctx == n && j.wait == .budget) ||
    ((s.seg g).lmDeferred && s.get (SEG_CTL_LM_CTX g) == n)
  if bitAt v g == now then s
  else s.put (CTX_USE_DEFERRED n) (if now then v + 2 ^ g else v - 2 ^ g)

/-- A cycle checked against a spent budget (R296, R297): deferred; a host request deferred again after
DEFER_MAX stage starts completes with TO. -/
def State.deferJob (s : State) (g : Nat) (j : Job) : State :=
  let n := j.defers + ofBool j.deferred
  if !j.isCourier && j.deferred && decide (s.get STG_CTL_DEFER_MAX ≤ n) then
    let s := (s.bump STG_CNT1_DEFER_TO).raise 58 j.ctx (detail 0 0 0)
    s.stopJob g j stTO 7
  else
    (s.setJob g { j with wait := .budget, defers := n, deferred := false }).showDeferred j.ctx g

/-- Whether the legacy masters ask for a bus that may be granted to them (R191). -/
def State.lmWants (s : State) (g : Nat) : Bool :=
  s.on (SEG_CTL_LM_EN g) && s.on (SEG_STAT_CBR g) && (s.seg g).tenure.isNone

/-- A legacy master's grant checked against a spent budget (R192, R296): deferred to the next stage start. -/
def State.lmCheck (s : State) (g : Nat) : State :=
  let x := s.seg g
  let n := s.get (SEG_CTL_LM_CTX g)
  if s.lmWants g && s.busSpent n g && !x.lmDeferred then (s.setSeg g { x with lmDeferred := true }).showDeferred n g
  else s

/-- Whether the legacy masters ask for the bus and may have it (R191, R192). -/
def State.lmAsks (s : State) (g : Nat) : Bool :=
  s.lmWants g && !(s.seg g).lmDeferred && !s.busSpent (s.get (SEG_CTL_LM_CTX g)) g

/-- The requests offered at a segment's arbitration. -/
def State.segOffers (s : State) (g : Nat) : List Cand :=
  (s.nextJobs g).filterMap (fun j =>
    if s.busSpent j.ctx g then none
    else some ⟨j.ctx, ofBool j.isCourier, s.noteOf j.ctx, j.order, j.ctx⟩) ++
  (if s.lmAsks g then [⟨s.get (SEG_CTL_LM_CTX g), 2, min 2 (s.get (SEG_CTL_LM_CLASS g)), s.order,
    s.get (SEG_CTL_LM_CTX g)⟩] else [])

/-! ## Cycles -/

/-- The address words of a beat (R170, R190). -/
def Job.words (j : Job) : Nat × Nat :=
  match j.poll, j.beats with
  | some l, _ => (0x300, l)
  | none, b :: _ => (j.spc * 256 + b.addr / 65536 % 256, b.addr % 65536)
  | none, [] => (j.spc * 256, 0)

/-- The strobes and enables that select the lane of target byte `c`, and its place on CAD (R147). -/
def busLane (cb32 : Bool) (c : Nat) : BitVec 2 × BitVec 4 × Nat :=
  if cb32 then (3, 15 - BitVec.ofNat 4 (2 ^ (3 - c % 4)), 24 - 8 * (c % 4))
  else if c % 2 = 0 then (1, 15, 8) else (2, 15, 0)

/-- The data pulse of a beat (R147). -/
def busWord (cb32 write : Bool) (b : Beat) : BusWord :=
  b.lanes.foldl (fun w l =>
    let k := busLane cb32 l.1
    { cad := if write then w.cad ||| ((l.2.setWidth 32 : Word) <<< (k.2.2 : Nat)) else w.cad,
      strobes := w.strobes &&& k.1, enables := w.enables &&& k.2.1 }) ⟨0, 3, 15⟩

/-- The data pulses of the next `n` beats of a job; a poll reads 16 bits (R190). -/
def Job.pulses (j : Job) (cb32 : Bool) (n : Nat) : List BusWord :=
  if j.poll.isSome then [⟨0, 0, 15⟩] else (j.beats.take n).map (busWord cb32 j.write)

/-- A cycle of a job opened (R155, R172 to R177, R183): a native lock is taken with it, CAS_N falls after
the setup, and the cycle moves the beats of one burst or one beat. -/
def State.openCycle (s : State) (g : Nat) (j : Job) (ceil : Bool) : State :=
  let takes : Bool := j.role == LockRole.acquire || j.role == LockRole.whole
  let first := (s.seg g).tenure.isNone
  let cb32 := s.on (SEG_CTL_MODE g) && j.width == 4 && first && j.poll.isNone
  let setup := if first && cb32 then 0 else 40 + s.stretch g
  let n := if cb32 then burstLen j.burst 4 j.beats else 1
  let s := match j.lock with
    | some (.native _) =>
      if first && takes then
        let w := match j.owner with
          | .host o => ((s.execOf o).bind (·.win)).getD 64
          | _ => 64
        let x := s.seg g
        let only := if j.role == LockRole.whole then some j.order else none
        let remote := match j.owner with
          | .host o => ((s.execOf o).bind (·.viaSpan)).isSome
          | _ => false
        (s.setSeg g { x with tenure := some ⟨j.ctx, s.clk + setup, only⟩ }).acquire
          (j.lock.getD (.native 0)) j.ctx w g remote
      else s
    | _ => s
  let x := s.seg g
  let cas := s.clk + setup
  let s := s.setSeg g { x with
    cycle := .job j.order s.clk cas cas n 0 ceil cb32 first, overheld := false,
    casLast := if first then max x.casLast cas else x.casLast }
  let s := if j.poll.isSome then s.bump (SEG_INT_CNT_POLLS g) else s
  let s := s.emit (.cycle g j.words.1 j.words.2 j.write cb32 first (j.pulses cb32 n))
  if cb32 && n == 1 then s.emit (.last g) else s

/-- A legacy master granted (R191): CBG_N falls after the release of the strobes. -/
def State.grantLm (s : State) (g : Nat) : State :=
  let x := s.seg g
  let s := s.setSeg g { x with cycle := .lmGrant (s.clk + 20), overheld := false }
  s.arm (.grant g) (20 + s.get (SEG_LM_GRANT_TMO g) * 1000)

/-- What is on the bus for the bridge: the job and the cycle's account. -/
structure BusBeat where
  job : Job
  granted : Nat
  cas : Nat
  beatAt : Nat
  left : Nat
  done : Nat
  ceil : Bool
  cb32 : Bool
  first : Bool
  deriving DecidableEq, Repr

/-- The bridge's cycle in progress on segment `g`. -/
def State.onBus (s : State) (g : Nat) : Option BusBeat :=
  match (s.seg g).cycle with
  | .job o gr cas at_ left done ceil cb32 first =>
    (s.job g o).map (fun j => ⟨j, gr, cas, at_, left, done, ceil, cb32, first⟩)
  | _ => none

/-- The least time from the start of the beat in progress to its end by a response (R173, R177, R183). -/
def State.beatMin (s : State) (g : Nat) (b : BusBeat) : Nat :=
  if 0 < b.done then 60
  else if b.cb32 then 180
  else (if b.first then 400 + 3 * s.stretch g else 440 + 4 * s.stretch g) +
    (if b.job.write then 0 else s.turn g)

/-- The start of the data pulse of the beat in progress, from the beat's start (R173, R177, R183). -/
def State.pulseAt (s : State) (g : Nat) (b : BusBeat) : Nat :=
  if 0 < b.done then 0 else if b.cb32 then 120 else s.beatMin g b - 200

/-- The timeout of the beat in progress from its start (R180, R190). -/
def State.beatTmo (s : State) (g : Nat) (b : BusBeat) : Nat :=
  if b.job.poll.isSome then s.get (SEG_POLL_TMO g) * 500
  else
    let t := s.get (SEG_TMO_TMO g) * 500
    if b.job.tmo = 0 then t else min t b.job.tmo

/-- The instant at which a response seen `ns` after the start of the beat ends it (R174, R177): not before
the phases allow, on a CB32 cycle at an edge, and none once the timeout has passed. -/
def State.respAt (s : State) (g : Nat) (b : BusBeat) (ns : Nat) : Option Nat :=
  let n := max (s.beatMin g b) ns
  let n := if b.cb32 then (n + 59) / 60 * 60 else n
  if s.beatTmo g b < n then none else some (b.beatAt + n)

/-- Time moves on to an instant, if it lies ahead. -/
def State.until_ (s : State) (at_ : Nat) : State := s.elapse (at_ - s.clk)

/-- A cycle has ended at an instant (R182, R296, R486): its bus time is charged and traced
with its beat's address `a`. `how` is 0
CACK_N, 1 CERR_N, 2 CRTY_N, 3 timeout; a disconnect is charged to the end of the last beat moved. P7, or C3 at an edge,
follows the cycle's end, and no P7 a read whose data pulse never started (R180). The answer is the job with its bus
time. -/
def State.closeCycle (s : State) (g : Nat) (b : BusBeat) (at_ how a : Nat) : State × Job :=
  let ns := (if how = 2 ∧ 0 < b.done then b.beatAt else at_) - b.cas
  let ends := if b.cb32 then b.cas + (at_ - b.cas + 59) / 60 * 60 + 60
    else if b.job.write || decide (b.beatAt + s.pulseAt g b ≤ at_) then at_ + 20 else at_
  let s := s.chargeBus b.job.ctx g ns
  let s := s.traceRec 5 (10 + g) [BitVec.ofNat 32 (a % 2 ^ 24 + b.job.spc * 2 ^ 24 + how * 2 ^ 26),
    BitVec.ofNat 32 (b.job.ctx + ofBool b.job.isCourier * 2 ^ 8), BitVec.ofNat 32 ns] 0
  let x := s.seg g
  let j : Job := { b.job with busNs := b.job.busNs + ns }
  ((s.setSeg g { x with cycle := .release ends b.cb32 b.job.write, overheld := false }).setJob g j, j)

/-! ## Keeper pulses (R184 to R186) -/

/-- A gap between keeper pulses recorded (R186). -/
def State.keeperGap (s : State) (g : Nat) : State :=
  let x := s.seg g
  let s := match x.keepLast with
    | none => s
    | some t =>
      let gap := (s.clk - t) / 1000
      let s := if s.get (SEG_KEEP_GAP_MAX_GAP g) < gap then s.put (SEG_KEEP_GAP_MAX_GAP g) (min 65535 gap)
        else s
      if 500000 < s.clk - t then s.segEvent g 12 0 else s
  let x := s.seg g
  s.setSeg g { x with keepLast := some s.clk }

/-- A keeper pulse issued (R184): setup, the null cycle, recovery; the next falls due PERIOD later. -/
def State.issueKeeper (s : State) (g : Nat) : State :=
  let s := s.elapse (40 + s.stretch g)
  let x := s.seg g
  let s := s.setSeg g { x with keepDue := false, keepCount := (x.keepCount + 1) % 128 }
  let s := ((s.keeperGap g).casFell g s.clk).emit
    (.keeper g (0xFE00 + 0x80 * ofBool s.side + x.keepCount % 128))
  let s := (s.disarm (.keepCut g)).arm (.keep g) (s.get (SEG_KEEP_PERIOD g) * 1000)
  (s.countBus g (160 + 2 * s.stretch g)).elapse (160 + 2 * s.stretch g + 40 + s.turn g)

/-- The bus has become free (R27, R185, R346): a commit that waits takes effect, and a keeper pulse that is
due goes first. -/
def State.busFree (s : State) (g : Nat) : State :=
  let x := s.seg g
  if x.cycle == .idle && x.tenure.isNone then
    let s := s.arbCommitted (1 + g)
    if x.keepDue && s.segIssues g then s.issueKeeper g else s
  else s

/-- The phases after a cycle whose response lines are high pass (R173, R177, R183): P7 and P8, or C3 and C4, of which
P8 and C4 only once CAS_N goes high. Then the bus is idle. -/
def State.recover (s : State) (g : Nat) : State :=
  let x := s.seg g
  match x.cycle with
  | .release ends cb32 write =>
    let rest := if x.tenure.isSome then 0
      else if cb32 then (if write then 60 else 120) + s.turn g else 40 + s.turn g
    let s := (s.until_ ends).elapse rest
    (s.setSeg g { x with cycle := .idle }).busFree g
  | _ => s

/-! ## Beats -/

/-- The lanes of the data taken at a read beat (R147): on a CB32 cycle 32 bits, else 16. -/
def laneByte (cb32 : Bool) (d : Word) (c : Nat) : Byte :=
  if cb32 then BitVec.ofNat 8 (bits d (24 - 8 * (c % 4)) 8)
  else if c % 2 = 0 then BitVec.ofNat 8 (bits d 8 8) else BitVec.ofNat 8 (bits d 0 8)

/-- The parts of a host read that its beats now cover go out (R150). -/
def State.sendReady : Nat → State → Job → State
  | 0, s, _ => s
  | fuel + 1, s, j =>
    match j.owner with
    | .host o =>
      match s.execOf o with
      | none => s
      | some e =>
        if !j.write && j.rmw == .none && decide (e.sent + 64 ≤ j.readBytes.length) &&
            decide (e.sent + 64 < j.len) then
          State.sendReady fuel (s.partExec e ((j.readBytes.drop e.sent).take 64)) j
        else s
    | _ => s

/-- Whether a span port may carry forwarded requests (R353). -/
def State.spanUsable (s : State) (q : Nat) : Bool :=
  decide (q < s.member.spans) && s.get (SPN_PORT_STATE q) == 2 && !s.on (SPN_PORT_SILENT q)

/-- The span port of context `n`'s forwarded requests, if the partner can be reached (R353). -/
def State.spanFor (s : State) (n : Nat) : Option Nat :=
  let q := n % 2
  if !s.paired then none
  else if s.spanUsable q then some q
  else if s.spanUsable (1 - q) then some (1 - q)
  else none

/-- The Ledger as a host address (R136): where a forwarded Ledger write of the device itself is addressed. -/
def ledgerHost (o : Nat) : Nat := 0x1000000 + o

/-- Bytes at rising offsets as runs of consecutive ones. -/
def runsOf : List (Nat × Byte) → List (Nat × List Byte)
  | [] => []
  | (a, b) :: t =>
    match runsOf t with
    | [] => [(a, [b])]
    | (c, bs) :: r => if c = a + 1 then (a, b :: bs) :: r else (a, [b]) :: (c, bs) :: r

/-- A Ledger write of the device itself, of context `n` at offset `o`, ends with a failure that is reported (R152). -/
def State.ledgerFail (s : State) (n st o len : Nat) : State :=
  let a := ledgerHost o
  s.bridgeRecord ⟨s.get (CTX_QUE_NQ n), n, 1,
    [BitVec.ofNat 32 (1 + st * 2 ^ 8 + len % 8 * 2 ^ 12 + n * 2 ^ 16), 0, BitVec.ofNat 32 a, BitVec.ofNat 32 (a / 2 ^ 32)],
    true, none⟩

/-- Bytes that the device itself writes for context `n` into the partner's Ledger, or into an output image of which the
partner is home (R196, R214, R222): forwarded as posted writes, one for each run of consecutive bytes, the last with the
mark; while the partner cannot be reached the write is reported with UN. -/
def State.ledgerAway (s : State) (n : Nat) (ws : List (Nat × Byte)) (mark : Option SpanMark := none) : State :=
  let rs := runsOf (ws.foldl (fun m e => mins m e.1 e.2) [])
  match s.spanFor n with
  | none => s.ledgerFail n stUN ((rs.map (·.1)).headD 0) 4
  | some q =>
    (List.range rs.length).foldl (fun (s : State) k =>
      let r := rs.getD k (0, [])
      s.spanPut q 0 n
        ⟨mkHdr tMWR 0 (s.isVoted n) n 0 0 (r.2.length - 1) 0 (ledgerHost r.1) 0 0, r.2⟩ none
        (if k + 1 = rs.length then mark else none)) s

/-- The bytes of a courier read's beat land in its buffer (R207, R222, R273, R274), or the status with which the Ledger
ends the read. -/
def State.landBeat (s : State) (j : Job) (got : List (Nat × Byte)) : State × Option Nat :=
  let put := got.map (fun cb => (j.bufAt + j.index cb.1, cb.2))
  if j.write || j.buf = 0 then (s, none)
  else if j.buf = 1 then
    (put.foldl (fun s ab => s.dmemWrite (s.dataAt j.ctx ab.1) [ab.2]) s, none)
  else
    let r := s.ledgerWrite 0 j.ctx put
    match r.2 with
    | .ok => (r.1, none)
    | .refused => (r.1, some stUR)
    | .te => (r.1, some stTE)
    | .un => (r.1, some stUN)
    | .forward => if (s.spanFor j.ctx).isSome then (s.ledgerAway j.ctx put, none) else (s, some stUN)

/-- The write beats of a read-modify-write from what it has read (R151, R277). -/
def Job.backBeats (j : Job) : List Beat :=
  let old := j.allBytes
  match j.rmw with
  | .none => []
  | .atomic op d => splitBeats j.base j.xor j.width j.off (atomicNew op old.length old d)
  | .merge m v =>
    let new := (leNat old).land (2 ^ 32 - 1 - m) + (v.land m)
    splitBeats j.base j.xor j.width j.off (leBytes j.len new)

/-- Whether the lock that a job holds or ends has been lost to its timeout (R156). -/
def State.lockLost (s : State) (j : Job) : Bool :=
  ((j.role == .whole && (decide (0 < j.moved) || j.back)) || j.role == .release) && match j.lock with
    | some l => !(s.lockHeld l).any (fun h => h.ctx == j.ctx)
    | none => false

/-- A higher class than the holder's asks for a bus that a burst holds (R342). -/
def State.preempts (s : State) (g : Nat) (b : BusBeat) : Bool :=
  s.arbGet (ARB_CFG_PREEMPT (1 + g)) == 1 && !b.ceil &&
    (s.segOffers g).any (fun c => decide (c.cls < s.noteOf b.job.ctx) &&
      !((s.arb (1 + g)).account c.who).waiting && c.who != b.job.ctx &&
      !(c.cls == 0 && ((s.arb (1 + g)).account c.who).masked))

/-- A beat has moved at an instant: the next beat of the burst follows, or the cycle ends; a job without
beats left goes on to its write beats or ends with SC. -/
def State.beatMoved (s : State) (g : Nat) (b : BusBeat) (at_ a : Nat) (j : Job) : State :=
  let s := s.setJob g j
  if 1 < b.left then
    let left := b.left - 1
    let cut := 1 < left && s.preempts g b
    let s := if cut then s.bump (ARB_CNT0_PREEMPT (1 + g)) else s
    let x := s.seg g
    let left := if cut then 1 else left
    let s := s.setSeg g { x with
      cycle := .job j.order b.granted b.cas at_ left (b.done + 1) b.ceil b.cb32 b.first }
    if left = 1 then s.emit (.last g) else s
  else
    let c := s.closeCycle g { b with job := j } at_ 0 a
    let s := c.1
    let j := c.2
    if s.lockLost j then (s.stopJob g j stLK 1).busFree g
    else if !j.beats.isEmpty then s.busFree g
    else if j.rmw != .none && !j.back then
      (s.setJob g { j with beats := j.backBeats, back := true, write := true, retries := 0 }).busFree g
    else (s.endJob g j stSC 0 0 1).busFree g

/-- Whether a job is a locked courier cycle that has not read yet. -/
def Job.cylReads (j : Job) : Bool :=
  match j.rmw with
  | .merge _ _ => !j.back
  | _ => false

/-- The job after a beat: the beats left, the bytes read added to those it has. The retries of a CYL that reads are those
of its whole read (R277). -/
def Job.afterBeat (j : Job) (rest : List Beat) (got : List (Nat × Byte)) : Job :=
  { j with beats := rest, moved := j.moved + 1, retries := if j.cylReads then j.retries else 0,
           got := got.foldl (fun m cb => mins m cb.1 cb.2) j.got }

/-- The bytes that a read beat takes from CAD (R147). -/
def State.beatBytes (s : State) (g : Nat) (b : BusBeat) (x : Beat) (d : Word) : List (Nat × Byte) :=
  if b.job.write then []
  else x.lanes.map (fun l => (l.1, laneByte (b.job.width == 4 && s.on (SEG_CTL_MODE g)) d l.1))

/-- A beat answered with CACK_N at an instant: its bytes land, and the burst, the job or the cycle goes on. -/
def State.beatTaken (s : State) (g : Nat) (b : BusBeat) (at_ : Nat) (x : Beat) (rest : List Beat) (d : Word) : State :=
  let got := s.beatBytes g b x d
  let l := s.landBeat b.job got
  let j := b.job.afterBeat rest got
  match l.2 with
  | none => (l.1.sendReady 5 j).beatMoved g b at_ x.addr j
  | some st =>
    let c := (l.1.setJob g j).closeCycle g { b with job := j } at_ 0 x.addr
    (c.1.endJob g c.2 st 0 x.addr 1).busFree g

/-- The job of a poll with the word on CAD. -/
def Job.polled (j : Job) (d : Word) : Job :=
  { j with got := [(0, BitVec.ofNat 8 (bits d 0 8)), (1, BitVec.ofNat 8 (bits d 8 8))] }

/-- A poll answered with CACK_N at an instant (R190). -/
def State.pollTaken (s : State) (g : Nat) (b : BusBeat) (at_ : Nat) (d : Word) : State :=
  let c := s.closeCycle g { b with job := b.job.polled d } at_ 0 (b.job.poll.getD 0)
  (c.1.endJob g c.2 stSC 0 0 1).busFree g

/-- The data on CAD: two cards that answer one address leave the read data undefined (R529). -/
def State.busData (s : State) (b : BusBeat) (d : Word) (clash : Bool) : Word × State :=
  if clash && !b.job.write then s.free else (d, s)

/-- A response line has been recognised low: it may stay low for 10 µs (R175). -/
def State.rspSeen (s : State) (g at_ : Nat) : State := s.armAt (.rspLow g) (at_ + 10000)

/-- CACK_N recognised for the open data pulse `ns` after the beat's start, with CAD as `d` (R149, R174). -/
def State.cack (s : State) (g ns : Nat) (d : Word) (clash : Bool) : State :=
  match s.onBus g with
  | none => s
  | some b =>
    match s.respAt g b ns with
    | none => s
    | some at_ =>
      let f := ((s.until_ at_).rspSeen g (b.beatAt + ns)).busData b d clash
      if b.job.poll.isSome then f.2.pollTaken g b at_ f.1
      else
        match b.job.beats with
        | [] => f.2
        | x :: rest => f.2.beatTaken g b at_ x rest f.1

/-- A beat has failed at an instant (R149): counted, raised and captured by `cause` (1 TIMEOUT, 2 CERR,
3 RETRY_EXH), and the request ends; after a timeout no response is waited for. -/
def State.beatFails (s : State) (g : Nat) (b : BusBeat) (at_ how status cause : Nat) : State :=
  let p := b.job.place
  let c := s.closeCycle g b at_ how p.2
  let s := c.1
  let poll := b.job.poll.isSome && how == 3
  let s := if poll then (s.bump (SEG_INT_CNT_SPURIOUS g)).raise (135 + 16 * g) b.job.ctx (detail g 0 (b.job.poll.getD 0))
    else
      let s := s.bump (if cause = 1 then SEG_ERR_CNT0_TIMEOUT g else if cause = 2 then SEG_ERR_CNT0_CERR g
        else SEG_ERR_CNT1_RETRY_EXH g)
      let s := s.segEvent g (cause + 1) b.job.ctx
      s.segCapture g cause b.job.ctx b.job.isCourier p.2 b.job.spc
  let s := s.endJob g c.2 status p.1 p.2 1
  if how = 3 ∧ !(s.seg g).rspLow then s.recover g else s

/-- CERR_N recognised (R149). -/
def State.cerr (s : State) (g ns : Nat) : State :=
  match s.onBus g with
  | none => s
  | some b =>
    match s.respAt g b ns with
    | none => s
    | some at_ => (((s.until_ at_).rspSeen g (b.beatAt + ns)).beatFails g b at_ 1 stTE 2)

/-- A beat's account with one more CRTY_N. -/
def BusBeat.retried (b : BusBeat) : BusBeat :=
  { b with job := { b.job with answers := b.job.answers + 1, retries := b.job.retries + 1 } }

/-- A locked courier cycle starts again with its read (R277). -/
def State.cylAgain (s : State) (g : Nat) (j : Job) : State :=
  let x := s.seg g
  ((s.setSeg g { x with tenure := none }).releaseLock (j.lock.getD (.native 0)) j.ctx).setJob g
    { j with got := [], moved := 0, beats := splitBeats j.base j.xor j.width j.off (List.replicate j.len 0) }

/-- The job waits for its retry (R181). -/
def State.retryWait (s : State) (g : Nat) (j : Job) : State :=
  let d := s.get (SEG_RETRY_DELAY g)
  if d = 0 then s.setJob g { j with wait := .ready }
  else (s.setJob g { j with wait := .retryDelay }).arm (.retry g j.order) (d * 1000)

/-- CRTY_N recognised (R149, R179, R181, R277): the beat is retried after the delay, or ends with RT. -/
def State.crty (s : State) (g ns : Nat) : State :=
  match s.onBus g with
  | none => s
  | some b =>
    match s.respAt g b ns with
    | none => s
    | some at_ =>
      let s := ((s.until_ at_).rspSeen g (b.beatAt + ns)).bump (SEG_ERR_CNT1_RETRY g)
      let b := b.retried
      if b.job.retryMax < b.job.retries then s.beatFails g b at_ 2 stRT 3
      else
        let c := s.closeCycle g b at_ 2 b.job.place.2
        let s := if c.2.cylReads then c.1.cylAgain g c.2 else c.1
        (s.retryWait g ((s.job g c.2.order).getD c.2)).busFree g

/-- The response lines recognised in one sample, `ns` after the beat's start (R174): CERR_N goes before CRTY_N, and
CRTY_N before CACK_N. -/
def State.response (s : State) (g ns : Nat) (ack rty err : Bool) (d : Word) (clash : Bool) : State :=
  if err then s.cerr g ns else if rty then s.crty g ns else if ack then s.cack g ns d clash else s

/-- No response within the beat's timeout (R180, R190). -/
def State.beatTimeout (s : State) (g : Nat) (poll : Bool) : State :=
  match s.onBus g with
  | none => s
  | some b =>
    if b.job.poll.isSome != poll then s
    else
      let at_ := b.beatAt + s.beatTmo g b
      (s.until_ at_).beatFails g b at_ 3 stTO 1

/-- Every response line of a segment is high (R173, R175): what follows a cycle passes, and the bus is free. -/
def State.respRelease (s : State) (g : Nat) : State :=
  let x := s.seg g
  let t := ((s.setSeg g { x with rspLow := false }).disarm (.rspLow g)).put (SEG_STAT_RSP_STUCK g) 0
  if x.cycle.isRelease then t.recover g
  else if x.rspLow then t.busFree g
  else s

/-! ## Locks that end by time (R156, R185, R344) -/

/-- In a burst the next beat becomes the last (R185, R342, R344). -/
def Cycle.shortened (c : Cycle) : Cycle :=
  match c with
  | .job o gr cas at_ left done ceil cb f => .job o gr cas at_ (min 2 left) done ceil cb f
  | c => c

/-- The segment whose native lock a name is. -/
def nativeSeg (l : LockName) : Option Nat :=
  match l with
  | .native g => some g.val
  | .sem _ => none

/-- A lock ends by timeout (R156): its unlocking write and the sequence it protected end with LK, at once if they wait,
else after the beat in progress. A held bus is let go. -/
def State.lockEnds (s : State) (l : LockName) : State :=
  match s.lockHeld l with
  | none => s
  | some h =>
    let idle := ((nativeSeg l).map s.holdsIdle).getD false
    let s := (s.lockTimedOut l).tenureOver ((nativeSeg l).getD 0) idle
    (List.range 4).foldl (fun s g =>
      (s.seg g).jobs.foldl (fun s j =>
        if j.lock == some l && j.ctx == h.ctx && s.lockLost j then
          if (s.seg g).busy == some j.order then
            let x := s.seg g
            s.setSeg g { x with cycle := x.cycle.shortened }
          else s.stopJob g j stLK 1
        else s) s) s

/-- A native tenure is cut (R185, R199, R344). -/
def State.cutTenure (s : State) (g : Nat) : State :=
  match (s.seg g).tenure with
  | none => s
  | some _ =>
    s.lockEnds (.native (if g = 0 then 0 else if g = 1 then 1 else if g = 2 then 2 else 3))

/-! ## Legacy masters and inbound areas -/

/-- A legacy master's watchdog answer (R192): CERR_N for 100 ns. -/
def State.lmWatchdog (s : State) (g : Nat) : State :=
  match (s.seg g).cycle with
  | .lmTenure _ _ spc addr _ =>
    let s := ((s.emit (.respond g 1 [])).bump (SEG_MISC_CNT_LM_WATCHDOG g)).segEvent g 11
      (s.get (SEG_CTL_LM_CTX g))
    s.segCapture g 4 (s.get (SEG_CTL_LM_CTX g)) false addr spc
  | _ => s

/-- The inbound area that a card address falls in (R193): the lowest-numbered. -/
def State.inbArea (s : State) (g a : Nat) : Option Nat :=
  inbAreas.find? (fun i =>
    let k := 2 ^ s.get (SEG_INB_CFG_LOG2 g i)
    s.on (SEG_INB_CFG_EN g i) && a / k == s.get (SEG_INB_BASE_BASE g i) * 4096 / k)

/-- The Ledger offset of a card address in area `i` (R193). -/
def State.inbOffset (s : State) (g i a : Nat) : Nat :=
  s.get (SEG_INB_LBASE_LBASE g i) * 4096 + a % 2 ^ s.get (SEG_INB_CFG_LOG2 g i)

/-- The bridge as slave refuses an inbound cycle (R194, R196, R203). -/
def State.inbRefuse (s : State) (g : Nat) : State := s.emit (.respond g 1 [])

/-- Inbound data at a card address that the lost Span stops (R196): counted, raised and captured. INB_ERR has no
register, and its count stands in the segment's controller. -/
def State.inbLost (s : State) (g addr : Nat) : State :=
  let x := s.seg g
  ((s.setSeg g { x with inbErrs := x.inbErrs + 1 }).segEvent g 9 (s.get (SEG_CTL_LM_CTX g))).segCapture g 5
    (s.get (SEG_CTL_LM_CTX g)) false addr 0

/-- An inbound access that the lost Span prevents (R196). -/
def State.inbError (s : State) (g addr : Nat) : State := (s.inbRefuse g).inbLost g addr

/-- An entry accepted into the inbound posted buffer (R194). -/
def State.inbAccept (s : State) (g : Nat) (e : InbEntry) : State :=
  let x := s.seg g
  (s.setSeg g { x with inb := x.inb ++ [e], mark := (x.mark + 1) % 65536 }).emit (.respond g 0 [])

/-- What an inbound cycle at address `a` for the bytes `cs` meets: nothing, a refusal, or the area and
whether the partner holds its Ledger. Every byte maps by R193, and one beyond the Ledger refuses the cycle (R203). -/
def State.inbTarget (s : State) (g a : Nat) (cs : List Nat) (write : Bool) : Option (Option (Nat × Bool)) :=
  match (s.seg g).cycle, s.inbArea g a with
  | .lmTenure _ _ 0 _ _, some i =>
    let partner := s.on (SEG_INB_CFG_PARTNER g i) && decide (0 < s.member.spans)
    if !s.owns g then none
    else if write && s.on (SEG_INB_CFG_NOWRITE g i) then some none
    else if cs.any (fun c => decide (s.member.ledgerBytes ≤ s.inbOffset g i c)) then some none
    else some (some (i, partner))
  | _, _ => none

/-- An inbound write of bytes at card addresses (R194). -/
def State.inbWrite (s : State) (g : Nat) (bs : List (Nat × Byte)) : State :=
  match bs with
  | [] => s
  | (a, _) :: _ =>
    match s.inbTarget g a (bs.map (·.1)) true with
    | none => s
    | some none => s.inbRefuse g
    | some (some (i, partner)) =>
      if partner && (s.spanFor (s.get (SEG_CTL_LM_CTX g))).isNone then s.inbError g a
      else
        let e : InbEntry := ⟨s.inbOffset g i a, a, partner, bs.map (fun b => (s.inbOffset g i b.1, b.2))⟩
        let x := s.seg g
        if x.inb.length < 16 then s.inbAccept g e
        else (s.setSeg g { x with inbWait := .write e }).arm (.inb g) 2000

/-- A request of the bridge for the partner's Ledger (R196). -/
def inbPkt (ty n o len : Nat) (d : List Byte) : Pkt :=
  ⟨mkHdr ty (if ty = tMWR then 0 else 1) false n 0 0 (len - 1) 0 (0x1000000 + o) 0 0, d⟩

/-- The bridge answers a read of the tenure in progress, and drives CAD for it (R167). -/
def Cycle.reading (c : Cycle) : Cycle :=
  match c with
  | .lmTenure gr cas spc addr _ => .lmTenure gr cas spc addr true
  | c => c

/-- An inbound read waits for its bytes (R195). -/
def State.inbReadWaits (s : State) (g a : Nat) (cs : List Nat) (partner : Bool) : State :=
  let x := s.seg g
  (s.setSeg g { x with inbWait := .read a cs partner }).arm (.inb g) 2000

/-- A prefetch slot taken for an inbound read (R195). -/
def State.inbSlot (s : State) (g a : Nat) (cs : List Nat) (partner : Bool) : State :=
  let x := s.seg g
  { s with order := s.order + 1 }.setSeg g { x with prefetch := x.prefetch ++ [Prefetch.mk s.order a cs [] false partner] }

/-- An inbound read of enabled bytes at card addresses (R195): answered from a prefetch slot, or a fetch
starts. -/
def State.inbRead (s : State) (g : Nat) (cs : List Nat) : State :=
  match cs with
  | [] => s
  | a :: _ =>
    match s.inbTarget g a cs false with
    | none => s
    | some none => s.inbRefuse g
    | some (some (i, partner)) =>
      let x := s.seg g
      let s := s.setSeg g { x with cycle := x.cycle.reading }
      let n := s.get (SEG_CTL_LM_CTX g)
      match (s.seg g).prefetch.find? (fun p => p.addr == a && p.lanes == cs) with
      | some p => if p.ready then s.emit (.respond g 0 p.data) else s.inbReadWaits g a cs partner
      | none =>
        if partner && (s.spanFor n).isNone then s.inbError g a
        else if 4 ≤ (s.seg g).prefetch.length then s.inbReadWaits g a cs partner
        else
          let u := (s.inbReadWaits g a cs partner).inbSlot g a cs partner
          if partner then
            let lo := cs.foldl min a
            let hi := cs.foldl max a
            u.addExec (.inbound g s.order) (.span false) (inbPkt tMRD n (s.inbOffset g i lo) (hi + 1 - lo) [])
              none (10 + g) []
          else u

/-- A fetch from the device's own Ledger ends (R195, R207). -/
def State.inbFetch (s : State) (g id : Nat) : State :=
  match (s.seg g).prefetch.find? (fun p => p.id == id && !p.ready && !p.partner) with
  | none => s
  | some p =>
    match s.inbArea g p.addr with
    | none => s.inbFill g id [] false
    | some i =>
      let r := s.ledgerGather 2 (s.get (SEG_CTL_LM_CTX g)) (p.lanes.map (s.inbOffset g i))
      r.1.inbFill g id r.2.1 (!r.2.2)

/-- 2 µs have passed on an inbound cycle that is not served (R194, R195): CRTY_N. -/
def State.inbRetry (s : State) (g : Nat) : State :=
  match s.expire (.inb g) with
  | none => s
  | some s =>
    let x := s.seg g
    let s := (s.setSeg g { x with inbWait := .none }).emit (.respond g 2 [])
    (s.bump (SEG_LM_CNT_INB_RETRY g)).segEvent g 8 (s.get (SEG_CTL_LM_CTX g))

/-- Inbound posted data handed to the Span: notices that depend on it wait until it has arrived (R17, R196, R222). -/
def State.inbAway (s : State) (g : Nat) (e : InbEntry) : State :=
  let y := s.seg g
  (s.setSeg g { y with away := y.away ++ [y.drained] }).ledgerAway (s.get (SEG_CTL_LM_CTX g)) e.bytes
    (some (.inbound g y.drained))

/-- The head of the inbound posted buffer reaches its target (R194, R196, R212, R220, R222). -/
def State.inbDrain (s : State) (g : Nat) : State :=
  let x := s.seg g
  match x.inb with
  | [] => s
  | e :: rest =>
    let n := s.get (SEG_CTL_LM_CTX g)
    let s := s.setSeg g { x with inb := rest, drained := (x.drained + 1) % 65536 }
    let s :=
      if e.partner then
        match s.spanFor n with
        | none => s.inbLost g e.card
        | some _ => s.inbAway g e
      else
        let r := s.ledgerWrite 2 n e.bytes
        match r.2 with
        | .ok => r.1
        | .te => r.1.bump LDG_CNT_INB_DROP
        | .refused => r.1.ledgerFail n stUR e.addr 4
        | .un => r.1.ledgerFail n stUN e.addr 4
        | .forward => if (s.spanFor n).isSome then s.inbAway g e else s.ledgerFail n stUN e.addr 4
    match (s.seg g).inbWait with
    | .write e' =>
      let y := s.seg g
      ((s.setSeg g { y with inbWait := .none }).disarm (.inb g)).inbAccept g e'
    | _ => s

/-- The end of a legacy master's tenure (R191): its bus time runs from CBG_N falling to CAS_N rising. -/
def State.lmEnd (s : State) (g granted : Nat) : State :=
  let s := s.chargeBus (s.get (SEG_CTL_LM_CTX g)) g (s.clk - granted)
  let x := s.seg g
  let s := (((s.setSeg g { x with cycle := .idle, inbWait := .none, overheld := false }).disarm
    (.tenure g)).disarm (.inb g)).elapse 40
  s.busFree g

/-! ## States of a segment -/

/-- The waiting requests of a segment end (R199, R200, R363): a request that has moved none of its beats is
handed on if `hand` (its job is dropped, so that it resolves anew), else it ends with AB; courier cycles
end with `st`. -/
def State.clearJobs (s : State) (g : Nat) (hand : Bool) (st : Nat) : State :=
  (s.seg g).jobs.foldl (fun s j =>
    if (s.seg g).busy == some j.order then s
    else
      match j.owner with
      | .host o =>
        if hand && j.moved == 0 && !j.back then
          let s := (s.dropJob g j.order).retire g o
          match s.execOf o with
          | some e => s.setExec { e with stage := .waiting }
          | none => s
        else s.stopJob g j stAB 1
      | .recovery _ => s.stopJob g j stAB 1
      | _ => s.stopJob g j st 1) s

/-- The segment's interrupt items that wait for a credit are no longer queued (R200). -/
def State.dropHeld (s : State) (g : Nat) : State :=
  let x := s.seg g
  s.setSeg g { x with held := [] }

/-- CRST_N goes high (R201). -/
def State.cardResetEnds (s : State) (g : Nat) : State :=
  if s.on (SEG_STAT_CRST_ACTIVE g) then
    (((s.disarm (.cardReset g)).put (SEG_STAT_CRST_ACTIVE g) 0).put (SEG_CMD_CARD_RESET g) 0).segEvent g 13 0
  else s

/-- A device starts to give a segment up (R199). -/
def State.giveUp (s : State) (g : Nat) : State :=
  let x := s.seg g
  (s.setSeg g { x with releasing := true, takePending := false }).cutTenure g

/-- A device is to become owner of a segment (R198), once the bus is idle. -/
def State.becomeOwner (s : State) (g : Nat) : State :=
  let x := s.seg g
  s.setSeg g { x with takePending := true, releasing := false }

/-- The drivers are released at an idle bus (R199): COE_N[1] goes high, a card reset pulse ends, and a commit that waits
takes effect (R346). -/
def State.dropDrivers (s : State) (g : Nat) : State :=
  let x := s.seg g
  let s := s.setSeg g { x with
    releasing := false, takePending := false, keepDue := false, keepLast := none, cycle := .idle, tenure := none }
  (((s.disarm (.keep g)).disarm (.keepCut g)).cardResetEnds g).arbCommitted (1 + g)

end Sys2Proof.Machine
end

