-- ==== Sys2Proof/Machine/SpanPair.lean ====
section
/-! DEFINITION. The state of the pair (R353, R356, R357, R366, R371) and the leases that the Span registers
show (R358, R362). -/

namespace Sys2Proof.Machine

/-- LSTATE of a segment (R375): 1 HELD as owner, 4 COLD, 2 WATCH, 3 EXPIRED, 0 NONE. -/
def State.leaseState (s : State) (g : Nat) : Nat :=
  if s.get (SEG_STAT_ROLE g) = 2 then 1
  else if s.segState g == 1 && !s.paired && (s.dueAt (.cold g)).isSome then 4
  else if (s.dueAt (.lease g)).isSome then 2
  else if (mfind s.span.renewed g).isSome then 3
  else 0

/-- The unretired entries that JRN_OPEN shows (R375): sent as owner, or held as standby. -/
def State.journalOpen (s : State) (g : Nat) : Nat :=
  if s.get (SEG_STAT_ROLE g) = 2 then (s.sentOf g).length else (mget s.span.held g []).length

/-- LSTATE and JRN_OPEN of a segment shown as they are by now (R375). -/
def State.showLease (s : State) (g : Nat) : State :=
  (s.put (SPN_SEG_LSTATE g) (s.leaseState g)).put (SPN_SEG_JRN_OPEN g) (s.journalOpen g)

/-- The silence that a cold start waits for, in ns (R362). -/
def State.coldNs (s : State) : Nat := (if s.side then 2 else 4) * s.get SPN_LEASE_LEASE * 1000000

/-- The silence of a segment in STARTING counts anew (R362): it counts while the device is PAIRED too, when R359 decides
who owns the segment. -/
def State.startCold (s : State) (g : Nat) : State := (s.arm (.cold g) s.coldNs).showLease g

/-- Inbound posted data that a segment has handed to the Span is there no more: it has arrived, or it is lost (R17). -/
def State.inbArrived (s : State) (g n : Nat) : State :=
  let x := s.seg g
  s.setSeg g { x with away := x.away.filter (· != n) }

/-- Packets of the Span that will not be acknowledged: inbound data among them is lost, and no notice waits for it. -/
def State.marksLost (s : State) (ms : List SpanMark) : State :=
  ms.foldl (fun s m => match m with
    | .inbound g n => s.inbArrived g n
    | .write _ => s) s

/-- The marks of the packets that wait for span port `q`. -/
def State.waitingMarks (s : State) (q : Nat) : List SpanMark := (mget s.span.queue q []).filterMap (·.mark)

/-- Requests forwarded and not yet completed, for which `f` holds, end with AB, posted ones without a report; those not
yet forwarded end with UN (R366). -/
def State.forwardLost (s : State) (f : Nat → Bool) : State :=
  s.execs.foldl (fun s e =>
    match e.stage with
    | .forwarded q _ => if f q then s.failExec e stAB else s
    | .sent q => if f q then s.endExec e stSC 0 e.taddr 1 [] else s
    | .spanWait q => if f q then s.failExec e stUN else s
    | _ => s) s

/-- The partner's mark in SPN_CMD and the account of a handover that is given up. -/
def State.handoverGone (s : State) (g : Nat) : State :=
  let v := s.get SPN_CMD_HANDOVER
  s.put SPN_CMD_HANDOVER (if bitAt v g then v - 2 ^ g else v)

/-- A handover that has not released its bus ends with the pair: the device goes on as owner. -/
def State.handoverStop (s : State) : State :=
  let gs := s.span.handover
  let s := { s with span := { s.span with handover := [] } }
  gs.foldl (fun s g =>
    let x := s.seg g
    ((s.setSeg g { x with releasing := false }).handoverGone g).busFree g) s

/-- The requests that a segment holds for want of a journal entry go on without one (R371). -/
def State.journalless (s : State) (g : Nat) : State :=
  let x := s.seg g
  s.setSeg g { x with jobs := x.jobs.map (fun (j : Job) =>
    if j.wait == .journal && !(s.sentOf g).any (fun e => j.owner == .host e.order) then { j with wait := .ready } else j) }

/-- The device leaves PAIRED (R366, R371); a segment still in STARTING waits by R362 (DEDUCED, log entry 145). -/
def State.leavePaired (s : State) : State :=
  let s := (s.forwardLost (fun _ => true)).marksLost (s.waitingMarks 0 ++ s.waitingMarks 1)
  let s := { s with span := { s.span with queue := [] } }.handoverStop
  (List.range 4).foldl (fun s g => (s.journalless g).showLease g) s

/-- Requests that wait for a journal acknowledgement go on without it (R371). -/
def State.journalOff (s : State) : State :=
  (List.range 4).foldl (fun s g =>
    let x := s.seg g
    s.setSeg g { x with jobs := x.jobs.map (fun (j : Job) =>
      if j.wait == .journal then { j with wait := .ready } else j) }) s

/-- Every unretired journal entry sent again, and the full mirror asked for (R353, R357). -/
def State.mirrorAgain (s : State) : State :=
  let s := (List.range 4).foldl (fun s g => (s.sentOf g).foldl (fun s e => s.sendJournal g e) s) s
  s.imagesOn.foldl (fun s i =>
    let x := s.image i
    s.setImage i { x with full := true }) s

/-- Entry to PAIRED (R357, R367): journal copies and marks discarded, journal numbers from 0. -/
def State.enterPaired (s : State) : State :=
  let s := { s with span := { s.span with held := [], marks := [] } }
  let s := (List.range 4).foldl (fun s g =>
    let es := s.sentOf g
    let es := (List.range es.length).map (fun i => { es.getD i default with jseq := i })
    let s := { s with span := { s.span with nextJ := mput s.span.nextJ g (es.length % 65536) 0 } }
    (s.setSent g es).put (SPN_SEG_OPEN_TAIL g) 0) s
  let s := (List.range 4).foldl (fun s g => s.showLease g) s
  (s.raise 107 0 0).mirrorAgain

/-- The first condition of R357 that the latest heartbeat fails: 1 NOT_HEARD, 2 SIDE, 3 EPOCH; 0 for none. -/
def State.pairCause (s : State) : Nat :=
  let e := s.get SPN_STAT_PARTNER_EPOCH
  if !s.span.known then 0
  else if !s.span.heard then 1
  else if s.span.side == s.side then 2
  else if e < s.get BOOT_RANGE_LOW || decide (s.get BOOT_RANGE_HIGH < e) then 3
  else 0

/-- SPN_STAT.MIRROR_PORT follows the ports (R353). -/
def State.mirrorCheck (s : State) : State :=
  if s.mirrorPort = s.get SPN_STAT_MIRROR_PORT then s
  else
    let s := s.put SPN_STAT_MIRROR_PORT s.mirrorPort
    if s.paired then s.mirrorAgain else s

/-- The state of the pair looked at again (R356, R357). -/
def State.pairEval (s : State) : State :=
  if s.member.spans = 0 then s
  else
    let alone := (List.range s.member.spans).all (fun q => s.on (SPN_PORT_SILENT q))
    let cause := s.pairCause
    let new := if alone then 0 else if s.span.known && cause == 0 then 2 else 1
    let old := s.get SPN_STAT_PAIR
    let changed := s.get SPN_STAT_CAUSE != cause && decide (2 ≤ cause)
    let s := (s.put SPN_STAT_CAUSE cause).put SPN_STAT_PAIR new
    let s := if changed then s.raise 108 0 0 else s
    let s := if new = old then s
      else if new = 2 then s.enterPaired
      else
        let s := if old = 2 then s.leavePaired else s
        if new = 0 then ((s.bump SPN_CNT0_LOST).raise 106 0 0).journalOff else s
    s.mirrorCheck

/-- A span port that is not ON is SILENT (R356); entry to SILENT is raised. -/
def State.portSilent (s : State) (q : Nat) : State :=
  if s.on (SPN_PORT_SILENT q) then s
  else ((s.put (SPN_PORT_SILENT q) 1).raise 105 0 (detail q 0 0)).pairEval

/-- A span port leaves ON (R356, R366): what it carried is lost. -/
def State.spanPortLost (s : State) (q : Nat) : State :=
  let s := (s.forwardLost (fun r => r == q)).marksLost (s.waitingMarks q)
  let s := { s with span := { s.span with queue := mdel s.span.queue q } }
  (((s.disarm (.silent (3 + q))).disarm (.beat (3 + q))).disarm (.miss (3 + q))).portSilent q

end Sys2Proof.Machine
end

