-- ==== Sys2Proof/Machine/Links.lean ====
section
/-! DEFINITION. Lanes and the link layer (R63 to R97): training, flits and control blocks on lanes, acknowledgement and
replay, retrains, electrical idle, and what a link that goes down takes with it; the states of host and
span ports (R60, R351, R445). -/

namespace Sys2Proof.Machine

/-- The port of lane `k` (R63). -/
def lanePort (k : Nat) : Nat := k / 2

/-- A field of both lanes of a port set. -/
def State.putLanes (s : State) (p : Nat) (f : Nat → FRef) (v : Nat) : State :=
  (s.put (f (2 * p)) v).put (f (2 * p + 1)) v

/-- Whether a field of both lanes of a port holds a value. -/
def State.lanesAre (s : State) (p : Nat) (f : Nat → FRef) (v : Nat) : Bool :=
  s.get (f (2 * p)) == v && s.get (f (2 * p + 1)) == v

/-- Whether a lane of port `p` is retired (R413). -/
def State.laneRetired (s : State) (p : Nat) : Bool :=
  let v := s.get FLT_LANE_RETIRED
  bitAt v (2 * p) || bitAt v (2 * p + 1)

/-- The phase of port `p`'s lanes. -/
def State.phase (s : State) (p : Nat) : LinkPhase := (s.link p).phase

/-- The state with the phase of port `p`'s lanes replaced. -/
def State.setPhase (s : State) (p : Nat) (f : LinkPhase) : State :=
  let x := s.link p
  s.setLink p { x with phase := f }

/-- Whether the lanes of port `p` carry flits: the link is up and no retrain runs. -/
def State.carries (s : State) (p : Nat) : Bool := s.phase p == .up

/-! ## Flits -/

/-- The payload bytes of the next flit from the packets that wait, with `room` bytes left (R80): a packet
starts only where four bytes or more remain. The second component is what still waits. -/
def fillFlit : Nat → Nat → List (List Byte) → List Byte × List (List Byte)
  | 0, room, q => (List.replicate room 0, q)
  | _ + 1, room, [] => (List.replicate room 0, [])
  | fuel + 1, room, k :: q =>
    if room < 4 then (List.replicate room 0, k :: q)
    else if room < k.length then (k.take room, k.drop room :: q)
    else
      let r := fillFlit fuel (room - k.length) q
      (k ++ r.1, r.2)

/-- The 64 bytes of a flit (R78, R82). -/
def flitBytes (fseq ack : Nat) (payload : List Byte) : List Byte :=
  let b := leBytes 1 fseq ++ leBytes 1 ack ++ payload
  b ++ leBytes 4 (crc32c b).toNat

/-- The 64 bytes of a control block (R83). -/
def controlBytes (code value : Nat) : List Byte :=
  let b := leBytes 1 code ++ leBytes 1 value ++ List.replicate 58 (0x5A#8)
  b ++ leBytes 4 (~~~ (crc32c b)).toNat

/-- The code and value of a control block, if the bytes are one (R83). -/
def asControl (bs : List Byte) : Option (Nat × Nat) :=
  let code := leNat (bs.take 1)
  let value := leNat ((bs.drop 1).take 1)
  if bs = controlBytes code value ∧ (code = 1 ∨ ((code = 2 ∨ code = 3) ∧ value = 0)) then
    some (code, value)
  else none

/-- The number of flits held for replay shown (R96). -/
def State.showUnacked (s : State) (p : Nat) : State :=
  s.put (LL_SEQ_UNACKED p) (s.link p).replay.length

/-- The replay timeout of port `p` armed while flits are unacknowledged (R86). -/
def State.armReplay (s : State) (p : Nat) : State :=
  if (s.link p).replay.isEmpty then s.disarm (.replay p)
  else s.arm (.replay p) (s.get (LL_CTL_REPLAY_TMO p) * 10)

/-- Whether a lane of port `p` sends a generator pattern in place of link traffic (R95). -/
def State.inPrbs (s : State) (p : Nat) : Bool :=
  s.get (LN_CTL_MODE (2 * p)) == 1 || s.get (LN_CTL_MODE (2 * p + 1)) == 1

/-- A flit sent on port `p`: its bytes, on the lanes (R78, R79). -/
def State.flitOut (s : State) (p : Nat) (bs : List Byte) : State := (s.emit (.flit p bs)).sendBlock p bs

/-- A control block sent on port `p` (R83). -/
def State.controlOut (s : State) (p code value : Nat) : State :=
  (s.emit (.control p code value)).sendBlock p (controlBytes code value)

/-- The next flit of port `p` sent (R78 to R80, R85): with at most 64 unacknowledged, out of idle, on lanes
that carry link traffic; padding only while no idle is asked for (R89). -/
def State.sendFlit (s : State) (p : Nat) : State :=
  let x := s.link p
  if x.phase == .up && decide (x.replay.length < 64) && !s.on (LN_STAT_EIDLE_TX (2 * p)) && !s.inPrbs p &&
      !(s.on (LL_CMD_EIDLE p) && x.txq.isEmpty) then
    let r := fillFlit (x.txq.length + 1) 58 x.txq
    let q := s.get (LL_SEQ_TX_NEXT p)
    let fresh := x.replay.isEmpty
    let n := x.txq.length - r.2.length
    let f : HeldFlit := ⟨q, r.1, (x.marks.take n).filterMap id⟩
    let s := s.setLink p { x with replay := x.replay ++ [f], txq := r.2, marks := x.marks.drop n }
    let s := (s.put (LL_SEQ_TX_NEXT p) (q + 1)).showUnacked p
    let s := if fresh then s.armReplay p else s
    s.flitOut p (flitBytes q (s.get (LL_SEQ_RX_LAST p)) r.1)
  else s

/-- Held flits sent again, in order (R86, R87). -/
def State.resend (s : State) (p : Nat) (fs : List HeldFlit) : State :=
  fs.foldl (fun s f => s.flitOut p (flitBytes f.fseq (s.get (LL_SEQ_RX_LAST p)) f.payload)) s

/-- What waited for the acknowledgement of a packet sent on the Span goes on (R17, R50): a posted write has been
delivered to the partner, inbound data has left. -/
def State.markDone (s : State) (m : SpanMark) : State :=
  match m with
  | .write o =>
    match s.execOf o with
    | some e => s.endExec e stSC 0 e.taddr 1 []
    | none => s
  | .inbound g n => s.inbArrived g n

/-- The flits of a replay buffer after the one with a number, if it is there. -/
def afterFseq (q : Nat) : List HeldFlit → Option (List HeldFlit)
  | [] => none
  | f :: t => if f.fseq = q then some t else afterFseq q t

/-- An ACK field taken (R84, R85): flits up to it leave the replay buffer, and what waited for their packets goes on. -/
def State.takeAck (s : State) (p ack : Nat) : State :=
  let x := s.link p
  match afterFseq ack x.replay with
  | none => s
  | some rest =>
    let ms := ((x.replay.take (x.replay.length - rest.length)).map (·.marks)).flatten
    let s := s.setLink p { x with replay := rest, resends := 0 }
    ms.foldl State.markDone (((s.put (LL_SEQ_TX_ACKED p) ack).showUnacked p).armReplay p)

/-- What reading packets from a byte stream gives (R80, R81): the packets, the bytes of one that has not
arrived whole, and the header of a packet start that cannot be read. -/
structure Parsed where
  pkts : List Pkt
  rest : List Byte
  bad : Option Hdr
  deriving DecidableEq, Repr

/-- A header from bytes (R28); bytes missing count as zero, in HP_ERR_LOG too where a header that cannot be read has not
arrived whole (DESIGN CHOICE, log 119). -/
def bytesHdr (bs : List Byte) : Hdr :=
  let w (i : Nat) : Word := BitVec.ofNat 32 (leNat ((bs.drop (4 * i)).take 4))
  ⟨w 0, w 1, w 2, w 3⟩

/-- Whether a code is a packet type (R31). -/
def isType (t : Nat) : Bool := (typeVc t).isSome

/-- The packets in the bytes since the last packet boundary; the bytes end with a flit's payload. -/
def parsePkts : Nat → List Byte → Parsed
  | 0, bs => ⟨[], bs, none⟩
  | fuel + 1, bs =>
    if bs.length < 4 || (bs.take 4).all (· == 0) then ⟨[], [], none⟩
    else
      let h := bytesHdr bs
      if !isType (bits h.w0 27 5) then ⟨[], [], some h⟩
      else
        let n := if hasData h.type then h.len + 1 else 0
        if bs.length < 16 + n then ⟨[], bs, none⟩
        else
          let r := parsePkts fuel (bs.drop (16 + n))
          ⟨⟨h, (bs.drop 16).take n⟩ :: r.pkts, r.rest, r.bad⟩

/-! ## Link down and training -/

/-- The link layer of port `p` cleared (R88): replay buffer, FSEQ and ACK state. Inbound data that it held is lost. -/
def State.clearLink (s : State) (p : Nat) : State :=
  let x := s.link p
  let s := s.marksLost ((x.replay.map (·.marks)).flatten ++ x.marks.filterMap id)
  let s := s.setLink p { s.link p with replay := [], txq := [], marks := [], rxBytes := [], resends := 0 }
  let s := (((s.put (LL_SEQ_TX_NEXT p) 0).put (LL_SEQ_TX_ACKED p) 0xFF).put (LL_SEQ_RX_LAST p) 0xFF).put
    (LL_SEQ_UNACKED p) 0
  (((s.disarm (.replay p)).disarm (.nak p)).disarm (.rtPhase p)).disarm (.train p)

/-- Credits and tags of port `p` cleared, and the completions owed on it discarded (R48). -/
def State.clearPort (s : State) (p : Nat) : State :=
  let x := s.port p
  let s := s.setPort p { x with
    tags := [], tx := ⟨0, 0, 0, 0⟩, rxUsed := ⟨0, 0, 0, 0⟩, granted := false, grant := ⟨0, 0, 0, 0⟩, stalled := [],
    msgs := x.msgs.filter PMsg.isMsg }
  let s := { s with execs := s.execs.map (fun (e : Exec) =>
    match e.dest with
    | .port q _ => if q == p then { e with dest := .gone } else e
    | _ => e) }
  if p < 3 then
    s.records.foldl (fun s r =>
      let r' := { r with copies := r.copies.map (fun (c : Copy) =>
        if c.ch == p then { c with answered := true } else c) }
      (s.setRec r').freeIfDone r.rpl r.ctx r.seq) s
  else s

/-- What the receivers of port `p` have found is lost with the link (R73, R96): word boundary, idle of the far end. -/
def State.rxForget (s : State) (p : Nat) : State :=
  ((s.putLanes p LN_STAT_EIDLE_RX 0).putLanes p LN_STAT_WORD_LOCK 0).putLanes p LN_ALIGN_MATCH 0

/-- Training of port `p` starts at step 1 (R73, R74), unless a lane is retired (R413). -/
def State.startTraining (s : State) (p : Nat) : State :=
  let s := (s.clearLink p).rxForget p
  if s.laneRetired p then s.setPhase p .off
  else
    let s := (s.setPhase p .quiet).put (LL_STAT_STEP p) 1
    (s.putLanes p LN_STAT_EIDLE_TX 1).arm (.train p) 2000

/-- The lanes of port `p` stop and go to electrical idle (R60, R74, R91). -/
def State.idleLanes (s : State) (p : Nat) : State :=
  let s := (((s.clearLink p).rxForget p).setPhase p .off).putLanes p LN_STAT_EIDLE_TX 1
  let s := ((s.put (LL_CMD_EIDLE p) 0).put (LL_STAT_LINK_UP p) 0).put (LL_STAT_RETRAINING p) 0
  if p < 3 then s.put (HP_STAT_LINK_UP p) 0 else s

/-- STATE of a port changes (R60, R351). -/
def State.setPortState (s : State) (p st : Nat) : State := s.put (portStateRef p) st

/-- A port that leaves ON: its channel is excluded (R121), or the span port is lost (R356, R366). -/
def State.portLeavesOn (s : State) (p : Nat) : State :=
  if p < 3 then s.exclude p else s.spanPortLost (p - 3)

/-- The link of port `p` goes down with a cause (R48, R60, R88). -/
def State.linkDown (s : State) (p cause : Nat) : State :=
  let was := s.portState p
  let s := s.clearPort p
  let s := ((s.clearLink p).rxForget p).setPhase p .off
  let s := ((s.put (LL_STAT_LINK_UP p) 0).put (LL_STAT_RETRAINING p) 0).put (LL_STAT_FAIL_CAUSE p) cause
  let s := if p < 3 then s.put (HP_STAT_LINK_UP p) 0 else s
  let s := (s.bump (LL_RETRAIN_CNT_LINK_DOWNS p)).raise (95 + p) 0 (detail p 0 0)
  let s := if was = 2 then (s.setPortState p 1).portLeavesOn p else s
  if was = 1 ∨ was = 2 then s.startTraining p else s.idleLanes p

/-- A training step reaches its end: the phase goes on with its number and timeout. -/
def State.nextStep (s : State) (p : Nat) (f : LinkPhase) (step tmo : Nat) : State :=
  ((s.setPhase p f).put (LL_STAT_STEP p) step).arm (.train p) tmo

/-- Training fails (R74). -/
def State.trainFail (s : State) (p cause : Nat) : State :=
  let s := (s.setPhase p .failed).put (LL_STAT_FAIL_CAUSE p) cause
  (s.raise (100 + p) 0 (detail p 0 0)).arm (.train p) 1000000

/-- The first and last setting of the longest run of ones in the sixteen results of a sweep from setting
`i` up (R73). Among runs of one length the first is given. -/
def longestRun : Nat → Nat → Nat → Nat → Nat × Nat → Nat × Nat
  | 0, _, _, _, best => best
  | fuel + 1, good, i, cur, best =>
    if bitAt good i then
      let cur := cur + 1
      longestRun fuel good (i + 1) cur (if best.2 < cur then (i + 1 - cur, cur) else best)
    else longestRun fuel good (i + 1) 0 best

/-- The runs of the longest length in the sixteen results: their first settings. -/
def longestRuns (good : Nat) : Nat × List Nat :=
  let n := (longestRun 16 good 0 0 (0, 0)).2
  (n, (List.range 16).filter (fun i => decide (0 < n) && (List.range n).all (fun k => bitAt good (i + k))
    && decide (i + n ≤ 16)))

/-- The sweep of lane `k` chooses its setting (R73): the middle of the longest error-free run. Which of
several runs of one length is taken the spec does not say. -/
def State.chooseCtle (s : State) (k good : Nat) : State :=
  let r := longestRuns good
  let f := if 1 < r.2.length then s.free else (0, s)
  let lo := r.2.getD (f.1.toNat % max 1 r.2.length) 0
  let hi := lo + r.1 - 1
  let s := ((f.2.put (LN_CTLE_SETTING k) ((lo + hi) / 2)).put (LN_CTLE_RUN_LO k) lo).put (LN_CTLE_RUN_HI k) hi
  s.setLane k { s.lane k with chosen := (lo + hi) / 2 }

/-- The bridge's first flits' credits (R46, R352): NOP packets that grant the whole receive buffer, which stays as it is
until the link goes down (R61). -/
def State.grantAll (s : State) (p : Nat) : State :=
  let g := s.grantOf p
  let s := s.sendNop p ⟨g.ph, g.pd, min 255 g.nh, g.nd⟩
  let s := if 255 < g.nh then s.sendNop p ⟨0, 0, g.nh - 255, 0⟩ else s
  let x := s.port p
  s.setPort p { x with granted := true, grant := g }

/-- The receivers of port `p` expect signal: a LOS that lasts from now on counts (R71), and the far precoders have started
anew (R65). -/
def State.rxAwake (s : State) (p : Nat) : State :=
  [2 * p, 2 * p + 1].foldl (fun s k =>
    let s := (s.put (LN_STAT_EIDLE_RX k) 0).setLane k { s.lane k with rxP := 0 }
    if s.on (LN_STAT_LOS k) && s.linkUp p && (s.dueAt (.losDown k)).isNone then s.arm (.losDown k) 1000 else s) s

/-- The link of port `p` is up (R73, R46). -/
def State.linkIsUp (s : State) (p : Nat) : State :=
  let s := (((s.clearLink p).setPhase p .up).put (LL_STAT_STEP p) 8).put (LL_STAT_LINK_UP p) 1
  let s := if p < 3 then s.put (HP_STAT_LINK_UP p) 1 else s
  (((s.putLanes p LN_STAT_EIDLE_TX 0).txReset p).rxAwake p).grantAll p

/-! ## Retrain -/

/-- The generators of port `p`'s lanes seeded for PRBS31, and their checkers unlocked (R87, R92, R93). -/
def State.seedRetrain (s : State) (p : Nat) : State :=
  [2 * p, 2 * p + 1].foldl (fun s k =>
    (s.setLane k { s.lane k with gen := prbsSeed 2, chk := 0, run := 0, hist := 0 }).put (LN_PRBS_CHK_LOCK k) 0) s

/-- A retrain of port `p` begins (R87): a ninth within 1 s takes the link down instead, with cause RETRAIN, and is neither
counted nor raised as a retrain (DESIGN CHOICE, log 123). -/
def State.retrain (s : State) (p : Nat) (starting : Bool) : State :=
  if s.carries p then
    let x := s.link p
    let recent := x.retrains.filter (fun t => decide (s.clk < t + 1000000000))
    if 8 ≤ recent.length then s.linkDown p 9
    else
      let s := s.setLink p { x with phase := .rtPrbs, retrains := recent ++ [s.clk] }
      let s := ((s.put (LL_STAT_RETRAINING p) 1).put (LL_CMD_RETRAIN p) 0).bump (LL_RETRAIN_CNT_RETRAINS p)
      let s := s.raise (90 + p) 0 (detail p 0 0)
      let s := s.wakeTx p
      let s := if starting then
          (((s.controlOut p 3 0).controlOut p 3 0).controlOut p 3 0).controlOut p 3 0
        else s
      let s := (((s.rxAwake p).seedRetrain p).emit (.pattern p 4)).disarm (.replay p)
      s.arm (.rtPhase p) 8000
  else s

/-- The oldest unacknowledged flits resent, or a retrain once that has been done REPLAY_MAX times (R86). Every replay starts
the replay timeout anew (DESIGN CHOICE, log 120). -/
def State.replayAll (s : State) (p : Nat) (fs : List HeldFlit) : State :=
  let x := s.link p
  let oldest := decide (fs.length = x.replay.length)
  if oldest && decide (s.get (LL_CTL_REPLAY_MAX p) ≤ x.resends) then s.retrain p true
  else
    let s := s.setLink p { x with resends := if oldest then x.resends + 1 else x.resends }
    ((s.bump (LL_CNT_REPLAYS p)).resend p fs).armReplay p

/-- A NAK received (R86). -/
def State.takeNak (s : State) (p v : Nat) : State :=
  let x := s.link p
  if !s.carries p || x.replay.isEmpty then s
  else if v = s.get (LL_SEQ_TX_ACKED p) then s.replayAll p x.replay
  else
    match afterFseq v x.replay with
    | none => s
    | some [] => s
    | some fs => s.replayAll p fs

/-- The receiver of port `p` learns that the far transmitter idles (R89). -/
def State.farIdles (s : State) (p : Nat) : State :=
  if s.carries p then s.putLanes p LN_STAT_EIDLE_RX 1 else s

/-- A bad flit (R84): counted, and a NAK sent unless one is outstanding. -/
def State.badFlit (s : State) (p : Nat) : State :=
  let s := s.bump (LL_CNT_CRC_ERR p)
  let out := match s.dueAt (.nak p) with
    | none => false
    | some d => decide (s.clk < d)
  if out then s
  else ((s.wakeTx p).controlOut p 1 (s.get (LL_SEQ_RX_LAST p))).arm (.nak p)
    (s.get (LL_CTL_REPLAY_TMO p) * 10)

/-- 64 bytes in a flit position of port `p` (R78 to R86). The second component is the packets that have
now arrived whole, the third the header of a packet start that cannot be read (R81). A flit taken in order is owed an
ACK, for which an idle transmitter wakes (R91). -/
def State.takeFlit (s : State) (p : Nat) (bs : List Byte) : State × List Pkt × Option Hdr :=
  if !s.carries p || s.on (LN_STAT_EIDLE_RX (2 * p)) then (s, [], none)
  else
    match asControl bs with
    | some (1, v) => (s.takeNak p v, [], none)
    | some (2, _) => (s.farIdles p, [], none)
    | some (_, _) => (s.retrain p false, [], none)
    | none =>
      if bs.length = 64 ∧ leNat (bs.drop 60) = (crc32c (bs.take 60)).toNat then
        let q := leNat (bs.take 1)
        let s := s.takeAck p (leNat ((bs.drop 1).take 1))
        if q = (s.get (LL_SEQ_RX_LAST p) + 1) % 256 then
          let s := ((s.put (LL_SEQ_RX_LAST p) q).disarm (.nak p)).wakeTx p
          let x := s.link p
          let r := parsePkts 16 (x.rxBytes ++ (bs.drop 2).take 58)
          (s.setLink p { x with rxBytes := r.rest }, r.pkts, r.bad)
        else (s, [], none)
      else (s.badFlit p, [], none)

/-! ## Received lane words (R65 to R67, R76, R79, R93) -/

/-- Lane words received on lane `k` with the polarity that alignment found corrected (R67). -/
def State.straight (s : State) (k : Nat) (ws : List (BitVec 64)) : List (BitVec 64) :=
  if s.on (LN_STAT_RX_POL_INV k) then ws.map invertWord else ws

/-- The checker of lane `k` as it stands. -/
def State.checker (s : State) (k : Nat) : Checker :=
  let x := s.lane k
  ⟨s.on (LN_PRBS_CHK_LOCK k), x.chk, x.run, x.hist, 0, 0⟩

/-- The checker of lane `k` as it has become, its errors counted (R93). -/
def State.setChecker (s : State) (k : Nat) (c : Checker) : State :=
  let s := (s.setLane k { s.lane k with chk := c.reg, run := c.run, hist := c.hist }).put (LN_PRBS_CHK_LOCK k)
    (ofBool c.lock)
  (s.bumpBy (LN_PRBS_SYM_ERR_COUNT k) c.sym).bumpBy (LN_PRBS_BIT_ERR_COUNT k) c.bit

/-- MATCH and the polarity of lane `k` after words received while it looks for its boundary (R76). -/
def State.matched (s : State) (k m : Nat) (ws : List (BitVec 64)) : State :=
  let r := matchRun m (s.on (LN_STAT_RX_POL_INV k)) ws
  (s.put (LN_ALIGN_MATCH k) r.1).put (LN_STAT_RX_POL_INV k) (ofBool r.2)

/-- Words received on lane `k` beside link traffic: they feed its checker in MODE PRBS (R95) and MATCH in MODE DIAG
(R75, R76). -/
def State.probed (s : State) (k : Nat) (ws : List (BitVec 64)) : State :=
  if s.get (LN_CTL_MODE k) = 1 then
    if s.on (LN_PRBS_CHK_EN k) then
      s.setChecker k ((s.straight k ws).foldl (Checker.word (s.get (LN_PRBS_PATTERN k))) (s.checker k))
    else s
  else if s.get (LN_CTL_MODE k) = 2 then s.matched k (s.get (LN_ALIGN_MATCH k)) ws
  else s

/-- Lane words of a flit position received on lane `k`: corrected and decoded (R65, R67). -/
def State.received (s : State) (k : Nat) (ws : List (BitVec 64)) : State × List (BitVec 64) :=
  let ws := s.straight k ws
  if s.on (LN_CTL_RX_PRECODE k) then
    let x := s.lane k
    let r := mapWords decodeLevels x.rxP ws
    (s.setLane k { x with rxP := r.2 }, r.1)
  else (s, ws)

/-- The words that the lanes of port `p` receive in a flit position, after deskew (R77, R79): what they do beside link
traffic, and the flit or control block that they carry, crossed lanes put right. -/
def State.takeLanes (s : State) (p : Nat) (l0 l1 : List (BitVec 64)) : State × List Pkt × Option Hdr :=
  let s := (s.probed (2 * p) l0).probed (2 * p + 1) l1
  if s.inPrbs p || !s.carries p then (s, [], none)
  else
    let a := s.received (2 * p) l0
    let b := a.1.received (2 * p + 1) l1
    let bs := if s.on (LL_STAT_LANES_SWAPPED p) then mergeLanes b.2 a.2 else mergeLanes a.2 b.2
    b.1.takeFlit p bs

/-- A control block that a command names as received on port `p`: the decoders have passed over its symbols (R65). -/
def State.heard (s : State) (p code value : Nat) : State :=
  let bs := controlBytes code value
  [0, 1].foldl (fun s i =>
    let k := 2 * p + i
    let far := if s.on (LL_STAT_LANES_SWAPPED p) then 1 - i else i
    if s.carries p && s.on (LN_CTL_RX_PRECODE k) then
      let x := s.lane k
      s.setLane k { x with rxP := (mapWords precodeLevels x.rxP (laneWords bs far)).2 }
    else s) s

/-! ## Electrical idle -/

/-- The transmitters of port `p` asked to idle (R89, R91). -/
def State.askIdle (s : State) (p : Nat) : State := s.put (LL_CMD_EIDLE p) 1

/-- The transmitters of port `p` woken (R90, R91). -/
def State.wakePort (s : State) (p : Nat) : State :=
  ((s.put (LL_CMD_EIDLE p) 0).put (LL_CMD_WAKE p) 0).wakeTx p

/-! ## Port states -/

/-- GEN of a port. -/
def portGenRef (p : Nat) : FRef := if p < 3 then HP_STAT_GEN p else SPN_PORT_GEN (p - 3)

/-- RESTART_PENDING of a port. -/
def portRestartRef (p : Nat) : FRef :=
  if p < 3 then HP_STAT_RESTART_PENDING p else SPN_PORT_RESTART_PENDING (p - 3)

/-- A port enters STARTING (R60, R445): a new generation, and training starts. -/
def State.portStart (s : State) (p : Nat) : State :=
  (((s.setPortState p 1).incr (portGenRef p)).put (portRestartRef p) 0).startTraining p

/-- EN of a port written (R60, R351, R445). -/
def State.portEn (s : State) (p : Nat) (en : Bool) : State :=
  match s.portState p, en with
  | 0, true => s.portStart p
  | 1, false => if s.linkUp p then s.setPortState p 3 else (s.setPortState p 3).idleLanes p
  | 2, false => (s.setPortState p 3).portLeavesOn p
  | 3, en => s.put (portRestartRef p) (ofBool en)
  | _, _ => s

/-- The credits that let a port enter ON (R60, R351). -/
def State.creditsHeld (s : State) (p : Nat) : Bool :=
  let c := (s.port p).tx
  if p < 3 then decide (16 ≤ c.ph) && decide (16 ≤ c.pd)
  else decide (0 < c.ph) && decide (0 < c.pd) && decide (0 < c.nh) && decide (0 < c.nd)

/-- A port in STARTING enters ON (R60, R121, R351); a span port sends and expects heartbeats from now on (R355,
R356). -/
def State.portOn (s : State) (p : Nat) : State :=
  if s.portState p = 1 ∧ s.linkUp p ∧ (s.port p).granted ∧ s.creditsHeld p then
    let s := s.setPortState p 2
    if p < 3 then s.channelPortOn p else (s.arm (.beat p) 50000).arm (.miss p) 50000
  else s

/-- What a draining port still owes: completions, and on a host port messages (R60). -/
def State.portOwes (s : State) (p : Nat) : Bool :=
  !(s.port p).tags.isEmpty || !(s.port p).msgs.isEmpty

/-- The lanes of a port that has entered OFF (R60, R89, R91): on an up link the transmitters are asked to idle, which they
do when their flits are acknowledged; others idle at once. -/
def State.portIdles (s : State) (p : Nat) : State :=
  if s.carries p && !s.on (LN_STAT_EIDLE_TX (2 * p)) then s.put (LL_CMD_EIDLE p) 1 else (s.clearPort p).idleLanes p

/-- A draining port owes nothing any more (R60, R413, R445). -/
def State.portDrained (s : State) (p : Nat) : State :=
  if s.portState p = 3 ∧ ¬ s.portOwes p then
    if s.on (portRestartRef p) then ((s.clearPort p).idleLanes p).portStart p
    else
      let v := s.get FLT_LANE_RETIRED
      let clear (v k : Nat) : Nat := if bitAt v k then v - 2 ^ k else v
      ((s.setPortState p 0).put FLT_LANE_RETIRED (clear (clear v (2 * p)) (2 * p + 1))).portIdles p
  else s

/-- A lane classified LASTING is retired, and the link goes down (R413). -/
def State.retireLane (s : State) (k : Nat) : State :=
  let v := s.get FLT_LANE_RETIRED
  s.put FLT_LANE_RETIRED (if bitAt v k then v else v + 2 ^ k)

/-! ## What the lanes send while no flit goes (R73, R87, R95) -/

/-- Words of a pattern sent on the lanes of port `p` that carry link traffic. -/
def State.patternOut (s : State) (p : Nat) (ws : Nat → List (BitVec 64)) : State :=
  [0, 1].foldl (fun s i => if s.get (LN_CTL_MODE (2 * p + i)) = 1 then s else s.sendLane (2 * p + i) (ws i) false) s

/-- The next `n` TS words of a kind sent on port `p` (R72). -/
def State.tsOut (s : State) (p kind n : Nat) : State :=
  (s.patternOut p (fun i => s.tsWords p i kind n)).tsSent p n

/-- The next four words of lane `k`'s generator sent (R92, R95). -/
def State.genOut (s : State) (k pattern : Nat) : State :=
  let x := s.lane k
  let r := prbsWords pattern 4 x.gen
  (s.setLane k { x with gen := r.2 }).sendLane k r.1 false

/-- What the lanes of port `p` send in one TIME cycle, four words each (R73, R79, R87, R95): the pattern of the step or
phase, flits, or a generator pattern. -/
def State.portOut (s : State) (p : Nat) : State :=
  let s := [2 * p, 2 * p + 1].foldl (fun s k =>
    if s.get (LN_CTL_MODE k) = 1 ∧ s.on (LN_PRBS_GEN_EN k) then s.genOut k (s.get (LN_PRBS_PATTERN k)) else s) s
  match s.phase p with
  | .presence | .phase => s.patternOut p (fun _ => List.replicate 4 tp1Word)
  | .align | .equalise | .deskew | .rtRealign | .rtHandshake => s.tsOut p 1 4
  | .handshake =>
    let x := s.link p
    (s.setLink p { x with ts2 := min 16 (x.ts2 + 4) }).tsOut p 2 4
  | .rtPrbs => [2 * p, 2 * p + 1].foldl (fun s k => if s.get (LN_CTL_MODE k) = 1 then s else s.genOut k 2) s
  | .up => s.sendFlit p
  | _ => s

end Sys2Proof.Machine
end

