-- ==== Sys2Proof/Machine/Couriers.lean ====
section
/-! DEFINITION. Contexts on couriers (R231 to R256): binding and preemption, the end of a binding, traps and
halts, work item dispatch, the states of a context with its placement check, retirement of a courier with
migration or eviction. -/

namespace Sys2Proof.Machine

/-! ## Packets of a program -/

/-- The queues in which context `n` may have a packet open: its notice queue, and AUXQ if it is in the set
(R283). -/
def State.packetQueues (s : State) (n : Nat) : List Nat :=
  s.get (CTX_QUE_NQ n) :: (if s.on (CTX_QUE_AUX_EN n) then [s.get (CTX_QUE_AUXQ n)] else [])

/-- Whether context `n`'s program has a packet open in queue `q`. -/
def State.hasOpen (s : State) (n q : Nat) : Bool :=
  match (s.queue q).openPacket with
  | none => false
  | some p => p.ctx == n && p.src == 0

/-- The notice of context `n` for a packet of its program (R284): it waits for the inbound data of the work
items taken since the previous one. -/
def State.programNotice (s : State) (n : Nat) : State :=
  let a := s.arch n
  (s.setArch n { a with marks := [] }).notice n (s.get (CTX_QUE_NQ n)) 8 a.marks

/-- The open packets of a program closed, and on its notice queue released (R285). -/
def State.closePackets (s : State) (n : Nat) : State :=
  (s.packetQueues n).foldl (fun s q =>
    if s.hasOpen n q then
      let s := s.closePacket q false
      if q = s.get (CTX_QUE_NQ n) then s.programNotice n else s
    else s) s

/-! ## Threads -/

/-- The contexts bound to courier `c`. -/
def State.boundOn (s : State) (c : Nat) : List Nat :=
  (List.range 256).filter (fun n => s.isBound n && s.courOf n == c)

/-- A context that GATE no longer admits is IDLE, its wakes discarded (R238, DEDUCED, log entry 141). -/
def State.shutOut (s : State) (n : Nat) : State :=
  if s.gateOpen n ∨ ¬ (s.run n = 1 ∨ s.run n = 2) then s
  else
    let s := if s.run n = 2 then s.unbind n 0 else s.put (CTX_STAT_RUN n) 0
    let a := s.arch n
    s.setArch n { a with wake := false }

/-- The contexts of courier `c` looked at before it binds: a WAIT that has held its thread for 4 slots leaves it, and
contexts that GATE shuts out are IDLE (R238, R240). -/
def State.settleCour (s : State) (c : Nat) : State :=
  ((List.range 256).filter (fun n => s.courOf n == c && decide (1 ≤ s.run n) && decide (s.run n ≤ 3))).foldl
    (fun s n => (s.settleWait n).shutOut n) s

/-- Whether courier `c` runs contexts: it is ON, MAPPED or holding relocated contexts, and not migrating. -/
def State.courRuns (s : State) (c : Nat) : Bool :=
  s.get (COUR_STAT_STATE c) == 2 && s.get (COUR_STAT_ROLE c) == 0 &&
    !s.migrating.any (fun m => m.1 == c || m.2.1 == c)

/-- Whether context `a` binds before context `b` (R240): the class, then the order of becoming READY. -/
def State.bindsFirst (s : State) (a b : Nat) : Bool :=
  if s.noteOf a = s.noteOf b then decide ((s.arch a).readyAt < (s.arch b).readyAt)
  else decide (s.noteOf a < s.noteOf b)

/-- The READY context that courier `c` binds next (R240, R295). -/
def State.nextReady (s : State) (c : Nat) : Option Nat :=
  let ns := (List.range 256).filter (fun n => s.run n == 1 && s.courOf n == c && s.runnable n &&
    decide (s.get (CTX_CHG_SLOTS n) < s.slotBudget n))
  ns.foldl (fun (b : Option Nat) n =>
    match b with
    | none => some n
    | some m => if s.bindsFirst n m then some n else some m) none

/-- A free thread of courier `c`. -/
def State.freeThread (s : State) (c : Nat) : Option Nat :=
  (List.range 4).find? (fun k => !bitAt (s.get (COUR_STAT_BUSY c)) k)

/-- A context bound to a thread (R240, R294, R302): it goes on, or goes on with the WAIT that it was suspended or
migrated in (R282). -/
def State.bindTo (s : State) (c k n : Nat) : State :=
  let s := s.put (COUR_STAT_BUSY c) (s.get (COUR_STAT_BUSY c) + 2 ^ k)
  let a := s.arch n
  let waits := a.waitFor != .none
  let s := ((s.put (CTX_STAT_RUN n) (if waits then 3 else 2)).put (CTX_STAT_THREAD n) k).put (CTX_STAT_COURIER n) c
  let s := s.setArch n { a with
    boundAt := s.order, boundCls := s.noteOf n, waitSince := if waits then some s.clk else none }
  ({ s with order := s.order + 1 }.put (CTX_USE_CUT n) 0).charge_ n 8

/-- The bound context that a TOP context preempts (R240): of the lowest class below TOP, the most recently
bound. -/
def State.victim (s : State) (c : Nat) : Option Nat :=
  (s.boundOn c).foldl (fun (b : Option Nat) n =>
    if (s.arch n).boundCls = 0 then b
    else match b with
      | none => some n
      | some m =>
        if (s.arch m).boundCls < (s.arch n).boundCls ||
            ((s.arch m).boundCls == (s.arch n).boundCls && decide ((s.arch m).boundAt < (s.arch n).boundAt))
        then some n else some m) none

/-- Courier `c` binds its next READY context to a free thread, or preempts for a TOP one (R240): a preempted context is
READY, one in a WAIT has no instruction boundary before its 4 slots are over and leaves with them. -/
def State.bindNext (s : State) (c : Nat) : State :=
  if !s.courRuns c then s
  else
    let s := s.settleCour c
    match s.nextReady c with
    | none => s
    | some n =>
      match s.freeThread c with
      | some k => s.bindTo c k n
      | none =>
        if s.noteOf n = 0 then
          match s.victim c with
          | none => s
          | some v =>
            let k := s.get (CTX_STAT_THREAD v)
            let s := if s.run v = 3 then s.unbind v 3 else (s.unbind v 1).makeReady v
            (s.bump (COUR_CNT_PREEMPT c)).bindTo c k n
        else s

/-- DETAIL of an event of the couriers and the scheduler (R418): the courier, the thread, the trap cause. -/
def State.courDetail (s : State) (n cause : Nat) : Nat :=
  detail (s.courOf n) ((s.settleWait n).get (CTX_STAT_THREAD n)) cause

/-- A context off its thread, if it is bound, with a RUN state. -/
def State.leave (s : State) (n run : Nat) : State := if s.isBound n then s.unbind n run else s.put (CTX_STAT_RUN n) run

/-- A context whose charge has reached its budget is suspended (R295, R302): as an overdraft, or as a cut
when the plan lowered the budget. -/
def State.suspend (s : State) (n : Nat) (cut : Bool) : State :=
  let det := s.courDetail n 0
  let s := s.leave n 4
  if cut then (s.bump STG_CNT1_CUT).put (CTX_USE_CUT n) 1
  else ((s.bump (CTX_USE_OVERDRAFTS n)).bump STG_CNT_OVERDRAFT).raise 56 n det

/-! ## Traps (R245, R254) -/

/-- The halt of a context after a trap of a cause (R245, R285). -/
def State.halt (s : State) (n cause : Nat) : State :=
  let det := s.courDetail n cause
  let s := s.closePackets n
  let s := s.leave n 5
  s.raise 40 n det

/-- A trap at the context's PC (R245, R254): captured, and the handler entered or the context halted. A PC
past the memory has no place in the capture; what it then shows the spec does not say. -/
def State.trap (s : State) (n cause info : Nat) : State :=
  let a := s.arch n
  let s := s.bump (CTX_TRAP0_COUNT n)
  let s := s.traceRec 7 8 [BitVec.ofNat 32 cause, BitVec.ofNat 32 a.pc, BitVec.ofNat 32 info,
    BitVec.ofNat 32 n] 0
  let s := if s.on (CTX_TRAP0_VALID n) then s
    else
      let f := if a.pc < 16384 then (BitVec.ofNat 32 a.pc, s) else s.free
      (((f.2.put (CTX_TRAP0_VALID n) 1).put (CTX_TRAP0_CAUSE n) cause).put (CTX_TRAP1_PC n) f.1.toNat).put
        (CTX_TRAP2_INFO n) info
  let a := { s.arch n with lastCause := cause, lastInfo := BitVec.ofNat 32 info }
  if s.on (CTX_PROG_TRAP_EN n) && !a.inTrap then
    (s.setArch n { a with inTrap := true, trapPc := a.pc, pc := s.get (CTX_PROG_TRAP_VEC n) }).put
      (CTX_STAT_IN_TRAP n) 1
  else (s.setArch n a).halt n cause

/-! ## Work items (R241) -/

/-- Whether the scheduler would move a work item into context `n`'s slot from work queue `k`. -/
def State.fedBy (s : State) (n k : Nat) : Bool :=
  s.runnable n && s.on (CTX_QUE_WQ_EN n) && s.get (CTX_QUE_WQ n) == k

/-- The scheduler looks at the head item of work queue `k` (R241, R250), whose word it takes as R332 gives. -/
def State.dispatch (s : State) (k : Nat) : State :=
  let q := 144 + k
  let x := s.queue q
  match x.items with
  | [] => s
  | i :: rest =>
    if x.testing || x.retired then s
    else
      let n := bits i.seen 0 8
      let taken := (s.setQueue q { x with items := rest }).wordsChecked q (s.headPlace q 0) (ofBool (i.ecc == .ce)) (i.ecc == .ue)
      if s.fedBy n k then
        if (s.arch n).item.isSome then s
        else
          let a := taken.arch n
          (taken.setArch n { a with item := some i.seen, itemLine := i.line }).wake n
      else taken.bump COUR_GLB_WQ_DISCARD

/-! ## Context states (R246, R250, R299) -/

/-- Slots of one thread in a stage (R232, R289). -/
def State.stageSlots (s : State) : Nat := s.get STG_TIM_STAGE * 200

/-- The contexts not OFF. -/
def State.ctxsOn (s : State) : List Nat := (List.range 256).filter (fun n => decide (0 < n) && s.ctxState n != 0)

/-- The program contexts not OFF on logical courier `l`, with context `n` counted among them. -/
def State.homedWith (s : State) (n l : Nat) : List Nat :=
  (List.range 256).filter (fun m => decide (0 < m) && (m == n || s.ctxState m != 0) &&
    s.on (CTX_CTL_PROG_EN m) && s.get (CTX_PLACE_LCOUR m) == l)

/-- The placement check of a context with a program (R246), whose logical courier must be MAPPED: a courier without a
spare that has been retired carries no context, whatever became of it since (R248, R249; DEDUCED, log entry 142). -/
def State.homeOk (s : State) (n : Nat) : Bool :=
  let l := s.get (CTX_PLACE_LCOUR n)
  let ms := s.homedWith n l
  let c := s.get (COUR_LMAP_PHYS l)
  let area (m : Nat) : Nat × Nat := (s.get (CTX_PLACE_DBASE m), s.get (CTX_PLACE_DSIZE m))
  decide (ms.length ≤ 32) &&
    ms.all (fun m => m == n || !rangesMeet (area n) (area m)) &&
    decide (8 * (ms.map (fun m => s.get (CTX_BUD_SLOT_SLOTS m))).sum ≤ 7 * (4 * s.stageSlots)) &&
    decide (s.get (CTX_BUD_SLOT_SLOTS n) ≤ s.stageSlots) &&
    s.get (COUR_STAT_STATE c) == 2 && s.get (COUR_STAT_ROLE c) == 0

/-- The check of bus budgets (R299). -/
def State.busPlanOk (s : State) (n : Nat) : Bool :=
  (List.range 4).all (fun g =>
    let ms := (List.range 256).filter (fun m => decide (0 < m) && (m == n || s.ctxState m != 0))
    decide (16 * 2 * (ms.map (fun m => s.get (CTX_BUD_BUS_BUDGET m g))).sum ≤ 15 * s.get STG_TIM_STAGE))

/-- The courier cycles of a context lose their tokens (R245): a result that arrives is discarded. -/
def State.orphanJobs (s : State) (n : Nat) : State :=
  (List.range 4).foldl (fun s g =>
    let x := s.seg g
    s.setSeg g { x with jobs := x.jobs.map (fun (j : Job) =>
      match j.owner with
      | .token m _ => if m == n then { j with owner := .orphan n } else j
      | _ => j) }) s

/-- The state of R237 set: the registers zero, the tokens FREE, PC at ENTRY. -/
def State.freshArch (s : State) (n : Nat) : State :=
  let s := s.orphanJobs n
  let a : Arch := { Arch.fresh with pc := s.get (CTX_PROG_ENTRY n) }
  (s.setArch n a).put (CTX_STAT_IN_TRAP n) 0

/-- The registers of context `n` that STARTING clears (R250). -/
def State.prepare (s : State) (n : Nat) : State :=
  let s := (s.put (CTX_SEQ_DOWN_SEQ n) 0xFFFF).put (CTX_SEQ_UP_SEQ n) 0xFFFF
  let s := { s with ahead := mdel s.ahead n, advances := mdel s.advances n, retention := mdel s.retention n }
  let s := ((s.put (CTX_FENCE_FENCED n) 0).put (CTX_FENCE_REASON n) 0).put (CTX_FENCE_REJECTED n) 0
  let s := (List.range 16).foldl (fun s i => s.setWord (CTX_ERR_CTL n + 4 * i) 0) s
  ((s.setWord (CTX_TRAP0 n) 0).setWord (CTX_TRAP1 n) 0).setWord (CTX_TRAP2 n) 0

/-- A context enters STARTING, is prepared, and enters ON or falls back to OFF (R250, R445). -/
def State.ctxStart (s : State) (n : Nat) : State :=
  let s := (((s.put (CTX_STAT_STATE n) 1).incr (CTX_STAT_GEN n)).put (CTX_STAT_RESTART_PENDING n) 0).put
    (CTX_STAT_PLACE_ERR n) 0
  let s := (s.prepare n).put (CTX_RELOC_RELOCATED n) 0
  let prog := s.on (CTX_CTL_PROG_EN n)
  if (!prog || s.homeOk n) && s.busPlanOk n then
    let s := if prog then (s.freshArch n).put (CTX_STAT_COURIER n) (s.courOf n) else s
    ((s.put (CTX_STAT_RUN n) 0).put (CTX_STAT_STATE n) 2).rejoinCtxOn n
  else
    ((s.put (CTX_STAT_PLACE_ERR n) 1).put (CTX_STAT_STATE n) 0).raise 45 n (s.courDetail n 0)

/-- A context enters DRAINING (R250, R285). -/
def State.ctxDrain (s : State) (n : Nat) : State :=
  let s := (s.put (CTX_STAT_STATE n) 3).rejoinCtxOff n
  if s.on (CTX_CTL_PROG_EN n) then
    let s := s.closePackets n
    let s := s.leave n 0
    let a := s.arch n
    s.setArch n { a with waitFor := .none, due := none, item := none }
  else s

/-- EN of a context written (R250, R251, R445). -/
def State.ctxEn (s : State) (n : Nat) (en : Bool) : State :=
  if n = 0 then s
  else
    match s.ctxState n, en with
    | 0, true => s.ctxStart n
    | 1, false => s.ctxDrain n
    | 2, false => s.ctxDrain n
    | 3, en => s.put (CTX_STAT_RESTART_PENDING n) (ofBool en)
    | _, _ => s

/-- Whether a draining context still has a request executing or a token pending (R250). -/
def State.ctxBusy (s : State) (n : Nat) : Bool :=
  s.execs.any (fun e => e.pkt.h.ctx == n) || (s.arch n).t.any (fun t => t.state == 1) ||
    (List.range 4).any (fun g => (s.seg g).jobs.any (fun j => j.ctx == n))

/-- A draining context has ended its work (R250, R445). -/
def State.ctxDrained (s : State) (n : Nat) : State :=
  if s.ctxState n = 3 ∧ 0 < n ∧ ¬ s.ctxBusy n then
    if s.on (CTX_STAT_RESTART_PENDING n) then s.ctxStart n
    else s.put (CTX_STAT_STATE n) 0
  else s

/-- CTX_CMD.RESUME (R245): a halted context has the state of R237 again, and runs from ENTRY at its next
wake. -/
def State.ctxResume (s : State) (n : Nat) : State :=
  if s.run n = 5 then (s.freshArch n).put (CTX_STAT_RUN n) 0 else s

/-! ## Retirement of a courier (R247 to R249) -/

/-- The spare courier, if there is one. -/
def State.spareCour (s : State) : Option Nat :=
  (List.range s.member.couriers).find? (fun c => s.get (COUR_STAT_ROLE c) == 1 && s.get (COUR_STAT_STATE c) == 2)

/-- COUR_GLB shows the spare. -/
def State.showSpare (s : State) : State :=
  match s.spareCour with
  | some c => (s.put COUR_GLB_SPARE c).put COUR_GLB_SPARE_VALID 1
  | none => s.put COUR_GLB_SPARE_VALID 0

/-- The contexts held by courier `c`. -/
def State.heldBy (s : State) (c : Nat) : List Nat :=
  (List.range 256).filter (fun n => decide (0 < n) && s.on (CTX_CTL_PROG_EN n) && s.ctxState n != 0 &&
    s.courOf n == c)

/-- The data memory of a courier copied to another, check state and all (R247 step 3). -/
def State.copyDmem (s : State) (p q : Nat) : State :=
  let move {α : Type} (k : Nat) (m : SMap α) : SMap α :=
    let keep := m.filter (fun (e : Nat × α) => !(decide (q * k ≤ e.1) && decide (e.1 < q * k + k)))
    m.foldl (fun (t : SMap α) e =>
      if p * k ≤ e.1 ∧ e.1 < p * k + k then mins t (q * k + (e.1 - p * k)) e.2 else t) keep
  { s with dmem := move 0x10000 s.dmem, dmemBad := move 0x2000 s.dmemBad }

/-- Bytes of a data area copied to another courier, check state and all (R249). -/
def State.copyArea (s : State) (src dst len : Nat) : State :=
  let s := (List.range (len / 8)).foldl (fun (s : State) i =>
    { s with dmemBad := mput s.dmemBad (dst / 8 + i) (s.dmemEcc (src + 8 * i)) .ok }) s
  { s with dmem := writeMem s.dmem 0 dst (readMem s.dmem 0 src len) }

/-- Whether courier `c` has a free store entry and a data area of `size` units free at `base` (R249). -/
def State.areaFree (s : State) (c base size : Nat) : Bool :=
  let ms := s.heldBy c
  decide (ms.length < 32) && decide (base + size ≤ 256) &&
    ms.all (fun m => !rangesMeet (base, size) (s.dataBase m / 256, s.get (CTX_PLACE_DSIZE m)))

/-- The place for a relocated context (R249): the remaining courier with the most unbudgeted slots that has
room; of equal couriers the lowest, and the lowest free area. -/
def State.placeFor (s : State) (n : Nat) : Option (Nat × Nat) :=
  let size := s.get (CTX_PLACE_DSIZE n)
  let fits := (List.range s.member.couriers).filterMap (fun c =>
    if s.get (COUR_STAT_STATE c) = 2 ∧ s.get (COUR_STAT_ROLE c) = 0 then
      ((List.range 257).find? (fun b => s.areaFree c b size)).map (fun b => (c, b))
    else none)
  let used (c : Nat) : Nat := ((s.heldBy c).map (fun m => s.get (CTX_BUD_SLOT_SLOTS m))).sum
  fits.foldl (fun (b : Option (Nat × Nat)) x =>
    match b with
    | none => some x
    | some y => if used x.1 < used y.1 then some x else some y) none

/-- A context evicted (R249, R285). -/
def State.evict (s : State) (n : Nat) : State :=
  let det := s.courDetail n 0
  let s := s.closePackets n
  let s := s.leave n 7
  s.raise 44 n det

/-- A context moved to another courier, where one that was bound, or was on its way to a courier retired since, resumes
(R249). -/
def State.relocate (s : State) (n c b : Nat) : State :=
  let src := s.dataAt n 0
  let s := s.copyArea src (c * 0x10000 + b * 256) (s.dataSize n)
  let bound := s.isBound n || s.run n == 6
  let s := if s.isBound n then s.unbind n 1 else s
  let s := ((s.put (CTX_RELOC_RELOCATED n) 1).put (CTX_RELOC_DBASE n) b).put (CTX_STAT_COURIER n) c
  if bound then s.makeReady n else s

/-- The courier stops with no spare left (R249): essential contexts are placed elsewhere, the others are
evicted. -/
def State.scatter (s : State) (c : Nat) : State :=
  let s := s.raise 43 0 (detail c 0 0)
  let ns := s.heldBy c
  let s := (ns.filter (fun n => s.on (CTX_CTL_ESSENTIAL n))).foldl (fun s n =>
    match s.placeFor n with
    | some p => s.relocate n p.1 p.2
    | none => s.evict n) s
  (ns.filter (fun n => !s.on (CTX_CTL_ESSENTIAL n))).foldl (fun s n => s.evict n) s

/-- Courier `c` retired (R247 to R249): its contexts migrate to the spare, or are scattered. `role` is the
role it takes: 2 RETIRED, 3 TESTING. -/
def State.retireCour (s : State) (c role : Nat) : State :=
  let was := s.get (COUR_STAT_ROLE c)
  if was = 1 then
    (((s.put (COUR_STAT_ROLE c) role).put (COUR_STAT_STATE c) (if role = 3 then 1 else 0))).showSpare
  else if was ≠ 0 ∨ s.get (COUR_STAT_STATE c) ≠ 2 then s
  else
    match s.spareCour with
    | none =>
      let s := (s.put (COUR_STAT_ROLE c) role).put (COUR_STAT_STATE c) (if role = 3 then 1 else 0)
      (s.scatter c).put (COUR_STAT_BUSY c) 0
    | some q =>
      let l := s.get (COUR_STAT_LOGICAL c)
      let held := s.heldBy c
      let s := held.foldl (fun s n => if s.isBound n then s.unbind n 6 else s.settleWait n) s
      let s := ((s.put (COUR_LMAP_PHYS l) q).put (COUR_STAT_ROLE c) role).put (COUR_STAT_STATE c) 3
      let s := ((s.put (COUR_STAT_ROLE q) 0).put (COUR_STAT_LOGICAL q) l).put (COUR_STAT_LOGICAL c) 0
      let s := held.foldl (fun s n => s.put (CTX_STAT_COURIER n) q) (s.copyDmem c q)
      { s with migrating := s.migrating ++ [(c, q, l)] }.showSpare

/-- The token resolutions held back during a migration to courier `q` are applied (R247 step 4). -/
def State.heldApplied (s : State) (q : Nat) : State :=
  let now := s.heldTokens.filter (fun h => s.courOf h.ctx == q)
  now.foldl (fun s h => s.applyToken h.ctx h.token h.status h.data h.busNs h.answers)
    { s with heldTokens := s.heldTokens.filter (fun h => s.courOf h.ctx != q) }

/-- The test of a courier asked for (R406, R410), with the trap cause or 0x100 that the fault log shows
(R428): where none is queued, the courier stays RETIRED. -/
def State.askTest (s : State) (c det : Nat) : State :=
  let s := s.queueTest (.courier c) det
  if s.tests.any (fun t => t.res == Resource.courier c) then s
  else
    let s := s.put (COUR_STAT_ROLE c) 2
    if s.get (COUR_STAT_STATE c) = 1 then s.put (COUR_STAT_STATE c) 0 else s

/-- A courier that is RETIRED enters STARTING (R445): the courier test is asked for. One classified LASTING stays where it
is until the next start. -/
def State.courStart (s : State) (c : Nat) : State :=
  if s.replaced.contains (.courier c) then s
  else (((s.put (COUR_STAT_STATE c) 1).put (COUR_STAT_ROLE c) 3).incr (COUR_STAT_GEN c)).askTest c 0

/-- A migration ends (R247 steps 4 to 6). -/
def State.migrated (s : State) (c : Nat) : State :=
  match s.migrating.find? (fun m => m.1 == c) with
  | none => s
  | some (_, q, _) =>
    let s := { s with migrating := s.migrating.filter (fun (m : Nat × Nat × Nat) => m.1 != c) }.heldApplied q
    let arrived := s.get (COUR_STAT_ROLE q) == 0
    let s := (s.heldBy q).foldl (fun s n => if s.run n = 6 then s.makeReady n else s) s
    let s := s.put (COUR_STAT_STATE c) (if s.get (COUR_STAT_ROLE c) = 3 then 1 else 0)
    let s := s.put (COUR_STAT_BUSY c) 0
    let s := if s.on (COUR_STAT_RESTART_PENDING c) then (s.put (COUR_STAT_RESTART_PENDING c) 0).courStart c else s
    if arrived then s.raise 42 0 (detail q 0 0) else s

/-- The test of a resource is called off. -/
def State.noTest (s : State) (r : Resource) : State :=
  { s with tests := s.tests.filter (fun t => !(t.res == r)), active := s.active.filter (fun t => !(t.test.res == r)) }

/-- EN of a courier written (R247, R445): in STARTING, DRAINING has nothing to wait for, and a test is called off. -/
def State.courEn (s : State) (c : Nat) (en : Bool) : State :=
  match s.get (COUR_STAT_STATE c), en with
  | 0, true => s.courStart c
  | 1, false => ((s.noTest (.courier c)).put (COUR_STAT_STATE c) 0).put (COUR_STAT_ROLE c) 2
  | 2, false => s.retireCour c 2
  | 3, en => s.put (COUR_STAT_RESTART_PENDING c) (ofBool en)
  | _, _ => s

/-- The context bound to thread `k` of courier `c`. -/
def State.boundAt (s : State) (c k : Nat) : Option Nat :=
  (s.boundOn c).find? (fun n => s.get (CTX_STAT_THREAD n) == k)

/-- The cores of courier `c` disagree on an instruction of thread `k` (R233, R256, R412). -/
def State.mismatch (s : State) (c k : Nat) : State :=
  let s := (s.bump (COUR_CNT_MISMATCH c)).raise 41 ((s.boundAt c k).getD 0) (detail c k 0)
  (s.retireCour c 3).askTest c 0x100

/-- A courier classified LASTING stays RETIRED until the next start (R409). -/
def State.courLasting (s : State) (c : Nat) : State :=
  { s.retireCour c 2 with replaced := s.replaced ++ [.courier c] }

/-- An uncorrectable data memory word of courier `c` (R412): it stays marked, and the courier is retired and
tested. -/
def State.dmemBadWord (s : State) (c place : Nat) : State :=
  ((s.dmemFound place .ue).retireCour c 3).askTest c 4

/-- A corrected data memory word of courier `c` read again (R412): a retest that fails leads to the courier test; with
TEST_EN = 0 there is none (R410). -/
def State.wordRetest (s : State) (c : Nat) (clean : Bool) : State :=
  if clean then
    let r := s.testedNow (.courier c) 4 true
    if r.2 then r.1.courLasting c else r.1
  else if !s.on FLT_CFG_TEST_EN then s.untested (.courier c) 4
  else (s.retireCour c 3).askTest c 4

/-- An uncorrectable instruction word of courier `c` (R262, R412): the courier is retired and tested; with no spare left
the word is rewritten from another courier, and a clean second reading lets the courier go on. -/
def State.badInstr (s : State) (c i : Nat) (clean : Bool) : State :=
  let s := s.setImemEcc c i .ue
  if s.spareCour.isSome ∨ s.get (COUR_STAT_ROLE c) ≠ 0 then (s.retireCour c 3).askTest c 0
  else if clean then
    let r := (s.setImemEcc c i .ok).testedNow (.courier c) 0 true
    if r.2 then r.1.courLasting c else r.1
  else (s.retireCour c 3).askTest c 0

/-- What stops a courier that is ON (R233, R412). Where no trap and no mismatch is the cause, DETAIL of the fault log is
zero (DESIGN CHOICE, log entry 83). -/
def State.courFault (s : State) (c : Nat) (f : CourFault) : State :=
  if s.get (COUR_STAT_STATE c) = 2 then
    match f with
    | .mismatch k => s.mismatch c k.val
    | .corrected clean => s.wordRetest c clean
    | .word i clean => s.badInstr c i.toNat clean
    | .store => (s.retireCour c 3).askTest c 0
  else s

/-- The memories of courier `c` after a test: instruction memory loaded anew; data memory, through which MATS++ has run,
holds zeros, but for a mismatch, whose test leaves it alone (R412; DEDUCED, log entry 83). -/
def State.courSwept (s : State) (c det : Nat) : State :=
  let s := s.imemReloaded c
  if det = 0x100 then s
  else { s with dmem := s.dmem.filter (fun e => e.1 / 0x10000 != c), dmemBad := s.dmemBad.filter (fun e => e.1 / 0x2000 != c) }

/-- The courier test of `c` ends (R248, R409, R412). -/
def State.courTested (s : State) (c : Nat) (pass : Bool) : State :=
  if s.get (COUR_STAT_ROLE c) = 3 ∧ s.get (COUR_STAT_STATE c) = 1 ∧
      s.active.any (fun a => a.test.res == Resource.courier c) then
    let det := ((s.active.find? (fun a => a.test.res == Resource.courier c)).map (·.test.detail)).getD 0
    let s := { s with active := s.active.filter (fun (a : ActiveTest) => !(a.test.res == Resource.courier c)) }
    let r := s.classify (.courier c) det pass
    if r.2 then
      let s := (r.1.put (COUR_STAT_ROLE c) 2).put (COUR_STAT_STATE c) 0
      { s with replaced := s.replaced ++ [.courier c] }
    else (((r.1.courSwept c det).put (COUR_STAT_ROLE c) 1).put (COUR_STAT_STATE c) 2).showSpare
  else s

end Sys2Proof.Machine
end

