-- ==== Sys2Proof/Machine/Flags.lean ====
section
/-! DEFINITION. The flags of courier instructions (R263), operand fields of an instruction word (R257), the
branch conditions (R266), and which instruction a word is (R259, R264). -/

namespace Sys2Proof.Machine

/-! ## Fields (R257) -/

/-- rd of formats RR and RI, r of format SB. -/
def fRd (w : Word) : Nat := bits w 21 5
/-- ra. -/
def fRa (w : Word) : Nat := bits w 16 5
/-- rb. -/
def fRb (w : Word) : Nat := bits w 11 5
/-- AUX. -/
def fAux (w : Word) : Nat := bits w 6 5
/-- IMM16. -/
def fImm (w : Word) : Nat := bits w 0 16
/-- d of format SB. -/
def fD (w : Word) : Nat := bits w 18 3
/-- t of format SB. -/
def fT (w : Word) : Nat := bits w 15 3
/-- X of format SB. -/
def fX (w : Word) : Nat := bits w 0 15
/-- COND of format BI. -/
def fCond (w : Word) : Nat := bits w 22 4
/-- OFF of format BI. -/
def fOff (w : Word) : Nat := bits w 0 20

/-- IMM16 extended from bit 15 (R264). -/
def sextImm (w : Word) : Word := (w.setWidth 16).signExtend 32

/-- The instructions of the courier set. -/
inductive Op where
  | add | sub | and_ | or_ | xor_ | shl | shr | sra | ror | mul | cmp | swap16 | swap32 | crc | jr | jalr
  | addi | andi | ori | xori | lui | cmpi | shi | bfx | bfi
  | ldw | ldh | ldb | stw | sth | stb | ldl | stl | ldd | std
  | b | bl | cyr | cyw | cywn | cyl | poll | trd | mvd | mfd | wait | msg | qput | qget | evt | time
  | budget | yield | trap | rett | sysr
  deriving DecidableEq, Repr

/-- The ALU group by FUNC (R264). -/
def aluOp (f : Nat) : Option Op :=
  match f with
  | 0x00 => some .add | 0x01 => some .sub | 0x02 => some .and_ | 0x03 => some .or_ | 0x04 => some .xor_
  | 0x05 => some .shl | 0x06 => some .shr | 0x07 => some .sra | 0x08 => some .ror | 0x09 => some .mul
  | 0x0A => some .cmp | 0x10 => some .swap16 | 0x11 => some .swap32 | 0x12 => some .crc
  | 0x20 => some .jr | 0x21 => some .jalr
  | _ => none

/-- The instruction that a word is, by its opcode and FUNC (R259, R264); none for a reserved one. -/
def opOf (w : Word) : Option Op :=
  match bits w 26 6 with
  | 0x00 => aluOp (bits w 0 6)
  | 0x01 => some .addi | 0x02 => some .andi | 0x03 => some .ori | 0x04 => some .xori | 0x05 => some .lui
  | 0x06 => some .cmpi | 0x07 => some .shi | 0x08 => some .bfx | 0x09 => some .bfi
  | 0x0A => some .ldw | 0x0B => some .ldh | 0x0C => some .ldb
  | 0x0D => some .stw | 0x0E => some .sth | 0x0F => some .stb
  | 0x10 => some .ldl | 0x11 => some .stl | 0x12 => some .ldd | 0x13 => some .std
  | 0x18 => some .b | 0x19 => some .bl
  | 0x20 => some .cyr | 0x21 => some .cyw | 0x22 => some .cywn | 0x23 => some .cyl | 0x24 => some .poll
  | 0x25 => some .trd | 0x26 => some .mvd | 0x27 => some .mfd | 0x28 => some .wait | 0x29 => some .msg
  | 0x2A => some .qput | 0x2B => some .qget | 0x2C => some .evt | 0x2D => some .time
  | 0x2E => some .budget | 0x2F => some .yield | 0x30 => some .trap | 0x31 => some .rett
  | 0x32 => some .sysr
  | _ => none

/-! ## Flags (R263) -/

/-- Z and N of a result; C and V unchanged. -/
def Arch.setZN (a : Arch) (r : Word) : Arch := { a with z := r == 0, n := r.getLsbD 31 }

/-- Z, N, C and V of a sum of two words. -/
def Arch.setAdd (a : Arch) (x y : Word) : Arch :=
  { a.setZN (x + y) with
    c := decide (2 ^ 32 ≤ x.toNat + y.toNat),
    v := decide (x.toInt + y.toInt < -(2 ^ 31)) || decide (2 ^ 31 ≤ x.toInt + y.toInt) }

/-- Z, N, C and V of a difference: C is 1 when no borrow occurs. -/
def Arch.setSub (a : Arch) (x y : Word) : Arch :=
  { a.setZN (x - y) with
    c := decide (y.toNat ≤ x.toNat),
    v := decide (x.toInt - y.toInt < -(2 ^ 31)) || decide (2 ^ 31 ≤ x.toInt - y.toInt) }

/-- A condition of R266; none for the reserved code. -/
def Arch.holds (a : Arch) (cond : Nat) : Option Bool :=
  match cond with
  | 0x0 => some a.z | 0x1 => some (!a.z) | 0x2 => some a.c | 0x3 => some (!a.c)
  | 0x4 => some a.n | 0x5 => some (!a.n) | 0x6 => some a.v | 0x7 => some (!a.v)
  | 0x8 => some (a.c && !a.z) | 0x9 => some (!a.c || a.z)
  | 0xA => some (a.n == a.v) | 0xB => some (a.n != a.v)
  | 0xC => some (!a.z && a.n == a.v) | 0xD => some (a.z || a.n != a.v)
  | 0xE => some true
  | _ => none

/-! ## Registers (R237) -/

/-- Register `r`: w0 reads zero. -/
def Arch.reg (a : Arch) (r : Nat) : Word := if r = 0 then 0 else a.w.getD r 0

/-- Register `r` written: a write of w0 is discarded. -/
def Arch.setReg (a : Arch) (r : Nat) (x : Word) : Arch :=
  if r = 0 then a else { a with w := a.w.set r x }

/-- Word `k` of descriptor `d`. -/
def Arch.dword (a : Arch) (d k : Nat) : Word := BitVec.ofNat 32 ((a.d.getD d 0).toNat / 2 ^ (32 * k))

/-- Word `k` of descriptor `d` written. -/
def Arch.setDword (a : Arch) (d k : Nat) (x : Word) : Arch :=
  let old := (a.d.getD d 0).toNat
  let new := BitVec.ofNat 128 (old - natBits old (32 * k) 32 * 2 ^ (32 * k) + x.toNat * 2 ^ (32 * k))
  { a with d := a.d.set d new }

/-- The shifts of R264 and SHI: 0 SHL, 1 SHR, 2 SRA, 3 ROR. -/
def shiftBy (k : Nat) (x : Word) (s : Nat) : Word :=
  match k with
  | 0 => x <<< s
  | 1 => x >>> s
  | 2 => x.sshiftRight s
  | _ => x.rotateRight s

end Sys2Proof.Machine
end

