-- ==== Sys2Proof/Machine/Issue.lean ====
section
/-! DEFINITION. The issue of an instruction (R260 to R262): when a context's thread issues the word at its PC,
what that does to the PC, and the checks that the families share. -/

namespace Sys2Proof.Machine

/-- The answer of every meaning. -/
abbrev Result := Host.Outcome State Fault Refusal

/-- What an instruction does: it completes and the next one follows; it completes and goes on elsewhere; it
traps without effect; it traps, and what the device found on the way has its own effect afterwards; it waits, with the slots that the wait takes,
and is not started. -/
inductive Res where
  | next (s : State)
  | jump (s : State) (pc : Nat)
  | trap (cause info : Nat)
  | fail (cause info : Nat) (after : State → State)
  | stall (s : State) (slots : Nat)

/-- Whether context `n` issues an instruction: the device runs, GATE admits the context, it is bound to a courier that
runs, and its charge has not reached its budget (R238, R261, R295). -/
def State.canIssue (s : State) (n : Nat) : Bool :=
  s.power == .run && s.run n == 2 && s.gateOpen n && s.courRuns (s.courOf n) && decide (s.get (CTX_CHG_SLOTS n) < s.slotBudget n)

/-- The instruction word at an index (R235). -/
def State.imemWord (s : State) (pc : Nat) : Word := BitVec.ofNat 32 (leNat (readMem s.imem 0 (4 * pc) 4))

/-- The program goes on at an index; past the instruction memory it traps with IMEM (R266). -/
def State.goTo (s : State) (n pc : Nat) : State :=
  let a := s.arch n
  let s := s.setArch n { a with pc := pc }
  if pc < 16384 then s else s.trap n 2 pc

/-- An instruction that waits `k` slots for a resource and is granted it or not (R261): the slots are charged. Not
granted, or with the budget used up while it waits, it is abandoned as not started. -/
def State.waiting (s : State) (n k : Nat) (granted : Bool) (go : State → Res) : Res :=
  let left := s.slotBudget n - s.get (CTX_CHG_SLOTS n)
  if granted && (k == 0 || decide (k < left)) then go (s.charge_ n k) else .stall s (max 1 (min k left))

/-- The instruction at context `n`'s PC issued, if it is `op` (R258, R260 to R262): it is checked against its
reserved fields, its slots are charged, and its effect or its trap follows. A word that is no instruction
traps with ILLEGAL whichever instruction is named, and one that is uncorrectable does not execute. -/
def State.issue (s : State) (n : Nat) (op : Op) (slots : Nat) (legal : Word → Bool)
    (body : State → Word → Res) : State :=
  if s.canIssue n then
    let pc := (s.arch n).pc
    if 16384 ≤ pc then (s.charge_ n 1).trap n 2 pc
    else
      let w := s.imemWord pc
      if s.imemEcc (s.courOf n) pc = .ue then s
      else match opOf w with
      | none => (s.charge_ n 1).trap n 1 w.toNat
      | some o =>
        if o = op then
          if legal w then
            match body s w with
            | .next t => (t.charge_ n slots).goTo n (pc + 1)
            | .jump t p => (t.charge_ n slots).goTo n p
            | .trap c i => (s.charge_ n slots).trap n c i
            | .fail c i f => f ((s.charge_ n slots).trap n c i)
            | .stall t k => t.charge_ n k
          else (s.charge_ n 1).trap n 1 w.toNat
        else s
  else s

/-- An instruction that works on the registers and flags of its context alone. -/
def onArch (n : Nat) (f : Arch → Word → Arch) (s : State) (w : Word) : Res :=
  .next (s.setArch n (f (s.arch n) w))

/-- The reserved fields of the ALU group but for CRC32C (R264): AUX is zero. -/
def auxZero (w : Word) : Bool := fAux w == 0

/-- The reserved fields of format SB for an instruction that uses r alone: d, t and X zero. -/
def onlyR (w : Word) : Bool := fD w == 0 && fT w == 0 && fX w == 0

/-- The address of a load or store (R268, R270): (w[ra] + sext(IMM16)) mod 2^32. -/
def memOff (a : Arch) (w : Word) : Nat := (a.reg (fRa w) + sextImm w).toNat

end Sys2Proof.Machine
end

