-- ==== Sys2Proof/Machine/Alu.lean ====
section
/-! DEFINITION. Arithmetic, logic, bit-field, byte order and CRC instructions, jumps and branches (R264 to
R267). -/

namespace Sys2Proof.Machine

/-- A result with flags Z and N written to rd. -/
def resZN (f : Arch → Word → Word) (a : Arch) (w : Word) : Arch :=
  let r := f a w
  (a.setZN r).setReg (fRd w) r

/-- The operands of the ALU group. -/
def opA (a : Arch) (w : Word) : Word := a.reg (fRa w)
@[inherit_doc opA] def opB (a : Arch) (w : Word) : Word := a.reg (fRb w)

/-- IMM16 filled with zeros. -/
def zextImm (w : Word) : Word := BitVec.ofNat 32 (fImm w)

/-- The bytes of each half exchanged (SWAP16). -/
def swapHalves (x : Word) : Word :=
  BitVec.ofNat 32 (bits x 16 8 * 2 ^ 24 + bits x 24 8 * 2 ^ 16 + bits x 0 8 * 2 ^ 8 + bits x 8 8)

/-- The bytes of the word reversed (SWAP32). -/
def swapBytes (x : Word) : Word :=
  BitVec.ofNat 32 (bits x 0 8 * 2 ^ 24 + bits x 8 8 * 2 ^ 16 + bits x 16 8 * 2 ^ 8 + bits x 24 8)

/-- CRC32C.n over the low bytes of ra, from the running value in rd (R267). -/
def crcStep (a : Arch) (w : Word) : Word :=
  (leBytes (2 ^ fAux w) (a.reg (fRa w)).toNat).foldl crc32cByte (a.reg (fRd w))

/-- A bit field taken from bit `p`, `k` bits wide, sign-extended if `x` (BFX). -/
def takeField (v : Word) (p k : Nat) (x : Bool) : Word :=
  let f := bits v p k
  BitVec.ofNat 32 (if x && bitAt f (k - 1) then f + (2 ^ 32 - 2 ^ k) else f)

/-- A bit field of `k` bits put at bit `p` of a word (BFI). -/
def putField (old v : Word) (p k : Nat) : Word := setBits old p k v.toNat

/-- Position and width of a bit-field instruction. -/
def bfP (w : Word) : Nat := bits w 0 5
@[inherit_doc bfP] def bfW (w : Word) : Nat := bits w 5 5 + 1

/-- The target of a branch (R266): its own index plus OFF, sign-extended from bit 19; none below 0. -/
def branchTo (pc : Nat) (w : Word) : Int :=
  (pc : Int) + (if fOff w < 2 ^ 19 then (fOff w : Int) else (fOff w : Int) - 2 ^ 20)

/-- A taken branch or jump: a target outside the instruction memory traps with IMEM (R266), with the target
as 32 bits in INFO. -/
def takeBranch (t : State) (target : Int) : Res :=
  if 0 ≤ target ∧ target < 16384 then .jump t target.toNat
  else .trap 2 (target % 2 ^ 32).toNat

/-- ADD (R264). -/
def execAdd (n : Fin 256) (s : State) : Result :=
  .next (s.issue n.val .add 1 auxZero (onArch n.val (fun a w => (a.setAdd (opA a w) (opB a w)).setReg (fRd w) (opA a w + opB a w))))

/-- SUB (R264). -/
def execSub (n : Fin 256) (s : State) : Result :=
  .next (s.issue n.val .sub 1 auxZero (onArch n.val (fun a w => (a.setSub (opA a w) (opB a w)).setReg (fRd w) (opA a w - opB a w))))

/-- AND (R264). -/
def execAnd (n : Fin 256) (s : State) : Result :=
  .next (s.issue n.val .and_ 1 auxZero (onArch n.val (resZN (fun a w => opA a w &&& opB a w))))

/-- OR (R264). -/
def execOr (n : Fin 256) (s : State) : Result :=
  .next (s.issue n.val .or_ 1 auxZero (onArch n.val (resZN (fun a w => opA a w ||| opB a w))))

/-- XOR (R264). -/
def execXor (n : Fin 256) (s : State) : Result :=
  .next (s.issue n.val .xor_ 1 auxZero (onArch n.val (resZN (fun a w => opA a w ^^^ opB a w))))

/-- SHL (R264). -/
def execShl (n : Fin 256) (s : State) : Result :=
  .next (s.issue n.val .shl 1 auxZero (onArch n.val (resZN (fun a w => shiftBy 0 (opA a w) (bits (opB a w) 0 5)))))

/-- SHR (R264). -/
def execShr (n : Fin 256) (s : State) : Result :=
  .next (s.issue n.val .shr 1 auxZero (onArch n.val (resZN (fun a w => shiftBy 1 (opA a w) (bits (opB a w) 0 5)))))

/-- SRA (R264). -/
def execSra (n : Fin 256) (s : State) : Result :=
  .next (s.issue n.val .sra 1 auxZero (onArch n.val (resZN (fun a w => shiftBy 2 (opA a w) (bits (opB a w) 0 5)))))

/-- ROR (R264). -/
def execRor (n : Fin 256) (s : State) : Result :=
  .next (s.issue n.val .ror 1 auxZero (onArch n.val (resZN (fun a w => shiftBy 3 (opA a w) (bits (opB a w) 0 5)))))

/-- MUL, in 2 slots (R264). -/
def execMul (n : Fin 256) (s : State) : Result :=
  .next (s.issue n.val .mul 2 auxZero (onArch n.val (resZN (fun a w => opA a w * opB a w))))

/-- CMP (R264). -/
def execCmp (n : Fin 256) (s : State) : Result :=
  .next (s.issue n.val .cmp 1 (fun w => auxZero w && fRd w == 0) (onArch n.val (fun a w => a.setSub (opA a w) (opB a w))))

/-- SWAP16 (R264). -/
def execSwap16 (n : Fin 256) (s : State) : Result :=
  .next (s.issue n.val .swap16 1 (fun w => auxZero w && fRb w == 0) (onArch n.val (resZN (fun a w => swapHalves (opA a w)))))

/-- SWAP32 (R264). -/
def execSwap32 (n : Fin 256) (s : State) : Result :=
  .next (s.issue n.val .swap32 1 (fun w => auxZero w && fRb w == 0) (onArch n.val (resZN (fun a w => swapBytes (opA a w)))))

/-- CRC32C.n (R267). -/
def execCrc32c (n : Fin 256) (s : State) : Result :=
  .next (s.issue n.val .crc 1 (fun w => fRb w == 0 && decide (fAux w < 3)) (onArch n.val (resZN crcStep)))

/-- JR (R264, R266). -/
def execJr (n : Fin 256) (s : State) : Result :=
  .next (s.issue n.val .jr 1 (fun w => auxZero w && fRd w == 0 && fRb w == 0) (fun s w => takeBranch s (opA (s.arch n.val) w).toNat))

/-- JALR: the target is read before rd is written (R264, R266). -/
def execJalr (n : Fin 256) (s : State) : Result :=
  .next (s.issue n.val .jalr 1 (fun w => auxZero w && fRb w == 0) (fun s w =>
    let a := s.arch n.val
    takeBranch (s.setArch n.val (a.setReg (fRd w) (BitVec.ofNat 32 (a.pc + 1)))) (opA a w).toNat))

/-- ADDI (R265). -/
def execAddi (n : Fin 256) (s : State) : Result :=
  .next (s.issue n.val .addi 1 (fun _ => true) (onArch n.val (fun a w => (a.setAdd (opA a w) (sextImm w)).setReg (fRd w) (opA a w + sextImm w))))

/-- ANDI (R265). -/
def execAndi (n : Fin 256) (s : State) : Result :=
  .next (s.issue n.val .andi 1 (fun _ => true) (onArch n.val (resZN (fun a w => opA a w &&& zextImm w))))

/-- ORI (R265). -/
def execOri (n : Fin 256) (s : State) : Result :=
  .next (s.issue n.val .ori 1 (fun _ => true) (onArch n.val (resZN (fun a w => opA a w ||| zextImm w))))

/-- XORI (R265). -/
def execXori (n : Fin 256) (s : State) : Result :=
  .next (s.issue n.val .xori 1 (fun _ => true) (onArch n.val (resZN (fun a w => opA a w ^^^ zextImm w))))

/-- LUI (R265). -/
def execLui (n : Fin 256) (s : State) : Result :=
  .next (s.issue n.val .lui 1 (fun w => fRa w == 0) (onArch n.val (fun a w => a.setReg (fRd w) (zextImm w <<< 16))))

/-- CMPI (R265). -/
def execCmpi (n : Fin 256) (s : State) : Result :=
  .next (s.issue n.val .cmpi 1 (fun w => fRd w == 0) (onArch n.val (fun a w => a.setSub (opA a w) (sextImm w))))

/-- SHI (R265). -/
def execShi (n : Fin 256) (s : State) : Result :=
  .next (s.issue n.val .shi 1 (fun w => bits w 7 9 == 0) (onArch n.val (resZN (fun a w => shiftBy (bits w 5 2) (opA a w) (bits w 0 5)))))

/-- BFX (R265). -/
def execBfx (n : Fin 256) (s : State) : Result :=
  .next (s.issue n.val .bfx 1 (fun w => bits w 11 5 == 0 && decide (bfP w + bfW w ≤ 32)) (onArch n.val (resZN (fun a w => takeField (opA a w) (bfP w) (bfW w) (bits w 10 1 == 1)))))

/-- BFI (R265). -/
def execBfi (n : Fin 256) (s : State) : Result :=
  .next (s.issue n.val .bfi 1 (fun w => bits w 10 6 == 0 && decide (bfP w + bfW w ≤ 32)) (onArch n.val (resZN (fun a w => putField (a.reg (fRd w)) (opA a w) (bfP w) (bfW w)))))

/-- B (R266). -/
def execB (n : Fin 256) (s : State) : Result :=
  .next (s.issue n.val .b 1 (fun w => bits w 20 2 == 0 && fCond w != 15) (fun s w =>
    let a := s.arch n.val
    if a.holds (fCond w) = some true then takeBranch (s) (branchTo a.pc w) else .next s))

/-- BL (R266). -/
def execBl (n : Fin 256) (s : State) : Result :=
  .next (s.issue n.val .bl 1 (fun w => bits w 20 2 == 0 && fCond w != 15) (fun s w =>
    let a := s.arch n.val
    if a.holds (fCond w) = some true then takeBranch (s.setArch n.val (a.setReg 31 (BitVec.ofNat 32 (a.pc + 1)))) (branchTo a.pc w) else .next s))

end Sys2Proof.Machine
end

