-- ==== Sys2Proof/Machine/ChainLine.lean ====
section
/-! DEFINITION. The characters on the line of an Outpost chain (R380): 8b/10b code groups with their running disparity.
The spec names the code and its characters; the code groups are those of the published 8b/10b code (PRESUMED, log
entry 147). -/

namespace Sys2Proof.Machine

/-- A character before it is coded (R380): control or data. -/
structure ChainChar where
  control : Bool
  byte : Byte
  deriving DecidableEq, Repr

/-- SOF, K27.7 (R380). -/
def charSof : ChainChar := ⟨true, 0xFB⟩

/-- EOF, K29.7 (R380). -/
def charEof : ChainChar := ⟨true, 0xFD⟩

/-- The idle pair K28.5 and D16.2 (R380). -/
def idlePair : List ChainChar := [⟨true, 0xBC⟩, ⟨false, 0x50⟩]

/-- The six bits a to i for the low five bits of a byte at negative running disparity, a the most significant. -/
def sixBits : List (BitVec 6) :=
  [0b100111, 0b011101, 0b101101, 0b110001, 0b110101, 0b101001, 0b011001, 0b111000,
   0b111001, 0b100101, 0b010101, 0b110100, 0b001101, 0b101100, 0b011100, 0b010111,
   0b011011, 0b100011, 0b010011, 0b110010, 0b001011, 0b101010, 0b011010, 0b111010,
   0b110011, 0b100110, 0b010110, 0b110110, 0b001110, 0b101110, 0b011110, 0b101011]

/-- The four bits f to j for the high three bits of a data byte at negative running disparity, f the most significant. -/
def fourBits : List (BitVec 4) := [0b1011, 0b1001, 0b0101, 0b1100, 0b1101, 0b1010, 0b0110, 0b1110]

/-- The four bits f to j of a control character at negative running disparity. -/
def fourControl : List (BitVec 4) := [0b1011, 0b0110, 0b1010, 0b1100, 0b1101, 0b0101, 0b1001, 0b0111]

/-- The bits set in a number of `w` bits. -/
def ones (w v : Nat) : Nat := ((List.range w).map (fun i => v / 2 ^ i % 2)).sum

/-- A block sent at a running disparity, `up` for positive: its complement where `flips` and the disparity is positive;
and the disparity after it, which an unbalanced block turns over. -/
def atDisparity {w : Nat} (v : BitVec w) (flips up : Bool) : BitVec w × Bool :=
  let v := if flips && up then ~~~v else v
  (v, if 2 * ones w v.toNat = w then up else decide (w < 2 * ones w v.toNat))

/-- The code group of a character at a running disparity, bit a in bit 0, which is sent first (R380), and the disparity
after it. -/
def codeGroup (up : Bool) (c : ChainChar) : BitVec 10 × Bool :=
  let x := c.byte.toNat % 32
  let y := c.byte.toNat / 32
  let six := if c.control && x == 28 then 0b001111 else sixBits.getD x 0
  let a := atDisparity six (ones 6 six.toNat != 3 || x == 7) up
  let alt := !c.control && y == 7 && (if a.2 then [11, 13, 14] else [17, 18, 20]).contains x
  let four := if c.control then fourControl.getD y 0 else if alt then 0b0111 else fourBits.getD y 0
  let b := atDisparity four (c.control || ones 4 four.toNat != 2 || y == 3) a.2
  ((a.1 ++ b.1).reverse, b.2)

/-- Characters coded one after another, and the running disparity after the last. -/
def codeGroups (up : Bool) : List ChainChar → List (BitVec 10) × Bool
  | [] => ([], up)
  | c :: t =>
    let g := codeGroup up c
    let r := codeGroups g.2 t
    (g.1 :: r.1, r.2)

/-- The characters of a frame (R380, R382): SOF, its bytes and EOF. -/
def frameChars (d : List Byte) : List ChainChar := charSof :: d.map (⟨false, ·⟩) ++ [charEof]

/-- What stands on OPc_OPD outside a frame (R379, R380): a constant differential low, or idle pairs. -/
inductive ChainLine where
  | low
  | idle
  deriving DecidableEq, Repr

end Sys2Proof.Machine
end

