-- ==== Sys2Proof/Machine/DataMem.lean ====
section
/-! DEFINITION. Loads and stores of data memory, descriptor registers and the Ledger (R268 to R270). A
command that reads a word says what the word's check finds. -/

namespace Sys2Proof.Machine

/-- The traps of a data memory access (R262, R268): range before alignment. -/
def State.dataTrap (s : State) (n off size align : Nat) : Option (Nat × Nat) :=
  if s.dataSize n < off + size then some (3, off)
  else if off % align ≠ 0 then some (5, off)
  else none

/-- A load of `size` bytes from the data area (R268). A corrected word is written back and read again; an
uncorrectable one traps and retires the courier (R412). -/
def State.load (s : State) (n : Nat) (w : Word) (size align : Nat) (found : Found)
    (put : State → Nat → State) : Res :=
  let off := memOff (s.arch n) w
  match s.dataTrap n off size align with
  | some t => .trap t.1 t.2
  | none =>
    let p := s.dataAt n off
    let c := s.courOf n
    let r := s.dmemRead p size
    if r.2 || found == .bad then .fail 4 off (fun s => s.dmemBadWord c p)
    else
      let s := put s (leNat r.1)
      match found with
      | .corrected clean => .next (s.wordRetest c clean)
      | _ => .next s

/-- A store of bytes to the data area (R268). A store that meets an uncorrectable word which it does not
cover has to read it, and traps with DMEM_UE. -/
def State.store (s : State) (n : Nat) (w : Word) (size align : Nat) (v : Nat) : Res :=
  let off := memOff (s.arch n) w
  match s.dataTrap n off size align with
  | some t => .trap t.1 t.2
  | none =>
    let p := s.dataAt n off
    let c := s.courOf n
    if s.dmemMeets p size then .fail 4 off (fun s => s.dmemBadWord c p)
    else .next (s.dmemWrite p (leBytes size v))

/-- A word register loaded. -/
def toReg (n r : Nat) (s : State) (v : Nat) : State :=
  s.setArch n ((s.arch n).setReg r (BitVec.ofNat 32 v))

/-- LDW (R268). -/
def execLdw (n : Fin 256) (found : Found) (s : State) : Result :=
  .next (s.issue n.val .ldw 1 (fun _ => true)
    (fun s w => s.load n.val w 4 4 found (toReg n.val (fRd w))))

/-- LDH (R268). -/
def execLdh (n : Fin 256) (found : Found) (s : State) : Result :=
  .next (s.issue n.val .ldh 1 (fun _ => true)
    (fun s w => s.load n.val w 2 2 found (toReg n.val (fRd w))))

/-- LDB (R268). -/
def execLdb (n : Fin 256) (found : Found) (s : State) : Result :=
  .next (s.issue n.val .ldb 1 (fun _ => true)
    (fun s w => s.load n.val w 1 1 found (toReg n.val (fRd w))))

/-- STW (R268). -/
def execStw (n : Fin 256) (s : State) : Result :=
  .next (s.issue n.val .stw 1 (fun _ => true)
    (fun s w => s.store n.val w 4 4 ((s.arch n.val).reg (fRd w)).toNat))

/-- STH (R268). -/
def execSth (n : Fin 256) (s : State) : Result :=
  .next (s.issue n.val .sth 1 (fun _ => true)
    (fun s w => s.store n.val w 2 2 ((s.arch n.val).reg (fRd w)).toNat))

/-- STB (R268). -/
def execStb (n : Fin 256) (s : State) : Result :=
  .next (s.issue n.val .stb 1 (fun _ => true)
    (fun s w => s.store n.val w 1 1 ((s.arch n.val).reg (fRd w)).toNat))

/-- LDD, in 2 slots (R268). -/
def execLdd (n : Fin 256) (found : Found) (s : State) : Result :=
  .next (s.issue n.val .ldd 2 (fun w => bits w 24 2 == 0)
    (fun s w => s.load n.val w 16 8 found (fun s v =>
      let a := s.arch n.val
      s.setArch n.val { a with d := a.d.set (bits w 21 3) (BitVec.ofNat 128 v) })))

/-- STD, in 2 slots (R268). -/
def execStd (n : Fin 256) (s : State) : Result :=
  .next (s.issue n.val .std 2 (fun w => bits w 24 2 == 0)
    (fun s w => s.store n.val w 16 8 ((s.arch n.val).d.getD (bits w 21 3) 0).toNat))

/-- MVD (R269). -/
def execMvd (n : Fin 256) (s : State) : Result :=
  .next (s.issue n.val .mvd 1 (fun w => fT w == 0 && bits w 2 13 == 0)
    (onArch n.val (fun a w => a.setDword (fD w) (bits w 0 2) (a.reg (fRd w)))))

/-- MFD (R269). -/
def execMfd (n : Fin 256) (s : State) : Result :=
  .next (s.issue n.val .mfd 1 (fun w => fT w == 0 && bits w 2 13 == 0)
    (onArch n.val (fun a w => a.setReg (fRd w) (a.dword (fD w) (bits w 0 2)))))

/-- The traps of a Ledger access (R262, R270): alignment before the range. -/
def State.ledgerTrap (s : State) (off : Nat) : Option (Nat × Nat) :=
  if off % 4 ≠ 0 then some (5, off)
  else if s.member.ledgerBytes < off + 4 then some (6, off)
  else none

/-- The check of the Ledger word that holds offset `o` finds what the command says. -/
def State.ledgerFound (s : State) (o : Nat) (e : Ecc) : State :=
  let w := s.ledgerAt o / 8
  if e = .ok ∨ mget s.ledgerBad w .ok = .ue then s else { s with ledgerBad := mput s.ledgerBad w e .ok }

/-- The slots that the backoffs of the Ledger port add to a load: each its count of CORE cycles, 4 to a slot, rounded up
(R232, R270, R341). -/
def backoffSlots (bs : List (BitVec 11)) : Nat := (bs.map (fun b => (b.toNat + 3) / 4)).sum

/-- LDL (R270): the Ledger port backs it off as often as the command says, and grants it or not. The word's check finds
what the command says. -/
def execLdl (n : Fin 256) (x : LoadGrant) (s : State) : Result :=
  .next (s.issue n.val .ldl 6 (fun _ => true) (fun s w =>
    let off := memOff (s.arch n.val) w
    let k := backoffSlots x.backoffs
    match s.ledgerTrap off with
    | some t => .trap t.1 t.2
    | none => s.waiting n.val k x.granted (fun s =>
      let r := (s.ledgerFound off x.found).ledgerRead 0 n.val off 4
      if r.2.2 then .fail 7 off (fun s => (((s.ledgerFound off x.found).ledgerRead 0 n.val off 4).1).charge_ n.val k)
      else .next (toReg n.val (fRd w) r.1 (leNat r.2.1)))))

/-- STL, in 2 slots (R270, R212): it waits for port space for some slots, and is granted it or not (R261). -/
def execStl (x : StoreGrant) (s : State) : Result :=
  let n := x.n
  .next (s.issue n.val .stl 2 (fun _ => true) (fun s w =>
    let off := memOff (s.arch n.val) w
    match s.ledgerTrap off with
    | some t => .trap t.1 t.2
    | none => s.waiting n.val x.waited x.granted (fun s =>
      let v := (s.arch n.val).reg (fRd w)
      let ws := offsets off (leBytes 4 v.toNat)
      let r := s.ledgerWrite 0 n.val ws
      match r.2 with
      | .ok => .next r.1
      | .te => .fail 7 off (fun s => ((s.ledgerWrite 0 n.val ws).1).charge_ n.val x.waited)
      | .refused => .fail 6 off (fun s => ((s.ledgerWrite 0 n.val ws).1).charge_ n.val x.waited)
      | .forward => .next (s.ledgerAway n.val ws)
      | .un => .next (s.ledgerFail n.val stUN off 4))))

end Sys2Proof.Machine
end

