-- ==== Sys2Proof/Machine/BusCycles.lean ====
section
/-! DEFINITION. The bus cycle instructions (R271 to R278) and the reading of tokens (R279). -/

namespace Sys2Proof.Machine

/-- A descriptor's fields (R271). -/
structure Desc where
  a : Nat
  space : Nat
  width : Nat
  burst : Bool
  order : Nat
  seg : Nat
  retry : Nat
  tmo : Nat
  loc : Nat
  buf : Nat
  len : Nat
  mask : Nat
  reserved : Bool
  deriving DecidableEq, Repr

/-- A descriptor register read as a bus cycle descriptor (R271). -/
def descOf (x : BitVec 128) : Desc :=
  let v := x.toNat
  { a := natBits v 0 24, space := natBits v 24 2, width := natBits v 26 2, burst := bitAt v 28,
    order := natBits v 29 2, seg := natBits v 32 2, retry := natBits v 36 4, tmo := natBits v 40 9,
    loc := natBits v 50 2, buf := natBits v 64 23, len := natBits v 87 9, mask := natBits v 96 32,
    reserved := natBits v 34 2 != 0 || bitAt v 49 || natBits v 52 12 != 0 }

/-- The cycles of the bus instructions (R274). -/
inductive BusOp where
  | read | posted | nonposted | locked | poll
  deriving DecidableEq, Repr

/-- Whether a descriptor traps with DESC under an instruction (R272, R277, R278). A POLL ignores WIDTH, BURST,
ORDER and LEN. -/
def State.descBad (s : State) (o : BusOp) (d : Desc) : Bool :=
  !s.hasSeg d.seg || d.reserved || decide (400 < d.tmo) || d.loc == 3 ||
  match o with
  | .poll => d.space != 3 || d.loc != 0 || decide (4 ≤ d.a)
  | _ =>
    d.width == 3 || decide (255 < d.len) || d.space == 3 || (d.loc == 0 && decide (3 < d.len)) ||
    (d.space == 2 && natBits d.a 16 5 == 0) || decide (0xFFFFFF < d.a + d.len) ||
    (o == .locked && (d.loc != 0 || d.burst))

/-- The trap of a buffer that leaves its memory (R272). -/
def State.bufTrap (s : State) (n : Nat) (d : Desc) : Option (Nat × Nat) :=
  if d.loc = 1 ∧ s.dataSize n < d.buf + d.len + 1 then some (3, d.buf)
  else if d.loc = 2 ∧ s.member.ledgerBytes < d.buf + d.len + 1 then some (6, d.buf)
  else none

/-- The job of a bus instruction (R273), with its bytes if it writes. -/
def State.descJob (s : State) (n : Nat) (o : BusOp) (d : Desc) (owner : JobOwner) (v : Word)
    (bytes : List Byte) : Job :=
  let k := orderMask d.order
  let width := s.beatWidth d.seg d.width
  let len := if o = .poll then 2 else d.len + 1
  let j : Job :=
    { owner := owner, ctx := n, spc := d.space, write := o == .posted || o == .nonposted, width := width,
      burst := d.burst, beats := if o = .poll then [] else splitBeats d.a k width 0 bytes, base := d.a,
      off := 0, xor := k, len := len, retries := 0, retryMax := d.retry, answers := 0,
      tmo := d.tmo * 500, wait := .ready, defers := 0, deferred := false, lock := none, role := .none,
      poll := if o = .poll then some (d.a % 4) else none, rmw := .none, back := false, got := [], moved := 0,
      busNs := 0, order := s.order, buf := if o = .read then d.loc else 0, bufAt := d.buf }
  if o = .locked then
    let g : Fin 4 := Fin.ofNat 4 d.seg
    { j with lock := some (.native g), role := .whole, rmw := .merge d.mask v.toNat }
  else j

/-- The source bytes of a posted or non-posted write (R274): from the register, data memory or the Ledger;
none where an uncorrectable word is met. -/
def State.sourceBytes (s : State) (n : Nat) (d : Desc) (v : Word) : State × Option (List Byte) :=
  if d.loc = 0 then (s, some (leBytes (d.len + 1) v.toNat))
  else if d.loc = 1 then
    let r := s.dmemRead (s.dataAt n d.buf) (d.len + 1)
    (s, if r.2 then none else some r.1)
  else
    let r := s.ledgerRead 0 n d.buf (d.len + 1)
    (r.1, if r.2.2 then none else some r.2.1)

/-- A courier tag taken and the token PENDING (R242, R274): its earlier result is discarded. -/
def State.takeToken (s : State) (n t : Nat) : State :=
  let a := s.arch n
  let k := s.get COUR_TAGS_IN_USE + 1
  let s := ((s.setArch n { a with tagWait := false }).setToken n t ⟨1, 0, 0, 0, 0⟩).put COUR_TAGS_IN_USE k
  if s.get COUR_TAGS_HIGH < k then s.put COUR_TAGS_HIGH k else s

/-- No courier tag is free (R242): the wait is counted once. -/
def State.tagStall (s : State) (n : Nat) : State :=
  let a := s.arch n
  if a.tagWait then s else (s.bump COUR_TAGS_TAG_STALL).setArch n { a with tagWait := true }

/-- A bus instruction issued against its descriptor and token (R272 to R278). -/
def busIssue (o : BusOp) (n : Nat) (s : State) (w : Word) : Res :=
  let a := s.arch n
  let t := fT w
  let d := descOf (a.d.getD (fD w) 0)
  let v := a.reg (fRd w)
  if s.descBad o d then .trap 9 (fD w)
  else
    match s.bufTrap n d with
    | some x => .trap x.1 x.2
    | none =>
      if (s.token n t).state = 1 then .trap 8 t
      else if 128 ≤ s.get COUR_TAGS_IN_USE then .stall (s.tagStall n) 1
      else
        let writes := o == .posted || o == .nonposted
        let r := if writes then s.sourceBytes n d v else (s, some (List.replicate (d.len + 1) 0))
        match r.2 with
        | none =>
          if d.loc = 1 then
            let c := s.courOf n
            .fail 4 d.buf (fun s => s.dmemBadWord c (s.dataAt n d.buf))
          else .next ((r.1.takeToken n t).resolveToken n t stTE 0 0 0)
        | some bytes =>
          let s := r.1.takeToken n t
          if !s.owns d.seg then
            .next ((s.resolveToken n t stUN 0 0 0).pollOver d.seg (if o = .poll then some (d.a % 4) else none))
          else
            let owner : JobOwner := if o = .posted then .courierWrite n else .token n t
            let j := s.descJob n o d owner v bytes
            let s := { s with order := s.order + 1 }.addJob d.seg j
            .next (if o = .posted then s.resolveToken n t stSC 0 0 0 else s)

/-- CYR, in 2 slots (R274). -/
def execCyr (n : Fin 256) (s : State) : Result :=
  .next (s.issue n.val .cyr 2 (fun w => fX w == 0 && fRd w == 0) (busIssue .read n.val))

/-- CYW, in 2 slots (R274, R275). -/
def execCyw (n : Fin 256) (s : State) : Result :=
  .next (s.issue n.val .cyw 2 (fun w => fX w == 0) (busIssue .posted n.val))

/-- CYWN, in 2 slots (R274). -/
def execCywn (n : Fin 256) (s : State) : Result :=
  .next (s.issue n.val .cywn 2 (fun w => fX w == 0) (busIssue .nonposted n.val))

/-- CYL, in 2 slots (R274, R277). -/
def execCyl (n : Fin 256) (s : State) : Result :=
  .next (s.issue n.val .cyl 2 (fun w => fX w == 0) (busIssue .locked n.val))

/-- POLL, in 2 slots (R274, R278). -/
def execPoll (n : Fin 256) (s : State) : Result :=
  .next (s.issue n.val .poll 2 (fun w => fX w == 0 && fRd w == 0) (busIssue .poll n.val))

/-- The value of a token under a selector of TRD (R279). -/
def Token.shown (k : Token) (sel : Nat) : Word :=
  if sel = 0 then (if k.state = 2 then k.data else 0)
  else if sel = 1 then
    BitVec.ofNat 32 (k.state + (if k.state = 2 then k.status * 2 ^ 4 else 0) + min 15 k.retries * 2 ^ 8)
  else BitVec.ofNat 32 k.busNs

/-- A token as it stands: while PENDING, with the answers and the bus time of its cycle so far (R279). -/
def State.tokenNow (s : State) (n t : Nat) : Token :=
  let k := s.token n t
  if k.state = 1 then
    match (((List.range 4).map (fun g => (s.seg g).jobs)).flatten).find? (fun j => j.owner == .token n t) with
    | some j => { k with busNs := j.busNs, retries := j.answers }
    | none => k
  else k

/-- TRD (R279). -/
def execTrd (n : Fin 256) (s : State) : Result :=
  .next (s.issue n.val .trd 1 (fun w => fD w == 0 && bits w 2 13 == 0 && bits w 0 2 != 3)
    (fun s w =>
      let x := (s.tokenNow n.val (fT w)).shown (bits w 0 2)
      .next (s.setArch n.val (((s.arch n.val).setZN x).setReg (fRd w) x))))

end Sys2Proof.Machine
end

