-- ==== Sys2Proof/Machine/Flacon.lean ====
section
/-! DEFINITION. What consumers of the Flacon queues get (R327 to R334): pops, QGET, errors of queue words,
resets for a fault, and the compatibility ports' words. -/

namespace Sys2Proof.Machine

/-- A queue reset for a fault (R334, R406, R411): captured, raised, and the chain test asked for; until it
ends the queue accepts no word. -/
def State.queueFault (s : State) (q cause : Nat) : State :=
  let s := ((s.resetQueue q).queueCapture q cause).raise 47 0 0
  let s := s.queueTest (.chain q) 0
  if s.tests.any (fun t => t.res == Resource.chain q) then
    let x := s.queue q
    s.setQueue q { x with testing := true }
  else s

/-- Words whose check finds what the command says, each in its turn; what it does not name stays as it was. -/
def markWords : List Ecc → List QWord → List QWord
  | e :: es, w :: ws => (if e = .ok then w else { w with ecc := e }) :: markWords es ws
  | _, ws => ws

/-- A packet whose words from its head on, the length word first while it is to be taken, the check finds so. -/
def QPacket.found (p : QPacket) (es : List Ecc) : QPacket :=
  if p.lenLeft then
    let e := es.headD .ok
    { p with lenEcc := if e = .ok then p.lenEcc else e, words := markWords es.tail p.words }
  else { p with words := markWords es p.words }

/-- The check of the words at the head of queue `q` finds what the command says (R332). -/
def State.headFound (s : State) (q : Nat) (es : List Ecc) : State :=
  let x := s.queue q
  match x.items, x.packets with
  | i :: is, _ => if es.headD .ok = .ok then s else s.setQueue q { x with items := { i with ecc := es.headD .ok } :: is }
  | [], [] => s
  | [], p :: ps => if p.isOpen then s else s.setQueue q { x with packets := p.found es :: ps }

/-- Whether queue `q` delivers nothing now (R411). -/
def Queue.closedDown (x : Queue) : Bool := x.testing || x.retired

/-- Words taken from queue `q` (R328, R332): none where it holds no closed packet, or where an uncorrectable
length word resets it. -/
def State.takeFrom (s : State) (q n : Nat) (dataOnly : Bool) : State × Option Taken :=
  let x := s.queue q
  if x.closedDown then (s, none)
  else
    match (if dataOnly then x.takeData else x.take n) with
    | none => (s, none)
    | some t =>
      if t.lenUe then ((s.ringTest q (s.headPlace q 0)).queueFault q 2, none)
      else
        let place := s.headPlace q (s.queue q).firstBad
        ((s.setQueue q t.q).wordsChecked q place t.ce t.ue, some t)

/-- One word after the other, two to a read word (R328). -/
def pairUp (ws : List Word) : List Byte :=
  let bs := (ws.map (fun w => leBytes 4 w.toNat)).flatten
  bs ++ List.replicate (4 * (ws.length % 2)) 0

/-- A pop of queue `q` by a read of `n` bytes (R327, R328): the state and the bytes returned. A read of 8 bytes has room
for the tag alone and takes no word. -/
def State.pop (s : State) (q n : Nat) : State × List Byte :=
  let r := if n < 16 then (s, none) else s.takeFrom q ((n - 8) / 4) false
  let s := r.1
  let x := s.queue q
  let loss := x.loss || x.retired
  let s := s.setQueue q { x with loss := false }
  let x := s.queue q
  match r.2 with
  | none =>
    let left := if n < 16 ∧ !x.closedDown then min 0xFFFF x.closed else 0
    (s, leBytes 8 (ofBool loss * 8 + left * 2 ^ 32) ++ List.replicate (n - 8) 0)
  | some t =>
    let d := pairUp t.words
    let tag := 1 + ofBool t.start * 2 + ofBool t.finish * 4 + ofBool loss * 8 + ofBool t.ue * 16 +
      (if t.words.length % 2 = 1 then 4 else 8) * 2 ^ 8 + (t.words.length + 1) / 2 % 256 * 2 ^ 16 +
      min 0xFFFF x.closed * 2 ^ 32
    (s, leBytes 8 tag ++ d ++ List.replicate (n - 8 - d.length) 0)

/-- Interrupt items that wait in their segment enter their work queues, each as credits allow (R326). -/
def State.feedHeld (s : State) (g : Nat) : State :=
  (s.seg g).held.foldl (fun s w =>
    match s.pushInterrupt (144 + s.get (SEG_INT_WQ (bits w 10 2) (bits w 8 2))) w with
    | none => s
    | some s =>
      let x := s.seg g
      s.setSeg g { x with held := x.held.erase w }) s

/-- A record of the bridge that waits enters its queue, if no packet is open there (R285). -/
def State.feedRecord (s : State) (q : Nat) : State :=
  match s.bridgeWait.find? (fun r => r.queue == q) with
  | none => s
  | some r =>
    if s.mayPut q r.ctx r.src && (s.queue q).openPacket.isNone then
      { s with bridgeWait := s.bridgeWait.filter (fun x => !(x == r)) ++
          (s.bridgeWait.filter (fun x => x == r)).drop 1 }.enterRecord r
    else s

end Sys2Proof.Machine
end

