-- ==== Sys2Proof/Machine/Program.lean ====
section
/-! DEFINITION. The instructions that wait, put and take queue words, and read or control the system (R281 to
R287). -/

namespace Sys2Proof.Machine

/-! ## Waiting (R281, R282) -/

/-- KIND, ALL and ARG of a WAIT. -/
def waitKind (w : Word) : Nat := bits w 13 2
@[inherit_doc waitKind] def waitAll (w : Word) : Bool := bits w 12 1 == 1
@[inherit_doc waitKind] def waitArg (w : Word) : Nat := bits w 0 9

/-- The encodings of WAIT that are not reserved (R258, R281). -/
def waitLegal (w : Word) : Bool :=
  fD w == 0 && fT w == 0 && bits w 9 3 == 0 &&
  match waitKind w with
  | 0 => waitArg w != 0 && decide (waitArg w < 256)
  | 1 => !waitAll w
  | 2 => !waitAll w && waitArg w == 0
  | _ => false

/-- The context's WAIT ends in its first slots: `k` slots are charged and C tells a timeout. -/
def State.waitDone (s : State) (n k : Nat) (timedOut : Bool) : State :=
  let a := s.arch n
  (s.setArch n { a with c := timedOut }).charge_ n k

/-- The context waits, on its thread for the first 4 slots (R240, R281), until the instant `due` of the time base at
most. -/
def State.waitBegin (s : State) (n : Nat) (f : WaitFor) (due : Option Nat) : State :=
  let a := s.arch n
  (s.setArch n { a with waitFor := f, due := due, waitSince := some s.clk }).put (CTX_STAT_RUN n) 3

/-- The effect of a WAIT: its condition holds at once, or a time of 0 ns has passed; or the context waits. -/
def doWait (n : Nat) (s : State) (w : Word) : Res :=
  let a := s.arch n
  let t := (a.reg (fRd w)).toNat
  let timed := fRd w != 0
  match waitKind w with
  | 2 => if t = 0 then .next (s.waitDone n 1 false) else .next (s.waitBegin n .time (some (s.now + t)))
  | k =>
    let f : WaitFor := if k = 0 then .tokens (waitArg w) (waitAll w) else .event (waitArg w)
    if k = 0 && tokensMet a.t (waitArg w) (waitAll w) then .next (s.waitDone n 1 false)
    else if timed && t == 0 then .next (s.waitDone n 1 true)
    else .next (s.waitBegin n f (if timed then some (s.now + t) else none))

/-- WAIT (R281). -/
def execWait (n : Fin 256) (s : State) : Result :=
  .next (s.issue n.val .wait 0 waitLegal (doWait n.val))

/-! ## Queues and messages (R283 to R285) -/

/-- The queue of a context's set that SEL names, or the queue number of the QUEUE trap (R283). -/
def State.selQueue (s : State) (n sel : Nat) : Nat × Bool :=
  if sel = 0 then (s.get (CTX_QUE_NQ n), true)
  else if sel = 1 then (144 + s.get (CTX_QUE_WQ n), s.on (CTX_QUE_WQ_EN n))
  else (s.get (CTX_QUE_AUXQ n), s.on (CTX_QUE_AUX_EN n))

/-- The packet of a program on queue `q` closed, and on its notice queue released, as MSG does (R284). -/
def State.closeOwn (s : State) (n q : Nat) (release : Bool) : State :=
  let s := if s.hasOpen n q then s.closePacket q false else s
  if release then s.programNotice n else s

/-- MSG (R284): with no packet open, an empty packet is released. -/
def doMsg (n : Nat) (s : State) (_ : Word) : Res :=
  let q := s.get (CTX_QUE_NQ n)
  if s.hasOpen n q then .next (s.closeOwn n q true)
  else if !s.mayPut q n 0 then .stall s 1
  else
    let r := s.openEmpty q n 0
    .next ((r.1.raiseLoss q r.2).closeOwn n q true)

/-- MSG, in 2 slots. -/
def execMsg (n : Fin 256) (s : State) : Result :=
  .next (s.issue n.val .msg 2 (fun w => fRd w == 0 && onlyR w) (doMsg n.val))

/-- The flag C of a context set. -/
def State.setC (s : State) (n : Nat) (c : Bool) : State :=
  let a := s.arch n
  s.setArch n { a with c := c }

/-- QPUT (R283): a word appended to a packet, or a work item put. -/
def doQput (n : Nat) (s : State) (w : Word) : Res :=
  let sel := bits w 0 2
  let q := s.selQueue n sel
  let v := (s.arch n).reg (fRd w)
  if !q.2 then .trap 10 q.1
  else if isWorkQueue q.1 then
    match s.pushItem q.1 v with
    | none => .stall s 1
    | some t => .next (t.setC n (t.queue q.1).retired)
  else if !s.mayPut q.1 n 0 then .stall s 1
  else
    let r := s.putWord q.1 n 0 v
    let s := (r.st.raiseLoss q.1 r.lost).setC n r.c
    let e := bits w 2 1 == 1
    if !e then .next s
    else if sel = 0 then doMsg n s w
    else .next (s.closeOwn n q.1 false)

/-- QPUT, in 2 slots. -/
def execQput (n : Fin 256) (s : State) : Result :=
  .next (s.issue n.val .qput 2
    (fun w => fD w == 0 && fT w == 0 && bits w 3 12 == 0 && bits w 0 2 != 3) (doQput n.val))

/-- The mark of an interrupt line's item that a program has taken (R284). -/
def Arch.tookItem (a : Arch) (w : Word) (line : Bool) : Arch :=
  if line then { a with marks := a.marks ++ [(bits w 10 2, bits w 16 16)] } else a

/-- The result of QGET: the word, Z where nothing was available, N where it ends its packet. -/
def State.got (s : State) (n r : Nat) (w : Option Word) (last : Bool) : State :=
  let a := s.arch n
  s.setArch n ({ a with z := w.isNone, n := last }.setReg r (w.getD 0))

/-- QGET (R283, R329, R332). -/
def doQget (n : Nat) (s : State) (w : Word) : Res :=
  let sel := bits w 0 2
  let q := s.selQueue n sel
  if sel = 0 || !q.2 then .trap 10 q.1
  else if sel = 1 then
    let a := s.arch n
    match a.item with
    | none => .next (s.got n (fRd w) none false)
    | some v =>
      let s := s.setArch n ({ a with item := none }.tookItem v a.itemLine)
      .next (s.got n (fRd w) (some v) true)
  else
    let line := match (s.queue q.1).items with
      | i :: _ => i.line
      | [] => false
    let r := s.takeFrom q.1 1 true
    match r.2 with
    | none => .next (r.1.got n (fRd w) none false)
    | some t =>
      match t.words with
      | [] => .next (r.1.got n (fRd w) none false)
      | v :: _ =>
        let a := r.1.arch n
        .next ((r.1.setArch n (a.tookItem v line)).got n (fRd w) (some v) t.finish)

/-- QGET, in 2 slots. -/
def execQget (n : Fin 256) (s : State) : Result :=
  .next (s.issue n.val .qget 2
    (fun w => fD w == 0 && fT w == 0 && bits w 2 13 == 0 && bits w 0 2 != 3) (doQget n.val))

/-! ## Events, time, budgets and control (R286, R287) -/

/-- EVT. -/
def execEvt (n : Fin 256) (s : State) : Result :=
  .next (s.issue n.val .evt 1 (fun w => fD w == 0 && fT w == 0 && bits w 3 12 == 0)
    (fun s w => .next (s.raise (48 + bits w 0 3) n.val ((s.arch n.val).reg (fRd w)).toNat)))

/-- TIME, in 2 slots. -/
def execTime (n : Fin 256) (s : State) : Result :=
  .next (s.issue n.val .time 2 (fun w => onlyR w && fRd w % 2 == 0 && fRd w != 0)
    (fun s w =>
      let a := s.arch n.val
      .next (s.setArch n.val ((a.setReg (fRd w) (BitVec.ofNat 32 s.now)).setReg (fRd w + 1)
        (BitVec.ofNat 32 (s.now / 2 ^ 32))))))

/-- What BUDGET reads (R286). -/
def State.budgetLeft (s : State) (n sel : Nat) : Nat :=
  if sel = 0 then min 0xFFFFFFFF (s.slotBudget n - s.get (CTX_CHG_SLOTS n))
  else min 0xFFFFFFFF (s.busBudget n (sel - 1) - s.busCharged n (sel - 1))

/-- BUDGET. -/
def execBudget (n : Fin 256) (s : State) : Result :=
  .next (s.issue n.val .budget 1
    (fun w => fD w == 0 && fT w == 0 && bits w 3 12 == 0 && decide (bits w 0 3 ≤ 4))
    (fun s w =>
      let v : Word := BitVec.ofNat 32 (s.budgetLeft n.val (bits w 0 3))
      .next (s.setArch n.val (((s.arch n.val).setZN v).setReg (fRd w) v))))

/-- YIELD (R285, R287): the PC has gone on to the next instruction when the context is unbound. -/
def doYield (n : Nat) (s : State) (_ : Word) : Res :=
  let s := s.closePackets n
  let a := s.arch n
  if a.wake then .next (s.setArch n { a with wake := false }) else .next (s.unbind n 0)

/-- YIELD. -/
def execYield (n : Fin 256) (s : State) : Result :=
  .next (s.issue n.val .yield 1 (fun w => fRd w == 0 && onlyR w) (doYield n.val))

/-- TRAP: imm is bits [15:0] of the word. -/
def execTrap (n : Fin 256) (s : State) : Result :=
  .next (s.issue n.val .trap 1 (fun w => fRd w == 0 && fD w == 0 && bits w 16 2 == 0)
    (fun _ w => .trap 11 (bits w 0 16)))

/-- RETT: outside a handler it traps with ILLEGAL. -/
def execRett (n : Fin 256) (s : State) : Result :=
  .next (s.issue n.val .rett 1 (fun w => fRd w == 0 && fD w == 0 && fT w == 0 && bits w 1 14 == 0)
    (fun s w =>
      let a := s.arch n.val
      if a.inTrap then
        .jump ((s.setArch n.val { a with inTrap := false }).put (CTX_STAT_IN_TRAP n.val) 0)
          (a.trapPc + bits w 0 1)
      else .trap 1 w.toNat))

/-- Which segments this device owns and which chains it holds, as SYSR shows them. -/
def State.holdings (s : State) : Nat :=
  ((List.range 4).map (fun g =>
    ofBool (s.hasSeg g && s.get (SEG_STAT_ROLE g) == 2) * 2 ^ g + ofBool (s.holdsChain g) * 2 ^ (4 + g))).sum

/-- The values of SYSR (R286). -/
def State.sysValue (s : State) (n sel : Nat) : Word :=
  let a := s.arch n
  match sel with
  | 0 => BitVec.ofNat 32 a.trapPc
  | 1 => BitVec.ofNat 32 a.lastCause
  | 2 => a.lastInfo
  | 3 => BitVec.ofNat 32 n
  | 4 => BitVec.ofNat 32 (s.courOf n)
  | 5 => BitVec.ofNat 32 (s.get STG_STAT_LEG)
  | _ => BitVec.ofNat 32 s.holdings

/-- SYSR. -/
def execSysr (n : Fin 256) (s : State) : Result :=
  .next (s.issue n.val .sysr 1
    (fun w => fD w == 0 && fT w == 0 && bits w 3 12 == 0 && bits w 0 3 != 7)
    (fun s w =>
      let v := s.sysValue n.val (bits w 0 3)
      .next (s.setArch n.val (((s.arch n.val).setZN v).setReg (fRd w) v))))

end Sys2Proof.Machine
end

