-- ==== Sys2Proof/Machine/Stages.lean ====
section
/-! DEFINITION. Stages, legs and plans (R289 to R302), supply and temperature (R303 to R305), energy (R306 to
R308) and the last-gasp record (R310, R311). -/

namespace Sys2Proof.Machine

/-! ## Boundaries (R289 to R291) -/

/-- Stage length in ns of the timing in force. -/
def Sched.ns (c : Sched) : Nat := c.stage * 1000

/-- The start of leg `j` after the stage start, in ns (R289). -/
def Sched.legAt (c : Sched) (j : Nat) : Nat := j * c.ns / c.legs

/-- Time since the stage start at an instant of the time base (ns). -/
def Sched.phase (c : Sched) (t : Nat) : Nat := (t + c.ns - c.offset * 1000 % c.ns) % c.ns

/-- The leg in which an instant falls (R289). -/
def Sched.legOf (c : Sched) (t : Nat) : Nat :=
  ((List.range c.legs).filter (fun j => decide (c.legAt j ≤ c.phase t))).length - 1

/-- The first boundary after an instant, and whether it starts a stage (R289). -/
def Sched.after (c : Sched) (t : Nat) : Nat × Bool :=
  let j := c.legOf t + 1
  (t + c.legAt j - c.phase t, j == c.legs)

/-- The boundary that ends the leg in progress, and whether it starts a stage (R289, R290): the first after the last
one, or after a step of the time base; one that would end the leg in less than half its nominal length is skipped. -/
def State.nextBoundary (s : State) : Nat × Bool :=
  let c := s.sched
  let b := c.after c.past
  if 2 * (s.clk + b.1 - (c.legClk + s.now)) * c.legs < c.ns then c.after b.1 else b

/-- The timing of STG_TIM and STG_OFS comes into force at a boundary (R291). -/
def State.takeTiming (s : State) (at_ : Nat) : State :=
  { s with sched := { s.sched with
      stage := s.get STG_TIM_STAGE, offset := s.get STG_OFS_OFFSET, legs := s.get STG_TIM_LEGS,
      legClk := s.clk + at_ - s.now, past := at_ } }

/-! ## Plans (R300 to R302) -/

/-- The plan and HOT that conditions and FORCE ask for (R301). -/
def State.planTarget (s : State) : Nat × Bool :=
  let auto := if s.on NRG_STAT_HU then 2 else if s.on NRG_STAT_WARM then 1 else 0
  (max auto (s.get STG_CTL_FORCE - 1), s.on NRG_STAT_HOT)

/-- A change of the target plan or of HOT becomes pending (R301). -/
def State.retarget (s : State) : State :=
  let t := s.planTarget
  if t = (s.get STG_STAT_PLAN, s.on STG_STAT_HOT) then s
  else { s with sched := { s.sched with pend := some t } }.put STG_STAT_SWITCH_PEND 1

/-- What a change of plan does to one context (R302): cut when its charge reaches the lower budget, READY
when a higher budget exceeds its charge. -/
def State.replan (old s : State) (n : Nat) : State :=
  let c := s.get (CTX_CHG_SLOTS n)
  if !s.on (CTX_CTL_PROG_EN n) || s.ctxState n != 2 then s
  else if (decide (s.run n < 4) || s.run n == 6) && decide (s.slotBudget n ≤ c) && decide (c < old.slotBudget n) then s.suspend n true
  else if s.run n == 4 && decide (c < s.slotBudget n) then s.makeReady n
  else s

/-- A pending change of plan takes effect (R301, R302); entering HOLD-UP idles the lanes of excluded channels
(R91, R125). -/
def State.applyPlan (s : State) : State :=
  match s.sched.pend with
  | none => s
  | some (p, h) =>
    let old := s
    let s := { s with sched := { s.sched with pend := none, shortSaid := s.sched.shortSaid && p == 2 } }
    let s := ((s.put STG_STAT_PLAN p).put STG_STAT_HOT (ofBool h)).put STG_STAT_SWITCH_PEND 0
    let s := if p = 2 then (List.range 3).foldl (fun s c =>
        if s.chState c = 2 then s.askIdle c else s) s else s
    let s := s.raise 59 0 0
    s.ctxsOn.foldl (fun s n => State.replan old s n) s

/-! ## Stage starts and releases (R293, R298) -/

/-- A percentage of a budget, saturating (R314). -/
def percent (charge budget cap : Nat) : Nat :=
  if budget = 0 then (if charge = 0 then 0 else cap) else min cap (charge * 100 / budget)

/-- The charges of a context folded into its peaks and cleared (R298). -/
def State.foldCharges (s : State) (n : Nat) : State :=
  let p := percent (s.get (CTX_CHG_SLOTS n)) (s.get (CTX_BUD_SLOT_SLOTS n)) 127
  let s := s.put (CTX_CHG_PEAK n) (max p (s.get (CTX_CHG_PEAK n)))
  let b := (List.range 4).foldl (fun m g =>
    max m (percent (s.busCharged n g) (s.get (CTX_BUD_BUS_BUDGET n g) * 2000) 255)) 0
  let s := (s.put (CTX_USE_BUS_PEAK n) (max b (s.get (CTX_USE_BUS_PEAK n)))).put (CTX_CHG_SLOTS n) 0
  (List.range 4).foldl (fun s g => s.put (CTX_BUD_BUS_CHARGED n g) 0) s

/-- Bus time charged to contexts on segment `g` in this stage, in ns. -/
def State.segCharged (s : State) (g : Nat) : Nat :=
  ((s.busNs.filter (fun e => e.1 % 4 == g)).map (·.2)).sum

/-- Energy of the stage that ends, in µJ, rounded down (R306). -/
def State.stageEnergy (s : State) : Nat :=
  (s.get NRG_COEF0_P_STATIC * s.sched.ns + s.get NRG_COEF0_P_LANE * s.sched.laneNs +
    s.get NRG_COEF1_E_SLOT * (s.courSlots.map (·.2)).sum +
    s.get NRG_COEF1_P_SEG * (s.sched.segNs.map (·.2)).sum) / 1000000

/-- P_STATIC set by the Innkeeper from NRG_TJ (R306): the spec gives no formula. -/
def State.newStatic (s : State) : State :=
  let f := s.free
  f.2.put NRG_COEF0_P_STATIC f.1.toNat

/-- The deferred cycles of a segment, and the legacy masters' deferred grant, offered again (R292, R296). -/
def State.offerAgain (s : State) (g : Nat) : State :=
  let x := s.seg g
  let ns := ((x.jobs.filter (fun (j : Job) => j.wait == .budget)).map (·.ctx))
  let s := s.setSeg g { x with
    lmDeferred := false
    jobs := x.jobs.map (fun (j : Job) => if j.wait == .budget then { j with wait := .ready, deferred := true } else j) }
  (s.get (SEG_CTL_LM_CTX g) :: ns).foldl (fun s n => s.showDeferred n g) s

/-- Whether a context that the plan has cut has had no budget since the start of a stage (R302). -/
def State.staysCut (s : State) (n : Nat) : Bool := s.on (CTX_USE_CUT n) && s.slotBudget n == 0

/-- The charges of the ending stage folded and cleared, and the suspended contexts READY (R292, R295, R298, R302,
R306). -/
def State.stageStart (s : State) : State :=
  let s := s.ctxsOn.foldl (fun s n => s.settleWait n) s
  let s := s.put NRG_EST_LAST (min 0xFFFFFF s.stageEnergy)
  let s := (List.range 4).foldl (fun s g =>
    s.put (STG_SEGLOAD_USED g) (min 65535 ((s.segCharged g + 1999) / 2000))) s
  let s := (List.range s.member.couriers).foldl (fun s c =>
    s.put (COUR_SLOTS_USED c) (mget s.courSlots c 0)) s
  let s := (List.range 256).foldl (fun s n => s.foldCharges n) s
  let s := { s with busNs := [], courSlots := [],
                    sched := { s.sched with laneNs := 0, segNs := [] } }
  let s := s.newStatic.incr STG_STAT_STAGES
  s.ctxsOn.foldl (fun s n => if s.run n = 4 ∧ s.staysCut n = false then s.makeReady n else s) s

/-- The release of context `n` at the start of leg `j` (R293). -/
def State.release_ (s : State) (j n : Nat) : State :=
  let d := s.get (CTX_REL_DIV n)
  if d = 0 ∨ j % d ≠ s.get (CTX_REL_PHASE n) % d ∨ s.ctxState n ≠ 2 ∨ !s.gateOpen n ∨
      !s.on (CTX_CTL_PROG_EN n) then s
  else
    let late := decide (1 ≤ s.run n) && decide (s.run n ≤ 4)
    let s := if late then ((s.bump (CTX_USE_LATE n)).bump STG_CNT_LATE).raise 57 n (s.courDetail n 0)
      else s
    s.wake n

/-! ## Energy bounds (R307, R308) -/

/-- Bits of the lanes that would be awake: both lanes of each enabled port, under HOLD-UP without those of
excluded channels (R307). -/
def State.lanesUnder (s : State) (plan : Nat) : Nat :=
  2 * ((List.range s.member.ports).filter (fun p => s.portState p != 0 &&
    !(plan == 2 && decide (p < 3) && s.chState p == 2))).length

/-- The bound of a plan in µJ (R307), rounded down. -/
def State.boundOf (s : State) (plan : Nat) : Nat :=
  let slots := (s.ctxsOn.map (fun n => s.scaled plan false n (s.get (CTX_BUD_SLOT_SLOTS n)))).sum
  let bus := (s.ctxsOn.map (fun n =>
    ((List.range 4).map (fun g => s.scaled plan false n (s.get (CTX_BUD_BUS_BUDGET n g)) * 2000)).sum)).sum
  let t := s.sched.ns
  (s.get NRG_COEF0_P_STATIC * t + s.get NRG_COEF0_P_LANE * t * s.lanesUnder plan +
    s.get NRG_COEF1_E_SLOT * slots + s.get NRG_COEF1_P_SEG * bus + s.get NRG_PBOARD_MW * t) / 1000000

/-- The energy above the last-gasp level, in µJ, saturating (R307). -/
def State.energyLeft (s : State) : Nat :=
  let u := s.get NRG_HU_SCALE_UV
  let v := s.get (NRG_ADC_CODE 0) * u
  let l := s.get NRG_LG_LG * u
  min 0xFFFFFF (s.get NRG_CAP_UF * (v * v - l * l) / (2 * 10 ^ 12))

/-- NRG_LEFT.STAGES (R307). Under WARM, and where a bound is 0, the spec gives no quotient. -/
def State.stagesLeft (s : State) : State × Nat :=
  let plan := s.get STG_STAT_PLAN
  let b := if plan = 2 then s.get NRG_BOUND_H_UJ else s.get NRG_BOUND_N_UJ
  if s.get NRG_CAP_UF = 0 then (s, 0)
  else if plan = 1 ∨ b = 0 then (s.free.2, s.free.1.toNat % 256)
  else (s, min 255 (s.get NRG_AVAIL_UJ / b))

/-- The bounds computed at each leg start, and the warning of a short reserve (R307). -/
def State.legEnergy (s : State) : State :=
  let s := ((s.put NRG_BOUND_N_UJ (min 0xFFFFFF (s.boundOf 0))).put NRG_BOUND_H_UJ
    (min 0xFFFFFF (s.boundOf 2))).put NRG_AVAIL_UJ s.energyLeft
  let r := s.stagesLeft
  let s := r.1.put NRG_LEFT_STAGES r.2
  if s.get STG_STAT_PLAN == 2 && decide (r.2 < 2) && s.on NRG_CAP_UF && !s.sched.shortSaid then
    { s with sched := { s.sched with shortSaid := true } }.raise 63 0 0
  else s

/-- The leg boundary that falls due next (R290 to R292). -/
def State.legBoundary (s : State) : State :=
  let b := s.nextBoundary
  let s := State.untilTb 64 s b.1
  let s := s.legEndImages (s.get STG_STAT_LEG)
  let s := s.applyPlan
  let s := if b.2 then s.stageStart else s
  let s := s.takeTiming b.1
  let j := s.sched.legOf b.1
  let s := s.put STG_STAT_LEG j
  let s := s.ctxsOn.foldl (fun s n => s.release_ j n) s
  let s := if b.2 then (List.range 4).foldl (fun s g => s.offerAgain g) s else s
  s.legEnergy.retarget

/-! ## Last gasp (R310, R311) -/

/-- A 32-bit word in little-endian bytes. -/
def word4 (n : Nat) : List Byte := leBytes 4 n

/-- The first 0xFF8 bytes of the last-gasp record (R311). -/
def State.gaspBody (s : State) (cause : Nat) : List Byte :=
  let h1 := cause + s.get STG_STAT_PLAN * 4 + s.get STG_STAT_HOT * 16 +
    ((List.range 3).map (fun c => s.chState c * 2 ^ (8 + 2 * c))).sum +
    ((List.range 4).map (fun g => s.get (SEG_STAT_ROLE g) * 2 ^ (16 + 2 * g))).sum
  let head := word4 0x4C470001 ++ word4 h1 ++ leBytes 8 s.now ++
    word4 (s.get (NRG_ADC_CODE 0) + s.get (NRG_ADC_CODE 1) * 2 ^ 16) ++
    word4 (s.get NRG_TJ_CODE + s.get NRG_LEFT_STAGES * 2 ^ 16) ++ word4 (s.word STG_STAT).toNat ++
    List.replicate 0x24 0
  let seqs := ((List.range 256).map (fun n =>
    word4 (s.get (CTX_SEQ_DOWN_SEQ n) + s.get (CTX_SEQ_UP_SEQ n) * 2 ^ 16))).flatten
  let gens := ((List.range 256).map (fun i => word4 (s.get (IMG_GEN_GEN i)))).flatten
  let evs := s.history.drop (s.history.length - 123)
  let recs := (evs.map (fun r => (r.words.map (fun w => word4 w.toNat)).flatten)).flatten
  head ++ seqs ++ gens ++ recs ++ List.replicate (123 * 16 - recs.length) 0 ++ List.replicate 8 0

/-- The last-gasp record written, if none is held (R310). -/
def State.gasp (s : State) (cause : Nat) : State :=
  if s.on NRG_LG_STAT_VALID then s
  else
    let b := s.gaspBody cause
    let r := b ++ word4 (crc32c b).toNat ++ word4 0xB3B8FFFE
    let s := { s with lastGasp := writeMem [] 0 0 r }
    (((s.put NRG_LG_STAT_VALID 1).put NRG_LG_STAT_CAUSE cause)).raise 62 0 0

/-! ## Samples (R303 to R305) -/

/-- A code stored with its extreme (R303, R315). -/
def State.adcStore (s : State) (c code : Nat) : State :=
  let e := s.get (NRG_ADC_EXTREME c)
  (s.put (NRG_ADC_CODE c) code).put (NRG_ADC_EXTREME c) (if c < 2 then min e code else max e code)

/-- The hold-up condition is entered (R304). -/
def State.enterHoldup (s : State) : State :=
  if s.on NRG_STAT_HU then s else ((s.put NRG_STAT_HU 1).raise 60 0 0).retarget

/-- The clean interval that ends hold-up runs or breaks (R304). -/
def State.exitWatch (s : State) : State :=
  let clean := s.on NRG_STAT_HU && decide (s.get NRG_HU_EXIT ≤ s.get (NRG_ADC_CODE 0)) &&
    (s.get NRG_VIN_LOW == 0 || decide (s.get NRG_VIN_OK ≤ s.get (NRG_ADC_CODE 1)))
  if !clean then s.disarm .huExit
  else if (s.dueAt .huExit).isSome then s
  else s.arm .huExit (s.get NRG_HU_TIME_EXIT_TIME * 1000000)

/-- A run of samples goes on or starts again from zero. -/
def nextRun (holds : Bool) (n : Nat) : Nat := if holds then n + 1 else 0

/-- A HOLDUP_SENSE conversion (R304, R310). -/
def State.holdupSample (s : State) (code : Nat) : State :=
  let s := s.adcStore 0 code
  let hu := nextRun (s.on NRG_HU_ENTER && decide (code ≤ s.get NRG_HU_ENTER)) s.sched.huRun
  let lg := nextRun (s.on NRG_LG_LG && decide (code ≤ s.get NRG_LG_LG)) s.sched.lgRun
  let s := { s with sched := { s.sched with huRun := hu, lgRun := lg } }
  let n := s.get NRG_HU_COUNT
  let s := if n ≤ hu then s.enterHoldup else s
  let s := s.exitWatch
  if n ≤ lg then s.gasp 0 else s

/-- The early entry test (R308). Where NRG_BOUND_N is 0 the spec gives no quotient. -/
def State.earlyEntry (s : State) : State × Bool :=
  let m := s.get NRG_HU_TIME_MIN_STAGES
  let b := s.get NRG_BOUND_N_UJ
  if m = 0 then (s, false)
  else if b = 0 then (s.free.2, s.free.1.toNat % 2 == 1)
  else (s, decide (s.energyLeft / b < m))

/-- A VIN_SENSE conversion (R304, R308). -/
def State.vinSample (s : State) (code : Nat) : State :=
  let s := s.adcStore 1 code
  let run := nextRun (s.on NRG_VIN_LOW && decide (code ≤ s.get NRG_VIN_LOW)) s.sched.vinRun
  let s := { s with sched := { s.sched with vinRun := run } }
  let low := decide (s.get NRG_HU_COUNT ≤ run)
  let s := s.put NRG_STAT_VIN_LOW (ofBool low)
  let s := if low then
      (let r := s.earlyEntry
       if r.2 then r.1.enterHoldup else r.1)
    else s
  s.exitWatch

/-- The supply has been good for EXIT_TIME (R304). -/
def State.holdupExit (s : State) : State :=
  match s.expire .huExit with
  | none => s
  | some s => (s.put NRG_STAT_HU 0).retarget

/-- A thermal condition changes (R305). -/
def State.thermal (s : State) (f : FRef) (v : Nat) : State :=
  if s.get f = v then s else (s.put f v).raise 61 0 0

/-- The code of the next die sensor stored, and the highest of the four latest (R303). -/
def State.dieStore (s : State) (code : Nat) : State :=
  let c := s.sched
  let s := s.adcStore (2 + c.sensor.val) code
  let tj := (List.range 4).foldl (fun m i => max m (s.get (NRG_ADC_CODE (2 + i)))) 0
  let s := s.put NRG_TJ_CODE tj
  { s with sched := { s.sched with sensor := c.sensor + 1 } }

/-- A conversion of the next die sensor (R303, R305). HOT implies WARM. -/
def State.dieSample (s : State) (code : Nat) : State :=
  let c := s.sched
  let s := s.dieStore code
  let tj := s.get NRG_TJ_CODE
  let h := 4 * s.get NRG_TH_HYST
  let wu := nextRun (decide (s.get NRG_TH_WARM < tj)) c.warmUp
  let hu := nextRun (decide (s.get NRG_TH_HOT < tj)) c.hotUp
  let wd := nextRun (decide (tj + h ≤ s.get NRG_TH_WARM)) c.warmDown
  let hd := nextRun (decide (tj + h ≤ s.get NRG_TH_HOT)) c.hotDown
  let s := { s with sched := { s.sched with
    warmUp := wu, hotUp := hu, warmDown := wd, hotDown := hd } }
  let s := if 4 ≤ hu then s.thermal NRG_STAT_HOT 1 else if 16 ≤ hd then s.thermal NRG_STAT_HOT 0 else s
  let hot := s.on NRG_STAT_HOT
  let s := if 4 ≤ wu || hot then s.thermal NRG_STAT_WARM 1
    else if 16 ≤ wd then s.thermal NRG_STAT_WARM 0 else s
  s.retarget

/-- Every EXTREME set to the latest code (R315). -/
def State.extremeClr (s : State) : State :=
  (List.range 6).foldl (fun s c => s.put (NRG_ADC_EXTREME c) (s.get (NRG_ADC_CODE c))) s

/-- Every PEAK and BUS_PEAK cleared (R313). -/
def State.peakClr (s : State) : State :=
  (List.range 256).foldl (fun s n => (s.put (CTX_CHG_PEAK n) 0).put (CTX_USE_BUS_PEAK n) 0) s

/-- A context's charge has reached its budget (R295). -/
def State.overdraft (s : State) (n : Nat) : State :=
  if s.run n = 2 ∧ s.slotBudget n ≤ s.get (CTX_CHG_SLOTS n) then s.suspend n false else s

end Sys2Proof.Machine
end

