-- ==== Sys2Proof/Machine/TimeBase.lean ====
section
/-! DEFINITION. The discipline of the time base (R492 to R495): TSYNC edges, SET, the partner's heartbeats. -/

namespace Sys2Proof.Machine

/-- A signed value in a 32-bit register, saturating (R503). -/
def signed32 (e : Int) : Nat :=
  let c : Int := max (-2147483648) (min 2147483647 e)
  (c % 4294967296).toNat

/-- A signed value as RATE holds it: 21 bits, clamped to ±500,000 (R493). -/
def rate21 (r : Int) : Nat :=
  let c : Int := max (-500000) (min 500000 r)
  (c % 2097152).toNat

/-- The 64-bit SET value (R494). -/
def State.setValue (s : State) : Nat := s.get CRP_TB_SET_HI_VALUE * 2 ^ 32 + s.get CRP_TB_SET_LO_VALUE

/-- Whether a context other than context 0 is ON (R291). -/
def State.anyOn (s : State) : Bool := (List.range 256).any (fun n => decide (0 < n) && s.ctxState n == 2)

/-- A step, hold or SET of the time base counted and raised (R493 to R495). -/
def State.tbEvent (s : State) : State := (s.bump CRP_TB_CNT_STEPS).raise 7 0 0

/-- The time base stepped to an instant, a slew or hold in progress replaced; the next boundary is sought from there
(R290). -/
def State.tbTo (s : State) (t : Nat) : State :=
  { s with tb := t * 2 ^ 24, tbSlew := 0, tbHold := 0, sched := { s.sched with past := t } }

/-- A correction outside the slew limit (R493): TB_LOCKED clears. -/
def State.tbUnlock (s : State) : State :=
  { s with disc := { s.disc with good := 0 } }.put CRP_STAT_TB_LOCKED 0

/-- A correction within the slew limit (R493, R495): the second in a row locks. -/
def State.tbGood (s : State) : State :=
  let s := { s with disc := { s.disc with good := s.disc.good + 1 } }
  if 2 ≤ s.disc.good then s.put CRP_STAT_TB_LOCKED 1 else s

/-- A SET applied at once (R494). -/
def State.tbSet (s : State) : State :=
  let v := s.setValue
  let s := s.put CRP_TB_CMD_SET 0
  if v < s.now ∧ s.anyOn then s else (s.tbTo v).tbEvent

/-- A write of CRP_TB_CMD.SET or SET_NOW (R494): with SRC = 1, SET waits for the next edge. -/
def State.tbCommand (s : State) (set now : Bool) : State :=
  if now then s.tbSet
  else if set then (if s.get CRP_TB_CTL_SRC = 1 then s.put CRP_TB_CMD_SET 1 else s.tbSet)
  else s

/-- The TSYNC period in ns. -/
def State.tsyncNs (s : State) : Nat := s.get CRP_TSYNC_PERIOD * 1000000

/-- The watch for a missing edge runs while SRC = 1 (R494). -/
def State.tsyncWatch (s : State) : State :=
  if s.get CRP_TB_CTL_SRC = 1 then s.arm .tsync (s.tsyncNs * 3 / 2) else s.disarm .tsync

/-- A TSYNC edge against the nearest multiple of its period (R493). -/
def State.tsyncError (s : State) : State :=
  let p := s.tsyncNs
  let m := (s.now + p / 2) / p * p
  let e : Int := (s.now : Int) - m
  let s := s.put CRP_TB_ERR_ERR (signed32 e)
  let s := s.put CRP_TB_RATE_RATE (rate21 (s.rate - (e * 500).tdiv (s.get CRP_TSYNC_PERIOD)))
  let th : Int := s.get CRP_TB_TH_STEP_TH * 1000
  if e < -th then (s.tbTo m).tbUnlock.tbEvent
  else if th < e then { s with tbHold := e.toNat, tbSlew := 0 }.tbUnlock.tbEvent
  else { s with tbSlew := -e * 2 ^ 24 }.tbGood

/-- A TSYNC rising edge (R493, R494). -/
def State.tsyncEdge (s : State) : State :=
  if s.get CRP_TB_CTL_SRC ≠ 1 then s
  else
    let early := match s.disc.lastEdge with
      | none => false
      | some t => decide (2 * (s.clk - t) < s.tsyncNs)
    if early then s.bump CRP_TB_CNT_TSYNC_MISS
    else
      let s := { s with disc := { s.disc with lastEdge := some s.clk } }.tsyncWatch
      if s.on CRP_TB_CMD_SET then
        let e : Int := (s.now : Int) - s.setValue
        if 0 < e ∧ s.anyOn then (s.put CRP_TB_CMD_SET 0).tsyncError
        else ({ s with disc := { s.disc with good := 0 } }.put CRP_TB_ERR_ERR (signed32 e)).tbSet
      else s.tsyncError

/-- No TSYNC edge for 1.5 periods (R494). -/
def State.tsyncMiss (s : State) : State :=
  match s.expire .tsync with
  | none => s
  | some s => (s.tbUnlock.bump CRP_TB_CNT_TSYNC_MISS).raise 7 0 0

/-- A hold of the time base ends (R493). -/
def State.tbHoldEnd (s : State) : State := s.elapse s.tbHold

/-- A heartbeat with the partner's time (R495). -/
def State.tbPeer (s : State) (time : Nat) : State :=
  let o : Int := (time : Int) + s.get CRP_TB_PEER_DLY - s.now
  let s := s.put CRP_TB_OFS_OFS (signed32 o)
  let pt := s.get CRP_TB_TH_PEER_TH * 1000
  let s := if pt < o.natAbs && !s.disc.peerSaid then
      { s with disc := { s.disc with peerSaid := true } }.raise 7 0 0
    else if 2 * o.natAbs < pt then { s with disc := { s.disc with peerSaid := false } } else s
  let th : Int := s.get CRP_TB_TH_STEP_TH * 1000
  if s.get CRP_TB_CTL_SRC ≠ 2 then s
  else if !s.paired then
    if o.natAbs ≤ th then s.tbGood else { s with disc := { s.disc with good := 0 } }
  else
    if th < o then (s.tbTo (s.now + o.toNat)).tbUnlock.tbEvent
    else if o < -th then { s with disc := { s.disc with good := 0 } }.bump CRP_TB_CNT_TSYNC_MISS
    else (if s.side then s else { s with tbSlew := o * 2 ^ 24 }).tbGood

end Sys2Proof.Machine
end

