-- ==== Sys2Proof/Machine/Span.lean ====
section
/-! DEFINITION. Ownership of segments between the devices of a pair (R197 to R200, R355 to R364), the control
packets of the Span (R354, R355), the journal and the marks of the partner (R367 to R373). -/

namespace Sys2Proof.Machine

/-! ## Control packets sent (R352 to R355) -/

/-- A packet sent on span port `q` if the credits held cover it; none is sent without. -/
def State.spanSend (s : State) (q : Nat) (k : Pkt) : Option State :=
  let x := s.port (3 + q)
  if x.tx.covers (pktCost k) then
    some ((s.setPort (3 + q) { x with tx := x.tx.sub (pktCost k) }).sendPkt (3 + q) k)
  else none

/-- A link control packet, exempt from arbitration (R338): sent at once, or as soon as credits allow. -/
def State.linkControl (s : State) (q : Nat) (k : Pkt) : State :=
  match s.spanSend q k with
  | some s => s
  | none => s.spanPut q 2 0 k

/-- Link control packets that wait for credits sent, in order (R352). -/
def State.flushControl : Nat → State → Nat → State
  | 0, s, _ => s
  | fuel + 1, s, q =>
    let items := mget s.span.queue q []
    match items.find? (fun i => i.src == 2) with
    | none => s
    | some i =>
      match s.spanSend q i.pkt with
      | none => s
      | some s =>
        State.flushControl fuel { s with span := { s.span with
          queue := mput s.span.queue q (items.filter (fun j => j.src != 2) ++
            (items.filter (fun j => j.src == 2)).drop 1) [] } } q

/-- A number with bit `i` set where `f i` holds, for `i` from 0 to 3. -/
def mask4 (f : Nat → Bool) : Nat := ((List.range 4).map (fun i => ofBool (f i) * 2 ^ i)).sum

/-- Whether this device shows OWN for segment `g` (R355): as OWNER, until a handover releases the bus (R363). -/
def State.showsOwn (s : State) (g : Nat) : Bool := s.get (SEG_STAT_ROLE g) == 2

/-- Whether a heartbeat has arrived within the last 400 µs (R355). -/
def State.hears (s : State) : Bool := s.span.hbAt.any (fun e => decide (s.clk ≤ e.2 + 400000))

/-- The 16 bytes of a heartbeat (R355). -/
def State.heartbeat (s : State) (count : Nat) : List Byte :=
  let avail := mask4 (fun g => s.hasSeg g && (s.segState g == 1 || s.segState g == 2))
  let jrn := mask4 (fun g => s.showsOwn g && s.paired && s.on SPN_CTL_JRN_EN)
  leBytes 4 (mask4 s.showsOwn + avail * 2 ^ 4 + jrn * 2 ^ 8 + ofBool s.side * 2 ^ 12 +
      ofBool s.hears * 2 ^ 13 + s.get BOOT_IMG_EPOCH * 2 ^ 16) ++
    leBytes 4 (count % 256) ++ leBytes 8 s.now

/-- 50 µs have passed since the last heartbeat sent on span port `q` (R355). -/
def State.heartbeatSend (s : State) (q : Nat) : State :=
  match s.expire (.beat (3 + q)) with
  | none => s
  | some s =>
    let n := mget s.span.hbCount q 0
    let s := s.linkControl q (spanCtl q 0xFF00000001 (s.heartbeat n))
    ({ s with span := { s.span with hbCount := mput s.span.hbCount q ((n + 1) % 256) 0 } }).arm
      (.beat (3 + q)) 50000

/-- 50 µs without a heartbeat on span port `q` (R356). -/
def State.heartbeatMissed (s : State) (q : Nat) : State :=
  match s.expire (.miss (3 + q)) with
  | none => s
  | some s => (s.bump SPN_CNT1_HB_MISS).arm (.miss (3 + q)) 50000

/-- 400 µs without a heartbeat on span port `q` (R356). -/
def State.silentDue (s : State) (q : Nat) : State :=
  match s.expire (.silent (3 + q)) with
  | none => s
  | some s => s.portSilent q

/-! ## Roles (R197 to R200) -/

/-- Every lock on segment `g` ends as if by timeout (R158, R199, R200). -/
def State.endLocks (s : State) (g : Nat) : State :=
  (s.locks.filter (fun h => h.seg == g)).foldl (fun s h => s.lockEnds h.name) s

/-- Every semaphore of segment `g` is free (R158, R198). -/
def State.freeSems (s : State) (g : Nat) : State :=
  let held (h : HeldLock) : Bool := h.seg == g && !h.timedOut
  let gone := s.locks.filter held
  let s := { s with locks := s.locks.filter (fun h => !held h) }
  gone.foldl (fun s h => (s.disarm (.lock h.name)).showLock h.name) s

/-- A segment that the partner owns: ON, STANDBY (R197, R359, R362). -/
def State.standBy (s : State) (g : Nat) : State :=
  if s.segState g = 1 ∨ s.segState g = 2 then
    let x := s.seg g
    let s := (s.setSeg g { x with takePending := false }).disarm (.cold g)
    let s := { s with span := { s.span with taking := mdel s.span.taking g } }
    ((s.setSegState g 2).setSegRole g 1).showLease g
  else s

/-- The device finds the bus of a segment idle and becomes its owner (R198), by takeover (R360, R373), by
handover (R363) or otherwise. -/
def State.takeSeg (s : State) (g : Nat) : State :=
  let x := s.seg g
  if !x.takePending || s.get (SEG_STAT_ROLE g) == 2 || !(s.segState g == 1 || s.segState g == 2) ||
      s.on (SEG_STAT_RSP_STUCK g) || x.rspLow || x.cycle != .idle then s
  else
    let was := s.homes
    let s := s.elapse 1000
    let s := (s.setSeg g { x with takePending := false, armed := [], keepLast := none }).disarm (.cold g)
    let s := (((s.setSegState g 2).setSegRole g 2).showLease g).freeSems g
    let s := s.elapse (if s.on (SEG_CTL_MODE g) then 16 * 60 else 0)
    let s := (List.range 4).foldl (fun s l => s.rearm g l) (s.issueKeeper g)
    let how := mget s.span.taking g 0
    let s := { s with span := { s.span with taking := mdel s.span.taking g } }
    let s := if how = 1 then
        let es := mget s.span.held g []
        State.walkOn 257 { s with span := { s.span with walk := mput s.span.walk g es [] } } g
      else if how = 2 then (s.bump SPN_CNT1_HANDOVER).raise 110 0 (detail g 0 0)
      else s
    s.homesGained was

/-- A device that gives a segment up finds its bus idle (R199): the drivers are released, waiting requests
handed on or ended, and the locks end. `st` is the status of courier cycles that wait. -/
def State.letGo (s : State) (g st : Nat) (hand : Bool) : State :=
  let s := (s.endLocks g).dropDrivers g
  let s := (s.setSegRole g 1).clearJobs g hand st
  s.showLease g

/-- The bus of a segment that is given up is idle (R199): after a dual ownership it stands by, in DRAINING it
has no role. A handover releases by its own row (R363). -/
def State.busRelease (s : State) (g : Nat) : State :=
  let x := s.seg g
  if !x.releasing || x.cycle != .idle || s.span.handover.contains g then s
  else if s.segState g = 3 then
    ((((s.endLocks g).dropDrivers g).clearJobs g false stAB).setSegRole g 0).showLease g
  else s.letGo g stUN true

/-- A segment starts (R197, R445, R362): without a partner it is owned at once (R6). -/
def State.startSeg (s : State) (g : Nat) : State :=
  let s := (s.setSegState g 1).incr (SEG_STAT_GEN g)
  let s := (s.put (SEG_STAT_RESTART_PENDING g) 0).put (SEG_KEEP_STAT_SEEN g) 0
  if s.member.spans = 0 then s.becomeOwner g
  else s.startCold g

/-- A segment drains (R200). -/
def State.drainSeg (s : State) (g : Nat) : State :=
  let x := s.seg g
  let s := (s.setSeg g { x with takePending := false }).disarm (.cold g)
  let s := { s with span := { s.span with
      handover := s.span.handover.filter (· != g), taking := mdel s.span.taking g } }
  let s := (s.handoverGone g).setSegState g 3
  let s := if s.get (SEG_STAT_ROLE g) = 2 then s.giveUp g else s
  (((s.endLocks g).clearJobs g false stAB).dropHeld g).showLease g

/-- EN of a segment written (R197, R445). -/
def State.segEn (s : State) (g : Nat) (en : Bool) : State :=
  match s.segState g, en with
  | 0, true => s.startSeg g
  | 1, false => s.drainSeg g
  | 2, false => s.drainSeg g
  | 3, en => s.put (SEG_STAT_RESTART_PENDING g) (ofBool en)
  | _, _ => s

/-- A draining segment has nothing left (R200, R445). -/
def State.segDrained (s : State) (g : Nat) : State :=
  let x := s.seg g
  if s.segState g = 3 ∧ s.get (SEG_STAT_ROLE g) ≠ 2 ∧ x.cycle = .idle ∧ x.jobs = [] ∧
      x.tenure = none ∧ x.releasing = false then
    let s := (s.setSegRole g 0).showLease g
    if s.on (SEG_STAT_RESTART_PENDING g) then s.startSeg g
    else s.setSegState g 0
  else s

/-! ## Heartbeats received (R356 to R359, R372) -/

/-- Ownership of one segment decided on a heartbeat while PAIRED (R359). -/
def State.decideOwner (s : State) (g : Nat) : State :=
  let mine := s.get (SEG_STAT_ROLE g) == 2
  let theirs := bitAt s.span.own g
  if s.span.handover.contains g || s.span.released.contains g then s
  else if mine then
    if theirs && !s.side && !(s.seg g).releasing then (s.giveUp g).raise 112 0 (detail g 0 0) else s
  else if theirs then s.standBy g
  else if (s.segState g == 1 || s.segState g == 2) && !(s.seg g).takePending &&
      (ofBool s.side == s.get (SPN_SEG_HOME_SIDE g) || !bitAt s.span.avail g) then s.becomeOwner g
  else s

/-- The partner shows OWN for a segment that has been handed to it (R363). -/
def State.handoverDone (s : State) (g : Nat) : State :=
  if s.span.released.contains g && bitAt s.span.own g then
    let s := { s with span := { s.span with released := s.span.released.filter (· != g) } }
    ((((s.disarm (.handover g)).handoverGone g).bump SPN_CNT1_HANDOVER).raise 110 0 (detail g 0 0)).standBy g
  else s

/-- Receive buffer space of a control packet freed and its credits returned (R46, R352), and the arrival of a
packet of the partner noted (R372). -/
def State.spanTook (s : State) (q len : Nat) : State :=
  { s with span := { s.span with lastRx := s.clk } }.sendNop (3 + q) ⟨1, (len + 63) / 64, 0, 0⟩

/-- A lease renewed by a heartbeat with OWN (R358). -/
def State.renewLease (s : State) (g : Nat) : State :=
  let s := { s with span := { s.span with renewed := mins s.span.renewed g s.clk } }
  (s.arm (.lease g) (s.get SPN_LEASE_LEASE * 1000000)).showLease g

/-- A heartbeat of 16 bytes on span port `q` (R355 to R359, R363, R372, R495). -/
def State.heartbeatIn (s : State) (q : Nat) (d : List Byte) : State :=
  if s.portState (3 + q) ≠ 2 then s
  else
    let w0 := leNat (d.take 4)
    let s := (s.spanTook q 16).put (SPN_PORT_SILENT q) 0
    let s := { s with span := { s.span with
        hbAt := mins s.span.hbAt q s.clk, own := natBits w0 0 4, avail := natBits w0 4 4,
        jrn := natBits w0 8 4, side := bitAt w0 12, heard := bitAt w0 13, known := true } }
    let s := s.put SPN_STAT_PARTNER_EPOCH (natBits w0 16 16)
    let s := (s.arm (.silent (3 + q)) 400000).arm (.miss (3 + q)) 50000
    let segs := (List.range 4).filter s.hasSeg
    let s := segs.foldl (fun s g => if bitAt s.span.own g then s.renewLease g else s) s
    let s := s.pairEval
    let s := segs.foldl (fun s g =>
      if bitAt s.span.own g && !bitAt s.span.jrn g then s.put (SPN_SEG_OPEN_TAIL g) 1 else s) s
    let s := s.tbPeer (leNat ((d.drop 8).take 8))
    let s := segs.foldl (fun s g => s.handoverDone g) s
    if s.paired then segs.foldl (fun s g => s.decideOwner g) s else s

/-- The partner's lease of a segment runs out (R358). -/
def State.leaseOut (s : State) (g : Nat) : State :=
  match s.expire (.lease g) with
  | none => s
  | some s => s.showLease g

/-! ## Takeover and cold start (R360 to R362) -/

/-- SILENCE of a segment for a takeover, in µs (R360). -/
def State.takeSilence (s : State) : Nat := s.get SPN_LEASE_SILENCE * 100 + (if s.side then 0 else 1000)

/-- The conditions of a takeover hold (R360). A standby that no heartbeat has given a lease has none to wait
for. -/
def State.mayTake (s : State) (g : Nat) : Bool :=
  s.segState g == 2 && s.get (SEG_STAT_ROLE g) == 1 && s.on (SPN_SEG_TAKE_EN g) &&
    s.get SPN_STAT_PAIR == 0 && decide (0 < s.member.spans) &&
    (match mfind s.span.renewed g with
      | none => true
      | some t => s.span.hbAt.all (fun e => decide (e.2 ≤ t)) &&
          decide (t + s.get SPN_LEASE_LEASE * 1000000 ≤ s.clk)) &&
    decide (s.takeSilence ≤ s.silence g)

/-- A takeover (R360): the standby is to become owner. -/
def State.takeOver (s : State) (g : Nat) : State :=
  if s.mayTake g && !(s.seg g).takePending then
    let s := (s.bump SPN_CNT0_TAKEOVER).raise 109 0 (detail g 0 0)
    { s with span := { s.span with taking := mins s.span.taking g 1 } }.becomeOwner g
  else s

/-- A segment in STARTING without the Span has been silent long enough (R362); while PAIRED, R359 decides instead. -/
def State.coldOwner (s : State) (g : Nat) : State :=
  if s.paired then s
  else
    match s.expire (.cold g) with
    | none => s
    | some s => if s.segState g = 1 then s.becomeOwner g else s

/-- A falling CAS_N edge at the balls of a segment (R187, R362, R372). -/
def State.casFall (s : State) (g : Nat) (keeper : Bool) : State :=
  let s := s.casFell g s.clk
  let s := if (s.dueAt (.cold g)).isSome then s.startCold g else s
  if s.get (SEG_STAT_ROLE g) == 1 && !keeper && decide (s.span.lastRx + 100000 < s.clk) then
    s.put (SPN_SEG_OPEN_TAIL g) 1
  else s

/-- A keeper pulse of another device at the balls of a segment (R186, R362): an owner records those of its own alone. -/
def State.keeperSeen (s : State) (g : Nat) (side : Bool) (count : Nat) : State :=
  if s.get (SEG_STAT_ROLE g) = 2 then s.casFall g true
  else
  let s := (s.keeperGap g).casFall g true
  let s := ((s.put (SEG_KEEP_STAT_COUNT g) count).put (SEG_KEEP_STAT_SIDE g) (ofBool side)).put
    (SEG_KEEP_STAT_SEEN g) 1
  if s.segState g == 1 && (s.dueAt (.cold g)).isSome && !s.paired && side != s.side then s.standBy g else s

/-! ## Handover (R363, R364) -/

/-- A handover is refused (R364). -/
def State.handoverRefused (s : State) (g : Nat) : State := (s.handoverGone g).raise 111 0 (detail g 0 0)

/-- SPN_CMD.HANDOVER written for a segment (R363, R364). -/
def State.handover (s : State) (g : Nat) : State :=
  if s.span.handover.contains g || s.span.released.contains g then s
  else if !s.hasSeg g || !s.paired || !s.owns g || !bitAt s.span.avail g || (s.seg g).releasing then
    s.handoverRefused g
  else
    let v := s.get SPN_CMD_HANDOVER
    let s := s.put SPN_CMD_HANDOVER (if bitAt v g then v else v + 2 ^ g)
    { s with span := { s.span with handover := s.span.handover ++ [g] } }.giveUp g

/-- The bus of a segment that is handed over is idle (R363 steps 2, 3 and 5). The journal entries left are those of
requests that wait: each is retired as its request is handed on or ended. -/
def State.handoverRelease (s : State) (g : Nat) : State :=
  let x := s.seg g
  if s.span.handover.contains g && x.cycle == .idle then
    let s := s.letGo g stUN true
    let s := { s with span := { s.span with
        handover := s.span.handover.filter (· != g), released := s.span.released ++ [g] } }
    let s := (List.range s.member.spans).foldl (fun s q =>
      if s.portState (3 + q) = 2 then s.linkControl q (spanCtl q 0xFF00000002 (leBytes 4 g)) else s) s
    s.arm (.handover g) 1000000
  else s

/-- The partner has not shown OWN within 1 ms (R364). -/
def State.handoverFail (s : State) (g : Nat) : State :=
  match s.expire (.handover g) with
  | none => s
  | some s =>
    { s with span := { s.span with released := s.span.released.filter (· != g) } }.handoverRefused g

/-- A HANDOVER packet arrives (R363 step 4). -/
def State.handoverIn (s : State) (q g : Nat) : State :=
  if s.portState (3 + q) ≠ 2 then s
  else
    let s := s.spanTook q 4
    if s.hasSeg g && s.segState g == 2 && s.get (SEG_STAT_ROLE g) == 1 && mget s.span.taking g 0 != 1 then
      { s with span := { s.span with taking := mins s.span.taking g 2 } }.becomeOwner g
    else s

/-! ## The journal (R367 to R370) -/

/-- Whether SEQ `a` is later than SEQ `b` (R35). -/
def seqAfter (a b : Nat) : Bool :=
  let d := (a + 65536 - b) % 65536
  decide (1 ≤ d) && decide (d < 32768)

/-- The mark of a segment and context raised to a SEQ (R370). -/
def State.raiseMark (s : State) (g n seq : Nat) : State :=
  let ms := s.span.marks
  match ms.find? (fun m => m.1 == g && m.2.1 == n) with
  | none => { s with span := { s.span with marks := ms ++ [(g, n, seq)] } }
  | some m =>
    if seqAfter seq m.2.2 then
      { s with span := { s.span with
          marks := ms.map (fun x => if x.1 == g && x.2.1 == n then (g, n, seq) else x) } }
    else s

/-- The entry that a JOURNAL packet describes (R369), and its segment. -/
def journalEntry (d : List Byte) : Nat × JEntry :=
  let w (i : Nat) : Nat := leNat ((d.drop (4 * i)).take 4)
  let ty := natBits (w 0) 19 2
  let type := if ty = 0 then tMWR else if ty = 1 then tNPW else tATM
  let h := mkHdr type (if ty = 0 then 0 else 1) false (natBits (w 1) 16 8) (natBits (w 1) 0 16) 0
    (natBits (w 1) 24 8) 0 (w 2 + natBits (w 3) 0 8 * 2 ^ 32) 0 0
  (natBits (w 0) 16 2,
   { jseq := natBits (w 0) 0 16, pkt := ⟨h, d.drop 16⟩, locked := bitAt (w 0) 21,
     window := natBits (w 0) 24 6, rxSide := bitAt (w 0) 18, order := 0, acked := true })

/-- A JOURNAL packet arrives (R368, R370). -/
def State.journalIn (s : State) (q : Nat) (d : List Byte) : State :=
  if s.portState (3 + q) ≠ 2 then s
  else
    let s := s.spanTook q d.length
    let e := journalEntry d
    let es := mget s.span.held e.1 []
    if es.any (fun x => x.jseq == e.2.jseq) || decide (256 ≤ es.length) then s
    else
      let es := es ++ [e.2]
      let s := { s with span := { s.span with held := mput s.span.held e.1 es [] } }
      let s := if s.get (SEG_STAT_ROLE e.1) = 2 then s else s.put (SPN_SEG_JRN_OPEN e.1) es.length
      if e.2.rxSide != s.side then s.raiseMark e.1 e.2.pkt.h.ctx e.2.pkt.h.seq else s

/-- A RETIRE packet arrives (R368). -/
def State.retireIn (s : State) (q first g count : Nat) : State :=
  if s.portState (3 + q) ≠ 2 then s
  else
    let s := s.spanTook q 4
    let es := (mget s.span.held g []).filter (fun e =>
      !decide ((e.jseq + 65536 - first) % 65536 < count))
    let s : State := { s with span := { s.span with held := mput s.span.held g es [] } }
    if s.get (SEG_STAT_ROLE g) = 2 then s else s.put (SPN_SEG_JRN_OPEN g) es.length

/-- The link layer has acknowledged the JOURNAL packet of an entry (R367): its request may be issued. -/
def State.journalAcked (s : State) (g jseq : Nat) : State :=
  match (s.sentOf g).find? (fun e => e.jseq == jseq && !e.acked) with
  | none => s
  | some e =>
    let s := s.setSent g ((s.sentOf g).map (fun x =>
      if x.jseq == jseq then { x with acked := true } else x))
    let x := s.seg g
    s.setSeg g { x with jobs := x.jobs.map (fun (j : Job) =>
      if j.wait == .journal && j.owner == .host e.order then { j with wait := .ready } else j) }

/-- A packet of the partner's Span unit handled by its kind (R354), `bad` the uncorrectable words of a mirrored line. A kind that the table does not give has no
effect. -/
def State.spanControl (s : State) (q : Nat) (k : Pkt) (bad : Nat) : State :=
  let a := k.h.addr
  let w (i : Nat) : Nat := leNat ((k.data.drop (4 * i)).take 4)
  if a = 0xFF00000001 then s.heartbeatIn q k.data
  else if a = 0xFF00000002 then s.handoverIn q (natBits (w 0) 0 2)
  else if a = 0xFF00000003 then s.journalIn q k.data
  else if a = 0xFF00000004 then
    s.retireIn q (natBits (w 0) 0 16) (natBits (w 0) 16 2) (natBits (w 0) 24 8)
  else if s.portState (3 + q) ≠ 2 then s
  else
    let s := s.spanTook q k.data.length
    if a = 0xFF00000005 then s.commitRecord (w 0 % 256) (w 1) (w 2) (w 3)
    else if a = 0xFF00000006 then s.resyncAsked (w 0 % 256)
    else if 0xFE00000000 ≤ a ∧ a < 0xFF00000000 then s.mirroredLine (a - 0xFE00000000) k.data bad
    else s

end Sys2Proof.Machine
end

