-- ==== Sys2Proof/Machine/Outposts.lean ====
section
/-! DEFINITION. The Outpost chains (R377 to R405): the frames of a chain controller, up records with their
edges, the service slot, the images of a chain, and the states of a chain. What an Outpost does by itself
(R386, R389, R391 to R394) reaches the device in its up records. -/

namespace Sys2Proof.Machine

/-! ## The line -/

/-- One bit of the CRC of R381. -/
def crc16Bit (c : BitVec 16) : BitVec 16 := if c.getLsbD 15 then (c <<< 1) ^^^ 0x1021#16 else c <<< 1

/-- The CRC-16 of R381 over bytes. -/
def crc16 (bs : List Byte) : Nat :=
  (bs.foldl (fun c b => iter crc16Bit 8 (c ^^^ BitVec.ofNat 16 (b.toNat * 2 ^ 8))) 0xFFFF#16).toNat

/-- A CRC as it is sent: high byte first (R380). -/
def crcBytes (bs : List Byte) : List Byte := leBytes 1 (crc16 bs / 256) ++ leBytes 1 (crc16 bs)

/-- Chain controller `k`. -/
def State.chain (s : State) (k : Nat) : Chain := mget s.chains k Chain.fresh

/-- The state with chain controller `k` replaced. -/
def State.setChain (s : State) (k : Nat) (x : Chain) : State :=
  { s with chains := mput s.chains k x Chain.fresh }

/-- Outpost `o` of a chain as its controller knows it. -/
def Chain.post (x : Chain) (o : Nat) : Outpost := mget x.posts o Outpost.fresh

/-- The state with what a controller knows of an Outpost replaced. -/
def State.setPost (s : State) (k o : Nat) (p : Outpost) : State :=
  let x := s.chain k
  s.setChain k { x with posts := mput x.posts o p Outpost.fresh }

/-- The state of chain `k`: 0 OFF, 1 STARTING, 2 ON, 3 DRAINING. -/
def State.chainState (s : State) (k : Nat) : Nat := s.get (OPC_STAT_STATE k)

/-- COUNT of a chain. -/
def State.outposts (s : State) (k : Nat) : Nat := s.get (OPC_CFG_COUNT k)

/-- A chain event (R405) with its Outpost and channel. -/
def State.chainEvent (s : State) (k i o c : Nat) : State := s.raise (192 + 16 * k + i) 0 (detail k o c)

/-- Whether Outpost `o` of chain `k` is present (R403). -/
def State.present (s : State) (k o : Nat) : Bool := bitAt (s.get (OPC_STAT_PRESENT k)) o

/-- PRESENT of an Outpost set or cleared. -/
def State.putPresent (s : State) (k o : Nat) (b : Bool) : State :=
  let v := s.get (OPC_STAT_PRESENT k)
  s.put (OPC_STAT_PRESENT k) (if b = bitAt v o then v else if b then v + 2 ^ o else v - 2 ^ o)

/-! ## The service slot (R395, R396) -/

/-- The parameters written: 0x00 to 0x3F and 0xF3, in order; then COMMIT. -/
def confParam (i : Nat) : Nat := if i < 64 then i else if i = 64 then 0xF3 else 0xFF

/-- The parameters of the rotation, in order. -/
def rotParam (i : Nat) : Nat := if i < 64 then i else if i = 64 then 0xF3 else 0xF0 + (i - 65)

/-- Whether a parameter is read. -/
def paramReads (p : Nat) : Bool := p == 0xF0 || p == 0xF1 || p == 0xF2

/-- The value that a parameter is written with (R395). -/
def State.paramValue (s : State) (k o p : Nat) : Nat :=
  let c := p % 16
  if p < 0x10 then s.get (OPC_CHA_DIR k o c) + 2 * s.get (OPC_CHA_SAFE k o c) + 4 * s.get (OPC_CHA_EDGE_EN k o c)
  else if p < 0x20 then s.get (OPC_CHA_THRESH k o c) + 256 * s.get (OPC_CHA_HYST k o c)
  else if p < 0x30 then s.get (OPC_CHB_STUCK k o c)
  else if p < 0x40 then s.get (OPC_CHB_CHAT_MAX k o c) + 256 * s.get (OPC_CHB_CHAT_WIN k o c)
  else if p = 0xF3 then 2 * s.get (OPC_CFG_REFRESH k)
  else if p = 0xFF then 1
  else 0

/-- A parameter marked to be sent, lowest Outpost and parameter first (R396). -/
def markParam (o p : Nat) : List (Nat × Nat) → List (Nat × Nat)
  | [] => [(o, p)]
  | (o', p') :: t =>
    if o = o' ∧ p = p' then (o', p') :: t
    else if o < o' ∨ (o = o' ∧ p < p') then (o, p) :: (o', p') :: t
    else (o', p') :: markParam o p t

/-- The state with parameters of an Outpost marked. -/
def State.mark (s : State) (k o : Nat) (ps : List Nat) : State :=
  let x := s.chain k
  s.setChain k { x with marked := ps.foldl (fun m p => markParam o p m) x.marked }

/-- The place of the rotation from `rot` on: the Outpost whose turn it is, if any is present. -/
def State.rotNext (s : State) (k rot : Nat) : Option Nat :=
  let here (o : Nat) : Bool := decide (o < s.outposts k) && s.present k o
  if here (rot / 68) then some rot
  else ((List.range 8).find? (fun d => here ((rot / 68 + 1 + d) % 8))).map
    (fun d => (rot / 68 + 1 + d) % 8 * 68)

/-- The service slot of the next frame (R396). -/
def State.nextSlot (s : State) (k : Nat) : State × Option Slot :=
  let x := s.chain k
  let fill (o p : Nat) : Slot := ⟨o, p, s.paramValue k o p⟩
  match x.marked.find? (fun m => s.present k m.1 && decide (m.1 < s.outposts k)) with
  | some m =>
    (s.setChain k { x with marked := x.marked.filter (fun n => !(n == m)) }, some (fill m.1 m.2))
  | none =>
    match (List.range (s.outposts k)).find? (fun o => s.present k o && bitAt (x.post o).b0 6) with
    | some o =>
      let p := x.post o
      (s.setPost k o { p with confPos := (p.confPos + 1) % 66 }, some (fill o (confParam p.confPos)))
    | none =>
      match s.rotNext k x.rot with
      | none => (s, none)
      | some r => (s.setChain k { x with rot := (r + 1) % 544 }, some (fill (r / 68) (rotParam (r % 68))))

/-! ## Images (R398, R399, R402) -/

/-- Whether an image fits a chain (R398, R399). -/
def State.chainFits (s : State) (k i dir lines : Nat) : Bool :=
  s.get (IMG_CFG_COMMIT i) == 2 && s.get (IMG_CFG_CHAIN i) == k && s.get (IMG_CFG_DIR i) == dir &&
    s.get (IMG_SIZE_LINES i) == lines

/-- The chain's input image, if it is written (R398, R402): one that fits, at home on this device. -/
def State.inImage (s : State) (k : Nat) : Option Nat :=
  let i := s.get (OPC_IMG_IN k)
  if s.on (OPC_IMG_IN_EN k) && !(s.chain k).inBad && s.chainFits k i 0 3 && s.imgOn i && s.homeHere i then some i
  else none

/-- The chain's output image, if it is read (R399, R402). -/
def State.outImage (s : State) (k : Nat) : Option Nat :=
  let i := s.get (OPC_IMG_OUT k)
  if s.on (OPC_IMG_OUT_EN k) && !(s.chain k).outBad && s.chainFits k i 1 1 && s.imgOn i then some i else none

/-- The chain's output image, if this device commits it (R399): one of which it is the home device. -/
def State.outHome (s : State) (k : Nat) : Option Nat := (s.outImage k).filter s.homeHere

/-- The commands of the next frame (R399): of the committed view if its head shows DONE, else of the copy. -/
def State.commands (s : State) (k : Nat) : State × List Nat :=
  if !s.on (OPC_IMG_OUT_EN k) then (s, List.replicate 8 0)
  else
    let partial_ (s : State) : State × List Nat := (s.bump (OPC_CNT2_OUT_PARTIAL k), (s.chain k).copy)
    match s.outImage k with
    | none => partial_ s
    | some i =>
      let r := s.ledgerRead 0 (s.get (IMG_CFG_CTX i)) (s.imgBase i + 16) 32
      if (s.image i).flags / 2 % 2 = 1 && !r.2.2 then
        let ws := (List.range 8).map (fun o => leNat ((r.2.1.drop (4 * o)).take 2))
        let x := r.1.chain k
        (r.1.setChain k { x with copy := ws }, ws)
      else partial_ r.1

/-- The block of one Outpost in the input image (R398). -/
def State.inBlock (s : State) (k o : Nat) : List Byte :=
  let p := (s.chain k).post o
  let sup := natBits p.b0 4 2
  let valid := ((List.range 16).map (fun c =>
    ofBool (p.good && !bitAt p.b0 6 && (if s.on (OPC_CHA_DIR k o c) then decide (sup ≤ 1) else sup != 3)) *
      2 ^ c)).sum
  leBytes 2 p.inp ++ leBytes 2 valid ++ leBytes 4 p.diag ++ leBytes 1 p.b0 ++ leBytes 1 p.vf ++
    leBytes 1 (s.get (OPC_OSTAT_AGE k o)) ++ leBytes 1 0 ++ leBytes 4 p.time

/-- The bytes of view offsets 16 to 175 of the input image (R398). -/
def State.inBytes (s : State) (k : Nat) : List Byte :=
  let n := s.outposts k
  let x := s.chain k
  let good := ((List.range n).map (fun o => ofBool (x.post o).good * 2 ^ o)).sum
  ((List.range 8).map (fun o => if o < n then s.inBlock k o else List.replicate 16 0)).flatten ++
    leBytes 4 x.frames ++ leBytes 1 good ++ List.replicate 27 0

/-- The input image written and committed at a frame end (R398). -/
def State.commitInput (s : State) (k : Nat) : State :=
  match s.inImage k with
  | none => s
  | some i =>
    let s := s.ledgerPut 0 (s.get (IMG_CFG_CTX i)) (offsets (s.imgBase i + s.imgSize i + 16) (s.inBytes k))
    let bad := ((List.range (s.outposts k)).filter (fun o => !((s.chain k).post o).good)).length
    s.commitImage i (s.get STG_STAT_LEG) (2 + ofBool (0 < bad) * 8 + bad * 256)

/-- The output image committed at a frame end, and OUT_TMO watched (R399, R400). -/
def State.commitOutput (s : State) (k : Nat) : State :=
  let done := match s.outHome k with
    | none => false
    | some i => (s.image i).marks / 2 % 2 == 1
  let s := match s.outHome k with
    | none => s
    | some i => s.commitImage i (s.get STG_STAT_LEG) (s.image i).marks
  let x := s.chain k
  if done then s.setChain k { x with silent := 0, safe := false }
  else
    let n := x.silent + 1
    let t := s.get (OPC_CFG_OUT_TMO k)
    if 0 < t ∧ t ≤ n then
      let s := s.setChain k { x with silent := n, safe := true }
      if x.safe then s else s.chainEvent k 12 0 0
    else s.setChain k { x with silent := n, safe := x.safe && decide (0 < t) }

/-! ## Frames (R382 to R384) -/

/-- The down header (R382), HOP zero. -/
def downHeader (last fseq time : Nat) (slot : Option Slot) : List Byte :=
  let b := leBytes 1 0 ++ leBytes 1 last ++ leBytes 1 fseq ++ leBytes 4 time ++
    (match slot with
      | none => leBytes 1 0 ++ leBytes 1 0 ++ leBytes 2 0
      | some x => leBytes 1 (x.outpost % 8 + ofBool (!paramReads x.param) * 8 + 16) ++ leBytes 1 x.param ++
          leBytes 2 (if paramReads x.param then 0 else x.value))
  b ++ crcBytes b

/-- The down record of Outpost `o` (R382). -/
def downRecord (o fseq out eack : Nat) (resume safe : Bool) : List Byte :=
  let b := leBytes 2 out ++ leBytes 1 (eack % 4 + ofBool resume * 4 + ofBool safe * 8)
  b ++ crcBytes (leBytes 1 o ++ leBytes 1 fseq ++ b)

/-- The frame of chain `k` that falls due starts (R382, R387, R390, R399, R400); SAFE is set also under the mismatch
action of R444. -/
def State.frameStart (s : State) (k : Nat) : State :=
  match s.expire (.frame k) with
  | none => s
  | some s =>
    if s.chainState k ≠ 2 ∧ s.chainState k ≠ 3 then s
    else
      let drains := s.chainState k == 3
      let s := s.arm (.frame k) (s.get (OPC_CFG_REFRESH k) * 50000)
      let s := s.arm (.frameTmo k) 90000
      let c := s.commands k
      let q := c.1.nextSlot k
      let s := q.1.elapse 5600
      let x := s.chain k
      let us := s.nowUs
      let n := s.outposts k
      let recs := ((List.range n).map (fun o =>
        downRecord o x.fseq (c.2.getD o 0) (x.post o).nedge
          (bitAt (s.get (OPC_CMD_RESUME k)) o || s.on (OPC_CTL_AUTO_RESUME k))
          (x.safe || drains || (s.on CFG_STAT_MISMATCH && s.get CFG_CTL_ACTION == 1)))).flatten
      let bytes := downHeader (n - 1) x.fseq us q.2 ++ recs
      let line := codeGroups x.rd (frameChars bytes)
      let s := s.emit (.frame k bytes line.1)
      let posts := (List.range 8).foldl (fun (m : SMap Outpost) o =>
        let p := mget m o Outpost.fresh
        mput m o { p with nedge := 0, good := false } Outpost.fresh) x.posts
      let s := s.setChain k { x with
        fseq := (x.fseq + 1) % 256, busy := true, cur := x.fseq, timeUs := us, pos := 0, last := drains,
        posts := posts, slot := q.2, edges := [], frames := x.frames + 1,
        rd := line.2 }
      s.put (OPC_CMD_RESUME k) 0

/-! ## Up records (R383 to R388, R393 to R397, R403) -/

/-- Whether an up record is good (R384). -/
def recordGood (pos cur : Nat) (d : List Byte) : Bool :=
  let b (i : Nat) : Nat := (d.getD i 0).toNat
  decide (12 ≤ d.length) &&
    d.length == 12 + (if bitAt (b 1) 2 then 3 else 0) + 4 * natBits (b 1) 0 2 &&
    natBits (b 1) 0 2 != 3 && natBits (b 0) 0 3 == pos && b 2 == cur &&
    d.drop (d.length - 2) == crcBytes (d.take (d.length - 2))

/-- The full time of a stamp, in ns (R388). -/
def edgeTime (timeUs stamp : Nat) : Nat :=
  let r : Int := (timeUs : Int) + 128
  ((r - (r - (stamp : Int)) % 2 ^ 24) * 1000 % 2 ^ 64).toNat

/-- An edge entry of Outpost `o` accepted or dropped (R387, R388, R401). -/
def State.takeEdge (s : State) (k o : Nat) (e : List Byte) : State :=
  let x := s.chain k
  let p := x.post o
  let b0 := leNat (e.take 1)
  let q := natBits b0 5 3
  let back := (p.expect + 8 - q) % 8
  if back = 1 ∨ back = 2 then s
  else
    let loss := p.lossNext || back != 0
    let t := edgeTime x.timeUs (leNat ((e.drop 1).take 3))
    let w0 := natBits b0 0 5 + ofBool loss * 2 ^ 5 + o * 2 ^ 8 + k * 2 ^ 16
    let s := s.setChain k { x with
      edges := x.edges ++ [BitVec.ofNat 32 w0, BitVec.ofNat 32 t, BitVec.ofNat 32 (t / 2 ^ 32)],
      posts := mput x.posts o { p with expect := (q + 1) % 8, lossNext := false } Outpost.fresh }
    let s := s.bump (OPC_CNT1_EDGES k)
    if loss then (s.bump (OPC_CNT1_EDGE_LOSS k)).chainEvent k 10 o (natBits b0 0 4) else s

/-- The service reply of a good record (R395, R396). -/
def State.takeReply (s : State) (k o : Nat) (param value : Nat) : State :=
  let x := s.chain k
  match x.slot with
  | none => s
  | some q =>
    if q.outpost ≠ o ∨ q.param ≠ param then s
    else
      let s := s.setChain k { x with slot := none }
      if param = 0xF0 then s.put (OPC_OINFO0_ID k o) value
      else if param = 0xF1 then s.put (OPC_OINFO0_DN_ERR k o) value
      else if param = 0xF2 then s.put (OPC_OINFO1_EDGE_LOST k o) value
      else if value = q.value then s
      else (s.bump (OPC_CNT2_CFG_MISMATCH k)).chainEvent k 11 o (if param < 64 then param % 16 else 0)

/-- The events of new channel diagnostics (R392, R393): for an input STUCK and CHATTER, for an output OVERLOAD and
EXT_DRIVE. -/
def State.diagEvents (s : State) (k o old new : Nat) : State :=
  (List.range 16).foldl (fun s c =>
    let a := natBits old (2 * c) 2
    let b := natBits new (2 * c) 2
    if s.on (OPC_CHA_DIR k o c) then
      let s := if b = 1 ∧ a ≠ 1 then s.chainEvent k 6 o c else s
      if b = 2 ∧ a ≠ 2 then s.chainEvent k 7 o c else s
    else
      let s := if bitAt b 0 && !bitAt a 0 then s.chainEvent k 8 o c else s
      if bitAt b 1 && !bitAt a 1 then s.chainEvent k 9 o c else s) s

/-- A good up record of Outpost `o` (R383, R387, R394, R397, R398, R403). -/
def State.goodRecord (s : State) (k o : Nat) (d : List Byte) : State :=
  let x := s.chain k
  let old := x.post o
  let b (i : Nat) : Nat := (d.getD i 0).toNat
  let b0 := b 0
  let ne := natBits (b 1) 0 2
  let svc := bitAt (b 1) 2
  let dg := leNat ((d.drop 6).take 4)
  let unconf := bitAt b0 6
  let s := s.setPost k o { old with
    nedge := ne, good := true, inp := leNat ((d.drop 4).take 2), diag := dg, b0 := b0, vf := b 3,
    time := x.timeUs % 2 ^ 32, miss := 0, absent := false, conf := !unconf,
    confPos := if unconf then old.confPos else 0 }
  let s := ((s.put (OPC_OSTAT_OSTAT k o) b0).put (OPC_OSTAT_VF k o) (b 3)).put (OPC_OSTAT_AGE k o) 0
  let s := s.putPresent k o true
  let s := if old.absent then s.chainEvent k 2 o 0 else s
  let s := if bitAt b0 3 && !bitAt old.b0 3 then s.chainEvent k 3 o 0 else s
  let s := if unconf && old.conf then s.chainEvent k 4 o 0 else s
  let s := if natBits b0 4 2 ≠ natBits old.b0 4 2 then s.chainEvent k 5 o 0 else s
  let s := s.diagEvents k o old.diag dg
  let s := if svc then s.takeReply k o (b 10) (leNat ((d.drop 11).take 2)) else s
  let at_ := if svc then 13 else 10
  let s := (List.range ne).foldl (fun s i => s.takeEdge k o ((d.drop (at_ + 4 * i)).take 4)) s
  if bitAt (b 1) 3 then
    let p := (s.chain k).post o
    s.setPost k o { p with lossNext := true }
  else s

/-- An up record arrives (R384). -/
def State.upRecord (s : State) (k : Nat) (d : List Byte) : State :=
  let x := s.chain k
  if !x.busy || decide (s.outposts k ≤ x.pos) then s
  else
    let o := x.pos
    let s := s.setChain k { x with pos := o + 1 }
    if recordGood o x.cur d then s.goodRecord k o d else s.bump (OPC_CNT0_REC_BAD k)

/-! ## Frame ends and chain states (R384, R398 to R403, R445) -/

/-- STATE of a chain changes (R405). -/
def State.setChainState (s : State) (k st : Nat) : State :=
  if s.chainState k = st then s else (s.put (OPC_STAT_STATE k) st).chainEvent k 0 0 0

/-- An Outpost without a good record in the frame that ends (R398, R403). -/
def State.missedRecord (s : State) (k o : Nat) : State :=
  let p := (s.chain k).post o
  if p.good then s
  else
    let n := p.miss + 1
    let lost := decide (s.get (OPC_CFG_MISS_MAX k) ≤ n) && !p.absent
    let s := (s.setPost k o { p with miss := n, absent := p.absent || lost }).bump (OPC_OSTAT_AGE k o)
    if lost then (s.putPresent k o false).chainEvent k 1 o 0 else s

/-- The edge packet of a frame put, closed and announced (R401). -/
def State.edgePacket (s : State) (k : Nat) : State :=
  let ws := (s.chain k).edges
  if ws.isEmpty || !s.on (OPC_EDGE_EN k) then s
  else
    let n := s.get (OPC_EDGE_CTX k)
    s.bridgeRecord ⟨s.get (CTX_QUE_NQ n), n, 2, ws, true, none⟩

/-- A chain enters STARTING (R402, R445): 20 µs of idle pairs. -/
def State.chainStart (s : State) (k : Nat) : State :=
  let s := ((s.setChainState k 1).incr (OPC_STAT_GEN k)).put (OPC_STAT_RESTART_PENDING k) 0
  let inBad := s.on (OPC_IMG_IN_EN k) && !s.chainFits k (s.get (OPC_IMG_IN k)) 0 3
  let outBad := s.on (OPC_IMG_OUT_EN k) && !s.chainFits k (s.get (OPC_IMG_OUT k)) 1 1
  let x := s.chain k
  let s := s.setChain k { x with inBad := inBad, outBad := outBad }
  (s.put (OPC_STAT_IMG_ERR k) (ofBool (inBad || outBad))).arm (.chainStart k) 20000

/-- A starting chain enters ON, its first frame due (R402): the device holds it. -/
def State.chainOn (s : State) (k : Nat) : State :=
  match s.expire (.chainStart k) with
  | none => s
  | some s =>
    let was := s.homes
    let x := s.chain k
    let posts := (List.range 8).foldl (fun (m : SMap Outpost) o =>
      let p := mget m o Outpost.fresh
      mput m o { p with nedge := 0 } Outpost.fresh) x.posts
    let s := s.setChain k { x with frames := 0, silent := 0, safe := false, posts := posts }
    ((s.setChainState k 2).homesGained was).arm (.frame k) 0

/-- A chain leaves service (R379, R402, R445). -/
def State.chainOff (s : State) (k : Nat) : State :=
  let s := s.disarm (.frame k)
  if s.on (OPC_STAT_RESTART_PENDING k) then s.chainStart k else s.setChainState k 0

/-- EN of a chain written (R402, R445). -/
def State.chainEn (s : State) (k : Nat) (en : Bool) : State :=
  let drain (s : State) : State :=
    let x := s.chain k
    (s.setChain k { x with drain := 3 }).setChainState k 3
  match s.chainState k, en with
  | 0, true => s.chainStart k
  | 1, false => (drain (s.disarm (.chainStart k))).arm (.frame k) 20000
  | 2, false => drain s
  | 3, en => s.put (OPC_STAT_RESTART_PENDING k) (ofBool en)
  | _, _ => s

/-- The other images of which this device is home and that commit at the end of each frame of chain `k` (R215). -/
def State.commitFrame (s : State) (k : Nat) : State :=
  (s.imagesOn.filter (fun i => s.get (IMG_CFG_COMMIT i) == 2 && s.get (IMG_CFG_CHAIN i) == k && s.homeHere i &&
    s.inImage k != some i && s.outHome k != some i)).foldl
      (fun s i => s.commitImage i (s.get STG_STAT_LEG) (s.image i).marks) s

/-- The frame in progress on chain `k` ends (R384, R396, R398 to R403). -/
def State.frameEnds (s : State) (k : Nat) : State :=
  let x := s.chain k
  if !x.busy then s
  else
    let n := s.outposts k
    let s := (s.setChain k { x with busy := false, slot := none }).disarm (.frameTmo k)
    let s := s.bumpBy (OPC_CNT0_REC_BAD k) (n - x.pos)
    let s := match x.slot with
      | none => s
      | some q => s.mark k q.outpost [q.param]
    let s : State := (List.range n).foldl (fun s o => s.missedRecord k o) s
    let s : State := if s.chainState k = 2 then ((s.commitInput k).commitOutput k).commitFrame k else s
    let s := s.edgePacket k
    if x.last then
      let y : Chain := s.chain k
      let s := s.setChain k { y with drain := y.drain - 1 }
      if y.drain ≤ 1 then s.chainOff k else s
    else s

/-- 90 µs have passed since the frame start without EOF (R384). -/
def State.frameTimeout (s : State) (k : Nat) : State :=
  match s.expire (.frameTmo k) with
  | none => s
  | some s => ((s.bump (OPC_CNT0_FRAME_TMO k)).chainEvent k 13 0 0).frameEnds k

end Sys2Proof.Machine
end

