-- ==== Sys2Proof/Machine/FaultTests.lean ====
section
/-! DEFINITION. The targeted tests (R406 to R414): the start of a queued test, the steps of a row test with its
spare row, and the ends of chain and slot tests; lanes returned to service (R413). -/

namespace Sys2Proof.Machine

/-- The unit on which at most one test runs at a time (R410). -/
def Resource.unit (r : Resource) : Nat × Nat :=
  match r with
  | .ledgerRow b _ => (1, b)
  | .queueRow k _ => (2, k)
  | .slot n _ => (6, n)
  | r => (r.key.1, r.key.2.1)

/-- A word with one of four bits from bit `lo` set or cleared. -/
def State.spareBit (s : State) (f : FRef) (j : Nat) (b : Bool) : State :=
  let v := s.get f
  s.put f (if b = bitAt v j then v else if b then v + 2 ^ j else v - 2 ^ j)

/-- USED, LASTING and WITHDRAWN of the spare rows of a row's bank or block (R428). -/
def spareRefs : Resource → FRef × FRef × FRef
  | .ledgerRow b _ => (FLT_SPARE_USED b, FLT_SPARE_LASTING b, FLT_SPARE_WITHDRAWN b)
  | r => let k := r.key.2.1
         (⟨FLT_QSPARE k, 0, 4⟩, ⟨FLT_QSPARE k, 4, 4⟩, ⟨FLT_QSPARE k, 8, 4⟩)

/-- The number of a row's bank or block among all of them. -/
def spareUnit : Resource → Nat
  | .ledgerRow b _ => b
  | r => 32 + r.key.2.1

/-- The free spare rows of a row's bank or block. -/
def State.freeSpares (s : State) (r : Resource) : List Nat :=
  let f := spareRefs r
  (List.range 4).filter (fun j => !bitAt (s.get f.1) j && !bitAt (s.get f.2.2) j)

/-- A spare row taken for a row (R407, R408): one used before is tested again, and one that `bad` says fails is
withdrawn. -/
def State.takeSpare (s : State) (r : Resource) (bad : Nat) : State × Option Nat :=
  let u := mget s.spareUsed (spareUnit r) 0
  let fails (j : Nat) : Bool := bitAt u j && bitAt bad j
  let free := s.freeSpares r
  let gone := free.takeWhile fails
  let s := gone.foldl (fun s j => s.spareBit (spareRefs r).2.2 j true) s
  match free.drop gone.length with
  | [] => (s, none)
  | j :: rest =>
    let s := s.spareBit (spareRefs r).1 j true
    let s := { s with spareUsed := mput s.spareUsed (spareUnit r) (if bitAt u j then u else u + 2 ^ j) 0 }
    (if rest.isEmpty then s.raise 10 0 (detail r.key.2.1 r.key.1 r.key.2.2) else s, some j)

/-- Whether a resource is a row. -/
def Resource.isRow : Resource → Bool
  | .ledgerRow _ _ => true
  | .queueRow _ _ => true
  | _ => false

/-- Whether a resource is a record with slots. -/
def Resource.isSlot : Resource → Bool
  | .slot _ _ => true
  | _ => false

/-- The test in place `i` of the queue starts, if tests run and no other runs or waits before it on its unit (R407,
R410). -/
def State.testStart (s : State) (i bad : Nat) : State :=
  match s.tests[i]? with
  | none => s
  | some t =>
    if !s.on FLT_CFG_TEST_EN || s.active.any (fun a => a.test.res.unit == t.res.unit) ||
        (s.tests.take i).any (fun u => u.res.unit == t.res.unit) then s
    else
      let s := { s with tests := s.tests.eraseIdx i }
      let run (s : State) (spare : Nat) (st : RowStep) : State :=
        { s.bump FLT_CNT1_TESTS with active := s.active ++ [⟨t, spare, st⟩] }
      if t.res.isRow then
        match s.takeSpare t.res bad with
        | (s, none) => s.untested t.res t.detail
        | (s, some j) => run s j .copying
      else run s 0 .marching

/-- The row test that runs on a Ledger bank or, if `q`, on a queue RAM block. -/
def State.rowTest (s : State) (q : Bool) (u : Nat) : Option ActiveTest :=
  s.active.find? (fun a => a.test.res.isRow && a.test.res.unit == (if q then 2 else 1, u))

/-- The state with the step of a running test replaced. -/
def State.setActive (s : State) (a : ActiveTest) : State :=
  { s with active := s.active.map (fun b => if b.test.res == a.test.res then a else b) }

/-- The state without a running test. -/
def State.endTest (s : State) (r : Resource) : State :=
  { s with active := s.active.filter (fun a => !(a.test.res == r)) }

/-- A copy of a row corrects its single-bit errors (R407). -/
def State.copyRow (s : State) (r : Resource) : State :=
  match r with
  | .ledgerRow _ _ =>
    { s with ledgerBad := s.ledgerBad.filter (fun (e : Nat × Ecc) => !(s.rowOf e.1 == r && e.2 == .ce)) }
  | _ => s

/-- A row is copied to its spare row (R407 step 2). -/
def State.rowCopied (s : State) (q : Bool) (u : Nat) : State :=
  match s.rowTest q u with
  | none => s
  | some a => if a.step = .copying then (s.setActive { a with step := .marching }).copyRow a.test.res else s

/-- A row stays replaced by its spare (R407, R409). -/
def State.rowReplaced (s : State) (a : ActiveTest) : State :=
  let s := (s.endTest a.test.res).spareBit (spareRefs a.test.res).2.1 a.spare true
  { s with replaced := s.replaced ++ [a.test.res] }

/-- Whether another TRANSIENT result makes a resource LASTING (R409). -/
def State.repeats (s : State) (r : Resource) : Bool :=
  decide (s.get FLT_CFG_REPEAT ≤ s.transientsOf r + 1)

/-- The March test of a row ends (R407, R409). -/
def State.rowMarched (s : State) (q : Bool) (u : Nat) (pass : Bool) : State :=
  match s.rowTest q u with
  | none => s
  | some a =>
    if a.step ≠ .marching then s
    else if pass && !s.repeats a.test.res then s.setActive { a with step := .restoring }
    else (s.rowReplaced a).classify a.test.res a.test.detail pass |>.1

/-- A row is restored from its spare row, which is free again (R407 step 4, R409). -/
def State.rowRestored (s : State) (q : Bool) (u : Nat) : State :=
  match s.rowTest q u with
  | none => s
  | some a =>
    if a.step ≠ .restoring then s
    else
      let s := ((s.endTest a.test.res).copyRow a.test.res).spareBit (spareRefs a.test.res).1 a.spare false
      (s.classify a.test.res a.test.detail true).1

/-- The chain test of queue `q` ends (R411, R409): the queue resumes or is retired. -/
def State.chainTested (s : State) (q : Nat) (pass : Bool) : State :=
  if s.active.any (fun a => a.test.res == Resource.chain q) then
    let s := s.endTest (.chain q)
    let r := s.classify (.chain q) 0 pass
    let x := r.1.queue q
    let s := r.1.setQueue q { x with testing := false, retired := x.retired || r.2 }
    if r.2 then { s with replaced := s.replaced ++ [.chain q] } else s
  else s

/-- The test of the record and the slots of a freed record ends (R414): those that fail are withdrawn. Where none fails
and the result is LASTING for its repeats (R409), the record is (DEDUCED, log entry 148). -/
def State.slotTested (s : State) (recFails : Bool) (slotsFail : Nat) : State :=
  match s.active.find? (·.test.res.isSlot) with
  | none => s
  | some a =>
    match a.test.res with
    | .slot n k =>
      let bad := min k slotsFail
      let s := s.endTest (.slot n k)
      let c := s.classify (.slot n k) a.test.detail (!recFails && bad == 0)
      { c.1 with recsOut := c.1.recsOut + ofBool (recFails || (c.2 && bad == 0)), slotsOut := c.1.slotsOut + bad }
    | _ => s

/-- Lanes returned to service by a write of FLT_LANE (R413): a port that is enabled, and has no other retired
lane, trains again. -/
def State.laneReturn (s : State) (mask : Nat) : State :=
  let v := s.get FLT_LANE_RETIRED
  let s := s.put FLT_LANE_RETIRED (v - v.land mask)
  (List.range 5).foldl (fun s p =>
    let was := bitAt v (2 * p) || bitAt v (2 * p + 1)
    if was && !s.laneRetired p && s.portState p == 1 && s.phase p == .off then s.startTraining p else s) s

/-- What the PRBS check of a lane gives (R87, R93): whether its checker locked, the symbols and bits in error. -/
structure LaneCheck where
  lock : Bool
  sym : Nat
  bit : Nat
  deriving DecidableEq, Repr

/-- The PRBS check of both lanes of port `p`: errors counted, each lane classified and retired if it is LASTING (R93,
R413). The Bool tells that one is. -/
def State.lanesChecked (s : State) (p : Nat) (c : Nat → LaneCheck) : State × Bool :=
  (List.range 2).foldl (fun (r : State × Bool) i =>
    let k := 2 * p + i
    let e := c i
    let s := (r.1.put (LN_PRBS_CHK_LOCK k) (ofBool e.lock)).bumpBy (LN_PRBS_SYM_ERR_COUNT k) e.sym
    let s := s.bumpBy (LN_PRBS_BIT_ERR_COUNT k) e.bit
    let t := s.testedNow (.lane k) e.sym (decide (e.sym ≤ s.get FLT_CFG_LANE_MAX))
    (if t.2 then t.1.retireLane k else t.1, r.2 || t.2)) (s, false)

/-- The checker of lane `k` after a retrain's words: it locks, then counts for 6 µs, 2400 words (R87, R93). -/
def State.retrainCheck (s : State) (k : Nat) (ws : List (BitVec 64)) : Checker :=
  Checker.check 2 2400 (s.checker k) (s.straight k ws)

/-- What a checker has found. -/
def Checker.found (c : Checker) : LaneCheck := ⟨c.lock, c.sym, c.bit⟩

/-- The PRBS check of a retrain ends on port `p` (R87, R93, R413): each lane's errors are counted and it is
classified; a LASTING lane ends the retrain. A check whose checkers have not both locked has not ended (DEDUCED, log
133). -/
def State.prbsEnd (s : State) (p : Nat) (w0 w1 : List (BitVec 64)) : State :=
  let c (i : Nat) : Checker := s.retrainCheck (2 * p + i) (if i = 0 then w0 else w1)
  if s.phase p ≠ .rtPrbs ∨ ¬ ((c 0).lock ∧ (c 1).lock) then s
  else
    match s.expire (.rtPhase p) with
    | none => s
    | some s =>
      let r := s.lanesChecked p (fun i => (c i).found)
      if r.2 then r.1.linkDown p 9
      else ((r.1.setPhase p .rtRealign).emit (.pattern p 1)).arm (.rtPhase p) 20000

end Sys2Proof.Machine
end

