-- ==== Sys2Proof/Machine/Reset.lean ====
section
/-! DEFINITION. Resets, power and freeze (R479, R484, R496 to R502, R520), and the frame of what survives
them. -/

namespace Sys2Proof.Machine

/-! ## Reset causes (R496) -/

/-- The codes of the reset causes. -/
def rsPowerOn : Nat := 0
@[inherit_doc rsPowerOn] def rsPin : Nat := 1
@[inherit_doc rsPowerOn] def rsGlitch : Nat := 2
@[inherit_doc rsPowerOn] def rsInnkeeper : Nat := 3
@[inherit_doc rsPowerOn] def rsConfig : Nat := 4
@[inherit_doc rsPowerOn] def rsSoftware : Nat := 5
@[inherit_doc rsPowerOn] def rsFreeze : Nat := 6

/-- The place of a cause in the order of R496: the lower, the higher its rank. -/
def causeRank (c : Nat) : Nat := [0, 4, 1, 2, 5, 6, 3].getD c 7

/-- The registers that the AON domain keeps through every cause except POWER_ON (R497). -/
def keptRegs : List Nat := [NRG_LG_STAT, SEC_GLITCH, CRP_RST_CAUSE, CRP_RST_HIST, CRP_SUP_LOW]

/-- The machine with every part reset but what R497 keeps: the fuses, the vault, the flash, the pins, the member,
the AON domain's record and the TAP. The debug session ends (R482). -/
def State.cleared (s : State) : State :=
  let t : State := { State.reset with
    clk := s.clk, member := s.member, side := s.side, supOut := s.supOut, out := s.out,
    regs := s.regs.filter (fun e => keptRegs.contains e.1), lastGasp := s.lastGasp, otp := s.otp,
    lifecycle := s.lifecycle, flash := s.flash, dirs := s.dirs, tap := s.tap, freezeHigh := s.freezeHigh,
    nextFree := s.nextFree, pending := s.pending }
  t.put COUR_GLB_SPARE (s.member.couriers - 1)

/-- The device resets with a cause (R496, R497): it is recorded, the higher of two that coincide as the cause. -/
def State.deviceReset (s : State) (cause : Nat) : State :=
  let was := s.get CRP_RST_CAUSE_CAUSE
  let t := s.cleared
  let t := t.put CRP_RST_HIST_HIST (s.get CRP_RST_HIST_HIST |>.lor (2 ^ cause))
  if s.power = .held then
    if causeRank cause < causeRank was then t.put CRP_RST_CAUSE_CAUSE cause else t
  else (t.put CRP_RST_CAUSE_CAUSE cause).bump CRP_RST_CAUSE_COUNT

/-- VDD_AON rises through its threshold (R496, R497): everything resets, the AON domain and the TAP with it. -/
def State.powerOn (s : State) : State :=
  let t : State := { State.reset with
    clk := s.clk, member := s.member, side := s.side, supOut := s.supOut, out := s.out, otp := s.otp,
    flash := s.flash, dirs := s.dirs, freezeHigh := s.freezeHigh, nextFree := s.nextFree, pending := s.pending }
  t.put COUR_GLB_SPARE (s.member.couriers - 1)

/-- RESET_N low for 1 µs (R496). -/
def State.resetPin (s : State) : State := s.deviceReset (if s.power = .frozen then rsFreeze else rsPin)

/-- A glitch detector fires (R479): 0 voltage, 1 clock, 2 temperature. -/
def State.glitch (s : State) (k : Nat) : State :=
  let v := s.get (if k = 0 then SEC_GLITCH_VOLT else if k = 1 then SEC_GLITCH_CLOCK else SEC_GLITCH_TEMP)
  let s := s.put (if k = 0 then SEC_GLITCH_VOLT else if k = 1 then SEC_GLITCH_CLOCK else SEC_GLITCH_TEMP)
    (max v 1)
  { (s.bump SEC_GLITCH_COUNT).deviceReset rsGlitch with tap := { s.tap with challenge := [] } }

/-- The lifecycle state that a fuse pattern decodes to (R477): 0 MANUFACTURE, 1 FIELD, 2 RETURN. -/
def lifecycleOf (fuses : Nat) : Nat := if fuses = 0 then 0 else if fuses = 1 then 1 else 2

/-- The reset ends (R498): with every monitored supply in range, after at least 10 µs, with the time base at 0. The
lifecycle state decoded from the fuses takes effect, and a part in RETURN finds its vault empty or empties it
(R477). PREF_SIDE and FREEZE_N are read from their pins. The silence of the segments (R187) counts from here. -/
def State.resetEnd (s : State) (side freezeN : Bool) : State :=
  if s.power = .held ∧ s.supOut = 0 then
    let lc := lifecycleOf s.otp.fuses
    let s := { s with
      power := .run, clk := s.clk + 10000, tb := 0, side := side, freezeHigh := freezeN, lifecycle := lc,
      otp := if lc = 2 then { s.otp with vault := none } else s.otp,
      sched := { s.sched with legClk := s.clk + 10000, past := 0 }, xspiLow := true }
    let s := (List.range s.member.segments).foldl (fun (s : State) g =>
      let x := s.seg g
      s.setSeg g { x with casLast := s.clk }) s
    ((s.put CRP_STAT_PLL_LOCK 1).arm .xspi 50000).scrubWatch
  else s

/-- XSPI_RST_N goes high 50 µs after the reset has ended (R520). -/
def State.xspiEnd (s : State) : State :=
  match s.expire .xspi with
  | none => s
  | some s => { s with xspiLow := false }

/-! ## Freeze (R484) -/

/-- The device stops where it stands; the debug session ends. -/
def State.freeze (s : State) : State :=
  if s.power = .run then { s.put SEC_DBG_UNLOCKED 0 with power := .frozen } else s

/-- A filtered falling edge on FREEZE_N. -/
def State.freezeFall (s : State) : State := { s.freeze with freezeHigh := false }

/-! ## Supplies (R501) and the PLL (R491) -/

/-- A monitored supply, by its bit in CRP_SUP, leaves its range. -/
def State.supplyOut (s : State) (i : Nat) : State :=
  let v := s.get CRP_SUP_LOW_LOW
  { s.put CRP_SUP_LOW_LOW (v.lor (2 ^ i)) with supOut := s.supOut.lor (2 ^ i) }

/-- A monitored supply returns to its range; a segment whose bank it is may issue again. -/
def State.supplyIn (s : State) (i : Nat) : State :=
  let s := { s with supOut := if bitAt s.supOut i then s.supOut - 2 ^ i else s.supOut }
  if s.power = .run ∧ 4 ≤ i ∧ i < 8 then s.busFree (i - 4) else s

/-- The phase error has stayed above WARN for 1 µs (R491): counted, and raised at most once per 1 ms. -/
def State.pllWarn (s : State) : State :=
  let s := s.bump CRP_PLL_WARN_CNT
  let quiet := match s.pllSaid with
    | none => false
    | some t => decide (s.clk < t + 1000000)
  if quiet then s else { s with pllSaid := some s.clk }.raise 6 0 0

/-- An error of the Innkeeper itself (R415): the device resets. -/
def State.innkeeperFault (s : State) : State := s.deviceReset rsInnkeeper

end Sys2Proof.Machine
end

