-- ==== Sys2Proof/Machine/BootImage.lean ====
section
/-! DEFINITION. Flash, image bundles and settings blocks (R454 to R459, R463), the boot commands and the
confirmation (R466 to R471). -/

namespace Sys2Proof.Machine

/-! ## Flash (R455) -/

/-- Bytes of the flash; an erased byte reads 0xFF. -/
def State.flashRead (s : State) (a n : Nat) : List Byte := readMem s.flash 0xFF a n

/-- Bytes written into the flash. -/
def State.flashWrite (s : State) (a : Nat) (bs : List Byte) : State :=
  { s with flash := writeMem s.flash 0xFF a bs }

/-- Where an image slot starts: 0 A, 1 B. -/
def slotBase (x : Nat) : Nat := if x = 0 then 0x100000 else 0x300000

/-- Bytes in an image slot. -/
def slotBytes : Nat := 0x200000

/-- Where a settings copy starts. -/
def settingsBase (c : Nat) : Nat := if c = 0 then 0x10000 else 0x20000

/-- A little-endian number of `n` bytes at an offset of a byte string. -/
def field (bs : List Byte) (o n : Nat) : Nat := leNat ((bs.drop o).take n)

/-- Whether a stretch of a byte string is zero. -/
def zeros (bs : List Byte) (o n : Nat) : Bool := ((bs.drop o).take n).all (· == 0)

/-! ## Reasons (R474) -/

/-- The reason codes of a start. -/
def whyHeader : Nat := 1
@[inherit_doc whyHeader] def whySignature : Nat := 2
@[inherit_doc whyHeader] def whyDecrypt : Nat := 3
@[inherit_doc whyHeader] def whySettings : Nat := 4
@[inherit_doc whyHeader] def whyPlan : Nat := 5
@[inherit_doc whyHeader] def whyExpired : Nat := 6
@[inherit_doc whyHeader] def whyRejected : Nat := 7
@[inherit_doc whyHeader] def whyFlash : Nat := 8
@[inherit_doc whyHeader] def whyNoImage : Nat := 9
@[inherit_doc whyHeader] def whyOlder : Nat := 10
@[inherit_doc whyHeader] def whyNoSettings : Nat := 11

/-! ## The image header (R457, R458) -/

/-- PART of the identity register (R1). -/
def Member.part : Member → Nat
  | .ux4816 => 0x4816 | .ux4808 => 0x4808 | .ux4804 => 0x4804

/-- Whether the schema list has its non-zero entries first. -/
def schemasOk : List Nat → Bool
  | [] => true
  | x :: t => (x != 0 || t.all (· == 0)) && schemasOk t

/-- The eight schema numbers of a header. -/
def schemasOf (h : List Byte) : List Nat := (List.range 8).map (fun i => field h (0x20 + 2 * i) 2)

/-- The four section places of a header: offset and length. -/
def sectionsOf (h : List Byte) : List (Nat × Nat) :=
  (List.range 4).map (fun i => (field h (0x50 + 8 * i) 4, field h (0x54 + 8 * i) 4))

/-- The header checks (R457, R458 step 1, R478). -/
def State.headerOk (s : State) (h : List Byte) : Bool :=
  let e := field h 0x08 2
  let len := field h 0x10 4
  let enc := field h 0x16 1
  let key := (h.drop 0xA0).take 96
  field h 0 4 == 0x55584231 && field h 4 2 == 1 && field h 6 2 == s.member.part && decide (1 ≤ e) &&
    decide (e - 1 ≤ field h 0x0A 2) && decide (field h 0x0A 2 ≤ e) && decide (e ≤ field h 0x0C 2) &&
    decide (field h 0x0C 2 ≤ e + 1) && decide (field h 0x0E 2 ≤ 1) && len % 16 == 0 &&
    decide (4096 ≤ len) && decide (len ≤ slotBytes) && field h 0x14 1 == 1 && field h 0x15 1 == 1 &&
    (enc == 1 || (enc == 0 && s.lifecycle == 0)) && zeros h 0x17 1 && zeros h 0x1C 4 && zeros h 0x3C 4 &&
    zeros h 0x70 48 && schemasOk (schemasOf h) &&
    (match s.otp.keyHash with
      | some k => Config.sha384 key == k
      | none => s.lifecycle == 0)

/-- The signature check (R458 step 2) on a bundle whose header has passed. -/
def signatureOk (bundle : List Byte) : Bool :=
  let n := bundle.length - 96
  Config.ecdsaP384 ((bundle.drop 0xA0).take 96) (Config.sha384 (bundle.take n)) (bundle.drop n)

/-- The header with GCM_TAG zero: the additional data of the decryption. -/
def aadOf (h : List Byte) : List Byte := h.take 0x40 ++ List.replicate 16 0 ++ (h.drop 0x50).take 0xB0

/-- The decryption (R458 step 3, R478): the plaintext, if the key is there and the tag matches. -/
def State.plaintext (s : State) (bundle : List Byte) : Option (List Byte) :=
  let body := (bundle.drop 0x100).take (bundle.length - 96 - 0x100)
  if field bundle 0x16 1 = 0 then some body
  else
    match s.otp.vault with
    | none => none
    | some k => Config.aesGcm k ((bundle.drop 0x30).take 12) (aadOf (bundle.take 0x100)) body
        ((bundle.drop 0x40).take 16)

/-- A checked image: its header and its plaintext. -/
structure Image0 where
  head : List Byte
  plain : List Byte
  deriving DecidableEq, Repr

/-- Section `i` of a checked image (R459). -/
def Image0.sec (x : Image0) (i : Nat) : List Byte :=
  let p := (sectionsOf x.head).getD i (0, 0)
  (x.plain.drop p.1).take p.2

/-- Whether the section table lies inside the plaintext. -/
def Image0.placed (x : Image0) : Bool :=
  (sectionsOf x.head).all (fun p => decide (p.1 + p.2 ≤ x.plain.length))

/-- The bundle of a slot: as many bytes as its header's LENGTH names, within the slot. -/
def State.bundle (s : State) (x : Nat) : List Byte :=
  s.flashRead (slotBase x) (min slotBytes (max 0x100 (field (s.flashRead (slotBase x) 0x100) 0x10 4)))

/-- Steps 1 and 2 of R458 on a slot: the reason of the failure, 0 if they pass. -/
def State.verifySlot (s : State) (x : Nat) : Nat :=
  let h := s.flashRead (slotBase x) 0x100
  if !s.headerOk h then whyHeader
  else if signatureOk (s.bundle x) then 0 else whySignature

/-- The checks of R458 on a slot: the image, or the reason of the first failure. -/
def State.checkImage (s : State) (x : Nat) : Image0 ⊕ Nat :=
  let v := s.verifySlot x
  if v ≠ 0 then .inr v
  else
    let b := s.bundle x
    match s.plaintext b with
    | none => .inr whyDecrypt
    | some p =>
      let i : Image0 := ⟨b.take 0x100, p⟩
      if i.placed then .inl i else .inr whyDecrypt

/-- BOOT_SLOT and BOOT_SLOTV after a check of a slot (R473). -/
def State.showSlot (s : State) (x why : Nat) : State :=
  let h := s.flashRead (slotBase x) 0x100
  if why = 0 then
    ((s.put (BOOT_SLOT_VALID x) 1).put (BOOT_SLOT_EPOCH x) (field h 8 2)).put (BOOT_SLOTV_VERSION x) (field h 0x18 4)
  else s.put (BOOT_SLOT_VALID x) 0

/-! ## Settings blocks (R463) -/

/-- Whether a byte string starts with a valid settings block. -/
def settingsValid (b : List Byte) : Bool :=
  let n := field b 6 2
  let len := field b 0xC 4
  field b 0 4 == 0x55585331 && decide (n ≤ 8188) && len == 32 + 8 * n && decide (len ≤ b.length) &&
    field b 0x1C 4 == (crc32c (b.take 0x1C ++ List.replicate 4 0 ++ (b.drop 32).take (len - 32))).toNat

/-- The entries of a settings block: address and value. -/
def settingsEntries (b : List Byte) : List (Nat × Nat) :=
  (List.range (field b 6 2)).map (fun i => (field b (32 + 8 * i) 4, field b (36 + 8 * i) 4))

/-- The blocks that a settings entry may address (R463). -/
def settingsBlocks : List Nat := [4, 5, 16, 3, 6, 7, 8, 9, 10, 11, 12, 13, 14, 15, 17, 18, 22]

/-- The blocks that a plan entry may address (R312). -/
def planBlocks : List Nat := [6, 7, 8, 9, 10, 11, 12, 13, 14, 15, 17, 22]

/-- The EN fields: the registers whose table names a field EN at bit 0, each with its address pattern, and EN_S0
and EN_S1 of SPN_CTL. -/
def enMask (a : Nat) : Nat :=
  let hit (base : Nat) (dims : List (Nat × Nat)) : Bool := decide (base ≤ a) && dimsHit dims (a - base)
  if a = SPN_CTL then 3
  else if hit (HP_CTL 0) [(3, 0x4000)] || hit (SEG_CTL 0) [(4, 0x10000)] || hit (CTX_CTL 0) [(256, 0x100)] ||
      hit (COUR_CTL 0) [(16, 0x40)] || hit (OPC_CTL 0) [(4, 0x4000)] || hit (WIN_ATTR 0) [(64, 0x20)] ||
      hit (IMG_CFG 0) [(256, 0x20)] || hit (EVT_CFG 0) [(512, 4)] || hit (LDG_MIR_CFG 0) [(4, 8)] ||
      inbAreas.any (fun i => hit (SEG_INB_CFG 0 i) [(4, 0x10000)]) then 1
  else if hit (SEG_INT 0 0) [(4, 0x10000), (4, 4)] then 2 ^ (SEG_INT_EN 0 0).lo
  else if hit (OPC_EDGE 0) [(4, 0x4000)] then 2 ^ (OPC_EDGE_EN 0).lo
  else 0

/-- Whether a settings entry keeps to the rules of R463: a register of its blocks, no EN field set, no W1S field
written. -/
def entryOk (e : Nat × Nat) : Bool :=
  settingsBlocks.contains (e.1 / 0x10000) &&
    match regRow e.1 with
    | none => false
    | some r => Nat.land e.2 (enMask e.1) == 0 &&
        r.fields.all (fun f => f.acc != .w1s || natBits e.2 f.lo f.w == 0)

/-- Whether a valid block is readable by an image that reads the given schemas. -/
def settingsReadable (schemas : List Nat) (b : List Byte) : Bool :=
  field b 4 2 != 0 && schemas.contains (field b 4 2) && (settingsEntries b).all entryOk

/-- The settings copies that are valid: number and bytes. -/
def State.validSettings (s : State) : List (Nat × List Byte) :=
  ((List.range 2).map (fun c => (c, s.flashRead (settingsBase c) 0x10000))).filter (fun x => settingsValid x.2)

/-- The valid copy with the higher SEQ. -/
def newest : List (Nat × List Byte) → Option (Nat × List Byte)
  | [] => none
  | [x] => some x
  | x :: t =>
    match newest t with
    | none => some x
    | some y => if field x.2 8 4 < field y.2 8 4 then some y else some x

/-- A settings block with a SEQ, its CRC renewed. -/
def withSeq (b : List Byte) (seq : Nat) : List Byte :=
  let len := field b 0xC 4
  let h := b.take 8 ++ leBytes 4 seq ++ (b.drop 12).take 16
  let t := (b.drop 32).take (len - 32)
  h ++ leBytes 4 (crc32c (h ++ List.replicate 4 0 ++ t)).toNat ++ t

/-! ## The directory (R456) -/

/-- The directory in force (R456): that of the valid copy with the higher number. -/
def State.dir (s : State) : Option Directory := s.dirs.best.map (·.dir)

/-- The directory that the Innkeeper changes; where the flash is blank it makes one. Which slot that names active
the spec does not say. -/
def State.dirOr (s : State) : State × Directory :=
  match s.dir with
  | some d => (s, d)
  | none => (s.free.2, ⟨s.free.1.toNat % 2, none, 0, 0, 0, s.get BOOT_FLASH_MODE, s.get BOOT_FLASH_MHZ, 0, 0, none⟩)

/-- BOOT_SLOT and BOOTS_LEFT show what a directory holds (R466, R473). BOOTS_LEFT shows the boots of an armed trial
from ARM_TRIAL on (DEDUCED, log 101). -/
def State.showDir (s : State) (d : Directory) : State :=
  (List.range 2).foldl (fun s x =>
      (s.put (BOOT_SLOT_CONFIRMED x) (ofBool (bitAt d.confirmed x))).put (BOOT_SLOT_TRIAL_FAILED x)
        (ofBool (bitAt d.failed x))) (s.put BOOT_STAT_BOOTS_LEFT d.bootsLeft)

/-- A bit of a mask set or cleared. -/
def withBit (v i : Nat) (b : Bool) : Nat := if b == bitAt v i then v else if b then v + 2 ^ i else v - 2 ^ i

/-- The directory written (R456). -/
def State.setDir (s : State) (d : Directory) : State := { s with dirs := s.dirs.write d }.showDir d

/-! ## Commands (R468 to R471) -/

/-- LAST_RESULT written. -/
def State.bootResult (s : State) (r : Nat) : State := s.put BOOT_STAT_LAST_RESULT r

/-- Whether this device is OWNER of a segment, where that forbids a restart (R6, R470). -/
def State.ownsAny (s : State) : Bool :=
  s.member != .ux4804 && (List.range 4).any (fun g => s.hasSeg g && s.get (SEG_STAT_ROLE g) == 2)

/-- The running slot (R473), none where no image runs. -/
def State.runsSlot (s : State) (x : Nat) : Bool := s.boot.running && s.get BOOT_STAT_SLOT == x

/-- Whether a command is refused as ERASE is (R468). -/
def State.eraseRefused (s : State) (x : Nat) : Bool := s.runsSlot x || s.on BOOT_STAT_TRIAL

/-- A command begins (R468): BUSY is set, and the staging area noted. -/
def State.bootBegin (s : State) (op x len : Nat) : State :=
  let src := s.get BOOT_SRC_LBASE * 4096
  let c : BootCmd :=
    ⟨op, x, s.get BOOT_DST_OFFSET * 4096, src, (List.range len).map (fun i => s.ledgerByte (src + i))⟩
  { s.put BOOT_STAT_BUSY 1 with bootCmd := some c }

/-- A write of BOOT_CMD that the source rule and BUSY let through (R468 to R471). -/
def State.bootCommand (s : State) (op x : Nat) (force : Bool) : State :=
  let len := (s.get BOOT_LEN_UNITS + 1) * 4096
  let srcOk := decide (s.get BOOT_SRC_LBASE * 4096 + len ≤ s.member.ledgerBytes)
  let dstOk := decide (s.get BOOT_DST_OFFSET * 4096 + len ≤ slotBytes)
  match op with
  | 1 => if s.eraseRefused x then s.bootResult 2 else s.bootBegin 1 x 0
  | 2 =>
    if s.eraseRefused x then s.bootResult 2
    else if !srcOk || !dstOk then s.bootResult 6
    else if (s.flashRead (slotBase x + s.get BOOT_DST_OFFSET * 4096) len).all (· == 0xFF) then s.bootBegin 2 x len
    else s.bootResult 4
  | 3 => s.bootBegin 3 x 0
  | 4 =>
    let h := s.flashRead (slotBase x) 0x100
    let e := s.get SPN_STAT_PARTNER_EPOCH
    if s.eraseRefused x || !s.on (BOOT_SLOT_VALID x) then s.bootResult 2
    else if s.paired && !(decide (field h 0x0A 2 ≤ e) && decide (e ≤ field h 0x0C 2)) then s.bootResult 7
    else s.bootBegin 4 x 0
  | 5 =>
    if s.on BOOT_STAT_TRIAL || !s.boot.running then s.bootResult 2
    else if !srcOk then s.bootResult 6
    else s.bootBegin 5 x len
  | 6 =>
    if s.ownsAny && !force then s.bootResult 5 else s.deviceReset rsSoftware
  | 7 =>
    if !s.on BOOT_STAT_TRIAL then s.bootResult 2
    else if s.ownsAny && !force then s.bootResult 5
    else
      let d := s.dirOr
      let t := d.1.setDir { d.2 with
        failed := withBit d.2.failed (s.get BOOT_STAT_SLOT) true, trial := none, bootsLeft := 0,
        pend := some (whyRejected, 0) }
      t.deviceReset rsSoftware
  | _ => s.bootResult 2

/-- A staged byte as the flash takes it: one that was changed while the command ran is undefined. -/
def State.stagedByte (s : State) (c : BootCmd) (i : Nat) : State × Byte :=
  let b := c.data.getD i 0
  if s.ledgerByte (c.src + i) = b then (s, b) else (s.free.2, s.free.1.setWidth 8)

/-- The staged bytes as the flash takes them (R471). -/
def State.staged (s : State) (c : BootCmd) : State × List Byte :=
  (List.range c.data.length).foldl (fun (r : State × List Byte) i =>
    let t := r.1.stagedByte c i
    (t.1, r.2 ++ [t.2])) (s, [])

/-- A running command ends (R466, R468, R469); `flashBad` tells that the flash failed it. -/
def State.bootEnd (s : State) (flashBad : Bool) : State :=
  match s.bootCmd with
  | none => s
  | some c =>
    let s := { s with bootCmd := none }.put BOOT_STAT_BUSY 0
    if flashBad then (s.bump BOOT_FLASH_ERRORS).bootResult 3
    else
      match c.op with
      | 1 =>
        let lo := slotBase c.slot
        let s := { s with flash := s.flash.filter (fun e => !(decide (lo ≤ e.1) && decide (e.1 < lo + slotBytes))) }
        let s := match s.dir with
          | none => s
          | some d => s.setDir { d with confirmed := withBit d.confirmed c.slot false }
        (s.put (BOOT_SLOT_VALID c.slot) 0).bootResult 1
      | 2 =>
        let t := s.staged c
        ((t.1.flashWrite (slotBase c.slot + c.dst) t.2).put (BOOT_SLOT_VALID c.slot) 0).bootResult 1
      | 3 =>
        let v := s.verifySlot c.slot
        (s.showSlot c.slot v).bootResult (if v = 0 then 1 else 4)
      | 4 =>
        let d := s.dirOr
        (d.1.setDir { d.2 with trial := some c.slot, bootsLeft := s.get BOOT_TRIAL_CFG_BOOTS }).bootResult 1
      | _ =>
        let t := s.staged c
        if settingsValid t.2 && settingsReadable s.boot.schemas t.2 then
          let vs := s.validSettings
          let top := (vs.map (fun v => field v.2 8 4)).foldl max 0
          let at_ : Nat := match vs with
            | [] => 0
            | [v] => 1 - v.1
            | _ => match newest vs with
              | some v => 1 - v.1
              | none => 0
          (t.1.flashWrite (settingsBase at_) (withSeq t.2 (top + 1))).bootResult 1
        else t.1.bootResult 4

/-- A write of BOOT_CONFIRM.CONFIRM that the source rule admits (R467). -/
def State.confirm (s : State) : State :=
  let s := s.put BOOT_CONFIRM_CONFIRM 0
  match s.dir with
  | some d =>
    if s.on BOOT_STAT_TRIAL ∧ s.get BOOT_STAT_PHASE = 4 then
      let x := s.get BOOT_STAT_SLOT
      (s.setDir { d with active := x, confirmed := withBit d.confirmed x true, trial := none,
                         bootsLeft := 0 }).put BOOT_STAT_TRIAL 0
    else s.bootResult 2
  | none => s.bootResult 2

end Sys2Proof.Machine
end

