-- ==== Sys2Proof/Machine/RegRead.lean ====
section
/-! DEFINITION. Reads of register space: the decoding of an address (R447 to R449), the units present on the
member (R3), the words that show live state, and the effects of a read (R9, R431, R433). -/

namespace Sys2Proof.Machine

/-! ## Decoding (R447, R448) -/

/-- What an address in register space selects: nothing at all, an index that selects no unit, a register at its
real address, a pop aperture, or a place in the last-gasp record. -/
inductive Sel where
  | unmapped
  | noUnit
  | reg (a : Nat)
  | pop (q : Nat)
  | gasp (off : Nat)
  deriving DecidableEq, Repr

/-- The real offset that an offset in block `b` selects, its ignored bits cleared; none for an index that selects no
unit on any member. -/
def blockOffset (b o : Nat) : Option Nat :=
  if b = 0 ∨ b = 2 then some (o % 0x40)
  else if b = 1 ∨ b = 6 ∨ b = 20 then some (o % 0x400)
  else if b = 3 ∨ b = 19 ∨ b = 21 then some (o % 0x1000)
  else if b = 4 then
    if o / 0x4000 = 3 then none else some (o / 0x4000 * 0x4000 + o % 0x40)
  else if b = 5 then
    if o / 0x4000 % 2 = 1 then
      if 5 ≤ o / 0x100 % 8 then none else some (0x4000 + o / 0x100 % 8 * 0x100 + o % 0x20)
    else if 10 ≤ o / 0x400 % 16 then none
    else some (o / 0x400 % 16 * 0x400 + o % 0x40)
  else if b = 7 then
    if o / 0x1000 % 2 = 1 then some (0x1000 + o % 0x200) else some (o % 0x800)
  else if 8 ≤ b ∧ b ≤ 11 ∨ b = 16 then some (o % 0x100)
  else if b = 12 then some o
  else if b = 13 then
    if o < 0x4000 then some (o % 0x40)
    else if o < 0x8000 then
      if o / 0x400 % 2 = 1 then some (0x4400 + o % 0x80)
      else some (0x4000 + o / 0x40 % 16 * 0x40 + o % 0x10)
    else if o < 0xC000 then some (0x8000 + o % 0x2000)
    else none
  else if b = 14 then if o < 0xE000 then some o else none
  else if b = 15 then
    if o / 0x1000 % 2 = 1 then some 0x1000
    else if 10 ≤ o / 0x100 % 16 then none
    else some (o % 0x1000)
  else if b = 17 then some (o / 0x4000 * 0x4000 + o % 0x800)
  else if b = 18 then
    if o / 0x4000 % 2 = 1 then some (0x4000 + o % 0x40) else some (o % 0x400)
  else some (if o / 0x1000 % 2 = 1 then 0x1000 + o % 0x1000 else o % 0x80)

/-- What the word at host address `a` of register space is. -/
def selOf (a : Nat) : Sel :=
  if 0x170000 ≤ a then .unmapped
  else
    let b := a / 0x10000
    match blockOffset b (a % 0x10000 - a % 4) with
    | none => .noUnit
    | some o =>
      if b = 14 ∧ 0x4000 ≤ o then .pop ((o - 0x4000) / 0x100)
      else if b = 22 ∧ 0x1000 ≤ o then .gasp (o - 0x1000)
      else .reg (b * 0x10000 + o)

/-- The number of ARB_SRC entries of an arbiter instance (R348). -/
def arbSrcs (a : Nat) : Nat := if a = 0 then 25 else if a ≤ 4 then 3 else if a ≤ 6 then 4 else 3

/-- Whether a real register address belongs to a unit that is present on the member (R3, R348). -/
def Member.present (m : Member) (a : Nat) : Bool :=
  let b := a / 0x10000
  let o := a % 0x10000
  if b = 5 then
    if o < 0x4000 then decide (o / 0x400 < 2 * m.ports) else decide ((o - 0x4000) / 0x100 < m.ports)
  else if 8 ≤ b ∧ b ≤ 11 then decide (b - 8 < m.segments)
  else if b = 13 then
    if 0x4000 ≤ o ∧ o < 0x4400 then decide ((o - 0x4000) / 0x40 < m.couriers) else true
  else if b = 15 then
    if 0x1000 ≤ o then true
    else
      let i := o / 0x100
      (decide (i = 0) || (decide (i ≤ 4) && decide (i ≤ m.segments)) ||
        (decide (5 ≤ i) && decide (i ≤ 6) && decide (i < 5 + m.spans)) || decide (7 ≤ i)) &&
      (decide (o % 0x100 < 0x40) || decide ((o % 0x100 - 0x40) / 4 < arbSrcs i))
  else if b = 16 then
    decide (0 < m.spans) && (decide (m.spans = 2) || decide (a ≠ SPN_PORT 1))
  else if b = 17 then decide (o / 0x4000 < m.chains)
  else if b = 18 then
    if 0x100 ≤ o ∧ o < 0x180 then decide ((o - 0x100) / 4 < m.banks) else true
  else true

/-- Whether a real register address is EVT_CFG of a source that the member does not have (R4): it reads as zero and
ignores writes. -/
def Member.noSource (m : Member) (a : Nat) : Bool :=
  decide (0x30000 ≤ a) && decide (a < 0x30800) && !eventExists m ((a - 0x30000) / 4)

/-! ## Registers that show live state -/

/-- The place in the history of record `r` of DBG + 0x800 (R488): its words, zero for a record not yet written. -/
def State.historyWord (s : State) (r w : Nat) : Word :=
  let n := s.history.length
  let i := (r + 128 + n - s.get DBG_HIST_PTR_NEXT) % 128
  match s.history[i]? with
  | some e => if i < n then e.words.getD w 0 else 0
  | none => 0

/-- The lowest source that holds ALERT_N low (R421). -/
def State.alerting (s : State) : Option Nat :=
  (List.range 512).find? (fun e => s.on (EVT_CFG_ALERT e) && bitAt (s.get (EVT_PEND_PEND (e / 32))) (e % 32))

/-- Whether courier `c` is clock-gated (R309): OFF, or in HOLD-UP with no bound and no READY context, but for the spare
that a migration needs. -/
def State.gated (s : State) (c : Nat) : Bool :=
  let t := s.settleCour c
  s.get (COUR_STAT_STATE c) == 0 ||
    (s.get STG_STAT_PLAN == 2 && s.get (COUR_STAT_STATE c) == 2 && t.get (COUR_STAT_BUSY c) == 0 &&
      (t.nextReady c).isNone && !s.migrating.any (fun m => m.1 == c || m.2.1 == c))

/-- Whether an enabled image's region meets another enabled image, an inbound area or a mirror range (R210). -/
def State.overlaps (s : State) (i : Nat) : Bool :=
  let r := (s.imgBase i, 2 * s.imgSize i)
  s.imgOn i &&
    (s.imagesOn.any (fun j => j != i && rangesMeet r (s.imgBase j, 2 * s.imgSize j)) ||
      (List.range 4).any (fun g => s.hasSeg g && inbAreas.any (fun j =>
        s.on (SEG_INB_CFG_EN g j) &&
          rangesMeet r (s.get (SEG_INB_LBASE_LBASE g j) * 4096, 2 ^ s.get (SEG_INB_CFG_LOG2 g j)))) ||
      decide (0 < s.member.spans) && (List.range 4).any (fun j =>
        let k := 2 ^ s.get (LDG_MIR_CFG_LOG2 j)
        s.on (LDG_MIR_CFG_EN j) && rangesMeet r (s.get (LDG_MIR_BASE_BASE j) * 4096 / k * k, k)))

/-- Bus budgets of the contexts not OFF on segment `g` (R313). -/
def State.planned (s : State) (g : Nat) : Nat :=
  min 65535 (((List.range 256).filter (fun n => decide (0 < n) && s.ctxState n != 0)).map
    (fun n => s.get (CTX_BUD_BUS_BUDGET n g))).sum

/-- The bits of a live register that differ from those its stored word has: fields with their values. -/
def State.liveFields (s : State) (a : Nat) : List (FRef × Nat) :=
  let m := s.member
  let b := a / 0x10000
  if b = 0 then
    if a = GLB_ID then [(GLB_ID_PART, m.part), (GLB_ID_STEP, 1), (GLB_ID_FAMILY, 0x55)]
    else if a = GLB_CAP then
      [(GLB_CAP_COURIERS, m.couriers), (GLB_CAP_SEGMENTS, m.segments), (GLB_CAP_SPAN, m.spans),
        (GLB_CAP_CHAINS, m.chains), (GLB_CAP_LEDGER, m.ledgerBytes / 0x100000),
        (GLB_CAP_PTR_DUP, ofBool (m == .ux4816))]
    else if a = GLB_DIE0 then [(GLB_DIE0_DIE_LO, s.otp.die.toNat)]
    else if a = GLB_DIE1 then [(GLB_DIE1_DIE_HI, s.otp.die.toNat / 2 ^ 32)]
    else if a = GLB_TIME_LO then [(GLB_TIME_LO_TIME, s.now)]
    else if a = GLB_TIME_HI then [(GLB_TIME_HI_TIME, s.now / 2 ^ 32)]
    else if a = GLB_STAT then [(GLB_STAT_SIDE, ofBool s.side)]
    else []
  else if b = 1 then
    if a = CRP_STAT then [(CRP_STAT_PWR_OK, ofBool (s.power != .held && s.supOut == 0))]
    else if a = CRP_TB_RATE then [(⟨CRP_TB_RATE, 21, 11⟩, 0x7FF * (s.get CRP_TB_RATE_RATE / 2 ^ 20))]
    else if a = CRP_SUP then [(CRP_SUP_IN_RANGE, 0x3FF - s.supOut)]
    else if a = CRP_GATE then
      [(CRP_GATE_COURIER, ((List.range m.couriers).map (fun c => ofBool (s.gated c) * 2 ^ c)).sum)]
    else []
  else if b = 3 then
    if a = EVT_STAT then
      match s.alerting with
      | some e => [(EVT_STAT_FIRST, e), (EVT_STAT_ALERT, 1)]
      | none => []
    else []
  else if b = 4 then
    let n := (a - 0x40000) / 0x4000
    if a = HP_CREDIT n then [(HP_CREDIT_PH_AVAIL n, (s.port n).tx.ph), (HP_CREDIT_PD_AVAIL n, (s.port n).tx.pd)]
    else if a = HP_TAGS n then [(HP_TAGS_IN_USE n, (s.port n).tags.length)]
    else []
  else if b = 6 then
    ((List.range 3).filter (fun c => ACC_CH_STAT c == a)).map (fun c =>
      (ACC_CH_STAT_RECENT c, min 2 (s.recentDiscords c)))
  else if 8 ≤ b ∧ b ≤ 11 then
    let g := b - 8
    if a = SEG_SILENCE g then [(SEG_SILENCE_QUIET g, s.silence g)]
    else if a = SEG_CMD g then [(SEG_CMD_CARD_RESET g, s.get (SEG_STAT_CRST_ACTIVE g))]
    else []
  else if b = 12 then
    let n := (a - 0xc0000) / 0x100
    let t := s.settleWait n
    if a = CTX_STAT 0 then [(CTX_STAT_STATE 0, 2)]
    else if a = CTX_STAT n then [(CTX_STAT_THREAD n, t.get (CTX_STAT_THREAD n)), (CTX_STAT_RUN n, t.run n)]
    else if a = CTX_CHG n then [(CTX_CHG_SLOTS n, (t.unbind n 3).get (CTX_CHG_SLOTS n))]
    else if a = CTX_USE n then [(CTX_USE_SUSP n, ofBool (s.run n == 4))]
    else if a = CTX_RELOC n then [(CTX_RELOC_DBASE n, s.dataBase n / 256)]
    else []
  else if b = 13 then
    let i := (a - 0xd8000) / 0x20
    if 0xd8000 ≤ a ∧ a = IMG_STAT i then
      [(IMG_STAT_STALE i, ofBool (s.imgOn i && s.on (IMG_TIM_MAX_AGE i) &&
          decide (s.get (IMG_TIM_MAX_AGE i) < s.get (IMG_STAT_AGE i)))),
        (IMG_STAT_OVERLAP i, ofBool (s.overlaps i)),
        (IMG_STAT_HOME_HERE i, ofBool (s.imgOn i && s.homeHere i)),
        (IMG_STAT_RESYNC_WAIT i, ofBool (s.image i).gap)]
    else if 0xd4000 ≤ a ∧ a < 0xd4400 ∧ a = COUR_STAT ((a - 0xd4000) / 0x40) then
      let c := (a - 0xd4000) / 0x40
      [(COUR_STAT_BUSY c, (s.settleCour c).get (COUR_STAT_BUSY c))]
    else
      ((List.range 4).filter (fun g => STG_SEGLOAD g == a)).map (fun g => (STG_SEGLOAD_PLANNED g, s.planned g))
  else if b = 14 then
    let q := (a - 0xe0000) / 0x20
    let x := s.queue q
    if a = QUE_CNT q ∧ q < 160 then [(QUE_CNT_PACKETS q, x.closed), (QUE_CNT_WORDS q, x.size)]
    else if a = QUE_STAT q ∧ q < 160 then
      [(QUE_STAT_OPEN q, ofBool x.openPacket.isSome), (QUE_STAT_CONFLICT q, ofBool (s.ringConflict q)),
        (QUE_STAT_OPENER q, match x.openPacket with | some p => p.ctx | none => 0),
        (QUE_STAT_CREDITS q, if isWorkQueue q then s.credits q else 0)]
    else []
  else if b = 15 then
    ((List.range 10).filter (fun i => ARB_STAT i == a)).map (fun i => (ARB_STAT_DIFF i, ofBool (s.arbDiff i)))
  else if b = 16 then
    if a = SPN_STAT then [(SPN_STAT_SIDE, ofBool s.side)]
    else
      ((List.range 4).filter (fun g => SPN_LEFT g == a)).map (fun g =>
        (SPN_LEFT_LEFT g, match s.dueAt (.lease g) with
          | some t => if s.get (SPN_SEG_LSTATE g) = 2 then (t - s.clk) / 100000 else 0
          | none => 0))
  else if b = 18 then
    if a = FLT_STAT then [(FLT_STAT_QUEUED, s.tests.length), (FLT_STAT_ACTIVE, s.active.length)] else []
  else if b = 20 then
    if a = SEC_LC then
      [(SEC_LC_STATE, s.lifecycle), (SEC_LC_KEY_HASH, ofBool s.otp.keyHash.isSome),
        (SEC_LC_DBG_HASH, ofBool s.otp.dbgHash.isSome), (SEC_LC_VAULT_LOADED, ofBool s.otp.vault.isSome)]
    else []
  else if b = 21 then
    if a = DBG_FRZ then [(DBG_FRZ_PIN, ofBool s.freezeHigh)]
    else
      ((List.range 8).filter (fun w => DBG_TRC_DATA w == a)).map (fun w =>
        (DBG_TRC_DATA_WORD w, ((mget s.trace (s.get DBG_TRC_IDX_INDEX) []).getD w 0).toNat))
  else []

/-- What the fields of an access code keep of a word; the other fields read as zero. -/
def dropFields (p : FRow → Bool) (fs : List FRow) (w : Word) : Word :=
  fs.foldl (fun w f => if p f then setBits w f.lo f.w 0 else w) w

/-- Whether a field is write-only: reads give zero (R9). -/
def FRow.isWo (f : FRow) : Bool := f.acc == .wo

/-- Whether a field is cleared by a 32-bit read (R9). -/
def FRow.isRc (f : FRow) : Bool := f.acc == .rc

/-- The registers covered by the configuration check (R440), in ascending order: every real register of a unit
present that has a C field. -/
def covered (m : Member) : List Nat :=
  ((List.range (0x170000 / 4)).map (· * 4)).filter (fun a =>
    m.present a && match regRow a with
      | some r => r.fields.any (·.covered)
      | none => false)

/-- What a read of the register at real address `a` returns, without any effect: zero where no register is
listed (R449), and for a source that the member does not have (R4). -/
def State.peekReg (s : State) (a : Nat) : Word :=
  if 0x150800 ≤ a ∧ a < 0x151000 then s.historyWord ((a - 0x150800) / 16) (a % 16 / 4)
  else if s.member.noSource a then 0
  else
    match regRow a with
    | none => 0
    | some r =>
      let w := (s.liveFields a).foldl (fun w f => setBits w f.1.lo f.1.w f.2) (s.word a)
      let w := if a = CFG_SWEEP_LEN then BitVec.ofNat 32 (covered s.member).length else w
      dropFields FRow.isWo r.fields w

/-- The fields cleared by a 32-bit read at real address `a` (R9, R325). -/
def State.readClear (s : State) (a : Nat) : State :=
  match regRow a with
  | none => s
  | some r =>
    if r.fields.any FRow.isRc then
      let s := s.setWord a (dropFields FRow.isRc r.fields (s.word a))
      let q := (a - 0xe0000) / 0x20
      if q < 160 ∧ a = QUE_LOSS q then
        let x := s.queue q
        s.setQueue q { x with lossQuiet := false }
      else s
    else s

/-- The high word of a counter pair, by its low word (R433). -/
def pairHigh (a : Nat) : Option Nat :=
  if a = GLB_TIME_LO then some GLB_TIME_HI
  else if a = GLB_ACCEPT_LO then some GLB_ACCEPT_HI
  else none

/-- Whether a register is the high word of a counter pair. -/
def isPairHigh (a : Nat) : Bool := a == GLB_TIME_HI || a == GLB_ACCEPT_HI

/-- A 32-bit read of the register at real address `a` for context `n` (R9, R433): a counter pair's latch is set by a
read of the low word, and freed by its owner's read of the high word. -/
def State.readReg (s : State) (n a : Nat) : State × Word :=
  let w := s.peekReg a
  match pairHigh a with
  | some h => ({ s with latches := mins s.latches h (n, s.peekReg h) }, w)
  | none =>
    match mfind s.latches a with
    | some l => if l.1 = n then ({ s with latches := mdel s.latches a }, l.2) else (s, w)
    | none => (s.readClear a, w)

/-- What freeze read-out shows of the word at a register address (R485): nothing is cleared or latched, and the
words of a pop aperture are those at the head of its queue. None where nothing is readable; a word in it that is not
correctable is none within. -/
def State.frozenReg (s : State) (a : Nat) : Option (Option Word) :=
  match selOf a with
  | .unmapped | .noUnit => none
  | .gasp o => some (some (BitVec.ofNat 32 (leNat (readMem s.lastGasp 0 o 4))))
  | .reg r => if s.member.present r then some (some (s.peekReg r)) else none
  | .pop q =>
    let x := s.queue q
    let shown (w : QWord) : Option Word := if w.ecc = .ue then none else some w.val
    let ws := x.items.map (fun i => shown ⟨i.val, i.ecc⟩) ++ (x.packets.map (fun p =>
      (if p.lenLeft then [shown ⟨p.lengthWord, p.lenEcc⟩] else []) ++ p.words.map shown)).flatten
    some (ws.getD (a % 0x100 / 4) (some 0))

end Sys2Proof.Machine
end

