-- ==== Sys2Proof/Machine/CfgCheck.lean ====
section
/-! DEFINITION. The guard (R437) and the configuration check (R440 to R444). -/

namespace Sys2Proof.Machine

/-- The guard locks. -/
def State.lockGuard (s : State) : State := (s.put CFG_STAT_UNLOCKED 0).disarm .guard

/-- A write of CFG_UNLOCK by context `n` (R437). -/
def State.unlockWrite (s : State) (n key : Nat) : State :=
  if key = 0xA5C3 then ((s.put CFG_STAT_UNLOCKED 1).put CFG_STAT_UNLOCK_CTX n).arm .guard 2560
  else s.lockGuard

/-- 256 REG cycles have passed since the key (R437). -/
def State.guardRelock (s : State) : State :=
  match s.expire .guard with
  | none => s
  | some s => s.put CFG_STAT_UNLOCKED 0

/-- Whether context `n` owns the unlocked guard. -/
def State.ownsGuard (s : State) (n : Nat) : Bool := s.on CFG_STAT_UNLOCKED && s.get CFG_STAT_UNLOCK_CTX == n

/-- The bytes of a covered register in the check: its fields without the C flag as zero (R440), and those of a source that
the member does not have (R4). -/
def State.checkBytes (s : State) (a : Nat) : List Byte :=
  if s.member.noSource a then leBytes 4 0
  else
  match regRow a with
  | none => []
  | some r => leBytes 4 (dropFields (fun f => !f.covered) r.fields (s.word a)).toNat

/-- The result of one pass (R440). -/
def State.cfgCrc (s : State) : Word := crc32c ((covered s.member).map s.checkBytes).flatten

/-- The running pass starts again from the first register (R442, R443). -/
def State.restartPass (s : State) : State :=
  if s.on CFG_STAT_SWEEPING then
    let s := { s.bump CFG_CNT0_RESTARTS with restarts := s.restarts + 1 }
    if 16 ≤ s.restarts then s.put CFG_STAT_STARVED 1 else s
  else s

/-- A pass starts (R441): the next check pass is due PERIOD later. -/
def State.startPass (s : State) (commit : Bool) : State :=
  { (s.put CFG_STAT_SWEEPING 1).arm .pass (s.get CFG_CTL_PERIOD * 10000) with commitRuns := commit }

/-- The watch over DIRTY (R444): DIRTY_TMO runs from when DIRTY was set. -/
def State.watchDirty (s : State) : State :=
  let t := s.get CFG_CTL_DIRTY_TMO * 1000000
  if s.on CFG_STAT_DIRTY && t != 0 then s.arm .dirty (s.dirtySince + t - s.clk) else s.disarm .dirty

/-- An accepted write to a covered register (R442). -/
def State.coveredWrite (s : State) : State :=
  let s := s.restartPass
  if s.on CFG_STAT_DIRTY then s
  else { s.put CFG_STAT_DIRTY 1 with dirtySince := s.clk }.watchDirty

/-- A write of 1 to CFG_COMMIT.COMMIT (R441, R443): a check pass in progress is abandoned. -/
def State.commitWrite (s : State) : State :=
  let s := (s.put CFG_COMMIT_COMMIT 1).put CFG_STAT_COMMIT_PEND 1
  if s.on CFG_STAT_SWEEPING && s.commitRuns then s.restartPass else s.startPass true

/-- MISMATCH is set (R444): on its transition to 1 it is counted and raised, and ACTION is taken. -/
def State.setMismatch (s : State) (cause : Nat) : State :=
  if s.on CFG_STAT_MISMATCH then s
  else
    let s := (((s.put CFG_STAT_MISMATCH 1).put CFG_STAT_CAUSE cause).bump CFG_CNT1_MISMATCH).raise 3 0 0
    if s.get CFG_CTL_ACTION = 2 then s.deviceReset rsConfig else s

/-- PERIOD has passed since the last pass started (R441). A pass that still runs is followed at its end. -/
def State.passStart (s : State) : State :=
  match s.expire .pass with
  | none => s
  | some s => if s.on CFG_STAT_SWEEPING then s else s.startPass false

/-- A pass ends whole (R441, R443): a check pass whose time has come meanwhile starts. -/
def State.passOver (s : State) : State :=
  let s := { ((s.put CFG_STAT_SWEEPING 0).put CFG_STAT_STARVED 0).bump CFG_CNT0_SWEEPS with
    restarts := 0, commitRuns := false }
  if (s.dueAt .pass).isNone then s.startPass false else s

/-- A check pass ends (R444). -/
def State.checkEnd (s : State) : State :=
  if s.on CFG_STAT_SWEEPING && !s.commitRuns then
    let c := s.cfgCrc
    let bad := s.on CFG_STAT_REF_VALID && !s.on CFG_STAT_DIRTY && !s.on CFG_STAT_COMMIT_PEND &&
      c.toNat != s.get CFG_REF_CRC
    let s := (s.put CFG_LAST_CRC c.toNat).passOver
    if bad then s.setMismatch 0 else s
  else s

/-- A commit pass ends (R443). -/
def State.commitEnd (s : State) : State :=
  if s.on CFG_STAT_SWEEPING && s.commitRuns then
    let s := (s.put CFG_REF_CRC s.cfgCrc.toNat).put CFG_STAT_REF_VALID 1
    let s := ((s.put CFG_STAT_DIRTY 0).put CFG_STAT_COMMIT_PEND 0).put CFG_COMMIT_COMMIT 0
    (s.disarm .dirty).passOver
  else s

/-- DIRTY has been 1 for longer than DIRTY_TMO (R444). -/
def State.dirtyTimeout (s : State) : State :=
  match s.expire .dirty with
  | none => s
  | some s => if s.on CFG_STAT_DIRTY then s.setMismatch 1 else s

end Sys2Proof.Machine
end

