-- ==== Sys2Proof/Machine/RegWrite.lean ====
section
/-! DEFINITION. Writes of registers: the new word (R7 to R9, R436), fields writable in one state only (R434), the
guard (R438), the configuration check's mark (R442), and what a write of each unit's registers does. -/

namespace Sys2Proof.Machine

/-! ## The new word -/

/-- What a write of `x` makes of a field that holds `cur`; `m` is the field's write mask (R7, R9, R436). -/
def FRow.next (f : FRow) (cur x m : Nat) : Nat :=
  match f.acc with
  | .rw => clampTo f.min f.max x
  | .wo => x
  | .w1c => cur - cur.land x
  | .w1s => cur.lor x
  | .rwm => (cur - cur.land m).lor (x.land m)
  | .ro => cur
  | .rc => cur

/-- The word that a write of `v` makes of `old` by the fields of a register. -/
def fieldsNext (fs : List FRow) (old v : Word) : Word :=
  fs.foldl (fun w f =>
    setBits w f.lo f.w (f.next (bits old f.lo f.w) (bits v f.lo f.w) (bits v (f.lo + 16) f.w))) old

/-- A field of a new word put back to what the old word has. -/
def keepField (f : FRef) (old new : Word) : Word := setBits new f.lo f.w (bits old f.lo f.w)

/-- A field of a new word held to a maximum. -/
def capField (f : FRef) (m : Nat) (new : Word) : Word := setBits new f.lo f.w (min m (bits new f.lo f.w))

/-- What the rules of one context's registers make of a new word (R99, R246, R250, R314). -/
def State.adjustCtx (s : State) (a : Nat) (old new : Word) : Word :=
  let n := (a - 0xc0000) / 0x100
  let o := a % 0x100
  let off := s.ctxState n == 0
  if o = 0 then if off then new else keepField (CTX_CTL_PROG_EN n) old new
  else if o = 0x40 then
    if off then new else keepField (CTX_VOTE_MODE n) old (keepField (CTX_VOTE_OWNER n) old new)
  else if o = 8 then
    if off then
      let w := capField (CTX_PLACE_LCOUR n) (s.member.couriers - 2) new
      capField (CTX_PLACE_DSIZE n) (256 - bits w 8 8) w
    else old
  else if 0x60 ≤ o ∧ o < 0x74 then
    if off then new
    else if o = 0x60 then keepField (CTX_BUD_SLOT_SLOTS n) old new
    else keepField (CTX_BUD_BUS_BUDGET n ((o - 0x64) / 4)) old new
  else new

/-- What rules beyond the field tables make of a new word: fields writable in one state only, ranges that depend on
another field, bits of absent units (R4, R197, R291, R346, R392, R402, R420, R476). -/
def State.adjust (s : State) (a : Nat) (old new : Word) : Word :=
  let b := a / 0x10000
  if b = 12 then s.adjustCtx a old new
  else if 8 ≤ b ∧ b ≤ 11 then
    if a = SEG_CTL (b - 8) ∧ s.get (SEG_STAT_STATE (b - 8)) ≠ 0 then keepField (SEG_CTL_MODE (b - 8)) old new else new
  else if b = 3 then
    let e := (a - 0x30000) / 4
    if e < 512 then
      if 256 ≤ e then setBits 0 2 1 (bits new 2 1)
      else new
    else new
  else if b = 13 then
    if a = STG_TIM then if s.anyOn then old else new
    else if a = STG_OFS then
      if s.anyOn then old else capField STG_OFS_OFFSET (s.get STG_TIM_STAGE - 1) new
    else new
  else if b = 15 then
    if a = ARB_COMMIT then
      setBits new 0 10 (((List.range 10).filter (fun i => bitAt new.toNat i && s.member.present (ARB_CFG i))).map
        (fun i => 2 ^ i)).sum
    else new
  else if b = 16 then
    if a = SPN_CTL ∧ s.member.spans < 2 then setBits new 1 1 0 else new
  else if b = 17 then
    let k := (a - 0x110000) / 0x4000
    let o := a % 0x4000
    if o = 4 then if s.chainState k = 0 then new else keepField (OPC_CFG_COUNT k) old new
    else if 0x400 ≤ o ∧ o % 8 = 0 then setBits new 24 8 (min (bits new 16 8) (bits new 24 8))
    else new
  else if b = 20 then
    if 0x140080 ≤ a ∧ a < 0x1400a0 ∧ s.lifecycle ≠ 0 then old else new
  else new

/-- Whether a write changes a guarded field (R438): writing 1 to a W1S field counts, and so does writing a
write-only one. -/
def guardTouched (fs : List FRow) (old new v : Word) : Bool :=
  fs.any (fun f => f.guarded &&
    (bits new f.lo f.w != bits old f.lo f.w ||
      ((f.acc == .w1s || f.acc == .wo) && bits v f.lo f.w != 0)))

/-! ## What writes do, by unit -/

/-- The state with a field cleared, where a write-one bit clears at once. -/
def State.zero (s : State) (f : FRef) : State := s.put f 0

/-- What a lane sends and checks follows its MODE and its PRBS settings (R92, R93, R95): a generator that becomes enabled,
or whose PATTERN changes, starts from all ones, and a checker that becomes enabled starts unlocked. A lane of a port
whose lanes idle leaves idle for its pattern and goes back after it (DESIGN CHOICE, log 132). -/
def State.prbsSwitched (old s : State) (k : Nat) : State :=
  let on (s : State) (f : Nat → FRef) : Bool := s.get (LN_CTL_MODE k) == 1 && s.on (f k)
  let same := old.get (LN_PRBS_PATTERN k) == s.get (LN_PRBS_PATTERN k)
  let sent := on s LN_PRBS_GEN_EN
  let s := if sent && !(on old LN_PRBS_GEN_EN && same) then
      s.setLane k { s.lane k with gen := prbsSeed (s.get (LN_PRBS_PATTERN k)) }
    else s
  let s := if on s LN_PRBS_CHK_EN && !(on old LN_PRBS_CHK_EN && same) then
      (s.setLane k { s.lane k with chk := 0, run := 0, hist := 0 }).put (LN_PRBS_CHK_LOCK k) 0
    else s
  if s.phase (lanePort k) == .off && sent != on old LN_PRBS_GEN_EN then s.put (LN_STAT_EIDLE_TX k) (ofBool !sent)
  else s

/-- Writes of the lane and link registers (R68, R75, R76, R87, R89 to R95); `old` is the state before the write. -/
def State.laneWritten (old s : State) (a : Nat) (v : Word) : State :=
  if a < 0x54000 then
    let k := (a - 0x50000) / 0x400
    let p := lanePort k
    if a = LN_CTL k then
      let s := old.prbsSwitched s k
      if s.get (LN_CTL_MODE k) = 1 ∧ old.get (LN_CTL_MODE k) ≠ 1 then s.retrain p true else s
    else if a = LN_CTLE k then
      s.put (LN_CTLE_SETTING k) (if s.on (LN_CTLE_OVERRIDE k) then s.get (LN_CTLE_OVR_VAL k) else (s.lane k).chosen)
    else if a = LN_ALIGN k then
      let s := s.zero (LN_ALIGN_BITSLIP k)
      let training : Bool := match s.phase p with
        | .quiet | .presence | .phase | .align | .equalise | .deskew | .handshake => true
        | _ => false
      if bits v 0 1 == 1 && (training || s.get (LN_CTL_MODE k) == 2) then
        (s.incr (LN_ALIGN_SLIP_POS k)).put (LN_ALIGN_MATCH k) 0
      else s
    else if a = LN_PRBS k then
      let s := old.prbsSwitched (s.zero (LN_PRBS_CLEAR k)) k
      if bits v 5 1 = 1 then (s.zero (LN_PRBS_SYM_ERR_COUNT k)).zero (LN_PRBS_BIT_ERR_COUNT k) else s
    else if a = LN_INJ k then
      let s := (s.zero (LN_INJ_INJECT_ONE k)).zero (LN_INJ_INJECT_BURST k)
      let n := bits v 0 1 + (if bits v 1 1 = 1 then s.get (LN_INJ_BURST_LEN k) else 0)
      s.setLane k { s.lane k with inject := (s.lane k).inject + n }
    else s
  else
    let p := (a - 0x54000) / 0x100
    if a = LL_CMD p then
      let s := if bits v 0 1 = 1 then (s.retrain p true).zero (LL_CMD_RETRAIN p) else s
      let s := if bits v 1 1 = 1 then s.askIdle p else s
      if bits v 2 1 = 1 then s.wakePort p else s
    else s

/-- Writes of one segment's registers (R188, R189, R197, R201). -/
def State.segWritten (s : State) (g a : Nat) (v : Word) : State :=
  if a = SEG_CTL g then s.segEn g (s.on (SEG_CTL_EN g))
  else if a = SEG_CMD g then
    let s := s.zero (SEG_CMD_ARM g)
    let s := ((List.range 4).filter (fun l => bitAt v.toNat (4 + l))).foldl (fun s l => s.rearm g l) s
    if bits v 0 1 = 1 then
      if s.on (SEG_STAT_CRST_ACTIVE g) then s
      else if s.owns g then
        (s.put (SEG_STAT_CRST_ACTIVE g) 1).arm (.cardReset g) (s.get (SEG_RST_WIDTH g) * 1000000)
      else s.zero (SEG_CMD_CARD_RESET g)
    else s
  else
    ((List.range 4).filter (fun l => SEG_INT g l == a)).foldl (fun s l => s.cintTry g l) s

/-- Writes of one context's registers (R239, R245, R250, R424). -/
def State.ctxWritten (s : State) (a : Nat) (v : Word) : State :=
  let n := (a - 0xc0000) / 0x100
  if a = CTX_CTL n then s.ctxEn n (s.on (CTX_CTL_EN n))
  else if a = CTX_CMD n then
    let s := (s.zero (CTX_CMD_KICK n)).zero (CTX_CMD_RESUME n)
    let s := if bits v 1 1 = 1 then s.ctxResume n else s
    if bits v 0 1 = 1 then s.wake n else s
  else if a = CTX_ERR_CTL n then
    if bits v 0 1 = 1 then s.zero (CTX_ERR_CTL_COUNT n) else s
  else s

/-- Writes of the STG block (R210, R225, R247, R291, R301, R313). -/
def State.stgWritten (old s : State) (a : Nat) (v : Word) : State :=
  if a = STG_TIM then
    s.put STG_OFS_OFFSET (min (s.get STG_TIM_STAGE - 1) (s.get STG_OFS_OFFSET))
  else if a = STG_CTL then s.retarget
  else if a = STG_CMD then
    if bits v 0 1 = 1 then s.peakClr.zero STG_CMD_PEAK_CLR else s
  else if 0xd8000 ≤ a then
    let i := (a - 0xd8000) / 0x20
    let on := s.on (IMG_CFG_EN i)
    if a = IMG_BASE i ∨ a = IMG_SIZE i then if on then s.discardImage old i else s
    else if a = IMG_CFG i then
      if on != old.on (IMG_CFG_EN i) then s.discardImage old i
      else if s.imgOn i && s.homeHere i && !(old.imgOn i && old.homeHere i) then s.becomeHome i
      else s
    else s
  else if 0xd4000 ≤ a ∧ a < 0xd4400 then
    let c := (a - 0xd4000) / 0x40
    if a = COUR_CTL c then s.courEn c (s.on (COUR_CTL_EN c)) else s
  else s

/-- The queues whose storage a write moves (R322): the one written, and those whose use of their rings changes. -/
def State.queuesMoved (old s : State) (q : Nat) : State :=
  ((List.range 160).filter (fun j => j == q || old.usesRing j != s.usesRing j)).foldl (fun s j => s.resetQueue j) s

/-- Writes of the queue registers (R322, R326, R334): the completion status is RT for a push without credit, UR
for a push on another kind of queue. -/
def State.queWritten (old s : State) (a : Nat) (v : Word) : State × Nat :=
  let q := (a - 0xe0000) / 0x20
  if 160 ≤ q then (s, stSC)
  else if a = QUE_CFG q ∨ a = QUE_RBASE q then (old.queuesMoved s q, stSC)
  else if a = QUE_CMD q then
    (if bits v 0 1 = 1 then (s.resetQueue q).zero (QUE_CMD_RESET q) else s, stSC)
  else if a = QUE_PUSH q then
    let s := s.zero (QUE_PUSH_ITEM q)
    if isWorkQueue q then
      match s.pushItem q v with
      | some s => (s, stSC)
      | none => (s.bump (QUE_LOSS_LOST q), stRT)
    else (s, stUR)
  else (s, stSC)

/-- Writes of the arbiter registers (R346): a commit takes effect at once but at a busy segment. -/
def State.arbWritten (s : State) (a : Nat) (v : Word) : State :=
  if a = ARB_COMMIT then
    ((List.range 10).filter (fun i => bitAt v.toNat i && bitAt (s.get ARB_COMMIT_INST) i)).foldl (fun s i =>
      let x := s.seg (i - 1)
      if 1 ≤ i ∧ i ≤ 4 ∧ (x.cycle ≠ .idle ∨ x.tenure.isSome) then
        let y := s.arb i
        s.setArb i { y with commitWait := true }
      else s.arbApply i) s
  else s

/-- Writes of the Span registers (R351, R363). -/
def State.spnWritten (s : State) (a : Nat) (v : Word) : State :=
  if a = SPN_CTL then
    let s := s.portEn 3 (s.on SPN_CTL_EN_S0)
    if s.member.spans = 2 then s.portEn 4 (s.on SPN_CTL_EN_S1) else s
  else if a = SPN_CMD then
    ((List.range 4).filter (fun g => bitAt v.toNat g)).foldl (fun s g => s.handover g) s
  else s

/-- Writes of one chain's registers (R390, R396, R402). -/
def State.opcWritten (s : State) (a : Nat) : State :=
  let k := (a - 0x110000) / 0x4000
  let o := a % 0x4000
  if o = 0 then s.chainEn k (s.on (OPC_CTL_EN k))
  else if o = 4 then (List.range (s.outposts k)).foldl (fun s i => s.mark k i [0xF3]) s
  else if 0x400 ≤ o then
    let i := (o - 0x400) / 0x80
    let c := (o - 0x400) % 0x80 / 8
    s.mark k i (if o % 8 = 0 then [c, 0x10 + c] else [0x20 + c, 0x30 + c])
  else s

/-- Writes of the security registers (R475 to R477). A transition is begun only as R477 gives. -/
def State.secWritten (s : State) (b : By) (a : Nat) (v : Word) : State × Nat :=
  let begin_ (s : State) (n : Nat) : State :=
    if s.fusing.contains n then s else { s with fusing := s.fusing ++ [n] }
  if a = SEC_LC_CMD then
    let s := s.zero SEC_LC_CMD_TO
    if votedOrInn b && bits v 0 2 == 1 && s.lifecycle == 0 && s.otp.keyHash.isSome && s.otp.vault.isSome then
      (begin_ s 0, stSC)
    else (s, stUR)
  else if a = SEC_FUSE_CMD then
    if s.lifecycle = 0 then
      let s := if bits v 0 1 = 1 then begin_ s 1 else s
      (if bits v 1 1 = 1 then begin_ s 2 else s, stSC)
    else ((s.zero SEC_FUSE_CMD_KEY_HASH).zero SEC_FUSE_CMD_DBG_HASH, stSC)
  else if a = SEC_VAULT_CMD then
    if s.lifecycle = 0 then (if bits v 0 1 = 1 then begin_ s 3 else s, stSC)
    else (s.zero SEC_VAULT_CMD_LOAD, stSC)
  else (s, stSC)

/-- Writes of the boot registers (R467 to R471): the completion status. -/
def State.bootWritten (s : State) (b : By) (posted : Bool) (a : Nat) (v : Word) : State × Nat :=
  if a = BOOT_CMD then
    let s := s.setWord BOOT_CMD 0
    if !votedOrInn b then (s, stUR)
    else if s.on BOOT_STAT_BUSY then (if posted then s.bump BOOT_CNT1_CMD_DROP else s, stRT)
    else (s.bootCommand (bits v 0 4) (bits v 4 1) (bits v 5 1 == 1), stSC)
  else if a = BOOT_CONFIRM then
    if bits v 0 1 = 1 then
      if votedOrInn b then (s.confirm, stSC) else (s.zero BOOT_CONFIRM_CONFIRM, stUR)
    else (s, if votedOrInn b then stSC else stUR)
  else (s, stSC)

/-- Writes of the clock registers (R493, R494). -/
def State.crpWritten (old s : State) (a : Nat) (v : Word) : State :=
  if a = CRP_TB_CTL then
    if s.get CRP_TB_CTL_SRC ≠ old.get CRP_TB_CTL_SRC then s.tsyncWatch else s
  else if a = CRP_TB_CMD then
    let s := (s.put CRP_TB_CMD_SET (old.get CRP_TB_CMD_SET)).zero CRP_TB_CMD_SET_NOW
    s.tbCommand (bits v 0 1 == 1) (bits v 1 1 == 1)
  else s

/-- Writes of the Accord's registers (R126, R129, R134). -/
def State.accWritten (s : State) (b : By) (a : Nat) (v : Word) : State × Nat :=
  if a = ACC_REC then
    (if bits v 31 1 = 1 then (s.put ACC_REC_HIGH (s.get ACC_REC_OPEN)).zero ACC_REC_HIGH_CLR else s, stSC)
  else if a = ACC_CTL then ((List.range 3).foldl (fun s c => s.rejoinCheck c) s, stSC)
  else
    match (List.range 3).find? (fun c => ACC_CH_CMD c == a) with
    | none => (s, stSC)
    | some c =>
      let s := (s.zero (ACC_CH_CMD_EXCLUDE c)).zero (ACC_CH_CMD_REJOIN c)
      if votedOrInn b then (s.chCommand c (bits v 0 1 == 1) (bits v 1 1 == 1), stSC) else (s, stUR)

/-- What the write of `v` to the register at real address `a` does beyond its word; `old` is the state before it. The
completion status. -/
def State.written (old s : State) (b : By) (posted : Bool) (a : Nat) (v : Word) : State × Nat :=
  match a / 0x10000 with
  | 1 => (old.crpWritten s a v, stSC)
  | 2 =>
    if a = CFG_UNLOCK then ((s.zero CFG_UNLOCK_KEY).unlockWrite b.ctx.toNat v.toNat, stSC)
    else if a = CFG_COMMIT then (if bits v 0 1 = 1 then s.commitWrite else s, stSC)
    else if a = CFG_CTL then (s.watchDirty, stSC)
    else (s, stSC)
  | 4 =>
    let n := (a - 0x40000) / 0x4000
    (if a = HP_CTL n then s.portEn n (s.on (HP_CTL_EN n)) else s, stSC)
  | 5 => (old.laneWritten s a v, stSC)
  | 6 => s.accWritten b a v
  | 8 => (s.segWritten 0 a v, stSC)
  | 9 => (s.segWritten 1 a v, stSC)
  | 10 => (s.segWritten 2 a v, stSC)
  | 11 => (s.segWritten 3 a v, stSC)
  | 12 =>
    let n := (a - 0xc0000) / 0x100
    if a = CTX_UNFENCE n then (s.zero (CTX_UNFENCE_FENCE_ID n)).unfence b n (bits v 0 8)
    else (s.ctxWritten a v, stSC)
  | 13 => (old.stgWritten s a v, stSC)
  | 14 => old.queWritten s a v
  | 15 => (s.arbWritten a v, stSC)
  | 16 => (s.spnWritten a v, stSC)
  | 17 => (s.opcWritten a, stSC)
  | 18 =>
    (if a = FLT_LANE then (s.setWord a (old.word a)).laneReturn (bits v 0 10)
      else if a = LDG_CTL then s.scrubWatch else s, stSC)
  | 19 => s.bootWritten b posted a v
  | 20 => s.secWritten b a v
  | 21 =>
    (if a = DBG_TRC_CTL then { s.put DBG_TRC_STAT_STOPPED 0 with tracePost := none } else s, stSC)
  | 22 =>
    if a = NRG_CMD then
      let s := (s.zero NRG_CMD_LASTGASP).zero NRG_CMD_EXTREME_CLR
      let s := if bits v 0 1 = 1 then s.gasp 1 else s
      (if bits v 1 1 = 1 then s.extremeClr else s, stSC)
    else (s, stSC)
  | _ => (s, stSC)

/-- The capture of a refused register access (R450, R453): the first since VALID was cleared. -/
def State.regCapture (s : State) (cause : Nat) (write : Bool) (size n addr : Nat) : State :=
  if s.on GLB_REG_ERR_VALID then s
  else
    (s.setWord GLB_REG_ERR (BitVec.ofNat 32
      (cause + ofBool write * 2 ^ 3 + min 15 size * 2 ^ 4 + n % 256 * 2 ^ 8 + 2 ^ 31))).put GLB_REG_ADDR_ADDR addr

/-- An access refused under R3 or R13 noted (R450): 5 ABSENT, 6 UNMAPPED. -/
def State.otherNoted (s : State) (cause : Nat) (write : Bool) (size n addr : Nat) : State :=
  (s.bump GLB_REG_CNT_OTHER).regCapture cause write size n addr

/-- An access refused for its size, its alignment or a register with a read-clear field noted (R430, R431). -/
def State.sizeNoted (s : State) (cause : Nat) (write : Bool) (size n addr : Nat) : State :=
  ((s.bump GLB_REG_CNT_SIZE).regCapture cause write size n addr).raise 4 n 0

/-- A guarded write refused (R438). -/
def State.guardRefused (s : State) (n addr : Nat) : State :=
  ((s.bump CFG_CNT1_GUARD_FAIL).regCapture 4 true 4 n addr).raise 5 n 0

/-- A 4-byte write of the register at real address `a`, present on the member; `addr` is the address that the request
gave. The completion status. Writes to context 0's registers and to those of absent sources are ignored (R4, R251). -/
def State.writeReg (s : State) (b : By) (posted : Bool) (a addr : Nat) (v : Word) : State × Nat :=
  let n := b.ctx.toNat
  match regRow a with
  | none => (s, stSC)
  | some r =>
    if (0xc0000 ≤ a ∧ a < 0xc0100) ∨ s.member.noSource a then (s, stSC)
    else
      let old := s.word a
      let new := s.adjust a old (fieldsNext r.fields old v)
      let guarded := r.fields.any (·.guarded)
      let inn := match b.who with
        | .innkeeper => true
        | _ => false
      let owner := s.ownsGuard n
      if guarded && !inn && !owner && guardTouched r.fields old new v then (s.guardRefused n addr, stUR)
      else
        let s := if guarded && !inn && owner then s.lockGuard else s
        let t := s.setWord a new
        let t := if r.fields.any (·.covered) then t.coveredWrite else t
        s.written t b posted a v

end Sys2Proof.Machine
end

