-- ==== Sys2Proof/Machine/Crossbar.lean ====
section
/-! DEFINITION. What becomes of an accepted request: its resolution to a target (R13, R136 to R144), the order in
which requests start (R49, R50), and its access to register space (R430 to R435), the courier memories (R234), queue
RAM (R321), the Ledger (R212, R214, R222), the partner (R24, R365) and the segments (R144 to R158). -/

namespace Sys2Proof.Machine

/-- The value of a field in a word. -/
def FRef.of (f : FRef) (w : Word) : Nat := bits w f.lo f.w

/-- The bytes that a request covers. -/
def Exec.len (e : Exec) : Nat := e.pkt.h.len + 1

/-- The context of a request. -/
def Exec.ctx (e : Exec) : Nat := e.pkt.h.ctx

/-- The host address of a request. -/
def Exec.addr (e : Exec) : Nat := e.pkt.h.addr

/-- Whether a request has a TYPE. -/
def Exec.is (e : Exec) (t : Nat) : Bool := e.pkt.h.type == t

/-- Whether a request writes. -/
def Exec.writes (e : Exec) : Bool := !e.is tMRD

/-- An attribute of the window through which a request goes. -/
def Exec.attrOf (e : Exec) (f : Nat → FRef) : Nat := (f 0).of e.attr

/-- The context and kind of requester as a register access has them. -/
def Exec.by_ (e : Exec) : By := ⟨BitVec.ofNat 8 e.ctx, e.who⟩

/-! ## Refusals (R430, R450) -/

/-- A register access refused for its size, its alignment or a register with a read-clear field (R430, R431). -/
def State.regRefuse (s : State) (e : Exec) (cause : Nat) : State :=
  (s.sizeNoted cause e.writes e.len e.ctx e.addr).finishExec e stUR 0 e.taddr []

/-- An access refused under R3 or R13 noted (R450): 5 ABSENT, 6 UNMAPPED. -/
def State.noteOther (s : State) (e : Exec) (cause : Nat) : State :=
  s.otherNoted cause e.writes e.len e.ctx e.addr

/-- A request refused whole under R3 or R13. -/
def State.otherRefuse (s : State) (e : Exec) (cause : Nat) : State :=
  (s.noteOther e cause).finishExec e stUR 0 e.taddr []

/-! ## Resolution (R13, R136 to R140) -/

/-- The port at which a WRITE_TYPE error of a request is recorded (R51, R59): that of the copy whose payload the
Accord uses. -/
def State.writeTypePort (s : State) (e : Exec) : Option Nat :=
  match e.dest with
  | .record n seq =>
    (s.findRec false n seq).bind (fun r => match r.decision with
      | .execute ref => some ref.ch
      | _ => none)
  | .port p _ => some p
  | _ => none

/-- An MWR into a window whose writes are non-posted is discarded (R51): no failure of its target, and
not counted in its window's FAILS (DESIGN CHOICE, log 127). -/
def State.writeType (s : State) (e : Exec) : State :=
  let s := match s.writeTypePort e with
    | some p => s.protoError p e.pkt.h 0x0D
    | none => s
  (s.dropExec e.order).deliver e.dest e.pkt.h ⟨stUR, e.addr, [], true⟩

/-- An accepted request resolved through window `w`: it takes the window's attributes as they are (R140). -/
def State.resolveWindow (s : State) (e : Exec) (w : Nat) : State :=
  let attr := s.word (WIN_ATTR w)
  let code := (WIN_ATTR_TARGET 0).of attr
  let off := e.addr % 2 ^ s.get (WIN_SIZE_LOG2 w)
  let target := targetOf code
  let e := { e with
    win := some w, attr := attr, winSeg := s.word (WIN_SEG w), target := target,
    taddr := if code = 6 then off else s.winTarget w e.addr, stage := .waiting }
  let s := s.setExec e
  if e.is tMWR && decide (code < 6) && e.attrOf WIN_ATTR_POSTED == 0 then s.writeType e else s

/-- An accepted request resolved (R13, R136, R140). -/
def State.resolveExec (s : State) (e : Exec) : State :=
  let a := e.addr
  let goes (t : Target) (ta : Nat) : State := s.setExec { e with target := t, taddr := ta, stage := .waiting }
  match e.dest with
  | .inbound _ _ => goes .partner a
  | _ =>
    if a < 0x170000 then goes .internal a
    else if 0x1000000 ≤ a ∧ a < 0x1800000 then goes .ledger (a - 0x1000000)
    else if (0x2000000 ≤ a ∧ a < 0x2200000) ∨ (0x3000000 ≤ a ∧ a < 0x3100000) then goes .internal a
    else if 0x3800000 ≤ a ∧ a < 0x4000000 then goes .compat (a - 0x3800000)
    else if a < 0x100000000 then s.otherRefuse e 6
    else
      match s.resolve e.ctx a with
      | some w => s.resolveWindow e w
      | none => s.otherRefuse e 6

/-! ## Order (R49, R50, R161, R435) -/

/-- Whether a request has not yet been delivered to its target. -/
def Exec.undelivered (e : Exec) : Bool :=
  match e.stage with
  | .accepted => true
  | .waiting => true
  | .spanWait _ => true
  | _ => false

/-- Whether a request stalls in a slow domain (R435). -/
def Exec.stalls (e : Exec) : Bool :=
  match e.stage with
  | .slow _ _ => true
  | _ => false

/-- Whether request `e` may start before the earlier request `x` has gone on (R49, R50, R161, R435): a non-posted request
passes no posted one that has not been delivered, and two of one kind pass each other unless they have one context and
one target; FENCE and the stalls of register space and of the compatibility region concern one context. -/
def Exec.passes (e x : Exec) : Bool :=
  let same := x.ctx == e.ctx
  if x.stage == .finished then true
  else if same && e.pkt.h.fence then false
  else if same && e.target == .compat && x.target == .compat then false
  else if same && e.target == .internal && x.stalls then false
  else if !x.undelivered then true
  else if e.posted then !x.posted || !same || x.target != e.target
  else !x.posted && (!same || x.target != e.target)

/-- Whether every request of its context that was sent before a fenced request has been accepted (R35, R50): one that
came over the Span or from the block's own commands has none before it that is missing. -/
def State.reached (s : State) (e : Exec) : Bool :=
  match e.dest, e.viaSpan with
  | .record n q, none => decide ((s.get (CTX_SEQ_DOWN_SEQ n) + 65536 - q) % 65536 < 32768)
  | .port _ _, none => decide ((s.get (CTX_SEQ_DOWN_SEQ e.ctx) + 65536 - e.pkt.h.seq) % 65536 < 32768)
  | _, _ => true

/-- Whether request `e` may start now. -/
def State.mayStart (s : State) (e : Exec) : Bool :=
  (s.execs.filter (fun x => decide (x.order < e.order))).all (fun x => e.passes x) &&
    (!e.pkt.h.fence || s.reached e)

/-! ## Register space (R430 to R435) -/

/-- A 4-byte read of the word at `a` for a request (R432): none where it is refused. -/
def State.wordRead (s : State) (e : Exec) (a : Nat) : State × Option (List Byte) :=
  match selOf a with
  | .reg r =>
    if s.member.present r then
      let t := s.readReg e.ctx r
      (t.1, some (leBytes 4 t.2.toNat))
    else (s.noteOther e 5, none)
  | _ => (s, none)

/-- A 4-byte write of the word at `a` for a request (R432): the completion status. -/
def State.wordWrite (s : State) (e : Exec) (a v : Nat) : State × Nat :=
  match selOf a with
  | .reg r =>
    if s.member.present r then s.writeReg e.by_ e.posted r a (BitVec.ofNat 32 v)
    else (s.noteOther e 5, stUR)
  | _ => (s, stUR)

/-- An 8-byte read (R432, R433): two reads, or one sample of a counter pair. -/
def State.doubleRead (s : State) (e : Exec) (a : Nat) : State :=
  let pair : Bool := match selOf a with
    | .reg r => (pairHigh r).isSome
    | _ => false
  if pair then
    match selOf a with
    | .reg r => s.finishExec e stSC 0 a (leBytes 4 (s.peekReg r).toNat ++ leBytes 4 (s.peekReg (r + 4)).toNat)
    | _ => s
  else
    let x := s.wordRead e a
    let y := x.1.wordRead e (a + 4)
    match x.2, y.2 with
    | some b, some c => y.1.finishExec e stSC 0 a (b ++ c)
    | _, _ => y.1.finishExec e stUR 0 a []

/-- A read of one byte or of an aligned half-word (R431): no side effect. -/
def State.narrowRead (s : State) (e : Exec) (a : Nat) : State :=
  match selOf a with
  | .reg r =>
    if !s.member.present r then s.otherRefuse e 5
    else if (regRow r).any (fun x => x.fields.any FRow.isRc) then s.regRefuse e 3
    else s.finishExec e stSC 0 a (((leBytes 4 (s.peekReg r).toNat).drop (a % 4)).take e.len)
  | _ => s.finishExec e stUR 0 a []

/-- An access of 4 or 8 bytes, aligned to its size. -/
def State.wideAccess (s : State) (e : Exec) : State :=
  let a := e.addr
  if e.is tMRD then
    if e.len = 8 then s.doubleRead e a
    else
      let x := s.wordRead e a
      match x.2 with
      | some b => x.1.finishExec e stSC 0 a b
      | none => x.1.finishExec e stUR 0 a []
  else
    let x := s.wordWrite e a (leNat (e.pkt.data.take 4))
    if e.len = 4 then x.1.finishExec e x.2 0 a []
    else
      let y := x.1.wordWrite e (a + 4) (leNat ((e.pkt.data.drop 4).take 4))
      y.1.finishExec e (if x.2 = stSC ∧ y.2 = stSC then stSC else stUR) 0 a []

/-- A request to a pop aperture (R327). -/
def State.popAccess (s : State) (e : Exec) (q : Nat) : State :=
  let k := e.len
  if e.is tMRD && e.addr % 8 == 0 && k % 8 == 0 && decide (e.addr % 256 + k ≤ 256) then
    let r := s.pop q k
    r.1.finishExec e stSC 0 e.addr r.2
  else s.finishExec e stUR 0 e.addr []

/-- A request to the last-gasp record (R430). -/
def State.gaspAccess (s : State) (e : Exec) (o : Nat) : State :=
  if e.is tATM then s.finishExec e stUR 0 e.addr []
  else if !e.is tMRD || decide (e.len < 4) || e.len % 4 != 0 then s.regRefuse e 1
  else if e.addr % 4 != 0 then s.regRefuse e 2
  else s.finishExec e stSC 0 e.addr (readMem s.lastGasp 0 o e.len)

/-- A request to register space executed (R430). -/
def State.regAccess (s : State) (e : Exec) : State :=
  let a := e.addr
  let k := e.len
  match selOf a with
  | .pop q => s.popAccess e q
  | .gasp o => s.gaspAccess e (o + a % 4)
  | _ =>
    if e.is tATM then s.finishExec e stUR 0 a []
    else if k = 4 ∨ k = 8 then if a % k = 0 then s.wideAccess e else s.regRefuse e 2
    else if e.is tMRD && (k == 1 || k == 2) then if a % k = 0 then s.narrowRead e a else s.regRefuse e 2
    else s.regRefuse e 1

/-- The slow domain of the word at `a` (R435): 0 SEG, 1 FIELD, 2 AON; none for a register without the S flag. -/
def State.slowWord (s : State) (a : Nat) : Option Nat :=
  match selOf a with
  | .reg r =>
    if s.member.present r && (regRow r).any (·.slow) then
      let b := r / 0x10000
      some (if 8 ≤ b ∧ b ≤ 11 then 0 else if b = 17 then 1 else 2)
    else none
  | _ => none

/-- The slow domain that a request crosses into, if it is one that register space accepts (R435). -/
def State.slowDomain (s : State) (e : Exec) : Option Nat :=
  let a := e.addr
  let k := e.len
  if 0x170000 ≤ a || e.is tATM then none
  else if (k = 4 ∧ a % 4 = 0) ∨ (e.is tMRD ∧ (k = 1 ∨ k = 2) ∧ a % k = 0) then s.slowWord a
  else if k = 8 ∧ a % 8 = 0 then
    match s.slowWord a with
    | some d => some d
    | none => s.slowWord (a + 4)
  else none

/-! ## Internal memories -/

/-- A request to a courier memory (R234). -/
def State.courAccess (s : State) (e : Exec) : State :=
  let o := e.addr - 0x2000000
  if s.member.couriers ≤ o / 0x20000 then s.otherRefuse e 5
  else if e.is tMRD then
    let r := s.courRead o e.len
    s.finishExec e (if r.2 then stTE else stSC) r.1.length e.addr r.1
  else
    let s := if e.posted then s.bump COUR_GLB_HOST_WR_REFUSED else s
    s.finishExec e stUR 0 e.addr []

/-- Whether bytes of queue RAM meet the ring of a queue with RING = 1 (R321). -/
def State.inRing (s : State) (o k : Nat) : Bool :=
  (List.range 160).any (fun q => s.on (QUE_CFG_RING q) && rangesMeet (o, k) (s.ring q))

/-- The bytes an ATM writes back over those it has read (R52). -/
def Exec.atomic (e : Exec) (old : List Byte) : List Byte := atomicNew e.pkt.h.op old.length old e.pkt.data

/-- The operand size of an ATM (R52). -/
def Exec.operand (e : Exec) : Nat := (atomicSize e.pkt.h.op e.pkt.h.len e.addr).getD 4

/-- A request to queue RAM (R53, R321). -/
def State.qramAccess (s : State) (e : Exec) : State :=
  let o := e.addr - 0x3000000
  if e.is tMRD then s.finishExec e stSC 0 e.addr (readMem s.qram 0 o e.len)
  else
    let k := if e.is tATM then e.operand else e.len
    if s.inRing o k then
      let s := if e.posted then s.bump QUE_GLB_RAW_REFUSED else s
      s.finishExec e stUR 0 e.addr []
    else if e.is tATM then
      let old := readMem s.qram 0 o k
      { s with qram := writeMem s.qram 0 o (e.atomic old) }.finishExec e stSC 0 e.addr old
    else { s with qram := writeMem s.qram 0 o e.pkt.data }.finishExec e stSC 0 e.addr []

/-! ## The partner (R24, R365) -/

/-- The packet that forwards a request to address `a` of the partner (R24, R365), before it has a tag: what is reserved
in its header is sent as zero (R8, R28). -/
def forwardPkt (q a : Nat) (e : Exec) : Pkt :=
  let voted := match e.who with
    | .voted => 1
    | .span true => 1
    | _ => 0
  let h := e.pkt.h
  let f := mkHdr h.type h.vc (voted == 1) h.ctx h.seq 0 h.len (if h.type = tATM then h.op else 0) a (4 + q) 0
  ⟨{ f with w1 := setBits f.w1 8 1 (ofBool h.fence) }, e.pkt.data⟩

/-- A request forwarded to address `a` of the partner (R24, R366): it waits for a span port, or ends with UN. A
request that has crossed the Span crosses it no second time. -/
def State.forwardExec (s : State) (e : Exec) (a : Nat) : State :=
  if e.viaSpan.isSome then s.finishExec e stUN 0 e.taddr []
  else
    match s.spanFor e.ctx with
    | none => s.finishExec e stUN 0 e.taddr []
    | some q => (s.setExec { e with stage := .spanWait q }).spanPut q 0 e.ctx (forwardPkt q a e) (some e.order)
      (if e.posted then some (.write e.order) else none)

/-! ## The Ledger (R53, R207, R212, R214, R222) -/

/-- A write of bytes at a Ledger offset with its verdict; `old` is what an ATM returns. -/
def State.ledgerStore (s : State) (e : Exec) (bs old : List Byte) : State :=
  let r := s.ledgerWrite 0 e.ctx (offsets e.taddr bs)
  match r.2 with
  | .ok => r.1.finishExec e stSC 0 e.taddr old
  | .refused => r.1.refuseExec e e.taddr false true
  | .te => r.1.finishExec e stTE 0 e.taddr []
  | .forward => s.forwardExec e e.addr
  | .un => r.1.finishExec e stUN 0 e.taddr []

/-- A request to the Ledger. -/
def State.ledgerAccess (s : State) (e : Exec) : State :=
  let k := if e.is tATM then e.operand else e.len
  if s.member.ledgerBytes < e.taddr + k then
    if e.win.isSome then s.finishExec e stUR 0 e.taddr [] else s.otherRefuse e 5
  else if e.is tMRD then
    let r := s.ledgerRead 0 e.ctx e.taddr k
    let n := r.2.1.length
    if r.2.2 then r.1.finishExec e stTE n (e.taddr + n) r.2.1 else r.1.finishExec e stSC 0 e.taddr r.2.1
  else if e.is tATM then
    let ws := offsets e.taddr (List.replicate k 0)
    if s.verdict e.ctx ws = .ok then
      let r := (s.carryMet ws).ledgerRead 0 e.ctx e.taddr k
      if r.2.2 then r.1.finishExec e stTE 0 e.taddr []
      else r.1.ledgerStore e (e.atomic r.2.1) r.2.1
    else s.ledgerStore e (List.replicate k 0) []
  else s.ledgerStore e e.pkt.data []

/-! ## Segments (R142 to R158) -/

/-- What a request does about the lock that its window names: its role, whether it takes a semaphore now, whether it
waits for one; `late` is the write of a lock that has timed out (R156); `named` tells whether its window names a lock. -/
structure LockPlan where
  named : Bool
  role : LockRole
  take : Bool
  waits : Bool
  late : Bool
  deriving DecidableEq, Repr

/-- The jobs of every segment. -/
def State.allJobs (s : State) : List (Nat × Job) :=
  ((List.range 4).map (fun g => (s.seg g).jobs.map (fun j => (g, j)))).flatten

/-- The first job that waits for semaphore `l`, in order of arrival (R157). -/
def State.semWaiter (s : State) (l : LockName) : Option (Nat × Job) :=
  let ws := s.allJobs.filter (fun x => x.2.wait == .semaphore && x.2.lock == some l)
  ws.find? (fun x => ws.all (fun y => decide (x.2.order ≤ y.2.order)))

/-- The lock plan of a request on segment `g` (R151, R154 to R157). -/
def State.lockPlan (s : State) (g : Nat) (e : Exec) : LockPlan :=
  let l := lockOf e.attr e.winSeg g
  let n := e.ctx
  let mine := (s.seg g).jobs.filter (fun j => !j.isCourier && j.ctx == n && j.lock == some l)
  let holds := ((s.lockHeld l).any (fun h => h.ctx == n) || mine.any (fun j => j.role == LockRole.acquire)) &&
    !mine.any (fun j => j.role == LockRole.release)
  let sem := e.attrOf WIN_ATTR_NATIVE == 0
  let free := (s.lockHeld l).isNone && (s.semWaiter l).isNone
  if e.is tATM then
    if holds then ⟨true, .none, false, false, false⟩ else ⟨true, .whole, sem && free, sem && !free, false⟩
  else if e.attrOf WIN_ATTR_LOCKWIN = 0 then ⟨false, .none, false, false, false⟩
  else if e.is tMRD then
    if holds then ⟨true, .none, false, false, false⟩ else ⟨true, .acquire, sem && free, sem && !free, false⟩
  else if holds then ⟨true, .release, false, false, false⟩
  else if s.locks.any (fun h => h.name == l && h.ctx == n && h.timedOut) then ⟨true, .none, false, false, true⟩
  else ⟨true, .none, false, sem && !free, false⟩

/-- The bus job of a request through a window onto segment `g` (R145, R146, R148, R151). -/
def State.windowJob (s : State) (g : Nat) (e : Exec) (p : LockPlan) : Job :=
  let k := orderMask (e.attrOf WIN_ATTR_ORDER)
  let base := e.taddr / 4096 * 4096
  let off := e.taddr % 4096
  let width := s.beatWidth g (e.attrOf WIN_ATTR_WIDTH)
  let atm := e.is tATM
  let len := if atm then e.operand else e.len
  let bytes := if e.is tMWR || e.is tNPW then e.pkt.data else List.replicate len 0
  { owner := .host e.order, ctx := e.ctx, spc := e.attrOf WIN_ATTR_SPACE, write := e.is tMWR || e.is tNPW,
    width := width, burst := e.attrOf WIN_ATTR_BURST == 1, beats := splitBeats base k width off bytes,
    base := base, off := off, xor := k, len := len, retries := 0,
    retryMax := (WIN_SEG_RETRY_MAX 0).of e.winSeg, answers := 0, tmo := (WIN_SEG_TMO 0).of e.winSeg * 500,
    wait := .ready, defers := 0, deferred := false,
    lock := if p.named then some (lockOf e.attr e.winSeg g) else none,
    role := p.role, poll := none, rmw := if atm then .atomic e.pkt.h.op e.pkt.data else .none, back := false,
    got := [], moved := 0, busNs := 0, order := e.order, buf := 0, bufAt := 0 }

/-- The journal entry of a request that is to wait at segment `g` (R367, R368): the entry if one is free, and what the
job waits for. -/
def State.journalFor (s : State) (g : Nat) (e : Exec) (locked : Bool) : State × JobWait :=
  if s.journals e then
    if (s.sentOf g).length < 256 then (s.journalReq g e locked, .journal)
    else (s.bump SPN_CNT3_JRN_WAIT, .journal)
  else (s, .ready)

/-- While context `n` holds semaphore `l`, requests of other contexts through windows that name it wait (R155): those
that have not been issued. Each waits for TMO at most (R156). -/
def State.holdBack (s : State) (l : LockName) (n : Nat) : State :=
  s.allJobs.foldl (fun s x =>
    let j := x.2
    if j.lock == some l && j.ctx != n && !j.isCourier && j.wait != .semaphore && !j.begun &&
        (s.seg x.1).busy != some j.order then
      ((s.setJob x.1 { j with wait := .semaphore }).showDeferred j.ctx x.1).arm (.semWait j.order)
        (s.get WIN_LOCK_CTL_TMO * 1000)
    else s) s

/-- A semaphore on segment `g` taken for a request of context `n` through window `w` (R155). -/
def State.takeSem (s : State) (l : LockName) (n w g : Nat) (remote : Bool) : State :=
  (s.acquire l n w g remote).holdBack l n

/-- A request taken up by the segment that this device owns, under its lock plan. -/
def State.segQueue (s : State) (g : Nat) (e : Exec) (p : LockPlan) : State :=
  let l := lockOf e.attr e.winSeg g
  let s := if p.take then s.takeSem l e.ctx (e.win.getD 64) g e.viaSpan.isSome else s
  let j := s.windowJob g e p
  let s := s.setExec { e with stage := .segment }
  let t := s.journalFor g e (p.role == LockRole.release)
  let s := t.1.addJob g { j with wait := if p.waits then .semaphore else t.2 }
  if p.waits then s.arm (.semWait e.order) (s.get WIN_LOCK_CTL_TMO * 1000) else s

/-- A lock of context `n` that has timed out is waited for no more: its write has come, or a new locked read. -/
def State.forgetLock (s : State) (l : LockName) (n : Nat) : State :=
  { s with locks := s.locks.filter (fun (h : HeldLock) => !(h.name == l && h.ctx == n && h.timedOut)) }

/-- A request for segment `g` that its window or its region lets through: to the bus of this device, to the partner
that owns the segment, or UN (R144, R363). `here` takes it up here. -/
def State.toOwner (s : State) (g : Nat) (e : Exec) (here : State → State) : State :=
  if s.owns g then here s
  else if s.span.released.contains g && s.paired && !bitAt s.span.own g then s
  else if s.paired && bitAt s.span.own g then s.forwardExec e e.addr
  else s.finishExec e stUN 0 e.taddr []

/-- A request through a segment window (R5, R53, R142, R144). The write of a lock that timed out on this device is not
executed, whoever owns the segment by now (R156, R158). -/
def State.segAccess (s : State) (g : Nat) (e : Exec) : State :=
  let spc := e.attrOf WIN_ATTR_SPACE
  let l := lockOf e.attr e.winSeg g
  let p := s.lockPlan g e
  if !s.hasSeg g || (e.is tATM && e.operand != 4) then s.refuseExec e e.taddr false false
  else if spc == 3 || (spc == 2 && e.writes) then s.refuseExec e e.taddr true true
  else if p.late then (s.forgetLock l e.ctx).endExec e stLK 0 e.taddr 1 []
  else
    let s := if e.is tMRD && p.named then s.forgetLock l e.ctx else s
    s.toOwner g e (fun s => s.segQueue g e p)

/-- A released semaphore granted to the first request that waits for it (R157). -/
def State.semGrant (s : State) (n : Nat) : State :=
  let l : LockName := .sem (Fin.ofNat 64 n)
  if (s.lockHeld l).isSome then s
  else
    match s.semWaiter l with
    | none => s
    | some (g, j) =>
      let e := match j.owner with
        | .host o => s.execOf o
        | _ => none
      let s := (s.disarm (.semWait j.order)).takeSem l j.ctx ((e.bind (·.win)).getD 64) g
        ((e.bind (·.viaSpan)).isSome)
      let owed := e.any (fun x => s.journals x) && !(s.sentOf g).any (fun x => x.order == j.order && x.acked)
      (s.setJob g { j with
        wait := if owed then .journal else .ready,
        role := if j.role == LockRole.none then LockRole.release else j.role }).journalNext g

/-- A locked read has ended with LK: the write that it was to protect does not land (R156). A write that waits behind
it ends with LK, and one still to come will. -/
def State.unlockLate (s : State) (g : Nat) (l : LockName) (n : Nat) : State :=
  match (s.seg g).jobs.find? (fun k => k.role == .release && k.ctx == n && k.lock == some l) with
  | some k => s.stopJob g k stLK 1
  | none => { s with locks := s.locks ++ [⟨l, n, false, true, 64, g⟩] }

/-- A request has waited for a semaphore for TMO (R156). -/
def State.semWaitOut (s : State) (o : Nat) : State :=
  match s.expire (.semWait o) with
  | none => s
  | some s =>
    match s.allJobs.find? (fun x => x.2.order == o && x.2.wait == .semaphore) with
    | none => s
    | some (g, j) =>
      let s := s.stopJob g j stLK 1
      match j.role, j.lock with
      | .acquire, some l => s.unlockLate g l j.ctx
      | _, _ => s

end Sys2Proof.Machine
end

