-- ==== Sys2Proof/Machine/Compat.lean ====
section
/-! DEFINITION. The UX2410 compatibility region (R161, R162, R330, R331): its register file, its message ports and its
Carriage aperture. -/

namespace Sys2Proof.Machine

/-- A word of the UX2410 register file with its reset value (R161). -/
def compatReset (o : Nat) : Word := if o = 0x0C then 20 else if o = 0x1C then 1 else 0

/-- The stored word of the UX2410 register at an offset. -/
def State.compatWord (s : State) (o : Nat) : Nat := (mget s.compat o (compatReset o)).toNat

/-- What a read of the UX2410 register file at an offset returns (R161). -/
def State.compatRead (s : State) (o : Nat) : Nat :=
  if o = 0 then 0x24104816
  else if o = 0x18 then
    let x := s.queue (s.get WIN_COMPAT_INQ)
    min 0xFFFF (x.items.length + ((x.packets.filter (fun p => !p.isOpen)).map (fun p => p.words.length)).sum)
  else if o < 0x20 then s.compatWord o
  else 0

/-- What a write of the bytes of the word at an offset makes of the register there: `old` with the bytes written
replaced; VALID of U_ERRSTAT clears where a 1 is written to it (R161). -/
def compatNext (o old new : Nat) : Nat :=
  if o = 0x04 then new % 2
  else if o = 0x08 then new % 16
  else if o = 0x0C then clampTo 1 200 (new % 256)
  else if o = 0x1C then new % 4
  else old

/-- A byte written to the UX2410 register file (R161). A 1 written to VALID of U_ERRSTAT clears that bit alone; STATUS and
U_ERRADDR stay (DESIGN CHOICE, log 126). -/
def State.compatByte (s : State) (o : Nat) (b : Byte) : State :=
  let r := o / 4 * 4
  let old := s.compatWord r
  let k := o % 4
  if r = 0x10 then
    if k = 3 ∧ bitAt b.toNat 7 then
      { s with compat := mput s.compat 0x10 (BitVec.ofNat 32 (old % 2 ^ 31)) (compatReset 0x10) }
    else s
  else
    let new := old - natBits old (8 * k) 8 * 2 ^ (8 * k) + b.toNat * 2 ^ (8 * k)
    if r < 0x20 then
      { s with compat := mput s.compat r (BitVec.ofNat 32 (compatNext r old new)) (compatReset r) }
    else s

/-- An access to the register file and the offsets behind it (R161). -/
def State.compatRegs (s : State) (e : Exec) : State :=
  if e.is tMRD then
    s.finishExec e stSC 0 e.taddr ((List.range e.len).map (fun i =>
      let o := e.taddr + i
      BitVec.ofNat 8 (s.compatRead (o / 4 * 4) / 2 ^ (8 * (o % 4)))))
  else
    ((offsets e.taddr e.pkt.data).foldl (fun s x => s.compatByte x.1 x.2) s).finishExec e stSC 0 e.taddr []

/-- A request stalls at a message port for at most STALL_MAX (R330, R331). -/
def State.compatStall (s : State) (e : Exec) : State :=
  (s.setExec { e with stage := .compatWait }).arm (.compat e.ctx) (s.get QUE_GLB_STALL_MAX * 1000)

/-- Whether another read stalled before on the inbound port (R330). -/
def State.inqBusy (s : State) (e : Exec) : Bool :=
  s.execs.any (fun x => x.stage == .compatWait && x.is tMRD && decide (x.order < e.order))

/-- The next data word of the inbound queue taken for a read (R329, R330), if there is one. -/
def State.inqTake (s : State) (e : Exec) : State × Bool :=
  let r := s.takeFrom (s.get WIN_COMPAT_INQ) 1 true
  match r.2 with
  | some t =>
    let w := (t.words.getD 0 0).toNat
    ((r.1.disarm (.compat e.ctx)).finishExec e stSC 0 e.taddr (leBytes 4 w), true)
  | none => (r.1, false)

/-- A read of the inbound message port (R330). -/
def State.inqRead (s : State) (e : Exec) : State :=
  if s.inqBusy e then s.compatStall e
  else
    let r := s.inqTake e
    if r.2 then r.1 else r.1.compatStall e

/-- The word of an outbound write put into its queue (R331), if it has room. -/
def State.outqPut (s : State) (e : Exec) : Option State :=
  let q := s.get WIN_COMPAT_OUTQ
  let w : Word := BitVec.ofNat 32 (leNat e.pkt.data)
  if isWorkQueue q then s.pushItem q w else some (s.bridgeRecord ⟨q, e.ctx, 0, [w], false, none⟩)

/-- A write to the outbound message port (R331). -/
def State.outqWrite (s : State) (e : Exec) : State :=
  match s.outqPut e with
  | some s => s.finishExec e stSC 0 e.taddr []
  | none => s.compatStall e

/-- An aperture access that ends without a cycle of its own (R161, R162). -/
def State.apertureFail (s : State) (e : Exec) (status card : Nat) : State :=
  let s := if e.posted then s.apertureError status card else s
  if status = stUR then s.refuseExec e card false true else s.finishExec e status 0 card []

/-- The bus job of an access through the Carriage aperture (R161). How often a beat is retried the spec does not
say. -/
def State.apertureJob (s : State) (g a : Nat) (e : Exec) : State × Job :=
  let k := orderMask (s.compatWord 0x1C)
  let width := s.beatWidth g 2
  let f := s.free
  let bytes := if e.is tMRD then List.replicate e.len 0 else e.pkt.data
  (f.2,
   { owner := .host e.order, ctx := e.ctx, spc := s.compatWord 0x08 % 4, write := !e.is tMRD, width := width,
     burst := false, beats := splitBeats (a / 4096 * 4096) k width (a % 4096) bytes, base := a / 4096 * 4096,
     off := a % 4096, xor := k, len := e.len, retries := 0, retryMax := f.1.toNat % 16, answers := 0,
     tmo := s.compatWord 0x0C * 1000, wait := .ready, defers := 0, deferred := false, lock := none,
     role := .none, poll := none, rmw := .none, back := false, got := [], moved := 0, busNs := 0,
     order := e.order, buf := 0, bufAt := 0 })

/-- An access through the Carriage aperture (R144, R161). -/
def State.aperture (s : State) (e : Exec) : State :=
  let g := s.get WIN_COMPAT_SEG
  let page := s.compatWord 0x08
  let spc := page % 4
  let a := page / 4 % 4 * 0x400000 + e.taddr % 0x400000
  if s.compatWord 0x04 % 2 = 0 || !s.hasSeg g || spc == 3 || (spc == 2 && e.writes) then s.apertureFail e stUR a
  else if s.owns g then
    let j := s.apertureJob g a e
    (j.1.setExec { e with stage := .segment }).addJob g j.2
  else if s.span.released.contains g && s.paired && !bitAt s.span.own g then s
  else if s.paired && bitAt s.span.own g && e.viaSpan.isNone && (s.spanFor e.ctx).isSome then
    s.forwardExec e e.addr
  else s.apertureFail e stUN a

/-- A request to the compatibility region (R53, R161). -/
def State.compatAccess (s : State) (e : Exec) : State :=
  let o := e.taddr
  let no := s.finishExec e stUR 0 o []
  if decide (0x800000 < o + e.len) then s.refuseExec e o e.win.isSome e.win.isSome
  else if s.isVoted e.ctx || e.is tATM then no
  else if o < 0x1000 then s.compatRegs e
  else if o < 0x2000 then
    if e.is tMRD && e.len == 4 && decide (s.get WIN_COMPAT_INQ < 160) then s.inqRead e else no
  else if o < 0x3000 then
    if !e.is tMRD && e.len == 4 && decide (s.get WIN_COMPAT_OUTQ < 160) then s.outqWrite e else no
  else if 0x400000 ≤ o then s.aperture e
  else no

/-- A word has become available to the read of context `n` that stalls on the inbound port (R330): reads that stall
on one queue are served in order of arrival. -/
def State.wordAvailable (s : State) (n : Nat) : State :=
  match s.execs.find? (fun e => e.stage == .compatWait && e.is tMRD && e.ctx == n) with
  | none => s
  | some e => if s.inqBusy e then s else (s.inqTake e).1

/-- An access to a message port of context `n` has stalled for STALL_MAX (R330, R331): TO for a read, RT for a
write. -/
def State.stallTimeout (s : State) (n : Nat) : State :=
  match s.expire (.compat n) with
  | none => s
  | some s =>
    match s.execs.find? (fun e => e.stage == .compatWait && e.ctx == n) with
    | none => s
    | some e => s.finishExec e (if e.is tMRD then stTO else stRT) 0 e.taddr []

/-! ## The start of accepted requests -/

/-- Whether the kind of a request suits its window (R5, R51): an NPW into a window of posted writes and a window with a
reserved or an absent target do not. -/
def State.windowSuits (s : State) (e : Exec) : Bool :=
  e.win.isNone || e.target == .compat ||
    (e.target != .internal && !(e.is tNPW && e.attrOf WIN_ATTR_POSTED == 1) &&
      (e.target != .partner || decide (0 < s.member.spans)))

/-- Whether the window of a request lets it through (R139, R143): a write against WP and an address beyond the target do
not. -/
def State.windowLets (s : State) (e : Exec) : Bool :=
  let limit := match e.target with
    | .seg _ => 0x1000000
    | .ledger => s.member.ledgerBytes
    | .partner => 0x4000000
    | _ => 0x800000
  e.win.isNone || e.target == .compat ||
    (!(e.writes && e.attrOf WIN_ATTR_WP == 1) && decide (e.taddr + e.len ≤ limit))

/-- A request starts at its target. -/
def State.startExec (s : State) (e : Exec) : State :=
  if !s.windowSuits e then s.refuseExec e e.taddr false false
  else if !s.windowLets e then s.refuseExec e e.taddr true true
  else
    match e.target with
    | .seg g => s.segAccess g e
    | .ledger => s.ledgerAccess e
    | .partner => s.forwardExec e e.taddr
    | .compat => s.compatAccess e
    | .internal =>
      if e.addr < 0x170000 then
        match s.slowDomain e with
        | some d =>
          let t : State := s.setExec { e with stage := .slow d s.order }
          { t with order := s.order + 1 }
        | none => s.regAccess e
      else if e.addr < 0x3000000 then s.courAccess e
      else s.qramAccess e

/-- One accepted request goes on as far as it can now: a request of a fenced context that has not been issued is
refused (R119, R153); one that may start starts; a write that waits for credit is tried again (R331). -/
def State.advanceExec (s : State) (e : Exec) : State :=
  let fenced := s.on (CTX_FENCE_FENCED e.ctx)
  match e.stage with
  | .waiting => if fenced then s.fenceExec e else if s.mayStart e then s.startExec e else s
  | .spanWait q =>
    if fenced then
      let left := (mget s.span.queue q []).filter (fun (i : SpanItem) => i.order != some e.order)
      { s with span := { s.span with queue := mput s.span.queue q left [] } }.fenceExec e
    else s
  | .compatWait =>
    if e.is tMRD then s
    else
      match s.outqPut e with
      | some s => (s.disarm (.compat e.ctx)).finishExec e stSC 0 e.taddr []
      | none => s
  | _ => s

/-- Every accepted request resolved (R140), and those that may start started, in the order of acceptance. -/
def State.drain (s : State) : State :=
  let each (s : State) (f : State → Exec → State) : State :=
    s.execs.foldl (fun s e => match s.execOf e.order with
      | some e => f s e
      | none => s) s
  let s := each s (fun s e => if e.stage == .accepted then s.resolveExec e else s)
  (each s State.advanceExec).sweepFenced

/-- The order in which an access that crosses into slow domain `d` does so. -/
def Exec.slowAt (e : Exec) (d : Nat) : Option Nat :=
  match e.stage with
  | .slow x k => if x = d then some k else none
  | _ => none

/-- The first of the accesses that cross into slow domain `d`. -/
def State.slowHead (s : State) (d : Nat) : Option Exec :=
  let es := s.execs.filter (fun e => (e.slowAt d).isSome)
  es.find? (fun e => es.all (fun x => decide ((e.slowAt d).getD 0 ≤ (x.slowAt d).getD 0)))

/-- The first access that crosses into a slow domain has crossed (R435): it takes effect. -/
def State.slowEnd (s : State) (d : Nat) : State :=
  match s.slowHead d with
  | none => s
  | some e => s.regAccess e

/-- The execution of the first request of a context and SEQ that its target has executed ends (R16); `via` is the
span port over which it came, if one. -/
def State.executionEnds (s : State) (via : Option Nat) (n seq : Nat) : State :=
  match s.execs.find? (fun e => e.stage == .finished && e.ctx == n && e.pkt.h.seq == seq && e.viaSpan == via) with
  | none => s
  | some e => s.executionEnd e

end Sys2Proof.Machine
end

