-- ==== Sys2Proof/Machine/Arrival.lean ====
section
/-! DEFINITION. Packets that arrive whole on a port: the checks of the transaction layer (R29 to R32, R38, R59), its
buffers and credits (R43 to R48), what a port's state makes of a request (R60, R100, R101, R252), and completions of
forwarded requests (R24). -/

namespace Sys2Proof.Machine

/-- The causes of a protocol error (R59) that the header and the data of a packet show, in the order of the table;
TAG_RANGE and TAG_BUSY are those of port `p`. -/
def State.packetCause (s : State) (p : Nat) (k : Pkt) : Option Nat :=
  let h := k.h
  let t := h.type
  if typeVc t != some h.vc then some 0x02
  else if usesLen t && decide (255 < h.len) then some 0x03
  else if k.data.length != (if hasData t then h.len + 1 else 0) then some 0x03
  else if nonPosted t && decide (tagRange p ≤ h.tag) then some 0x04
  else if nonPosted t && (s.port p).tags.contains h.tag then some 0x05
  else if t == tATM && (atomicSize h.op h.len h.addr).isNone then some 0x06
  else if isAccess t && decide (4096 < h.addr % 4096 + h.len + 1) then some 0x07
  else if t == tMSG || (decide (p < 3) && (t == tCPL || t == tCPLD)) then some 0x08
  else if t == tSEQ && decide (1 < h.op) then some 0x0F
  else none

/-- A non-posted request that a protocol error refuses (R59): answered with UR if its tag may be used, else discarded; a
packet whose VC is wrong is discarded whatever its type. -/
def State.refuseTag (s : State) (p : Nat) (k : Pkt) (cause status : Nat) : State :=
  if cause != 0x02 && nonPosted k.h.type && decide (k.h.tag < tagRange p) && !(s.port p).tags.contains k.h.tag then
    (s.takeTag p k.h.tag).complete p k.h.tag k.h status
  else s

/-- Whether a packet takes receive buffer space: a P or N packet (R43 to R45). -/
def usesCredit (k : Pkt) : Bool := decide (k.h.vc ≤ 1) && k.h.type != tNOP

/-- Whether the buffer that port `p` granted when its link came up has room for a packet (R46, R48, R61). -/
def State.hasRoom (s : State) (p : Nat) (k : Pkt) : Bool :=
  (s.port p).granted && (s.port p).grant.covers ((s.port p).rxUsed.add (pktCost k))

/-- A packet takes its receive buffer space. -/
def State.takeRoom (s : State) (p : Nat) (k : Pkt) : State :=
  let x := s.port p
  s.setPort p { x with rxUsed := x.rxUsed.add (pktCost k) }

/-- Credits granted by the far end (R45, R48): a count above 4095 is a protocol error, and the excess is dropped. -/
def State.takeCredits (s : State) (p : Nat) (h : Hdr) : State :=
  let c := (s.port p).tx.add ⟨bits h.w2 0 8, bits h.w2 8 8, bits h.w2 16 8, bits h.w2 24 8⟩
  let excess := decide (4095 < c.ph) || decide (4095 < c.pd) || decide (4095 < c.nh) || decide (4095 < c.nd)
  let x := s.port p
  let s := s.setPort p { x with tx := ⟨min 4095 c.ph, min 4095 c.pd, min 4095 c.nh, min 4095 c.nd⟩ }
  let s := if excess then s.protoError p h 0x0B else s
  if p < 3 then s else s.flushControl (mget s.span.queue (p - 3) []).length (p - 3)

/-- A request refused because of the state of its port or context: counted as a MODE error (R100, R250, R252). -/
def State.refuseMode (s : State) (p : Nat) (k : Pkt) (status : Nat) : State :=
  ((s.modeError p k status).refuse p k status).freeRx p k

/-- A request of the partner (R101, R252): only its context's state and fence are looked at. -/
def State.spanAdmit (s : State) (p : Nat) (k : Pkt) : State :=
  let n := k.h.ctx
  let st := s.ctxState n
  if !isAccess k.h.type then (s.refuse p k stUR).freeRx p k
  else if st = 0 ∨ st = 1 then s.refuseMode p k stUR
  else if st = 3 then s.refuseMode p k stAB
  else (s.passUnvoted p k (.span k.h.voted) (some (p - 3))).freeRx p k

/-- A request that meets no error reaches its port (R60, R100). `bad` tells that its vote record holds an
uncorrectable word (R414). -/
def State.portTakes (s : State) (p : Nat) (k : Pkt) (bad : Bool) : State :=
  let s := s.takeRoom p k
  let s := if nonPosted k.h.type then s.takeTag p k.h.tag else s
  if s.portState p = 3 then (s.refuse p k stAB).freeRx p k
  else if s.portState p ≠ 2 then s.refuseMode p k stUR
  else if 3 ≤ p then s.spanAdmit p k
  else
    let s := match s.openFor (k.h.type == tRPL) k.h.ctx k.h.seq with
      | some r => if bad then s.setRec { r with ue := true } else s
      | none => s
    s.takeCopy p k

/-- The status of a completion received (R42); a reserved code counts as SC, as reserved bits received are ignored (R8;
DESIGN CHOICE, log 128). -/
def cplStatus (k : Pkt) : Nat := if 9 < k.h.op then stSC else k.h.op

/-- A completion arrives for a request forwarded on span port `q` (R24, R40, R366). One that answers no request has no
effect. -/
def State.takeCompletion (s : State) (q : Nat) (k : Pkt) : State :=
  match s.execs.find? (fun e => e.stage == .forwarded q k.h.tag) with
  | none => s
  | some e =>
    let owed := if e.is tATM then e.operand else if e.is tMRD then e.len else 0
    if k.data.isEmpty ∨ cplStatus k ≠ stSC then s.endExec e (cplStatus k) e.sent (e.taddr + e.sent) 1 []
    else if e.sent + k.data.length < owed then s.partExec e k.data
    else s.endExec e stSC 0 e.taddr 1 k.data

/-- A packet has arrived on port `p`: on a span port, the partner has been heard (R372). -/
def State.heardOn (s : State) (p : Nat) : State :=
  if p < 3 then s else { s with span := { s.span with lastRx := s.clk } }

/-- A packet arrives whole on port `p`; `ue` marks the uncorrectable words of a mirrored line. -/
def State.takePacket (s : State) (p : Nat) (k : Pkt) (bad : Bool) (ue : Nat := 0) : State :=
  if !s.hasPort p || !s.linkUp p then s
  else
    let s := s.heardOn p
    let mismatch := decide (p < 3) && s.on (HP_CTL_ORIGIN_CHK p) && k.h.type != tNOP && k.h.origin != p
    match s.packetCause p k with
    | some c =>
      let s := (s.protoError p k.h c).refuseTag p k c stUR
      if usesCredit k then s.sendNop p (pktCost k) else s
    | none =>
      if k.h.type = tNOP then s.takeCredits p k.h
      else
        let s := if mismatch then s.protoError p k.h 0x0E else s
        if k.h.type = tCPL ∨ k.h.type = tCPLD then s.takeCompletion (p - 3) k
        else if !s.hasRoom p k then s.protoError p k.h 0x0C
        else if 3 ≤ p && isSpanControl k then (s.traceSpan p k).spanControl (p - 3) k ue
        else s.portTakes p k bad

/-- A packet of a TYPE arrives whole on port `p`, and requests go on (R51 to R59). -/
def State.arrive (s : State) (p : Nat) (t : Nat) (h : Hdr) (d : List Byte) (bad : Bool) : State :=
  (s.takePacket p ⟨h.withType t, d⟩ bad).drain

/-- What a flit position of port `p` brought (R78 to R86): the packets that it completes taken in order, then the link
taken down if a packet start in it cannot be read (R59, R81). -/
def State.takeFlitPackets (s : State) (p : Nat) (l0 l1 : List (BitVec 64)) : State :=
  let r := s.takeLanes p l0 l1
  let s := r.2.1.foldl (fun s k => (s.takePacket p k false).drain) r.1.drain
  match r.2.2 with
  | none => s
  | some h => ((s.protoError p h 1).linkDown p 8).drain

end Sys2Proof.Machine
end

