-- ==== Sys2Proof/Machine/Start.lean ====
section
/-! DEFINITION. The start sequence after a reset (R460 to R465): the slot tried, the load, the settings, the plan,
and maintenance. The start is one command: its steps take no time of their own. -/

namespace Sys2Proof.Machine

/-- The Innkeeper as the requester of a register access. -/
def innBy : By := ⟨0, .innkeeper⟩

/-- A write of a register by the Innkeeper, under the unlock key where it is guarded (R312). -/
def State.innWrite (s : State) (a : Nat) (v : Nat) : State :=
  match selOf a with
  | .reg r => if s.member.present r then (s.writeReg innBy true r a (BitVec.ofNat 32 v)).1 else s
  | _ => s

/-! ## The slot (R461) -/

/-- What the selection and the load have come to: the state, the directory, the reason, the slot and the image found,
whether it runs in trial. -/
structure Loaded where
  s : State
  d : Directory
  reason : Nat
  found : Option (Nat × Image0)
  trial : Bool

/-- The first cause stands (R474). -/
def firstWhy (a b : Nat) : Nat := if a = 0 then b else a

/-- The checks of a slot (R458), whose flash reads fail where `bad` tells so. -/
def State.trySlot (s : State) (x : Nat) (bad : Bool) : State × (Image0 ⊕ Nat) :=
  if bad then ((s.bump BOOT_FLASH_ERRORS).showSlot x whyFlash, .inr whyFlash)
  else
    match s.checkImage x with
    | .inl i => (s.showSlot x 0, .inl i)
    | .inr w => (s.showSlot x (if w = whyDecrypt then 0 else w), .inr w)

/-- A slot that fails: a trial slot is marked, and its trial disarmed (R461). -/
def Directory.slotFails (d : Directory) (x : Nat) (trial : Bool) : Directory :=
  if trial then { d with failed := withBit d.failed x true, trial := none, bootsLeft := 0 } else d

/-- Slots are tried from `x` on (R461): after a failure the other slot, if it is CONFIRMED and has not failed in this
start. `mask` holds the slots that have failed. -/
def State.trySlots (bad : Nat → Bool) : Nat → State → Directory → Nat → Nat → Nat → Bool → Loaded
  | 0, s, d, _, _, reason, _ => ⟨s, d, firstWhy reason whyNoImage, none, false⟩
  | fuel + 1, s, d, x, mask, reason, trial =>
    match s.trySlot x (bad x) with
    | (s, .inl i) => ⟨s, d, reason, some (x, i), trial⟩
    | (s, .inr w) =>
      let d := d.slotFails x trial
      let reason := firstWhy reason w
      let mask := withBit mask x true
      let y := 1 - x
      if bitAt d.confirmed y && !bitAt mask y then State.trySlots bad fuel s d y mask reason false
      else ⟨s, d, firstWhy reason whyNoImage, none, false⟩

/-- The first slot to try, after what an earlier start of the same start has recorded (R461): none where no slot is
left. -/
def Directory.select (d : Directory) : Directory × Option Nat × Nat × Bool :=
  match d.trial with
  | some t =>
    if d.bootsLeft = 0 then (d.slotFails t true, some d.active, whyExpired, false)
    else ({ d with bootsLeft := d.bootsLeft - 1 }, some t, 0, true)
  | none => (d, some d.active, 0, false)

/-- Steps 2 and 3 of R460 on a flash with a directory. -/
def State.loadSlot (s : State) (d : Directory) (bad : Nat → Bool) : Loaded :=
  match d.pend with
  | some (w, mask) =>
    let d := { d with pend := none }
    if mask = 0 then
      let r := d.select
      match r.2.1 with
      | some x => State.trySlots bad 2 s r.1 x 0 (firstWhy w r.2.2.1) r.2.2.2
      | none => ⟨s, r.1, w, none, false⟩
    else
      match (List.range 2).find? (fun y => bitAt d.confirmed y && !bitAt mask y) with
      | some y => State.trySlots bad 2 s d y mask w false
      | none => ⟨s, d, w, none, false⟩
  | none =>
    let r := d.select
    match r.2.1 with
    | some x => State.trySlots bad 2 s r.1 x 0 r.2.2.1 r.2.2.2
    | none => ⟨s, r.1, whyNoImage, none, false⟩

/-! ## Couriers (R460 step 5, R462) -/

/-- The couriers that pass the start test, and, of these, the copies of the section that read back correct. -/
def State.passing (s : State) (good : BitVec 16) (imem : List Byte) : List Nat :=
  if imem.length = 0x10004 ∧ crc32c (imem.take 0x10000) = BitVec.ofNat 32 (field imem 0x10000 4) then
    (List.range s.member.couriers).filter (fun c => good.getLsbD c)
  else []

/-- A courier that carries a logical courier, or is the spare, or is RETIRED. -/
def State.placeCour (s : State) (ok : List Nat) (c : Nat) : State :=
  match ok.idxOf? c with
  | none => { s.put (COUR_STAT_ROLE c) 2 with replaced := s.replaced ++ [.courier c] }
  | some l =>
    if l + 1 < s.member.couriers then
      (((s.put (COUR_STAT_STATE c) 2).put (COUR_STAT_ROLE c) 0).put (COUR_STAT_LOGICAL c) l).put (COUR_LMAP_PHYS l) c
    else (s.put (COUR_STAT_STATE c) 2).put (COUR_STAT_ROLE c) 1

/-- Section 1 loaded, and logical couriers mapped to the couriers that pass, in ascending order (R462). A logical
courier left without one names a courier that is RETIRED. -/
def State.loadCouriers (s : State) (good : BitVec 16) (imem : List Byte) : State :=
  let ok := s.passing good imem
  let all := List.range s.member.couriers
  let s := if ok.isEmpty then s else { s with imem := writeMem [] 0 0 (imem.take 0x10000) }
  let s := all.foldl (fun s c => s.placeCour ok c) s
  let s := match all.find? (fun c => !ok.contains c) with
    | none => s
    | some c => ((List.range (s.member.couriers - 1)).drop ok.length).foldl (fun s l => s.put (COUR_LMAP_PHYS l) c) s
  s.showSpare

/-! ## The Ledger preload (R459) -/

/-- The records of section 3 written into the Ledger; none where one reaches beyond it or is cut off. -/
def State.preload : Nat → State → List Byte → Option State
  | 0, s, _ => some s
  | fuel + 1, s, bs =>
    if bs.isEmpty then some s
    else
      let o := field bs 0 4
      let n := field bs 4 4
      if bs.length < 8 + n ∨ s.member.ledgerBytes < o + n then none
      else State.preload fuel { s with ledger := writeMem s.ledger 0 o ((bs.drop 8).take n) }
        (bs.drop (8 + (n + 3) / 4 * 4))

/-! ## Settings (R464) -/

/-- What becomes of the settings: a copy applied with a reason, none applied, a failed trial. -/
inductive Settings where
  | apply (copy : Nat) (block : List Byte) (why : Nat)
  | none
  | trialFails

/-- The choice among the valid copies (R464). -/
def State.chooseSettings (s : State) (schemas : List Nat) (trial : Bool) : Settings :=
  let vs := s.validSettings
  match newest vs with
  | Option.none => .none
  | some (c, b) =>
    if settingsReadable schemas b then .apply c b 0
    else if trial then .trialFails
    else
      match vs.find? (fun v => v.1 != c && settingsReadable schemas v.2) with
      | some v => .apply v.1 v.2 whyOlder
      | Option.none => .none

/-- A readable copy applied in entry order (R463), and shown in BOOT_SET. -/
def State.applySettings (s : State) (c : Nat) (b : List Byte) : State :=
  let s := (settingsEntries b).foldl (fun s e => s.innWrite e.1 e.2) s
  ((s.put BOOT_SET_SCHEMA (field b 4 2)).put BOOT_SET_COPY c).put BOOT_SET_SEQ_SEQ (field b 8 4)

/-! ## The plan (R312) -/

/-- Whether a plan's header is of FORMAT 1 with its other bits zero, and its entries lie within the section. -/
def planOk (p : List Byte) : Bool :=
  field p 0 1 == 1 && field p 1 1 == 0 && zeros p 4 12 && decide (16 + 8 * field p 2 2 ≤ p.length)

/-- The entries of a plan: address and value. -/
def planEntries (p : List Byte) : List (Nat × Nat) :=
  (List.range (field p 2 2)).map (fun i => (field p (16 + 8 * i) 4, field p (20 + 8 * i) 4))

/-- A context's EN set by an entry, whose checks fail. -/
def State.planFails (s : State) (a v : Nat) : Bool :=
  (List.range 256).any (fun n => a == CTX_CTL n && v % 2 == 1 && s.on (CTX_STAT_PLACE_ERR n))

/-- The entries of a plan applied in order: none where an entry ends the load. -/
def State.planApply : State → List (Nat × Nat) → Option State
  | s, [] => some s
  | s, (a, v) :: t =>
    if !planBlocks.contains (a / 0x10000) then none
    else
      let s := s.innWrite a v
      if s.planFails a v then none else State.planApply s t

/-- The plan, CFG_COMMIT and the arbiters' commits (R312, R347): none on a plan error. -/
def State.loadPlan (s : State) (p : List Byte) : Option State :=
  if !planOk p then none
  else
    match s.planApply (planEntries p) with
    | none => none
    | some s => some ((List.range 10).foldl (fun s i => if s.member.present (ARB_CFG i) then s.arbApply i else s)
        (s.innWrite CFG_COMMIT 1))

/-! ## Steps 5 to 8 -/

/-- What a load of a checked image comes to: READY with a reason, maintenance with a reason, or a failure after step
4 with its reason. -/
inductive Outcome where
  | ready (s : State) (reason : Nat)
  | maint (s : State) (reason : Nat)
  | fails (reason : Nat)

/-- Steps 5 to 8 of R460 with the image of a slot (R459, R464, R312). -/
def State.bringUp (s : State) (x : Nat) (i : Image0) (reason : Nat) (trial : Bool) (good : BitVec 16) : Outcome :=
  let h := i.head
  let s := s.loadCouriers good (i.sec 1)
  let pre := i.sec 3
  match State.preload pre.length s pre with
  | none => .fails (firstWhy reason whyPlan)
  | some s =>
    let s := { s with boot := ⟨true, (schemasOf h).filter (· != 0)⟩ }
    let s := ((s.put BOOT_IMG_EPOCH (field h 8 2)).put BOOT_RANGE_LOW (field h 0xA 2)).put BOOT_RANGE_HIGH (field h 0xC 2)
    let s := (s.put BOOT_STAT_SLOT x).put BOOT_STAT_TRIAL (ofBool trial)
    let s := (s.innWrite SPN_CTL (2 ^ s.member.spans - 1 + bits (s.word SPN_CTL) 2 30 * 4))
    let plan (s : State) (reason : Nat) : Outcome :=
      match s.loadPlan (i.sec 2) with
      | none => .fails (firstWhy reason whyPlan)
      | some s => .ready s reason
    match s.chooseSettings s.boot.schemas trial with
    | .apply c b w => plan (s.applySettings c b) (firstWhy reason w)
    | .trialFails => .fails (firstWhy reason whySettings)
    | .none =>
      let r := firstWhy reason whyNoSettings
      if field h 0xE 2 = 1 then .maint s r else plan s r

/-- The contexts of maintenance (R465): context 1 VOTED, 2 to 4 SINGLE, owned by the three channels. -/
def State.maintContexts (s : State) : State :=
  let s := s.innWrite (CTX_CTL 1) 1
  (List.range 3).foldl (fun s c =>
    let n := c + 2
    let s := (s.put (CTX_VOTE_MODE n) 1).put (CTX_VOTE_OWNER n) c
    s.innWrite (CTX_CTL n) 1) s

/-- Steps 9 and 10 (R460, R465, R479): the host ports, READY, and the events of a start. -/
def State.startEnds (s : State) (maint : Bool) (reason : Nat) : State :=
  let s := s.put BOOT_STAT_REASON reason
  let s := (List.range 3).foldl (fun s p => s.innWrite (HP_CTL p) (bits (s.word (HP_CTL p)) 1 31 * 2 + 1)) s
  let s := (s.put GLB_STAT_READY 1).put BOOT_STAT_PHASE (if maint then 5 else 4)
  let s := s.raise 0 0 0
  let s := if s.on BOOT_STAT_TRIAL then s.raise 2 0 0 else s
  let s := if reason ≠ 0 then s.raise 1 0 0 else s
  if s.on SEC_GLITCH_VOLT || s.on SEC_GLITCH_CLOCK || s.on SEC_GLITCH_TEMP then s.raise 13 0 0 else s

/-- The directory of a start that has ended, with its counts (R456, R473). -/
def State.recordStart (s : State) (d : Directory) (reason : Nat) : State :=
  let d := { d with
    starts := min 0xFFFF (d.starts + 1), fallbacks := min 0xFFFF (d.fallbacks + ofBool (reason != 0)), pend := none }
  let s := s.setDir d
  (s.put BOOT_CNT_STARTS d.starts).put BOOT_CNT_FALLBACKS d.fallbacks

/-- Maintenance (R465), with the reason. -/
def State.maintenance (s : State) (reason : Nat) : State :=
  (s.maintContexts).startEnds true reason

/-- The energy calibration and the flash clock shown (R306, R456). -/
def State.startShow (s : State) : State :=
  let s := (s.setWord NRG_COEF0 (s.otp.energy.setWidth 32)).setWord NRG_COEF1 ((s.otp.energy >>> 32).setWidth 32)
  match s.dir with
  | none => s
  | some d => (s.put BOOT_FLASH_MODE d.mode).put BOOT_FLASH_MHZ d.mhz

/-- Whether a start is in progress: the reset has ended and READY is not set. -/
def State.starting (s : State) : Bool := s.power == .run && !s.on GLB_STAT_READY

/-- XSPI_RST_N goes high before the flash is read (R520). -/
def State.xspiWait (s : State) : State := if (s.dueAt .xspi).isSome then s.xspiEnd else s

/-- The start of an image that is not blank, up to its step 8: what it comes to, and the slots. -/
def State.startLoad (s : State) (d : Directory) (bad : Nat → Bool) (good : BitVec 16) : Loaded × Option Outcome :=
  let l := s.loadSlot d bad
  match l.found with
  | none => (l, none)
  | some (x, i) => (l, some (l.s.bringUp x i l.reason l.trial good))

/-- The start sequence completes (R460, R465): nothing where no start is in progress, or where it fails after its
step 4. -/
def State.startComplete (s : State) (good : BitVec 16) (failA failB : Bool) : State :=
  if !s.starting then s
  else
    let t := s.xspiWait.startShow
    match t.dir with
    | none =>
      (t.innWrite SPN_CTL (2 ^ t.member.spans - 1 + bits (t.word SPN_CTL) 2 30 * 4)).maintenance whyNoImage
    | some d =>
      match t.startLoad d (fun x => if x = 0 then failA else failB) good with
      | (l, none) =>
        ((l.s.innWrite SPN_CTL (2 ^ l.s.member.spans - 1 + bits (l.s.word SPN_CTL) 2 30 * 4)).recordStart l.d
          l.reason).maintenance l.reason
      | (l, some (.ready s r)) => (s.recordStart l.d r).startEnds false r
      | (l, some (.maint s r)) => (s.recordStart l.d r).maintenance r
      | (_, some (.fails _)) => s

/-- A failure at step 5, 7 or 8 (R461): the reason and the slot are recorded in the directory and the device
resets; nothing where the start meets no such failure. -/
def State.startFails (s : State) (good : BitVec 16) (failA failB : Bool) : State :=
  if !s.starting then s
  else
    let t := s.xspiWait.startShow
    match t.dir with
    | none => s
    | some d =>
      match t.startLoad d (fun x => if x = 0 then failA else failB) good with
      | (l, some (.fails r)) =>
        let x := (l.found.map (·.1)).getD 0
        let mask := withBit ((d.pend.map (·.2)).getD 0) x true
        let d' := { l.d.slotFails x l.trial with pend := some (r, mask) }
        (t.setDir d').deviceReset rsSoftware
      | _ => s

end Sys2Proof.Machine
end

