-- ==== Sys2Proof/Machine/Security.lean ====
section
/-! DEFINITION. Fuses and the vault (R475 to R477), JTAG (R481), freeze read-out (R485, R486) and the debug session
(R482, R483). -/

namespace Sys2Proof.Machine

/-! ## Fuses and the vault -/

/-- SEC_FUSE_DATA as 48 hash bytes (R487). -/
def State.fuseData (s : State) : List Byte :=
  ((List.range 12).map (fun i => leBytes 4 (s.word (SEC_FUSE_DATA i)).toNat)).flatten

/-- SEC_VAULT_KEY as 32 key bytes (R487). -/
def State.vaultKey (s : State) : List Byte :=
  ((List.range 8).map (fun i => leBytes 4 (s.word (SEC_VAULT_KEY i)).toNat)).flatten

/-- An OTP write or a vault load ends (R475 to R477): 0 the FIELD fuse, 1 the image key hash, 2 the debug key hash, 3
the vault. A field that has been written stays. -/
def State.fuseEnd (s : State) (n : Nat) : State :=
  if !s.fusing.contains n then s
  else
    let s := { s with fusing := s.fusing.filter (· != n) }
    let o := s.otp
    if n = 0 then { s.put SEC_LC_PENDING 1 with otp := { o with fuses := 1 } }
    else if n = 1 then
      { s.put SEC_FUSE_CMD_KEY_HASH 0 with otp := { o with keyHash := some (o.keyHash.getD s.fuseData) } }
    else if n = 2 then
      { s.put SEC_FUSE_CMD_DBG_HASH 0 with otp := { o with dbgHash := some (o.dbgHash.getD s.fuseData) } }
    else
      let k := s.vaultKey
      let t := (List.range 8).foldl (fun s i => s.setWord (SEC_VAULT_KEY i) 0) (s.put SEC_VAULT_CMD_LOAD 0)
      { t with otp := { o with vault := some k } }

/-! ## JTAG (R481) -/

/-- The JTAG instruction codes. -/
def jExtest : Nat := 0x00
@[inherit_doc jExtest] def jSample : Nat := 0x01
@[inherit_doc jExtest] def jIdcode : Nat := 0x02
@[inherit_doc jExtest] def jFreeze : Nat := 0x10
@[inherit_doc jExtest] def jFrzRead : Nat := 0x11
@[inherit_doc jExtest] def jTraceRead : Nat := 0x12
@[inherit_doc jExtest] def jFrzScan : Nat := 0x13
@[inherit_doc jExtest] def jDbgAuth : Nat := 0x18
@[inherit_doc jExtest] def jDbgAccess : Nat := 0x19
@[inherit_doc jExtest] def jDbgRelock : Nat := 0x1A
@[inherit_doc jExtest] def jLcReturn : Nat := 0x1C
@[inherit_doc jExtest] def jBypass : Nat := 0x3F

/-- Whether debug is open (R478, R482). -/
def State.debugOpen (s : State) : Bool := s.on SEC_DBG_UNLOCKED || s.lifecycle != 1

/-- Whether the current state allows a JTAG instruction. -/
def State.jtagAllows (s : State) (code : Nat) : Bool :=
  if code = jExtest ∨ code = jFrzRead ∨ code = jTraceRead ∨ code = jFrzScan then s.power == .frozen
  else if code = jSample ∨ code = jIdcode then true
  else if code = jFreeze ∨ code = jDbgAuth ∨ code = jDbgRelock then s.power == .run
  else if code = jDbgAccess then s.power == .run && s.debugOpen
  else if code = jLcReturn then s.power == .run && s.lifecycle == 1 && s.on SEC_DBG_UNLOCKED
  else false

/-- A JTAG instruction updated: one that is not allowed acts as BYPASS. -/
def State.setIr (s : State) (code : Nat) : State :=
  { s with tap := { s.tap with ir := if s.jtagAllows code then code else jBypass } }

/-- What an instruction does where the state allows it; BYPASS otherwise. -/
def State.jtag (s : State) (code : Nat) (f : State → State) : State :=
  if s.jtagAllows code then f (s.setIr code) else s.setIr code

/-- A boundary register as a number, first cell lowest. -/
def cellsValue : List Bool → Nat
  | [] => 0
  | b :: t => ofBool b + 2 * cellsValue t

/-- EXTEST (R481): the cells shifted in drive the boundary, but for the COE_N and OPD cells, which are none of
these. -/
def State.extest (s : State) (cells : List Bool) : State :=
  s.jtag jExtest (fun s => { s with tap := { s.tap with boundary := cells } }.emit (.jtag jExtest (cellsValue cells)))

/-- SAMPLE/PRELOAD (R481): the levels sampled are those of the pins, which the model does not hold; the cells
shifted in are preloaded. -/
def State.samplePreload (s : State) (cells : List Bool) : State :=
  s.jtag jSample (fun s =>
    { s.free.2 with tap := { s.tap with boundary := cells } }.emit (.jtag jSample s.free.1.toNat))

/-- The identification code of the member (R481). -/
def Member.idcode : Member → Nat
  | .ux4816 => 0x14816B47 | .ux4808 => 0x14808B47 | .ux4804 => 0x14804B47

/-- IDCODE (R481). -/
def State.idcode (s : State) : State := s.jtag jIdcode (fun s => s.emit (.jtag jIdcode s.member.idcode))

/-- JTAG FREEZE (R484). -/
def State.jtagFreeze (s : State) : State := s.jtag jFreeze (fun s => s.freeze)

/-- BYPASS (R481). -/
def State.bypass (s : State) : State := s.setIr jBypass

/-- TRST_N low (R497): the TAP is reset, and nothing else. -/
def State.trst (s : State) : State := { s with tap := { s.tap with ir := jIdcode, boundary := [] } }

/-! ## Freeze read-out (R485, R486) -/

/-- A frozen word at a host address: none where nothing is readable; else its value, none where it is
uncorrectable. -/
def State.frozenWord (s : State) (a : Nat) : Option (Option Word) :=
  let word (bs : List Byte) : Word := BitVec.ofNat 32 (leNat bs)
  if a < 0x1000000 then s.frozenReg a
  else if a < 0x1000000 + s.member.ledgerBytes then
    let o := a - 0x1000000
    let bad := (List.range 4).any (fun i => mget s.ledgerBad (s.ledgerAt (o + i) / 8) .ok == .ue)
    if bad then some none else some (some (word ((List.range 4).map (fun i => s.ledgerByte (o + i)))))
  else if 0x2000000 ≤ a ∧ a < 0x2000000 + 0x20000 * s.member.couriers then
    let r := s.courRead (a - 0x2000000) 4
    if r.2 then some none else some (some (word r.1))
  else if 0x3000000 ≤ a ∧ a < 0x3100000 then some (some (word (readMem s.qram 0 (a - 0x3000000) 4)))
  else if 0x3800000 ≤ a ∧ a < 0x3801000 then some (some (BitVec.ofNat 32 (s.compatRead (a - 0x3800000))))
  else none

/-- FRZ_READ (R485). The data of an uncorrectable word is undefined. -/
def State.frzRead (s : State) (a : Nat) : State :=
  s.jtag jFrzRead (fun t =>
    match s.frozenWord (a % 2 ^ 26 / 4 * 4) with
    | none => t.emit (.jtag jFrzRead 2)
    | some (some w) => t.emit (.jtag jFrzRead (w.toNat * 2 ^ 32))
    | some none => t.free.2.emit (.jtag jFrzRead (t.free.1.toNat * 2 ^ 32 + 1)))

/-- TRACE_READ (R486): a word of a Sillage entry. -/
def State.traceRead (s : State) (i w : Nat) : State :=
  s.jtag jTraceRead (fun s =>
    s.emit (.jtag jTraceRead (((mget s.trace (i % 8192) []).getD (w % 8) 0).toNat * 2 ^ 32)))

/-- FRZ_SCAN (R481): the layout of the scan chains is the stepping's, so what is shifted out is free. -/
def State.frzScan (s : State) : State :=
  s.jtag jFrzScan (fun s => s.free.2.emit (.jtag jFrzScan s.free.1.toNat))

/-! ## The debug session (R482, R483) -/

/-- A new challenge of 32 bytes. -/
def State.drawChallenge (s : State) : State :=
  let r := (List.range 8).foldl (fun (r : State × List Byte) _ =>
    (r.1.free.2, r.2 ++ leBytes 4 r.1.free.1.toNat)) (s, [])
  { r.1 with tap := { r.1.tap with challenge := r.2 } }

/-- The bytes that the signature of a response covers (R482). -/
def State.signedData (s : State) : List Byte :=
  s.tap.challenge ++ leBytes 4 (s.otp.die.toNat / 2 ^ 32) ++ leBytes 4 s.otp.die.toNat ++ [1]

/-- Whether a key and a signature answer the challenge (R482). -/
def State.authOk (s : State) (key sig : List Byte) : Bool :=
  match s.otp.dbgHash with
  | none => false
  | some h => Config.sha384 key == h && Config.ecdsaP384 key (Config.sha384 s.signedData) sig

/-- DBG_AUTH (R482): the challenge captured, then the response checked. An attempt within 100 ms of a failure is not
accepted. -/
def State.dbgAuth (s : State) (key sig : List Byte) : State :=
  s.jtag jDbgAuth (fun s =>
    let s := if s.tap.challenge.isEmpty then s.drawChallenge else s
    let s := s.emit (.jtag jDbgAuth (leNat s.tap.challenge))
    if s.clk < s.tap.blocked then s
    else if s.authOk key sig then
      { s.put SEC_DBG_UNLOCKED 1 with tap := { s.tap with challenge := [] } }.raise 14 0 0
    else
      let t := (s.bump SEC_DBG_AUTH_FAIL).drawChallenge
      { t with tap := { t.tap with blocked := s.clk + 100000000 } })

/-- The request that a debug access is (R483). -/
def debugPkt (n a : Nat) (w : Bool) (v : Word) : Pkt :=
  ⟨mkHdr (if w then tNPW else tMRD) 1 false n 0 0 3 0 a 9 0, if w then leBytes 4 v.toNat else []⟩

/-- DBG_ACCESS (R483): a request of the context named, at an address of the low 64 MiB. -/
def State.dbgAccess (s : State) (n : BitVec 8) (a : BitVec 26) (w : Bool) (v : Word) : State :=
  s.jtag jDbgAccess (fun s =>
    let k := debugPkt n.toNat a.toNat w v
    let no (s : State) (st : Nat) : State := s.emit (.done n.toNat a.toNat st)
    let st := s.ctxState n.toNat
    if st = 0 ∨ st = 1 then no (s.modeError 9 k stUR) stUR
    else
      match s.turnedAway n.toNat with
      | (s, some x) => no s x
      | (s, none) => (s.addExec (.direct n.toNat) .debug k none 9 []).drain)

/-- DBG_RELOCK (R482). -/
def State.dbgRelock (s : State) : State := s.jtag jDbgRelock (fun s => s.put SEC_DBG_UNLOCKED 0)

/-- LC_RETURN (R477): the vault erased, the RETURN fuse blown, the device reset. Which cause that reset records the
spec does not say. -/
def State.lcReturn (s : State) : State :=
  s.jtag jLcReturn (fun s =>
    let t : State := { s.free.2 with otp := { s.otp with vault := none, fuses := 3 } }
    t.deviceReset (s.free.1.toNat % 7))

end Sys2Proof.Machine
end

