-- ==== Sys2Proof/Machine/Act.lean ====
section
/-! DEFINITION. What the meanings of the commands share: a command acts while the device runs (R484, R498); a write
of a register by a requester, and of one field of it with the rest as it stands; the arbitration of the link sites
(R338, R339) and the sending of what they grant. -/

namespace Sys2Proof.Machine

/-! ## When a command acts -/

/-- A command that acts while the device runs; held in reset or frozen, nothing happens (R484, R498). -/
def State.act (s : State) (f : State → State) : Result := .next (if s.power = .run then f s else s)

/-- A command of the AON domain, which a freeze does not stop: `f` while the device runs, `g` while it is frozen (R484,
R502). -/
def State.actAon (s : State) (f g : State → State) : Result :=
  .next (if s.power = .run then f s else if s.power = .frozen then g s else s)

/-- A command that acts while the device runs, after which the accepted requests go on. -/
def State.actDrain (s : State) (f : State → State) : Result := s.act (fun s => (f s).drain)

/-- A command that acts while the device runs, on a port of the member. -/
def State.actPort (s : State) (p : Nat) (f : State → State) : Result :=
  s.act (fun s => if s.hasPort p then f s else s)

/-- A command that acts while the device runs, on a segment of the member; the accepted requests go on after it. -/
def State.actSeg (s : State) (g : Nat) (f : State → State) : Result :=
  s.actDrain (fun s => if s.hasSeg g then f s else s)

/-- A command that acts while the device runs, on a courier of the member. -/
def State.actCour (s : State) (c : Nat) (f : State → State) : Result :=
  s.act (fun s => if c < s.member.couriers then f s else s)

/-- A command that acts while the device runs, on a chain of the member. -/
def State.actChain (s : State) (k : Nat) (f : State → State) : Result :=
  s.act (fun s => if k < s.member.chains then f s else s)

/-- A command that acts while the device runs, on a span port of the member; the accepted requests go on after it. -/
def State.actSpan (s : State) (q : Nat) (f : State → State) : Result :=
  s.actDrain (fun s => if q < s.member.spans then f s else s)

/-! ## Register accesses that a command names -/

/-- A write of a word to the register at host address `a` reaches it, and its completion is shown: UR where the unit is
absent (R3, R450), where no register can be (R447), and beyond the blocks (R136). -/
def State.doWrite (s : State) (b : By) (a : Nat) (v : Word) : State :=
  match selOf a with
  | .reg r =>
    if s.member.present r then
      let t := s.writeReg b false r a v
      t.1.emit (.done b.ctx.toNat a t.2)
    else (s.otherNoted 5 true 4 b.ctx.toNat a).emit (.done b.ctx.toNat a stUR)
  | .unmapped => (s.otherNoted 6 true 4 b.ctx.toNat a).emit (.done b.ctx.toNat a stUR)
  | _ => s.emit (.done b.ctx.toNat a stUR)

/-- Whether a field is plainly writable. -/
def FRow.isRw (f : FRow) : Bool := f.acc == .rw

/-- The word of a register with the fields that are not plainly writable as zero. -/
def State.plainWord (s : State) (a : Nat) : Word :=
  match regRow a with
  | none => 0
  | some r => dropFields (fun f => !f.isRw) r.fields (s.word a)

/-- A write that gives one field of a register a value and leaves its plainly writable fields as they stand. -/
def State.doPut (s : State) (b : By) (f : FRef) (x : Nat) : State :=
  s.doWrite b f.reg (setBits (s.plainWord f.reg) f.lo f.w x)

/-- A 32-bit read of the register at real address `a` by a context, its value shown. -/
def State.doRead (s : State) (n a : Nat) : State :=
  match selOf a with
  | .reg r =>
    if s.member.present r then
      let t := s.readReg n r
      t.1.emit (.read n a (leBytes 4 t.2.toNat))
    else (s.otherNoted 5 false 4 n a).emit (.done n a stUR)
  | .unmapped => (s.otherNoted 6 false 4 n a).emit (.done n a stUR)
  | _ => s.emit (.done n a stUR)

/-- Whether the register at an address has a field cleared by reading. -/
def hasRc (a : Nat) : Bool := (regRow a).any (fun r => r.fields.any FRow.isRc)

/-! ## The host sites: messages (R54, R55, R338) -/

/-- The packet of a message (R31, R54). -/
def msgPkt (m : Msg) : Pkt :=
  ⟨mkHdr tMSG 0 m.voted m.ctx m.seq 0 7 0 0 m.origin m.event,
    leBytes 4 (m.queue + m.kind * 2 ^ 8 + m.items * 2 ^ 16) ++ leBytes 4 m.time⟩

/-- Whether a message that waits is one that an RPL behind it replays (R58). -/
def replayed (ms : List PMsg) (m : Msg) : Bool :=
  ms.any (fun x => match x with
    | .rpl _ h d => h.ctx == m.ctx &&
        decide ((m.seq + 65536 - leNat (d.take 2)) % 65536 < leNat ((d.drop 2).take 2))
    | .msg _ => false)

/-- The message at the head of a host port's pending list sent, if credits allow (R55); an RPL completion behind it
follows. -/
def State.hostSend (s : State) (p : Nat) : State :=
  let x := s.port p
  match x.msgs with
  | .msg m :: t =>
    let k := msgPkt m
    if x.tx.covers (pktCost k) && s.linkUp p then
      let src := if replayed t m then 2 else 1
      let r := s.arbitrate (7 + p) [src] [⟨src, src, s.noteOf m.ctx, 0, m.ctx⟩]
      match r.2 with
      | none => r.1
      | some _ =>
        let s := r.1.setPort p { x with msgs := t, tx := x.tx.sub (pktCost k) }
        ((s.sendPkt p k).traceRec 3 p k.h.words (digestOf k.data)).flushRpl (t.length + 1) p
    else s
  | _ => s

/-! ## The Span sites (R49, R338, R352, R353) -/

/-- Whether the item at place `i` of a span port's queue may go before those ahead of it (R49): mirrored packets stay in
order; a non-posted request passes no posted one, and two of one kind, which have one target on the Span, pass each other
unless they have one context. -/
def mayGo (items : List SpanItem) (i : Nat) : Bool :=
  match items[i]? with
  | none => false
  | some x => (items.take i).all (fun y =>
      y.src != x.src || (x.src == 0 &&
        (if x.pkt.h.vc = 0 then y.pkt.h.vc != 0 || y.ctx != x.ctx else y.pkt.h.vc != 0 && y.ctx != x.ctx)))

/-- The credits that other P packets leave for link control (R352). -/
def State.spanCovers (s : State) (q : Nat) (k : Pkt) : Bool :=
  let c := pktCost k
  (s.port (3 + q)).tx.covers (if k.h.vc = 0 then ⟨c.ph + 4, c.pd + 4, c.nh, c.nd⟩ else c)

/-- The lowest free tag of span port `q` for a forwarded request (R38). -/
def State.spanTag (s : State) (q : Nat) : Option Nat :=
  (List.range 64).find? (fun t => s.execs.all (fun e => e.stage != .forwarded q t))

/-- The candidates of a span port's arbiter. -/
def State.spanOffers (s : State) (q : Nat) : List Cand :=
  let items := mget s.span.queue q []
  (List.range items.length).filterMap (fun i =>
    match items[i]? with
    | none => none
    | some x =>
      if x.src < 2 && mayGo items i && s.spanCovers q x.pkt && (x.pkt.h.vc == 0 || (s.spanTag q).isSome) then
        some ⟨x.src, x.src, if x.src = 0 then s.noteOf x.ctx else s.srcClass (5 + q) x.src, i,
          if x.src = 0 then x.ctx else 0⟩
      else none)

/-- The item at place `i` of a span port's queue sent: a forwarded non-posted request takes a tag (R24), a posted one
waits until the link layer has acknowledged it (R50; DEDUCED, log 129). -/
def State.spanItem (s : State) (q i : Nat) : State :=
  let items := mget s.span.queue q []
  match items[i]? with
  | none => s
  | some x =>
    let s : State := { s with span := { s.span with queue := mput s.span.queue q (items.eraseIdx i) [] } }
    let o := x.order.bind s.execOf
    let tag := (s.spanTag q).getD 0
    let k : Pkt := if x.pkt.h.vc = 0 then x.pkt
      else ⟨{ x.pkt.h with w1 := setBits x.pkt.h.w1 22 10 tag }, x.pkt.data⟩
    let y := s.port (3 + q)
    let s := (s.setPort (3 + q) { y with tx := y.tx.sub (pktCost k) }).sendMarked (3 + q) k x.mark
    let s := if x.bad = 0 then s else s.emit (.badWords (3 + q) x.bad)
    match o with
    | none => s
    | some e => s.setExec { e with stage := if k.h.vc = 0 then .sent q else .forwarded q tag }

/-- An arbitration of a span port (R339). -/
def State.spanArb (s : State) (q : Nat) : State :=
  if s.portState (3 + q) < 2 then s
  else
    let items := mget s.span.queue q []
    let ready := (List.range 2).filter (fun k => items.any (fun i => i.src == k))
    let r := s.arbitrate (5 + q) ready (s.spanOffers q)
    match r.2 with
    | none => r.1
    | some (c, _) => r.1.spanItem q c.order

/-! ## The segment sites (R296, R339) -/

/-- An arbitration of a segment (R339): cycles and a legacy grant whose budget is spent are deferred, and what is granted goes on the
bus. A keeper pulse that is due goes before every cycle (R27). -/
def State.segArb (s : State) (g : Nat) : State :=
  if !s.segIssues g || (s.seg g).cycle != .idle || s.on (SEG_STAT_CRST_ACTIVE g) then s
  else
    let s := (s.nextJobs g).foldl (fun s j => if s.busSpent j.ctx g then s.deferJob g j else s) s
    let s := (s.lmCheck g).busFree g
    let ready := (s.seg g).ctxs ++ (if s.on (SEG_STAT_CBR g) then [s.get (SEG_CTL_LM_CTX g)] else [])
    let r := s.arbitrate (1 + g) ready (s.segOffers g)
    match r.2 with
    | none => r.1
    | some (c, ceil) =>
      if c.src = 2 then r.1.grantLm g
      else
        match r.1.job g c.order with
        | none => r.1
        | some j =>
          let j := { j with deferred := false }
          (r.1.setJob g j).openCycle g j ceil

/-! ## The Ledger site (R205, R338) -/

/-- The class of a Ledger source: that of the context of its request, or its own. -/
def State.ledgerCand (s : State) (r : Nat × Nat) : Cand :=
  ⟨r.1, r.1, if r.1 ≤ 16 then s.noteOf r.2 else s.srcClass 0 r.1, 0, if r.1 ≤ 16 then r.2 else 0⟩

/-- An arbitration of the Ledger among the sources that meet in one cycle, with the contexts of their requests
(R339): the accesses themselves are the commands'. -/
def State.ledgerArb (s : State) (reqs : List (Nat × Nat)) : State :=
  (s.arbitrate 0 (reqs.map (·.1)) (reqs.map s.ledgerCand)).1

/-- An arbitration of an instance (R337): 0 the Ledger, 1 to 4 the segments, 5 and 6 the span ports, 7 to 9 the host
ports. -/
def State.arbitration (s : State) (a : Nat) (reqs : List (Nat × Nat)) : State :=
  if !s.member.present (ARB_CFG a) then s
  else if a = 0 then s.ledgerArb reqs
  else if a ≤ 4 then s.segArb (a - 1)
  else if a ≤ 6 then s.spanArb (a - 5)
  else s.hostSend (a - 7)

end Sys2Proof.Machine
end

