-- ==== Sys2Proof/Machine/BootRows.lean ====
section
/-! DEFINITION. Commands of boot and update: boot commands, the trial's confirmation, the ends of the start sequence. -/

namespace Sys2Proof.Machine

/-- A write of BOOT_CMD (R468 to R471). -/
def State.bootWrite (s : State) (b : By) (op slot : Nat) (force : Bool) : State :=
  s.doWrite b BOOT_CMD (BitVec.ofNat 32 (op + 16 * slot + 32 * ofBool force))

/-! ## The meanings -/

/-- ERASE (R468). -/
def execErase (b : By) (slot : Fin 2) (s : State) : Result := s.actDrain (fun s => s.bootWrite b 1 slot.val false)

/-- PROGRAM (R468). -/
def execProgram (b : By) (slot : Fin 2) (s : State) : Result := s.actDrain (fun s => s.bootWrite b 2 slot.val false)

/-- VERIFY (R468). -/
def execVerify (b : By) (slot : Fin 2) (s : State) : Result := s.actDrain (fun s => s.bootWrite b 3 slot.val false)

/-- ARM_TRIAL (R466). -/
def execArmTrial (b : By) (slot : Fin 2) (s : State) : Result := s.actDrain (fun s => s.bootWrite b 4 slot.val false)

/-- WRITE_SETTINGS (R469). -/
def execWriteSettings (b : By) (s : State) : Result := s.actDrain (fun s => s.bootWrite b 5 0 false)

/-- RESTART (R470). -/
def execRestart (b : By) (force : Bool) (s : State) : Result := s.actDrain (fun s => s.bootWrite b 6 0 force)

/-- REJECT (R468). -/
def execReject (b : By) (force : Bool) (s : State) : Result := s.actDrain (fun s => s.bootWrite b 7 0 force)

/-- BOOT_CMD_END (R468). -/
def execBootCmdEnd (flashBad : Bool) (s : State) : Result := s.act (fun s => s.bootEnd flashBad)

/-- CONFIRM (R467). -/
def execConfirm (b : By) (s : State) : Result := s.actDrain (fun s => s.doPut b BOOT_CONFIRM_CONFIRM 1)

/-- START_COMPLETE (R460). -/
def execStartComplete (good : BitVec 16) (failA failB : Bool) (s : State) : Result :=
  s.act (fun s => s.startComplete good failA failB)

/-- START_FAIL_RESET (R461). -/
def execStartFailReset (good : BitVec 16) (failA failB : Bool) (s : State) : Result :=
  s.act (fun s => s.startFails good failA failB)

end Sys2Proof.Machine
end

