-- ==== Sys2Proof/Machine/ClockRows.lean ====
section
/-! DEFINITION. Commands of reset, power, supplies, the PLL and the time base. -/

namespace Sys2Proof.Machine

/-! ## The meanings -/

/-- FREEZE_N_FALL (R484). -/
def execFreezeNFall (s : State) : Result := .next s.freezeFall

/-- GLITCH (R479). -/
def execGlitch (k : Fin 3) (s : State) : Result := .next (s.glitch k.val)

/-- POWER_ON (R496). -/
def execPowerOn (s : State) : Result := .next s.powerOn

/-- RESET_PIN (R496). -/
def execResetPin (s : State) : Result := .next s.resetPin

/-- RESET_END (R498). -/
def execResetEnd (side freezeN : Bool) (s : State) : Result := .next (s.resetEnd side freezeN)

/-- XSPI_RESET_END (R520). -/
def execXspiResetEnd (s : State) : Result := s.act (fun s => s.xspiEnd)

/-- SUPPLY_OUT_OF_RANGE (R501). -/
def execSupplyOutOfRange (sup : Fin 10) (s : State) : Result := .next (s.supplyOut sup.val)

/-- SUPPLY_IN_RANGE (R501). -/
def execSupplyInRange (sup : Fin 10) (s : State) : Result := .next (s.supplyIn sup.val)

/-- PLL_WARN (R491). -/
def execPllWarn (s : State) : Result := s.act (fun s => s.pllWarn)

/-- TSYNC_EDGE (R493). -/
def execTsyncEdge (s : State) : Result := s.act (fun s => s.tsyncEdge)

/-- TSYNC_MISS (R494). -/
def execTsyncMiss (s : State) : Result := s.act (fun s => s.tsyncMiss)

/-- TIME_BASE_HOLD_END (R493). -/
def execTimeBaseHoldEnd (s : State) : Result := s.act (fun s => s.tbHoldEnd)

/-- SET (R494). -/
def execSet (b : By) (s : State) : Result := s.actDrain (fun s => s.doPut b CRP_TB_CMD_SET 1)

/-- SET_NOW (R494). -/
def execSetNow (b : By) (s : State) : Result := s.actDrain (fun s => s.doPut b CRP_TB_CMD_SET_NOW 1)

end Sys2Proof.Machine
end

