-- ==== Sys2Proof/Machine/ConfigRows.lean ====
section
/-! DEFINITION. Commands of register space: plain accesses, slow domains, the guard, the configuration check. -/

namespace Sys2Proof.Machine

/-- A write of a word at a host address refused for its size or its alignment (R430). -/
def State.sizeRefused (s : State) (b : By) (a cause : Nat) : State :=
  (s.sizeNoted cause true 4 b.ctx.toNat a).emit (.done b.ctx.toNat a stUR)

/-- A write of a word at a host address (R430): at a word's own address, not to the last-gasp record. -/
def State.regWriteAt (s : State) (b : By) (a : Nat) (v : Word) : State :=
  match selOf a with
  | .gasp _ => s.sizeRefused b a 1
  | _ => if a % 4 = 0 then s.doWrite b a v else s.sizeRefused b a 2

/-- A 32-bit read of a register that has a field cleared by reading (R9). -/
def State.rcRead (s : State) (n a : Nat) : State :=
  match selOf a with
  | .reg r => if hasRc r && a % 4 == 0 then s.doRead n a else s
  | _ => s

/-- A 32-bit read of a word of a counter pair (R433). -/
def State.pairRead (s : State) (n a : Nat) : State :=
  match selOf a with
  | .reg r => if ((pairHigh r).isSome || isPairHigh r) && a % 4 == 0 then s.doRead n a else s
  | _ => s

/-! ## The meanings -/

/-- REGISTER_WRITE (R434). -/
def execRegisterWrite (b : By) (a : BitVec 26) (v : Word) (s : State) : Result :=
  s.actDrain (fun s => s.regWriteAt b a.toNat v)

/-- RC_READ (R9). -/
def execRcRead (n : BitVec 8) (a : BitVec 26) (s : State) : Result := s.actDrain (fun s => s.rcRead n.toNat a.toNat)

/-- COUNTER_PAIR_READ (R433). -/
def execCounterPairRead (n : BitVec 8) (a : BitVec 26) (s : State) : Result :=
  s.actDrain (fun s => s.pairRead n.toNat a.toNat)

/-- SLOW_ACCESS_END (R435). -/
def execSlowAccessEnd (d : Fin 3) (s : State) : Result := s.actDrain (fun s => s.slowEnd d.val)

/-- CFG_UNLOCK (R437). -/
def execCfgUnlock (b : By) (key : Word) (s : State) : Result :=
  s.actDrain (fun s => s.doPut b CFG_UNLOCK_KEY key.toNat)

/-- GUARD_RELOCK (R437). -/
def execGuardRelock (s : State) : Result := s.act (fun s => s.guardRelock)

/-- CFG_COMMIT (R443). -/
def execCfgCommit (b : By) (s : State) : Result := s.actDrain (fun s => s.doPut b CFG_COMMIT_COMMIT 1)

/-- CHECK_PASS_START (R441). -/
def execCheckPassStart (s : State) : Result := s.act (fun s => s.passStart)

/-- CHECK_PASS_END (R444). -/
def execCheckPassEnd (s : State) : Result := s.act (fun s => s.checkEnd)

/-- COMMIT_PASS_END (R443). -/
def execCommitPassEnd (s : State) : Result := s.act (fun s => s.commitEnd)

/-- DIRTY_TIMEOUT (R444). -/
def execDirtyTimeout (s : State) : Result := s.act (fun s => s.dirtyTimeout)

end Sys2Proof.Machine
end

