-- ==== Sys2Proof/Machine/CtxRows.lean ====
section
/-! DEFINITION. Commands of the contexts and the couriers: states, kicks, scheduling, retirement and tests. -/

namespace Sys2Proof.Machine

/-- The timeout or the time of a context's WAIT comes on the time base (R281, R282). -/
def State.waitOut (s : State) (n : Nat) : State :=
  match (s.arch n).due with
  | none => s
  | some t => (State.untilTb 64 s t).endWait n ((s.arch n).waitFor != .time)

/-! ## The meanings -/

/-- CTX_CTL_EN (R250). -/
def execCtxCtlEn (b : By) (n : BitVec 8) (v : Word) (s : State) : Result :=
  s.actDrain (fun s => s.doWrite b (CTX_CTL n.toNat) v)

/-- CTX_DRAIN_END (R250). -/
def execCtxDrainEnd (n : BitVec 8) (s : State) : Result := s.actDrain (fun s => s.ctxDrained n.toNat)

/-- KICK (R239). -/
def execKick (b : By) (n : BitVec 8) (s : State) : Result := s.actDrain (fun s => s.doPut b (CTX_CMD_KICK n.toNat) 1)

/-- CTX_RESUME (R245). -/
def execCtxResume (b : By) (n : BitVec 8) (s : State) : Result :=
  s.actDrain (fun s => s.doPut b (CTX_CMD_RESUME n.toNat) 1)

/-- WORK_ITEM_DISPATCH (R241). -/
def execWorkItemDispatch (k : Fin 16) (s : State) : Result := s.act (fun s => s.dispatch k.val)

/-- THREAD_BIND (R240). -/
def execThreadBind (c : Fin 16) (s : State) : Result := s.actCour c.val (fun s => s.bindNext c.val)

/-- OVERDRAFT (R295). -/
def execOverdraft (n : BitVec 8) (s : State) : Result := s.act (fun s => s.overdraft n.toNat)

/-- WAIT_TIMEOUT (R282). -/
def execWaitTimeout (n : BitVec 8) (s : State) : Result := s.act (fun s => s.waitOut n.toNat)

/-- COUR_CTL_EN (R445). -/
def execCourCtlEn (b : By) (c : Fin 16) (v : Word) (s : State) : Result :=
  s.actDrain (fun s => s.doWrite b (COUR_CTL c.val) v)

/-- LOCKSTEP_MISMATCH, and what else stops a courier (R233, R412). -/
def execLockstepMismatch (x : CourStop) (s : State) : Result := s.actCour x.c.val (fun s => s.courFault x.c.val x.f)

/-- MIGRATION_END (R247). -/
def execMigrationEnd (c : Fin 16) (s : State) : Result := s.actCour c.val (fun s => s.migrated c.val)

/-- COURIER_TEST_END (R412). -/
def execCourierTestEnd (c : Fin 16) (pass : Bool) (s : State) : Result :=
  s.actCour c.val (fun s => s.courTested c.val pass)

end Sys2Proof.Machine
end

