-- ==== Sys2Proof/Machine/FaultRows.lean ====
section
/-! DEFINITION. Commands of the faults and events: targeted tests, lanes, event rates, pending bits. -/

namespace Sys2Proof.Machine

/-- RATE has passed since a source's last record (R419): the raises merged since give one record. -/
def State.rateEnds (s : State) (e : Nat) : State :=
  match s.expire (.rate e) with
  | none => s
  | some s =>
    match s.merges.find? (fun m => m.event == e) with
    | none => s
    | some m =>
      let s : State := { s with merges := s.merges.filter (fun (x : Merge) => x.event != e) }
      if m.merged = 0 || !s.on (EVT_CFG_EN e) then s
      else
        let s : State := if s.on (EVT_CFG_RATE e) then
            { (s.arm (.rate e) (s.get (EVT_CFG_RATE e) * 1000)) with merges := s.merges ++ [⟨e, 0, m.lastRec⟩] }
          else s
        let t := s.writeEvent { m.lastRec with rep := m.merged }
        t.2.foldl (fun s d => s.raise d.1 0 d.2) t.1

/-! ## The meanings -/

/-- FAULT_TEST_START (R410). -/
def execFaultTestStart (item : Fin 32) (bad : BitVec 4) (s : State) : Result :=
  s.act (fun s => s.testStart item.val bad.toNat)

/-- ROW_COPY_END (R407). -/
def execRowCopyEnd (q : Bool) (u : Fin 32) (s : State) : Result := s.act (fun s => s.rowCopied q u.val)

/-- ROW_MARCH_END (R407). -/
def execRowMarchEnd (q : Bool) (u : Fin 32) (pass : Bool) (s : State) : Result :=
  s.act (fun s => s.rowMarched q u.val pass)

/-- ROW_RESTORE_END (R407). -/
def execRowRestoreEnd (q : Bool) (u : Fin 32) (s : State) : Result := s.act (fun s => s.rowRestored q u.val)

/-- SLOT_TEST_END (R414). -/
def execSlotTestEnd (recFails : Bool) (slotsFail : Nat) (s : State) : Result :=
  s.act (fun s => s.slotTested recFails slotsFail)

/-- INNKEEPER_FAULT (R415). -/
def execInnkeeperFault (s : State) : Result := s.act (fun s => s.innkeeperFault)

/-- FLT_LANE_RETURN (R413). -/
def execFltLaneReturn (b : By) (mask : BitVec 10) (s : State) : Result :=
  s.actDrain (fun s => s.doPut b FLT_LANE_RETIRED mask.toNat)

/-- EVENT_RATE_END (R419). -/
def execEventRateEnd (e : BitVec 8) (s : State) : Result := s.act (fun s => s.rateEnds e.toNat)

/-- EVT_PEND_CLEAR (R421). -/
def execEvtPendClear (b : By) (j : Fin 16) (mask : Word) (s : State) : Result :=
  s.actDrain (fun s => s.doWrite b (EVT_PEND j.val) mask)

end Sys2Proof.Machine
end

