-- ==== Sys2Proof/Machine/HostRows.lean ====
section
/-! DEFINITION. Commands of the ports and the Accord: packets that arrive, vote windows, messages, port states,
channel states. -/

namespace Sys2Proof.Machine

/-- The state after a copy that waits at port `p` for a record or slots, from place `i` on, has obtained them (R103). -/
def State.stallTake (s : State) (p : Nat) : Nat → Nat → Option State
  | 0, _ => none
  | fuel + 1, i =>
    let x := s.port p
    match x.stalled[i]? with
    | none => none
    | some y =>
      match (s.setPort p { x with stalled := x.stalled.eraseIdx i }).tryCopy p y.pkt y.arrived (x.stalled.take i) with
      | .left t => some t
      | .waits _ => State.stallTake s p fuel (i + 1)

/-- The first copy that can leaves port `p`'s receive buffer with its record and slots, and with it those that waited
behind it or for its record (R46, R49, R103). -/
def State.stallEnd (s : State) (p : Nat) : State :=
  match s.stallTake p (s.port p).stalled.length 0 with
  | none => s
  | some t => t.releaseHeld t.stalledCount

/-- A record whose check finds an uncorrectable word (R414): one that has not decided ends without execution. -/
def State.recBad (s : State) (r : Record) : State :=
  let r := { r with ue := true }
  if r.decision = .undecided && !r.rpl then (s.setRec r).noExec r else s.setRec r

/-- The vote window of a record closes (R104, R114, R414). -/
def State.windowCloses (s : State) (rpl : Bool) (n seq : Nat) (bad : Bool) : State :=
  match s.expire (.vote rpl n seq) with
  | none => s
  | some s =>
    match s.openFor rpl n seq with
    | none => s
    | some r =>
      let s := if bad then s.recBad r else s
      match s.openFor rpl n seq with
      | none => s
      | some r => s.closeRec r

/-- The first notice of context `n` that waits for inbound data, once that data has been written (R17). -/
def State.noticeDue (s : State) (n : Nat) : State :=
  match s.heldNotices.find? (fun x => x.ctx == n) with
  | none => s
  | some x =>
    if s.marksDone x.marks then
      let rest := (s.heldNotices.filter (fun (y : HeldNotice) => y.ctx == n)).drop 1
      let t : State := { s with heldNotices := s.heldNotices.filter (fun (y : HeldNotice) => y.ctx != n) ++ rest }
      t.releaseNotice n x.queue x.origin
    else s

/-- The time for a rejoin has passed (R130). -/
def State.rejoinOut (s : State) (c : Nat) : State :=
  match s.expire (.rejoin c) with
  | none => s
  | some s => s.rejoinFail c

/-- A copy of a rejoining channel has waited its window alone (R128): captured (R135), DV, and the rejoin fails. -/
def State.rejoinAlone (s : State) (n seq c : Nat) : State :=
  match s.expire (.rejoinCopy n seq c) with
  | none => s
  | some s =>
    let k := (s.findRec false n seq).bind (fun r => (r.copies.find? (fun x => x.ch == c)).map (·.pkt))
    (s.dlog 4 c n seq k k).rejoinFail c n seq

/-- Time moves on until a second has passed since a channel's last discord (R528), measured on the time base. -/
def State.discordSecond (s : State) (c : Nat) : State :=
  let last := (s.discords.filter (fun (d : Nat × Nat) => d.1 == c)).foldl (fun m d => max m d.2) 0
  State.untilTb 64 s (last + 1000000000)

/-- A second has passed since a SUSPECT channel's last discord (R528). -/
def State.suspectOut (s : State) (c : Nat) : State :=
  if s.chState c ≠ 1 then s else (s.discordSecond c).suspectLapse c

/-! ## The meanings -/

/-- MWR (R51). -/
def execMwr (p : Fin 5) (h : Hdr) (d : List Byte) (bad : Bool) (s : State) : Result :=
  s.act (fun s => s.arrive p tMWR h d bad)

/-- NPW (R16). -/
def execNpw (p : Fin 5) (h : Hdr) (d : List Byte) (bad : Bool) (s : State) : Result :=
  s.act (fun s => s.arrive p tNPW h d bad)

/-- MRD (R15). -/
def execMrd (p : Fin 5) (h : Hdr) (bad : Bool) (s : State) : Result := s.act (fun s => s.arrive p tMRD h [] bad)

/-- ATM (R53). -/
def execAtm (p : Fin 5) (h : Hdr) (d : List Byte) (bad : Bool) (s : State) : Result :=
  s.act (fun s => s.arrive p tATM h d bad)

/-- SEQ_QUERY (R56). -/
def execSeqQuery (p : Fin 5) (h : Hdr) (s : State) : Result := s.act (fun s => s.arrive p tSEQ (h.withOp 0) [] false)

/-- SEQ_SYNC (R57). -/
def execSeqSync (p : Fin 5) (h : Hdr) (s : State) : Result := s.act (fun s => s.arrive p tSEQ (h.withOp 1) [] false)

/-- RPL (R58). -/
def execRpl (p : Fin 5) (h : Hdr) (s : State) : Result := s.act (fun s => s.arrive p tRPL h [] false)

/-- NOP (R45). -/
def execNop (p : Fin 5) (h : Hdr) (s : State) : Result := s.act (fun s => s.arrive p tNOP h [] false)

/-- CPL (R24). -/
def execCpl (p : Fin 5) (h : Hdr) (s : State) : Result := s.act (fun s => s.arrive p tCPL h [] false)

/-- CPLD (R24). -/
def execCpld (p : Fin 5) (h : Hdr) (d : List Byte) (s : State) : Result := s.act (fun s => s.arrive p tCPLD h d false)

/-- MSG_PACKET (R59). -/
def execMsgPacket (p : Fin 5) (h : Hdr) (d : List Byte) (s : State) : Result :=
  s.act (fun s => s.arrive p tMSG h d false)

/-- VOTE_WINDOW_CLOSE (R104). -/
def execVoteWindowClose (rpl : Bool) (n : BitVec 8) (seq : BitVec 16) (bad : Bool) (s : State) : Result :=
  s.actDrain (fun s => s.windowCloses rpl n.toNat seq.toNat bad)

/-- REC_STALL_END (R103). -/
def execRecStallEnd (p : Fin 3) (s : State) : Result := s.actDrain (fun s => s.stallEnd p.val)

/-- EXECUTION_END (R16). -/
def execExecutionEnd (via : Option (Fin 2)) (n : BitVec 8) (seq : BitVec 16) (s : State) : Result :=
  s.actDrain (fun s => s.executionEnds (via.map (·.val)) n.toNat seq.toNat)

/-- PENDING_MESSAGE_SEND (R55). -/
def execPendingMessageSend (p : Fin 3) (s : State) : Result := s.act (fun s => s.hostSend p.val)

/-- NOTICE_RELEASE (R17). -/
def execNoticeRelease (n : BitVec 8) (s : State) : Result := s.act (fun s => s.noticeDue n.toNat)

/-- HP_CTL_EN (R60). -/
def execHpCtlEn (b : By) (p : Fin 3) (v : Word) (s : State) : Result :=
  s.actDrain (fun s => s.doWrite b (HP_CTL p.val) v)

/-- PORT_ENTER_ON (R60). -/
def execPortEnterOn (p : Fin 5) (s : State) : Result := s.actPort p.val (fun s => (s.portOn p.val).drain)

/-- PORT_DRAIN_END (R60). -/
def execPortDrainEnd (p : Fin 5) (s : State) : Result := s.actPort p.val (fun s => s.portDrained p.val)

/-- SUSPECT_EXPIRY (R528). -/
def execSuspectExpiry (c : Fin 3) (s : State) : Result := s.act (fun s => s.suspectOut c.val)

/-- REJOIN_TIMEOUT (R130). -/
def execRejoinTimeout (c : Fin 3) (s : State) : Result := s.actDrain (fun s => s.rejoinOut c.val)

/-- REJOIN_COPY_TIMEOUT (R128). -/
def execRejoinCopyTimeout (n : BitVec 8) (seq : BitVec 16) (c : Fin 3) (s : State) : Result :=
  s.actDrain (fun s => s.rejoinAlone n.toNat seq.toNat c.val)

/-- EXCLUDE (R126). -/
def execExclude (b : By) (c : Fin 3) (s : State) : Result :=
  s.actDrain (fun s => s.doPut b (ACC_CH_CMD_EXCLUDE c.val) 1)

/-- REJOIN (R127). -/
def execRejoin (b : By) (c : Fin 3) (s : State) : Result :=
  s.actDrain (fun s => s.doPut b (ACC_CH_CMD_REJOIN c.val) 1)

/-- HIGH_CLR (R134). -/
def execHighClr (b : By) (s : State) : Result := s.actDrain (fun s => s.doPut b ACC_REC_HIGH_CLR 1)

/-- CTX_UNFENCE (R120). -/
def execCtxUnfence (b : By) (n : BitVec 8) (id : BitVec 8) (s : State) : Result :=
  s.actDrain (fun s => s.doPut b (CTX_UNFENCE_FENCE_ID n.toNat) id.toNat)

end Sys2Proof.Machine
end

