-- ==== Sys2Proof/Machine/LaneRows.lean ====
section
/-! DEFINITION. Commands of the lanes and the link layer: detectors, training, flits and control blocks, retrain,
electrical idle, and the lane registers. -/

namespace Sys2Proof.Machine

/-- LOS asserts on lane `k` (R69, R71, R97): on an up link outside electrical idle, a link down is due 1 µs later. -/
def State.losOn (s : State) (k : Nat) : State :=
  if s.on (LN_STAT_LOS k) then s
  else
    let s := s.put (LN_STAT_LOS k) 1
    if s.on (LN_STAT_EIDLE_RX k) then s
    else
      let s := s.raise (70 + k) 0 (detail k 0 0)
      if s.linkUp (lanePort k) then s.arm (.losDown k) 1000 else s

/-- LOS deasserts on lane `k`. -/
def State.losOff (s : State) (k : Nat) : State := (s.put (LN_STAT_LOS k) 0).disarm (.losDown k)

/-- LOS has lasted 1 µs on a lane of an up port (R71). -/
def State.losLong (s : State) (k : Nat) : State :=
  match s.expire (.losDown k) with
  | none => s
  | some s => if s.linkUp (lanePort k) && !s.on (LN_STAT_EIDLE_RX k) then s.linkDown (lanePort k) 0xA else s

/-- LOL asserts on lane `k` (R70, R71): a retrain on an up port. -/
def State.lolOn (s : State) (k : Nat) : State :=
  if s.on (LN_STAT_LOL k) then s
  else
    let s := (s.put (LN_STAT_LOL k) 1).raise (80 + k) 0 (detail k 0 0)
    if s.linkUp (lanePort k) then s.retrain (lanePort k) true else s

/-- QUIET has lasted 2 µs (R73): TP1 is sent. -/
def State.quietEnds (s : State) (p : Nat) : State :=
  if s.phase p ≠ .quiet then s
  else
    match s.expire (.train p) with
    | none => s
    | some s => ((s.putLanes p LN_STAT_EIDLE_TX 0).emit (.pattern p 0)).nextStep p .presence 2 2000000

/-- Signal on both lanes (R73). -/
def State.presenceEnds (s : State) (p : Nat) : State :=
  if s.phase p = .presence && s.lanesAre p LN_STAT_LOS 0 then s.nextStep p .phase 3 50000 else s

/-- Lock on both lanes (R73): TS1 is sent; the equaliser holds its override or its reset setting. -/
def State.phaseEnds (s : State) (p : Nat) : State :=
  if s.phase p = .phase && s.lanesAre p LN_STAT_LOL 0 then
    let set (s : State) (k : Nat) : State :=
      (s.setLane k { s.lane k with chosen := 8 }).put (LN_CTLE_SETTING k)
        (if s.on (LN_CTLE_OVERRIDE k) then s.get (LN_CTLE_OVR_VAL k) else 8)
    ((set (set s (2 * p)) (2 * p + 1)).emit (.pattern p 1)).nextStep p .align 4 20000
  else s

/-- The search for the word boundary of lane `k` (R75, R76): `slips` steps, and the words received at the boundary they
lead to. -/
def State.searched (s : State) (k slips : Nat) (ws : List (BitVec 64)) : State :=
  (s.put (LN_ALIGN_SLIP_POS k) (s.get (LN_ALIGN_SLIP_POS k) + slips)).matched k
    (if slips = 0 then s.get (LN_ALIGN_MATCH k) else 0) ws

/-- The search of lane `k` that starts with the words `hs` at the boundary held (R76): four that match end it there. -/
def State.settled (s : State) (k slips : Nat) (hs ws : List (BitVec 64)) : State :=
  let t := s.searched k 0 hs
  if 4 ≤ t.get (LN_ALIGN_MATCH k) then t else t.searched k slips ws

/-- The search on both lanes of port `p`. -/
def State.searchedBoth (s : State) (p a b : Nat) (w0 w1 : List (BitVec 64)) : State :=
  (s.searched (2 * p) a w0).searched (2 * p + 1) b w1

/-- Whether four words match on both lanes of port `p` (R73). -/
def State.lanesMatch (s : State) (p : Nat) : Bool :=
  decide (4 ≤ s.get (LN_ALIGN_MATCH (2 * p))) && decide (4 ≤ s.get (LN_ALIGN_MATCH (2 * p + 1)))

/-- ALIGN ends (R73): four words match on both lanes, and the boundary is established. -/
def State.alignEnds (s : State) (p : Nat) (a b : BitVec 5) (h0 h1 w0 w1 : List (BitVec 64)) : State :=
  let t := (s.settled (2 * p) a.toNat h0 w0).settled (2 * p + 1) b.toNat h1 w1
  if s.phase p = .align && !s.inPrbs p && t.lanesMatch p then
    (t.putLanes p LN_STAT_WORD_LOCK 1).nextStep p .equalise 5 400000
  else s

/-- The sweep of one lane ends (R73), none under override. -/
def State.swept (s : State) (k good : Nat) : State := if s.on (LN_CTLE_OVERRIDE k) then s else s.chooseCtle k good

/-- EQUALISE ends (R73) with the settings that ran without error: with none on a lane it fails, and it is complete only
with four words that match on both lanes at the settings chosen. -/
def State.equaliseEnds (s : State) (p : Nat) (a b : BitVec 16) (w0 w1 : List (BitVec 64)) : State :=
  if s.phase p ≠ .equalise ∨ s.inPrbs p then s
  else if (a = 0 ∧ ¬ s.on (LN_CTLE_OVERRIDE (2 * p))) ∨ (b = 0 ∧ ¬ s.on (LN_CTLE_OVERRIDE (2 * p + 1))) then
    s.trainFail p 4
  else
    let t := s.searchedBoth p 0 0 w0 w1
    if t.lanesMatch p then ((t.swept (2 * p) a.toNat).swept (2 * p + 1) b.toNat).nextStep p .deskew 6 10000 else s

/-- The info bits of a word that matches on lane `k` at its polarity (R72, R76). -/
def State.infoOf (s : State) (k : Nat) (w : BitVec 64) : Option Nat :=
  let inv := s.on (LN_STAT_RX_POL_INV k)
  if wordMatch w = some inv then some (wordInfo inv w) else none

/-- The delay in LINK cycles that deskews two lanes whose words of one LINK cycle hold these counts, and the lane delayed,
the earlier one (R77): none if they are further apart than 3. -/
def deskewOf (c0 c1 : Nat) : Option (Nat × Bool) :=
  if (c0 + 256 - c1) % 256 ≤ 3 then some ((c0 + 256 - c1) % 256, false)
  else if (c1 + 256 - c0) % 256 ≤ 3 then some ((c1 + 256 - c0) % 256, true)
  else none

/-- What DESKEW finds in a word of each lane, lane 1's received `late` LINK cycles after lane 0's (R77): whether the lanes
are crossed, the delay and the lane delayed. -/
def State.deskewFinds (s : State) (p : Nat) (d0 d1 : BitVec 64) (late : Nat) : Option (Bool × Nat × Bool) :=
  match s.infoOf (2 * p) d0, s.infoOf (2 * p + 1) d1 with
  | some i, some j =>
    if infoLane i = infoLane j then none
    else (deskewOf ((infoCnt i + late) % 256) (infoCnt j)).map (fun x => (infoLane i == 1, x.1, x.2))
  | _, _ => none

/-- What DESKEW finds shown (R77). -/
def State.deskewed (s : State) (p : Nat) (swapped : Bool) (cyc : Nat) (lane : Bool) : State :=
  ((s.put (LL_STAT_LANES_SWAPPED p) (ofBool swapped)).put (LL_STAT_SKEW_CYC p) cyc).put (LL_STAT_SKEW_LANE p)
    (ofBool lane)

/-- DESKEW ends (R73, R77): TS2 is sent. -/
def State.deskewEnds (s : State) (p : Nat) (d0 d1 : BitVec 64) (late : Nat) : State :=
  match s.deskewFinds p d0 d1 late with
  | none => s
  | some x =>
    if s.phase p = .deskew && !s.inPrbs p then
      let s := (s.deskewed p x.1 x.2.1 x.2.2).setLink p { s.link p with ts2 := 0 }
      (s.emit (.pattern p 3)).nextStep p .handshake 7 20000
    else s

/-- The info bits of the TS2 words received on lane `k` (R73). -/
def State.ts2In (s : State) (k : Nat) (ws : List (BitVec 64)) : List Nat :=
  (ws.filterMap (s.infoOf k)).filter (fun i => infoKind i == 2)

/-- Whether a TS2 received on lane `k` tells that the far end precodes otherwise than this one decodes (R66, R73). -/
def State.precodeDiffers (s : State) (k : Nat) (ws : List (BitVec 64)) : Bool :=
  (s.ts2In k ws).any (fun i => infoPre i != s.on (LN_CTL_RX_PRECODE k))

/-- Whether a lane's part of HANDSHAKE is done (R73): eight TS2, with the PRECODE expected. -/
def State.shaken (s : State) (k : Nat) (ws : List (BitVec 64)) : Bool :=
  decide (8 ≤ (s.ts2In k ws).length) && !s.precodeDiffers k ws

/-- The rest of the sixteen TS2 sent, in their time (R73). -/
def State.ts2Rest (s : State) (p : Nat) : State :=
  let n := 16 - (s.link p).ts2
  (s.elapse (n * 10 / 4)).tsOut p 2 n

/-- HANDSHAKE ends (R66, R73). -/
def State.handshakeEnds (s : State) (p : Nat) (w0 w1 : List (BitVec 64)) : State :=
  if s.phase p = .handshake && !s.inPrbs p && s.shaken (2 * p) w0 && s.shaken (2 * p + 1) w1 then
    (s.ts2Rest p).linkIsUp p
  else s

/-- The cause of a step's timeout (R73). -/
def stepCause (f : LinkPhase) (precode : Bool) : Option Nat :=
  match f with
  | .presence => some 1
  | .phase => some 2
  | .align => some 3
  | .equalise => some 4
  | .deskew => some 5
  | .handshake => some (if precode then 7 else 6)
  | _ => none

/-- A training step reaches its timeout (R73, R74). -/
def State.stepOut (s : State) (p : Nat) (w0 w1 : List (BitVec 64)) : State :=
  match stepCause (s.phase p) (s.precodeDiffers (2 * p) w0 || s.precodeDiffers (2 * p + 1) w1) with
  | none => s
  | some c =>
    match s.expire (.train p) with
    | none => s
    | some s => s.trainFail p c

/-- 1 ms after a failure training starts again, if the port is enabled (R74). -/
def State.trainAgain (s : State) (p : Nat) : State :=
  if s.phase p ≠ .failed then s
  else
    match s.expire (.train p) with
    | none => s
    | some s => if s.portState p = 1 then s.startTraining p else s.idleLanes p

/-- The ACK has not advanced for the replay timeout (R86). -/
def State.replayOut (s : State) (p : Nat) : State :=
  match s.expire (.replay p) with
  | none => s
  | some s => s.replayAll p (s.link p).replay

/-- The words that match at the retained boundary and polarity of lane `k`. -/
def State.matching (s : State) (k : Nat) (ws : List (BitVec 64)) : Nat := (ws.filterMap (s.infoOf k)).length

/-- The far end wakes (R90): with fewer than two words of the burst matching on a lane, either lane (DESIGN CHOICE, log
122), a retrain starts. -/
def State.farWakes (s : State) (p : Nat) (w0 w1 : List (BitVec 64)) : State :=
  if s.carries p && s.on (LN_STAT_EIDLE_RX (2 * p)) then
    let s := s.rxAwake p
    if 2 ≤ s.matching (2 * p) w0 ∧ 2 ≤ s.matching (2 * p + 1) w1 then s else s.retrain p true
  else s

/-- A transmitter asked to idle idles, once all its flits are acknowledged (R89); the link of a port in OFF ends with it
(R60). -/
def State.txIdles (s : State) (p : Nat) : State :=
  if s.carries p && s.on (LL_CMD_EIDLE p) && (s.link p).replay.isEmpty && (s.link p).txq.isEmpty &&
      !s.on (LN_STAT_EIDLE_TX (2 * p)) then
    let s := ((s.controlOut p 2 0).putLanes p LN_STAT_EIDLE_TX 1).put (LL_CMD_EIDLE p) 0
    if s.portState p = 0 then (s.clearPort p).idleLanes p else s
  else s

/-- Realign ends (R87): four words match at the retained boundary, or at the one that the search has found. -/
def State.realignEnds (s : State) (p : Nat) (a b : BitVec 5) (w0 w1 : List (BitVec 64)) : State :=
  let t := s.searchedBoth p a.toNat b.toNat w0 w1
  if s.phase p = .rtRealign && !s.inPrbs p && t.lanesMatch p then (t.setPhase p .rtHandshake).arm (.rtPhase p) 20000
  else s

/-- A retrain ends (R65, R73, R87): deskew and handshake are done as in training, and every unacknowledged flit is sent
again. How often the oldest flit has been resent stays as it was (DESIGN CHOICE, log 121). -/
def State.retrainEnds (s : State) (p : Nat) (d0 d1 : BitVec 64) (w0 w1 : List (BitVec 64)) : State :=
  match s.deskewFinds p d0 d1 0 with
  | none => s
  | some x =>
    if s.phase p = .rtHandshake && !s.inPrbs p && s.shaken (2 * p) w0 && s.shaken (2 * p + 1) w1 then
      let s := (s.deskewed p x.1 x.2.1 x.2.2).setLink p { s.link p with ts2 := 0 }
      let s := (((s.emit (.pattern p 3)).ts2Rest p).setPhase p .up).disarm (.rtPhase p)
      let s := ((s.txReset p).rxAwake p).put (LL_STAT_RETRAINING p) 0
      (s.resend p (s.link p).replay).armReplay p
    else s

/-- A retrain phase exceeds its limit (R87). -/
def State.retrainOut (s : State) (p : Nat) : State :=
  let on : Bool := match s.phase p with
    | .rtPrbs | .rtRealign | .rtHandshake => true
    | _ => false
  if on then
    match s.expire (.rtPhase p) with
    | none => s
    | some s => s.linkDown p 9
  else s

/-! ## The meanings -/

/-- LOS_ASSERT (R69). -/
def execLosAssert (k : Fin 10) (s : State) : Result := s.actPort (lanePort k.val) (fun s => s.losOn k.val)

/-- LOS_DEASSERT (R69). -/
def execLosDeassert (k : Fin 10) (s : State) : Result := s.actPort (lanePort k.val) (fun s => s.losOff k.val)

/-- LOS_LINK_DOWN (R71). -/
def execLosLinkDown (k : Fin 10) (s : State) : Result := s.actPort (lanePort k.val) (fun s => (s.losLong k.val).drain)

/-- LOL_ASSERT (R70). -/
def execLolAssert (k : Fin 10) (s : State) : Result := s.actPort (lanePort k.val) (fun s => (s.lolOn k.val).drain)

/-- LOL_DEASSERT (R70). -/
def execLolDeassert (k : Fin 10) (s : State) : Result :=
  s.actPort (lanePort k.val) (fun s => s.put (LN_STAT_LOL k.val) 0)

/-- TRAIN_QUIET_END (R73). -/
def execTrainQuietEnd (p : Fin 5) (s : State) : Result := s.actPort p.val (fun s => s.quietEnds p.val)

/-- TRAIN_PRESENCE_END (R73). -/
def execTrainPresenceEnd (p : Fin 5) (s : State) : Result := s.actPort p.val (fun s => s.presenceEnds p.val)

/-- TRAIN_PHASE_END (R73). -/
def execTrainPhaseEnd (p : Fin 5) (s : State) : Result := s.actPort p.val (fun s => s.phaseEnds p.val)

/-- TRAIN_ALIGN_END (R73). -/
def execTrainAlignEnd (p : Fin 5) (slips0 slips1 : BitVec 5) (h0 h1 w0 w1 : List (BitVec 64)) (s : State) : Result :=
  s.actPort p.val (fun s => s.alignEnds p.val slips0 slips1 h0 h1 w0 w1)

/-- TRAIN_EQUALISE_END (R73). -/
def execTrainEqualiseEnd (p : Fin 5) (e0 e1 : SweepEnd) (s : State) : Result :=
  s.actPort p.val (fun s => s.equaliseEnds p.val e0.good e1.good e0.words e1.words)

/-- TRAIN_DESKEW_END (R77). -/
def execTrainDeskewEnd (p : Fin 5) (d0 d1 : BitVec 64) (late : Nat) (s : State) : Result :=
  s.actPort p.val (fun s => s.deskewEnds p.val d0 d1 late)

/-- TRAIN_HANDSHAKE_END (R73). -/
def execTrainHandshakeEnd (x : PortWords) (s : State) : Result :=
  s.actPort x.p.val (fun s => s.handshakeEnds x.p.val x.w0 x.w1)

/-- TRAIN_STEP_TIMEOUT (R74). -/
def execTrainStepTimeout (p : Fin 5) (x : LaneWords) (s : State) : Result :=
  s.actPort p.val (fun s => s.stepOut p.val x.w0 x.w1)

/-- TRAIN_RETRY (R74). -/
def execTrainRetry (p : Fin 5) (s : State) : Result := s.actPort p.val (fun s => s.trainAgain p.val)

/-- BITSLIP (R75). -/
def execBitslip (b : By) (k : Fin 10) (s : State) : Result :=
  s.actDrain (fun s => s.doPut b (LN_ALIGN_BITSLIP k.val) 1)

/-- FLIT (R84). -/
def execFlit (p : Fin 5) (x : LaneWords) (s : State) : Result :=
  s.actPort p.val (fun s => s.takeFlitPackets p.val x.w0 x.w1)

/-- NAK (R86). -/
def execNak (p : Fin 5) (v : BitVec 8) (s : State) : Result :=
  s.actPort p.val (fun s => ((s.heard p.val 1 v.toNat).takeNak p.val v.toNat).drain)

/-- REPLAY_TIMEOUT (R86). -/
def execReplayTimeout (p : Fin 5) (s : State) : Result := s.actPort p.val (fun s => (s.replayOut p.val).drain)

/-- RETRAIN_BLOCK (R87). -/
def execRetrainBlock (p : Fin 5) (s : State) : Result := s.actPort p.val (fun s => ((s.heard p.val 3 0).retrain p.val false).drain)

/-- EIDLE_BLOCK (R89). -/
def execEidleBlock (p : Fin 5) (s : State) : Result := s.actPort p.val (fun s => (s.heard p.val 2 0).farIdles p.val)

/-- WAKE_BURST (R90). -/
def execWakeBurst (p : Fin 5) (w0 w1 : List (BitVec 64)) (s : State) : Result :=
  s.actPort p.val (fun s => (s.farWakes p.val w0 w1).drain)

/-- TX_EIDLE_ENTRY (R89). -/
def execTxEidleEntry (p : Fin 5) (s : State) : Result := s.actPort p.val (fun s => s.txIdles p.val)

/-- RETRAIN_PRBS_END (R413). -/
def execRetrainPrbsEnd (p : Fin 5) (u0 u1 w0 w1 v0 v1 : List (BitVec 64)) (s : State) : Result :=
  s.actPort p.val (fun s => (s.prbsEnd p.val (u0 ++ w0 ++ v0) (u1 ++ w1 ++ v1)).drain)

/-- RETRAIN_REALIGN_END (R87). -/
def execRetrainRealignEnd (p : Fin 5) (slips0 slips1 : BitVec 5) (w0 w1 : List (BitVec 64)) (s : State) : Result :=
  s.actPort p.val (fun s => s.realignEnds p.val slips0 slips1 w0 w1)

/-- RETRAIN_RESUME (R87). -/
def execRetrainResume (p : Fin 5) (d0 d1 : BitVec 64) (x : LaneWords) (s : State) : Result :=
  s.actPort p.val (fun s => s.retrainEnds p.val d0 d1 x.w0 x.w1)

/-- RETRAIN_LIMIT (R87). -/
def execRetrainLimit (p : Fin 5) (s : State) : Result := s.actPort p.val (fun s => (s.retrainOut p.val).drain)

/-- RETRAIN (R87). -/
def execRetrain (b : By) (p : Fin 5) (s : State) : Result := s.actDrain (fun s => s.doPut b (LL_CMD_RETRAIN p.val) 1)

/-- EIDLE (R89). -/
def execEidle (b : By) (p : Fin 5) (s : State) : Result := s.actDrain (fun s => s.doPut b (LL_CMD_EIDLE p.val) 1)

/-- WAKE (R90). -/
def execWake (b : By) (p : Fin 5) (s : State) : Result := s.actDrain (fun s => s.doPut b (LL_CMD_WAKE p.val) 1)

/-- INJECT_ONE (R94). -/
def execInjectOne (b : By) (k : Fin 10) (s : State) : Result :=
  s.actDrain (fun s => s.doPut b (LN_INJ_INJECT_ONE k.val) 1)

/-- INJECT_BURST (R94). -/
def execInjectBurst (b : By) (k : Fin 10) (s : State) : Result :=
  s.actDrain (fun s => s.doPut b (LN_INJ_INJECT_BURST k.val) 1)

/-- PRBS_CLEAR (R93). -/
def execPrbsClear (b : By) (k : Fin 10) (s : State) : Result :=
  s.actDrain (fun s => s.doPut b (LN_PRBS_CLEAR k.val) 1)

/-- LN_CTL_MODE (R95). -/
def execLnCtlMode (b : By) (k : Fin 10) (m : BitVec 2) (s : State) : Result :=
  s.actDrain (fun s => s.doPut b (LN_CTL_MODE k.val) m.toNat)

end Sys2Proof.Machine
end

