-- ==== Sys2Proof/Machine/LedgerRows.lean ====
section
/-! DEFINITION. Commands of the Ledger and the images: the scrubber, leg boundaries, the carry, image registers, and what
the partner mirrors. -/

namespace Sys2Proof.Machine

/-- The worse of what a check finds and what is known of the word. -/
def eccWorse (a b : Ecc) : Ecc :=
  match a, b with
  | .ue, _ => .ue
  | _, .ue => .ue
  | .ce, _ => .ce
  | _, .ce => .ce
  | .ok, .ok => .ok

/-- The scrubber goes on to the next word; after the last a pass is complete (R208). -/
def State.scrubNext (s : State) (w : Nat) : State :=
  if w + 1 < s.member.ledgerBytes / 8 then s.put LDG_SCRUB_POS (w + 1)
  else (s.put LDG_SCRUB_POS 0).incr LDG_SCRUB_PASSES

/-- The scrubber reads its next word, whose turn has come, and finds `found` (R206, R208, R229); it waits for the next. -/
def State.scrubRead (s : State) (found : Ecc) : State :=
  match s.expire .scrub with
  | none => s
  | some s =>
    let w := s.get LDG_SCRUB_POS
    let e := eccWorse (mget s.ledgerBad w .ok) found
    let s : State := { s with ledgerBad := mput s.ledgerBad w (if e = .ue then .ue else .ok) .ok }
    let s := match e with
      | .ok => s
      | .ce => s.ledgerFault false 1 0 w
      | .ue => s.ledgerFault true 1 0 w
    (s.scrubNext w).scrubWatch

/-- The carry engine has carried every line (R218). -/
def State.carryOver (s : State) (i : Nat) : State := if s.on (IMG_STAT_CARRYING i) then s.carryAll i else s

/-- The registers of an image that a write discards its buffers with (R210): 0 IMG_BASE, 1 IMG_SIZE, 2 IMG_CFG. -/
def imgReg (i r : Nat) : Nat := if r = 0 then IMG_BASE i else if r = 1 then IMG_SIZE i else IMG_CFG i

/-- A control packet of the partner's Span unit arrives on span port `q` (R354). -/
def State.spanArrives (s : State) (q addr : Nat) (d : List Byte) (ue : Nat := 0) : State :=
  s.takePacket (3 + q) (spanCtl q addr d) false ue

/-! ## The meanings -/

/-- SCRUB_READ (R208). -/
def execScrubRead (found : Ecc) (s : State) : Result := s.act (fun s => s.scrubRead found)

/-- LEG_BOUNDARY (R292). -/
def execLegBoundary (s : State) : Result := s.actDrain (fun s => s.legBoundary)

/-- CARRY_END (R218). -/
def execCarryEnd (img : BitVec 8) (s : State) : Result := s.act (fun s => s.carryOver img.toNat)

/-- IMG_CFG_WRITE (R210). -/
def execImgCfgWrite (b : By) (img : BitVec 8) (r : Fin 3) (v : Word) (s : State) : Result :=
  s.actDrain (fun s => s.doWrite b (imgReg img.toNat r.val) v)

/-- MIRRORED_LINE (R222). -/
def execMirroredLine (q : Fin 2) (line : BitVec 20) (bad : BitVec 8) (d : List Byte) (s : State) : Result :=
  s.actSpan q.val (fun s => s.spanArrives q.val (0xFE00000000 + 64 * line.toNat) d bad.toNat)

/-- COMMIT_RECORD (R224). -/
def execCommitRecord (q : Fin 2) (img : BitVec 8) (gen flags time : Word) (s : State) : Result :=
  s.actSpan q.val (fun s =>
    s.spanArrives q.val 0xFF00000005 (leBytes 4 img.toNat ++ leBytes 4 gen.toNat ++ leBytes 4 flags.toNat ++ leBytes 4 time.toNat))

/-- RESYNC (R221). -/
def execResync (q : Fin 2) (img : BitVec 8) (s : State) : Result :=
  s.actSpan q.val (fun s => s.spanArrives q.val 0xFF00000006 (leBytes 4 img.toNat))

end Sys2Proof.Machine
end

