-- ==== Sys2Proof/Machine/SegRows.lean ====
section
/-! DEFINITION. Commands of the segments: responses, timeouts, keeper pulses, interrupt lines, legacy masters, inbound
cycles, roles and states. -/

namespace Sys2Proof.Machine

/-- Whether the data pulse of the bridge's cycle in progress is open `ns` after its beat's start (R173, R177). -/
def State.pulseOpen (s : State) (g ns : Nat) : Bool :=
  (s.onBus g).any (fun b => decide (s.pulseAt g b ≤ ns))

/-- A response that appears with no data pulse open (R175), `ns` after the start of the beat in progress where a cycle of
the bridge is on the bus: its line stays low until its release. -/
def State.lateRsp (s : State) (g ns : Nat) : State :=
  if s.pulseOpen g ns then s
  else
    let at_ := match s.onBus g with
      | some b => b.beatAt + ns
      | none => s.clk
    let s := s.until_ at_
    let x := s.seg g
    ((s.setSeg g { x with rspLow := true }).rspSeen g at_).bump (SEG_MISC_CNT_LATE_RSP g) |>.segEvent g 6 0

/-- A response line has been low for 10 µs (R175). -/
def State.rspStuck (s : State) (g : Nat) : State :=
  match s.expire (.rspLow g) with
  | none => s
  | some s => (s.put (SEG_STAT_RSP_STUCK g) 1).segEvent g 5 0

/-- A stuck response line goes high (R175). -/
def State.rspFreed (s : State) (g : Nat) : State := if s.on (SEG_STAT_RSP_STUCK g) then s.respRelease g else s

/-- The delay after CRTY_N has passed (R181). -/
def State.retryDue (s : State) (g o : Nat) : State :=
  match s.expire (.retry g o) with
  | none => s
  | some s =>
    match s.job g o with
    | none => s
    | some j => if j.wait = .retryDelay then s.setJob g { j with wait := .ready } else s

/-- A keeper pulse falls due (R185): at once on a free bus, else at the end of what holds it, a burst cut short. -/
def State.keeperDueNow (s : State) (g : Nat) : State :=
  match s.expire (.keep g) with
  | none => s
  | some s =>
    if s.owns g then
      let x := s.seg g
      ((s.setSeg g { x with keepDue := true, cycle := x.cycle.shortened }).arm (.keepCut g) 200000).busFree g
    else s

/-- A keeper pulse is 200 µs late (R185): what holds the bus is cut. -/
def State.keeperCut (s : State) (g : Nat) : State :=
  match s.expire (.keepCut g) with
  | none => s
  | some s =>
    let note (s : State) : State := (s.bump (SEG_KEEP_GAP_KEEP_CUT g)).segEvent g 14 0
    match s.onBus g, (s.seg g).tenure, (s.seg g).cycle with
    | some b, _, _ =>
      let s := (note s).cutTenure g
      s.beatFails g b s.clk 3 stTO 1
    | none, some _, _ => ((note s).cutTenure g).busFree g
    | none, none, .lmTenure _ _ _ _ _ => (note s).lmWatchdog g
    | none, none, _ => s

/-- A bit of SEG_STAT.CINT follows its line (R188). -/
def State.cintLine (s : State) (g l : Nat) (low : Bool) : State :=
  let v := s.get (SEG_STAT_CINT g)
  s.put (SEG_STAT_CINT g) (if low == bitAt v l then v else if low then v + 2 ^ l else v - 2 ^ l)

/-- REARM has passed since a poll (R189). -/
def State.rearmDue (s : State) (g l : Nat) : State :=
  match s.expire (.cintRearm g l) with
  | none => s
  | some s => s.rearm g l

/-- The granted legacy master drives CAS_N low (R191): its tenure is bounded by SEG_TMO. -/
def State.lmAccepts (s : State) (g spc addr : Nat) : State :=
  let x := s.seg g
  match x.cycle with
  | .lmGrant gr =>
    let s := ((s.setSeg g { x with cycle := .lmTenure gr s.clk spc addr false }).disarm (.grant g)).casFell g s.clk
    s.arm (.tenure g) (s.get (SEG_TMO_TMO g) * 500)
  | _ => s

/-- A grant is not taken up (R192). -/
def State.grantLost (s : State) (g : Nat) : State :=
  match s.expire (.grant g) with
  | none => s
  | some s =>
    let x := s.seg g
    let s := (s.setSeg g { x with cycle := .idle, overheld := false }).bump (SEG_LM_CNT_GRANT_LOST g)
    ((s.segEvent g 10 (s.get (SEG_CTL_LM_CTX g))).elapse 40).busFree g

/-- A tenure has lasted SEG_TMO (R192). -/
def State.tenureOut (s : State) (g : Nat) : State :=
  match s.expire (.tenure g) with
  | none => s
  | some s => s.lmWatchdog g

/-- CAS_N rises at the end of a tenure (R191). -/
def State.lmRises (s : State) (g : Nat) : State :=
  match (s.seg g).cycle with
  | .lmTenure gr _ _ _ _ => s.lmEnd g gr
  | _ => s

/-- CBR_N goes high (R191, R340): a request not yet granted is withdrawn, and its context loses its count unless it has
another request on the segment. -/
def State.cbrOff (s : State) (g : Nat) : State :=
  if s.on (SEG_STAT_CBR g) then
    let n := s.get (SEG_CTL_LM_CTX g)
    let s := s.put (SEG_STAT_CBR g) 0
    if (s.seg g).ctxs.contains n then s else s.withdraw (1 + g) n
  else s

/-- A prefetch slot is freed after HOLD (R195). -/
def State.prefetchOver (s : State) (g id : Nat) : State :=
  match s.expire (.prefetch g id) with
  | none => s
  | some s =>
    let x := s.seg g
    s.setSeg g { x with prefetch := x.prefetch.filter (fun p => p.id != id) }

/-- The CRST_N pulse has lasted WIDTH (R201). -/
def State.cardResetOver (s : State) (g : Nat) : State :=
  match s.expire (.cardReset g) with
  | none => s
  | some s => s.cardResetEnds g

/-- A request that waits for a segment that issues no cycle ends by its own timeout (R175, R501). -/
def State.segWaitOut (s : State) (g o : Nat) : State :=
  match s.job g o with
  | none => s
  | some j => if s.segIssues g || (s.seg g).busy == some o then s else s.stopJob g j stTO 1

/-! ## The meanings -/

/-- RESPONSE_CACK (R174): CACK_N, with the other response lines that the same sample shows low. -/
def execResponseCack (g : Fin 4) (ns : Nat) (d : Word) (x : OtherLines) (s : State) : Result :=
  s.actSeg g.val (fun s => s.response g.val ns true x.rty x.err d x.clash)

/-- RESPONSE_CERR (R149): CERR_N, which no other line of the sample outranks. -/
def execResponseCerr (g : Fin 4) (ns : Nat) (s : State) : Result :=
  s.actSeg g.val (fun s => s.response g.val ns false false true 0 false)

/-- RESPONSE_CRTY (R181): CRTY_N, with CERR_N if the same sample shows it low. -/
def execResponseCrty (g : Fin 4) (x : RetrySample) (s : State) : Result :=
  s.actSeg g.val (fun s => s.response g.val x.ns false true x.err 0 false)

/-- RESPONSE_RELEASE (R173). -/
def execResponseRelease (g : Fin 4) (s : State) : Result := s.actSeg g.val (fun s => s.respRelease g.val)

/-- LATE_RSP (R175). -/
def execLateRsp (x : LineSeen) (s : State) : Result := s.actSeg x.g.val (fun s => s.lateRsp x.g.val x.ns)

/-- BEAT_TIMEOUT (R180). -/
def execBeatTimeout (g : Fin 4) (s : State) : Result := s.actSeg g.val (fun s => s.beatTimeout g.val false)

/-- RETRY_DELAY_END (R181). -/
def execRetryDelayEnd (g : Fin 4) (order : Nat) (s : State) : Result :=
  s.actSeg g.val (fun s => s.retryDue g.val order)

/-- RSP_STUCK (R175). -/
def execRspStuck (g : Fin 4) (s : State) : Result := s.actSeg g.val (fun s => s.rspStuck g.val)

/-- RSP_STUCK_CLEAR (R175). -/
def execRspStuckClear (g : Fin 4) (s : State) : Result := s.actSeg g.val (fun s => s.rspFreed g.val)

/-- KEEPER_PULSE_DUE (R185). -/
def execKeeperPulseDue (g : Fin 4) (s : State) : Result := s.actSeg g.val (fun s => s.keeperDueNow g.val)

/-- KEEP_CUT (R185). -/
def execKeepCut (g : Fin 4) (s : State) : Result := s.actSeg g.val (fun s => s.keeperCut g.val)

/-- KEEPER_PULSE_SEEN (R186). -/
def execKeeperPulseSeen (g : Fin 4) (side : Bool) (count : BitVec 7) (s : State) : Result :=
  s.actSeg g.val (fun s => s.keeperSeen g.val side count.toNat)

/-- CAS_N_FALL (R187). -/
def execCasNFall (g : Fin 4) (s : State) : Result := s.actSeg g.val (fun s => s.casFall g.val false)

/-- CINT_ASSERT (R188). -/
def execCintAssert (g : Fin 4) (l : Fin 4) (s : State) : Result :=
  s.actSeg g.val (fun s => (s.cintLine g.val l.val true).cintTry g.val l.val)

/-- CINT_RELEASE (R188). -/
def execCintRelease (g : Fin 4) (l : Fin 4) (s : State) : Result :=
  s.actSeg g.val (fun s => s.cintLine g.val l.val false)

/-- CINT_REARM (R189). -/
def execCintRearm (g : Fin 4) (l : Fin 4) (s : State) : Result := s.actSeg g.val (fun s => s.rearmDue g.val l.val)

/-- ARM (R189). -/
def execArm (b : By) (g : Fin 4) (lines : BitVec 4) (s : State) : Result :=
  s.actDrain (fun s => s.doPut b (SEG_CMD_ARM g.val) lines.toNat)

/-- POLL_TIMEOUT (R190). -/
def execPollTimeout (g : Fin 4) (s : State) : Result := s.actSeg g.val (fun s => s.beatTimeout g.val true)

/-- CBR_REQUEST (R191). -/
def execCbrRequest (g : Fin 4) (s : State) : Result := s.actSeg g.val (fun s => s.put (SEG_STAT_CBR g.val) 1)

/-- CBR_RELEASE (R191). -/
def execCbrRelease (g : Fin 4) (s : State) : Result := s.actSeg g.val (fun s => s.cbrOff g.val)

/-- LM_ACCEPTANCE (R191). -/
def execLmAcceptance (g : Fin 4) (spc : Fin 3) (addr : BitVec 24) (s : State) : Result :=
  s.actSeg g.val (fun s => s.lmAccepts g.val spc.val addr.toNat)

/-- GRANT_LOST (R192). -/
def execGrantLost (g : Fin 4) (s : State) : Result := s.actSeg g.val (fun s => s.grantLost g.val)

/-- LM_WATCHDOG (R192). -/
def execLmWatchdog (g : Fin 4) (s : State) : Result := s.actSeg g.val (fun s => s.tenureOut g.val)

/-- LM_TENURE_END (R191). -/
def execLmTenureEnd (g : Fin 4) (s : State) : Result := s.actSeg g.val (fun s => s.lmRises g.val)

/-- INBOUND_WRITE (R194). -/
def execInboundWrite (g : Fin 4) (bytes : List (BitVec 24 × Byte)) (s : State) : Result :=
  s.actSeg g.val (fun s => s.inbWrite g.val (bytes.map (fun e => (e.1.toNat, e.2))))

/-- INBOUND_READ (R195). -/
def execInboundRead (g : Fin 4) (addrs : List (BitVec 24)) (s : State) : Result :=
  s.actSeg g.val (fun s => s.inbRead g.val (addrs.map (·.toNat)))

/-- INB_RETRY (R195). -/
def execInbRetry (g : Fin 4) (s : State) : Result := s.actSeg g.val (fun s => s.inbRetry g.val)

/-- INBOUND_FETCH_END (R195). -/
def execInboundFetchEnd (g : Fin 4) (id : Nat) (s : State) : Result := s.actSeg g.val (fun s => s.inbFetch g.val id)

/-- PREFETCH_HOLD_END (R195). -/
def execPrefetchHoldEnd (g : Fin 4) (id : Nat) (s : State) : Result :=
  s.actSeg g.val (fun s => s.prefetchOver g.val id)

/-- INBOUND_DRAIN (R194). -/
def execInboundDrain (g : Fin 4) (s : State) : Result := s.actSeg g.val (fun s => s.inbDrain g.val)

/-- SEG_CTL_EN (R197). -/
def execSegCtlEn (b : By) (g : Fin 4) (v : Word) (s : State) : Result :=
  s.actDrain (fun s => s.doWrite b (SEG_CTL g.val) v)

/-- OWNERSHIP_TAKE (R198). -/
def execOwnershipTake (g : Fin 4) (s : State) : Result := s.actSeg g.val (fun s => s.takeSeg g.val)

/-- BUS_RELEASE (R199). -/
def execBusRelease (g : Fin 4) (s : State) : Result := s.actSeg g.val (fun s => s.busRelease g.val)

/-- SEG_DRAIN_END (R200). -/
def execSegDrainEnd (g : Fin 4) (s : State) : Result := s.actSeg g.val (fun s => s.segDrained g.val)

/-- CARD_RESET (R201). -/
def execCardReset (b : By) (g : Fin 4) (s : State) : Result :=
  s.actDrain (fun s => s.doPut b (SEG_CMD_CARD_RESET g.val) 1)

/-- CARD_RESET_END (R201). -/
def execCardResetEnd (g : Fin 4) (s : State) : Result := s.actSeg g.val (fun s => s.cardResetOver g.val)

/-- SEGMENT_WAIT_TIMEOUT (R175). -/
def execSegmentWaitTimeout (g : Fin 4) (order : Nat) (s : State) : Result :=
  s.actSeg g.val (fun s => s.segWaitOut g.val order)

end Sys2Proof.Machine
end

