-- ==== Sys2Proof/Machine/LockRows.lean ====
section
/-! DEFINITION. Commands of locks, semaphores, the compatibility ports and the arbiters. -/

namespace Sys2Proof.Machine

/-- WIN_LOCK_CTL.TMO has passed since a lock was acquired (R156). -/
def State.lockOut (s : State) (l : LockName) : State :=
  match s.expire (.lock l) with
  | none => s
  | some s =>
    let s := s.lockEnds l
    match l with
    | .native g => s.busFree g.val
    | .sem _ => s

/-- A request of a SINGLE context that its owner channel makes (R100, R161): refused unless the context is ON, then
accepted; what it ends with is shown. -/
def State.directReq (s : State) (n : Nat) (k : Pkt) : State :=
  let no (s : State) (st : Nat) : State := s.emit (.done n k.h.addr st)
  let c := s.get (CTX_VOTE_OWNER n)
  if s.isVoted n then no s stUR
  else if s.ctxState n = 0 ∨ s.ctxState n = 1 then no (s.modeError c k stUR) stUR
  else
    match s.turnedAway n with
    | (s, some x) => no s x
    | (s, none) => s.addExec (.direct n) (.single (Fin.ofNat 3 c)) k none c []

/-- A 4-byte read of the inbound compatibility port by a context (R330). -/
def inqPkt (n : Nat) : Pkt := ⟨mkHdr tMRD 1 false n 0 0 3 0 0x3801000 0 0, []⟩

/-- A 4-byte write of a word to the outbound compatibility port by a context (R331). -/
def outqPkt (n : Nat) (v : Word) : Pkt := ⟨mkHdr tNPW 1 false n 0 0 3 0 0x3802000 0 0, leBytes 4 v.toNat⟩

/-- What holds a segment too long, since when: the source of R338, the context, whether it is a lock tenure; none while
nothing is granted. -/
def State.holder (s : State) (g : Nat) : Option (Nat × Nat × Nat × Bool) :=
  let x := s.seg g
  match x.tenure, x.cycle with
  | some t, _ =>
    let cour := match t.only.bind (s.job g) with
      | some j => j.isCourier
      | none => false
    some (t.since, ofBool cour, t.ctx, true)
  | none, .job o gr _ _ _ _ _ _ _ => (s.job g o).map (fun j => (gr, ofBool j.isCourier, j.ctx, false))
  | none, .lmGrant gr => some (gr, 2, s.get (SEG_CTL_LM_CTX g), false)
  | none, .lmTenure gr _ _ _ _ => some (gr, 2, s.get (SEG_CTL_LM_CTX g), false)
  | none, _ => none

/-- An overhold counted, captured and raised (R344, R349). -/
def State.noteOverhold (s : State) (a src n : Nat) (lock : Bool) : State :=
  let s := s.bump (ARB_CNT0_OVERHOLD a)
  let s := if s.on (ARB_OVH_VALID a) then s
    else (((s.put (ARB_OVH_SOURCE a) src).put (ARB_OVH_CTX a) n).put (ARB_OVH_LOCK a) (ofBool lock)).put
      (ARB_OVH_VALID a) 1
  s.raise 20 n (detail a src 0)

/-- A grant of a segment has been held for MAX_HOLD (R344): once for each grant. -/
def State.overhold (s : State) (g : Nat) : State :=
  let m := s.arbGet (ARB_CFG_MAX_HOLD (1 + g))
  if m = 0 || (s.seg g).overheld then s
  else
    match s.holder g with
    | none => s
    | some (since, src, n, lock) =>
      let s := s.until_ (since + m * 500)
      let x := s.seg g
      let s := s.setSeg g { x with overheld := true, cycle := x.cycle.shortened }
      let s := s.noteOverhold (1 + g) src n lock
      if lock then (s.cutTenure g).busFree g else s

/-! ## The meanings -/

/-- LOCK_TIMEOUT (R156). -/
def execLockTimeout (l : LockName) (s : State) : Result := s.actDrain (fun s => s.lockOut l)

/-- SEM_WAIT_TIMEOUT (R156). -/
def execSemWaitTimeout (order : Nat) (s : State) : Result := s.actDrain (fun s => s.semWaitOut order)

/-- SEMAPHORE_GRANT (R157). -/
def execSemaphoreGrant (n : Fin 64) (s : State) : Result := s.actDrain (fun s => s.semGrant n.val)

/-- COMPAT_INQ_READ (R330). -/
def execCompatInqRead (n : BitVec 8) (s : State) : Result :=
  s.actDrain (fun s => s.directReq n.toNat (inqPkt n.toNat))

/-- WORD_AVAILABLE (R330). -/
def execWordAvailable (n : BitVec 8) (s : State) : Result := s.actDrain (fun s => s.wordAvailable n.toNat)

/-- COMPAT_OUTQ_WRITE (R331). -/
def execCompatOutqWrite (n : BitVec 8) (v : Word) (s : State) : Result :=
  s.actDrain (fun s => s.directReq n.toNat (outqPkt n.toNat v))

/-- STALL_TIMEOUT (R330). -/
def execStallTimeout (n : BitVec 8) (s : State) : Result := s.actDrain (fun s => s.stallTimeout n.toNat)

/-- ARBITRATION (R339). -/
def execArbitration (a : Fin 10) (reqs : List (BitVec 5 × BitVec 8)) (s : State) : Result :=
  s.actDrain (fun s => s.arbitration a.val (reqs.map (fun r => (r.1.toNat, r.2.toNat))))

/-- BACKOFF_END (R340). -/
def execBackoffEnd (a : Fin 10) (who : BitVec 8) (s : State) : Result := s.act (fun s => s.backoffEnd a.val who.toNat)

/-- OVERHOLD (R344). -/
def execOverhold (g : Fin 4) (s : State) : Result := s.actSeg g.val (fun s => s.overhold g.val)

/-- ARB_COMMIT (R346). -/
def execArbCommit (b : By) (inst : BitVec 10) (s : State) : Result :=
  s.actDrain (fun s => s.doPut b ARB_COMMIT_INST inst.toNat)

end Sys2Proof.Machine
end

