-- ==== Sys2Proof/Machine/OutpostRows.lean ====
section
/-! DEFINITION. Commands of the Outpost chains: registers, frames, records. -/

namespace Sys2Proof.Machine

/-! ## The meanings -/

/-- OPC_CTL_EN (R402). -/
def execOpcCtlEn (b : By) (k : Fin 4) (v : Word) (s : State) : Result :=
  s.actDrain (fun s => s.doWrite b (OPC_CTL k.val) v)

/-- CHAIN_ENTER_ON (R402). -/
def execChainEnterOn (k : Fin 4) (s : State) : Result := s.actChain k.val (fun s => s.chainOn k.val)

/-- FRAME_START (R382). -/
def execFrameStart (k : Fin 4) (s : State) : Result := s.actChain k.val (fun s => s.frameStart k.val)

/-- UP_RECORD (R384). -/
def execUpRecord (k : Fin 4) (d : List Byte) (s : State) : Result := s.actChain k.val (fun s => s.upRecord k.val d)

/-- FRAME_END (R398). -/
def execFrameEnd (k : Fin 4) (s : State) : Result := s.actChain k.val (fun s => s.frameEnds k.val)

/-- FRAME_TMO (R384). -/
def execFrameTmo (k : Fin 4) (s : State) : Result := s.actChain k.val (fun s => s.frameTimeout k.val)

/-- OPC_RESUME (R390). -/
def execOpcResume (b : By) (k : Fin 4) (mask : BitVec 8) (s : State) : Result :=
  s.actDrain (fun s => s.doPut b (OPC_CMD_RESUME k.val) mask.toNat)

/-- OPC_CHA_WRITE (R396). -/
def execOpcChaWrite (b : By) (k : Fin 4) (o : Fin 8) (c : Fin 16) (v : Word) (s : State) : Result :=
  s.actDrain (fun s => s.doWrite b (OPC_CHA k.val o.val c.val) v)

/-- OPC_CHB_WRITE (R396). -/
def execOpcChbWrite (b : By) (k : Fin 4) (o : Fin 8) (c : Fin 16) (v : Word) (s : State) : Result :=
  s.actDrain (fun s => s.doWrite b (OPC_CHB k.val o.val c.val) v)

/-- OPC_CFG_WRITE (R382). -/
def execOpcCfgWrite (b : By) (k : Fin 4) (v : Word) (s : State) : Result :=
  s.actDrain (fun s => s.doWrite b (OPC_CFG k.val) v)

end Sys2Proof.Machine
end

