-- ==== Sys2Proof/Machine/QueueRows.lean ====
section
/-! DEFINITION. Commands of the Flacon queues: writes, pops, timeouts, tests, records of the bridge. -/

namespace Sys2Proof.Machine

/-- The host address of the pop aperture of queue `q` (R327). -/
def popAddr (q : Nat) : Nat := 0xe4000 + 0x100 * q

/-- A pop of queue `q` by context `n` with a read of `len` bytes, whose words from the head on the check finds so (R327,
R332). -/
def State.popRead (s : State) (n q len : Nat) (found : List Ecc) : State :=
  if len % 8 = 0 ∧ 8 ≤ len ∧ len ≤ 256 then
    let r := (s.headFound q found).pop q len
    r.1.emit (.read n (popAddr q) r.2)
  else s.emit (.done n (popAddr q) stUR)

/-- A packet has been open for OPEN_TMO (R324). -/
def State.openOut (s : State) (q : Nat) : State :=
  match s.expire (.openPkt q) with
  | none => s
  | some s => s.closeTruncated q

/-- The two copies of a queue's positions differ (R333, R334): on the UX4816 alone. -/
def State.positionFault (s : State) (q : Nat) : State := if s.member = .ux4816 then s.queueFault q 1 else s

/-! ## The meanings -/

/-- QUE_RESET (R334). -/
def execQueReset (b : By) (q : Fin 160) (s : State) : Result :=
  s.actDrain (fun s => s.doPut b (QUE_CMD_RESET q.val) 1)

/-- QUE_PUSH (R326). -/
def execQuePush (b : By) (q : Fin 160) (v : Word) (s : State) : Result :=
  s.actDrain (fun s => s.doWrite b (QUE_PUSH q.val) v)

/-- QUE_POP (R327). -/
def execQuePop (n : BitVec 8) (q : Fin 160) (len : Nat) (found : List Ecc) (s : State) : Result :=
  s.actDrain (fun s => s.popRead n.toNat q.val len found)

/-- QUE_CFG_WRITE (R322). -/
def execQueCfgWrite (b : By) (q : Fin 160) (rbase : Bool) (v : Word) (s : State) : Result :=
  s.actDrain (fun s => s.doWrite b (if rbase then QUE_RBASE q.val else QUE_CFG q.val) v)

/-- OPEN_TMO (R324). -/
def execOpenTmo (q : Fin 160) (s : State) : Result := s.act (fun s => s.openOut q.val)

/-- POSITION_MISMATCH (R333). -/
def execPositionMismatch (q : Fin 160) (s : State) : Result := s.act (fun s => s.positionFault q.val)

/-- CHAIN_TEST_END (R411). -/
def execChainTestEnd (q : Fin 160) (pass : Bool) (s : State) : Result := s.act (fun s => s.chainTested q.val pass)

/-- INT_ITEM_ENQUEUE (R326). -/
def execIntItemEnqueue (g : Fin 4) (s : State) : Result := s.actSeg g.val (fun s => s.feedHeld g.val)

/-- BRIDGE_RECORD_ENQUEUE (R285). -/
def execBridgeRecordEnqueue (q : Fin 160) (s : State) : Result := s.act (fun s => s.feedRecord q.val)

end Sys2Proof.Machine
end

