-- ==== Sys2Proof/Machine/SecurityRows.lean ====
section
/-! DEFINITION. Commands of security: fuses and the vault, the TAP, freeze read-out, the debug port. -/

namespace Sys2Proof.Machine

/-! ## The meanings -/

/-- LIFECYCLE_TO_FIELD (R477). -/
def execLifecycleToField (b : By) (s : State) : Result := s.actDrain (fun s => s.doPut b SEC_LC_CMD_TO 1)

/-- KEY_HASH (R475). -/
def execKeyHash (b : By) (s : State) : Result := s.actDrain (fun s => s.doPut b SEC_FUSE_CMD_KEY_HASH 1)

/-- DBG_HASH (R475). -/
def execDbgHash (b : By) (s : State) : Result := s.actDrain (fun s => s.doPut b SEC_FUSE_CMD_DBG_HASH 1)

/-- LOAD (R476). -/
def execLoad (b : By) (s : State) : Result := s.actDrain (fun s => s.doPut b SEC_VAULT_CMD_LOAD 1)

/-- FUSE_WRITE_END (R477). -/
def execFuseWriteEnd (n : Fin 4) (s : State) : Result := s.act (fun s => s.fuseEnd n.val)

/-- EXTEST (R481). -/
def execExtest (cells : List Bool) (s : State) : Result := .next (s.extest cells)

/-- SAMPLE_PRELOAD (R481). -/
def execSamplePreload (cells : List Bool) (s : State) : Result := .next (s.samplePreload cells)

/-- IDCODE (R481). -/
def execIdcode (s : State) : Result := .next s.idcode

/-- FREEZE (R484). -/
def execFreeze (s : State) : Result := .next s.jtagFreeze

/-- FRZ_READ (R485). -/
def execFrzRead (a : BitVec 26) (s : State) : Result := .next (s.frzRead a.toNat)

/-- TRACE_READ (R486). -/
def execTraceRead (entry : BitVec 16) (w : Fin 8) (s : State) : Result := .next (s.traceRead entry.toNat w.val)

/-- FRZ_SCAN (R481). -/
def execFrzScan (s : State) : Result := .next s.frzScan

/-- DBG_AUTH (R482). -/
def execDbgAuth (key sig : List Byte) (s : State) : Result := .next (s.dbgAuth key sig)

/-- DBG_ACCESS (R483). -/
def execDbgAccess (n : BitVec 8) (a : BitVec 26) (w : Bool) (v : Word) (s : State) : Result :=
  .next (s.dbgAccess n a w v)

/-- DBG_RELOCK (R482). -/
def execDbgRelock (s : State) : Result := .next s.dbgRelock

/-- LC_RETURN (R477). -/
def execLcReturn (s : State) : Result := .next s.lcReturn

/-- BYPASS (R481). -/
def execBypass (s : State) : Result := .next s.bypass

/-- TRST_N_LOW (R497). -/
def execTrstNLow (s : State) : Result := .next s.trst

end Sys2Proof.Machine
end

