-- ==== Sys2Proof/Machine/SpanRows.lean ====
section
/-! DEFINITION. Commands of the Span: ports, heartbeats, leases, takeover, handover, the journal. -/

namespace Sys2Proof.Machine

/-! ## The meanings -/

/-- SPN_CTL_EN (R351). -/
def execSpnCtlEn (b : By) (v : Word) (s : State) : Result := s.actDrain (fun s => s.doWrite b (SPN_CTL) v)

/-- HEARTBEAT_SEND (R355). -/
def execHeartbeatSend (q : Fin 2) (s : State) : Result := s.actSpan q.val (fun s => s.heartbeatSend q.val)

/-- HEARTBEAT (R359). -/
def execHeartbeat (q : Fin 2) (w : Word) (count : Word) (time : BitVec 64) (s : State) : Result :=
  s.actSpan q.val (fun s =>
    s.spanArrives q.val 0xFF00000001 (leBytes 4 w.toNat ++ leBytes 4 count.toNat ++ leBytes 8 time.toNat))

/-- PORT_SILENT (R356). -/
def execPortSilent (q : Fin 2) (s : State) : Result := s.actSpan q.val (fun s => s.silentDue q.val)

/-- HB_MISS (R356). -/
def execHbMiss (q : Fin 2) (s : State) : Result := s.actSpan q.val (fun s => s.heartbeatMissed q.val)

/-- LEASE_EXPIRY (R358). -/
def execLeaseExpiry (g : Fin 4) (s : State) : Result := s.actSeg g.val (fun s => s.leaseOut g.val)

/-- TAKEOVER (R360). -/
def execTakeover (g : Fin 4) (s : State) : Result := s.actSeg g.val (fun s => s.takeOver g.val)

/-- COLD_START_OWNER (R362). -/
def execColdStartOwner (g : Fin 4) (s : State) : Result := s.actSeg g.val (fun s => s.coldOwner g.val)

/-- HANDOVER (R363). -/
def execHandover (b : By) (segs : BitVec 4) (s : State) : Result :=
  s.actDrain (fun s => s.doPut b SPN_CMD_HANDOVER segs.toNat)

/-- HANDOVER_RELEASE (R363). -/
def execHandoverRelease (g : Fin 4) (s : State) : Result := s.actSeg g.val (fun s => s.handoverRelease g.val)

/-- HANDOVER_PACKET (R363). -/
def execHandoverPacket (q : Fin 2) (g : Fin 4) (s : State) : Result :=
  s.actSpan q.val (fun s => s.spanArrives q.val 0xFF00000002 (leBytes 4 g.val))

/-- HANDOVER_FAIL (R364). -/
def execHandoverFail (g : Fin 4) (s : State) : Result := s.actSeg g.val (fun s => s.handoverFail g.val)

/-- JOURNAL (R368). -/
def execJournal (q : Fin 2) (d : List Byte) (s : State) : Result :=
  s.actSpan q.val (fun s => s.spanArrives q.val 0xFF00000003 d)

/-- JOURNAL_ACKED (R367). -/
def execJournalAcked (g : Fin 4) (jseq : BitVec 16) (s : State) : Result :=
  s.actSeg g.val (fun s => s.journalAcked g.val jseq.toNat)

/-- RETIRE (R368). -/
def execRetire (q : Fin 2) (first : BitVec 16) (g : Fin 4) (count : BitVec 8) (s : State) : Result :=
  s.actSpan q.val (fun s =>
    s.spanArrives q.val 0xFF00000004 (leBytes 4 (first.toNat + g.val * 2 ^ 16 + count.toNat * 2 ^ 24)))

end Sys2Proof.Machine
end

