-- ==== Sys2Proof/Machine/StageRows.lean ====
section
/-! DEFINITION. Commands of the stage plan and of energy: timing registers, conversions, hold-up, the last gasp. -/

namespace Sys2Proof.Machine

/-! ## The meanings -/

/-- STG_TIM_WRITE (R291). -/
def execStgTimWrite (b : By) (v : Word) (s : State) : Result := s.actDrain (fun s => s.doWrite b (STG_TIM) v)

/-- STG_OFS_WRITE (R291). -/
def execStgOfsWrite (b : By) (v : Word) (s : State) : Result := s.actDrain (fun s => s.doWrite b (STG_OFS) v)

/-- PEAK_CLR (R313). -/
def execPeakClr (b : By) (s : State) : Result := s.actDrain (fun s => s.doPut b STG_CMD_PEAK_CLR 1)

/-- HOLDUP_SENSE_SAMPLE (R304). -/
def execHoldupSenseSample (code : BitVec 10) (s : State) : Result :=
  s.actAon (fun s => s.holdupSample code.toNat) (fun s => s.adcStore 0 code.toNat)

/-- VIN_SENSE_SAMPLE (R304). -/
def execVinSenseSample (code : BitVec 10) (s : State) : Result :=
  s.actAon (fun s => s.vinSample code.toNat) (fun s => s.adcStore 1 code.toNat)

/-- DIE_SENSOR_SAMPLE (R305). -/
def execDieSensorSample (code : BitVec 10) (s : State) : Result :=
  s.actAon (fun s => s.dieSample code.toNat) (fun s => s.dieStore code.toNat)

/-- HOLDUP_EXIT (R304). -/
def execHoldupExit (s : State) : Result := s.act (fun s => s.holdupExit)

/-- LASTGASP (R310). -/
def execLastgasp (b : By) (s : State) : Result := s.actDrain (fun s => s.doPut b NRG_CMD_LASTGASP 1)

/-- EXTREME_CLR (R315). -/
def execExtremeClr (b : By) (s : State) : Result := s.actDrain (fun s => s.doPut b NRG_CMD_EXTREME_CLR 1)

end Sys2Proof.Machine
end

