-- ==== Sys2Proof/Machine/Dispatch.lean ====
section
/-! DEFINITION. The effect of each command: one arm for each, a direct call of its meaning. -/

namespace Sys2Proof.Machine

def exec (i : Instr) (s : State) : Host.Outcome State Fault Refusal :=
  match i with
  | .mwr p h d bad => Sys2Proof.Machine.execMwr p h d bad s
  | .npw p h d bad => Sys2Proof.Machine.execNpw p h d bad s
  | .mrd p h bad => Sys2Proof.Machine.execMrd p h bad s
  | .atm p h d bad => Sys2Proof.Machine.execAtm p h d bad s
  | .seqQuery p h => Sys2Proof.Machine.execSeqQuery p h s
  | .seqSync p h => Sys2Proof.Machine.execSeqSync p h s
  | .rpl p h => Sys2Proof.Machine.execRpl p h s
  | .nop p h => Sys2Proof.Machine.execNop p h s
  | .cpl p h => Sys2Proof.Machine.execCpl p h s
  | .cpld p h d => Sys2Proof.Machine.execCpld p h d s
  | .voteWindowClose rpl n seq bad => Sys2Proof.Machine.execVoteWindowClose rpl n seq bad s
  | .recStallEnd p => Sys2Proof.Machine.execRecStallEnd p s
  | .executionEnd via n seq => Sys2Proof.Machine.execExecutionEnd via n seq s
  | .pendingMessageSend p => Sys2Proof.Machine.execPendingMessageSend p s
  | .noticeRelease n => Sys2Proof.Machine.execNoticeRelease n s
  | .hpCtlEn b p v => Sys2Proof.Machine.execHpCtlEn b p v s
  | .portEnterOn p => Sys2Proof.Machine.execPortEnterOn p s
  | .portDrainEnd p => Sys2Proof.Machine.execPortDrainEnd p s
  | .losAssert k => Sys2Proof.Machine.execLosAssert k s
  | .losDeassert k => Sys2Proof.Machine.execLosDeassert k s
  | .losLinkDown k => Sys2Proof.Machine.execLosLinkDown k s
  | .lolAssert k => Sys2Proof.Machine.execLolAssert k s
  | .lolDeassert k => Sys2Proof.Machine.execLolDeassert k s
  | .trainQuietEnd p => Sys2Proof.Machine.execTrainQuietEnd p s
  | .trainPresenceEnd p => Sys2Proof.Machine.execTrainPresenceEnd p s
  | .trainPhaseEnd p => Sys2Proof.Machine.execTrainPhaseEnd p s
  | .trainAlignEnd p slips0 slips1 h0 h1 w0 w1 => Sys2Proof.Machine.execTrainAlignEnd p slips0 slips1 h0 h1 w0 w1 s
  | .trainEqualiseEnd p e0 e1 => Sys2Proof.Machine.execTrainEqualiseEnd p e0 e1 s
  | .trainDeskewEnd p d0 d1 late => Sys2Proof.Machine.execTrainDeskewEnd p d0 d1 late s
  | .trainHandshakeEnd x => Sys2Proof.Machine.execTrainHandshakeEnd x s
  | .trainStepTimeout p x => Sys2Proof.Machine.execTrainStepTimeout p x s
  | .trainRetry p => Sys2Proof.Machine.execTrainRetry p s
  | .bitslip b k => Sys2Proof.Machine.execBitslip b k s
  | .flit p x => Sys2Proof.Machine.execFlit p x s
  | .nak p v => Sys2Proof.Machine.execNak p v s
  | .replayTimeout p => Sys2Proof.Machine.execReplayTimeout p s
  | .retrainBlock p => Sys2Proof.Machine.execRetrainBlock p s
  | .eidleBlock p => Sys2Proof.Machine.execEidleBlock p s
  | .wakeBurst p w0 w1 => Sys2Proof.Machine.execWakeBurst p w0 w1 s
  | .txEidleEntry p => Sys2Proof.Machine.execTxEidleEntry p s
  | .retrainPrbsEnd p u0 u1 w0 w1 v0 v1 => Sys2Proof.Machine.execRetrainPrbsEnd p u0 u1 w0 w1 v0 v1 s
  | .retrainRealignEnd p slips0 slips1 w0 w1 => Sys2Proof.Machine.execRetrainRealignEnd p slips0 slips1 w0 w1 s
  | .retrainResume p d0 d1 x => Sys2Proof.Machine.execRetrainResume p d0 d1 x s
  | .retrainLimit p => Sys2Proof.Machine.execRetrainLimit p s
  | .retrain b p => Sys2Proof.Machine.execRetrain b p s
  | .eidle b p => Sys2Proof.Machine.execEidle b p s
  | .wake b p => Sys2Proof.Machine.execWake b p s
  | .injectOne b k => Sys2Proof.Machine.execInjectOne b k s
  | .injectBurst b k => Sys2Proof.Machine.execInjectBurst b k s
  | .prbsClear b k => Sys2Proof.Machine.execPrbsClear b k s
  | .lnCtlMode b k m => Sys2Proof.Machine.execLnCtlMode b k m s
  | .suspectExpiry c => Sys2Proof.Machine.execSuspectExpiry c s
  | .rejoinTimeout c => Sys2Proof.Machine.execRejoinTimeout c s
  | .rejoinCopyTimeout n seq c => Sys2Proof.Machine.execRejoinCopyTimeout n seq c s
  | .exclude b c => Sys2Proof.Machine.execExclude b c s
  | .rejoin b c => Sys2Proof.Machine.execRejoin b c s
  | .highClr b => Sys2Proof.Machine.execHighClr b s
  | .ctxUnfence b n id => Sys2Proof.Machine.execCtxUnfence b n id s
  | .lockTimeout l => Sys2Proof.Machine.execLockTimeout l s
  | .semWaitTimeout order => Sys2Proof.Machine.execSemWaitTimeout order s
  | .semaphoreGrant n => Sys2Proof.Machine.execSemaphoreGrant n s
  | .compatInqRead n => Sys2Proof.Machine.execCompatInqRead n s
  | .wordAvailable n => Sys2Proof.Machine.execWordAvailable n s
  | .compatOutqWrite n v => Sys2Proof.Machine.execCompatOutqWrite n v s
  | .stallTimeout n => Sys2Proof.Machine.execStallTimeout n s
  | .arbitration a reqs => Sys2Proof.Machine.execArbitration a reqs s
  | .backoffEnd a who => Sys2Proof.Machine.execBackoffEnd a who s
  | .overhold g => Sys2Proof.Machine.execOverhold g s
  | .arbCommit b inst => Sys2Proof.Machine.execArbCommit b inst s
  | .responseCack g ns d x => Sys2Proof.Machine.execResponseCack g ns d x s
  | .responseCerr g ns => Sys2Proof.Machine.execResponseCerr g ns s
  | .responseCrty g x => Sys2Proof.Machine.execResponseCrty g x s
  | .lateRsp x => Sys2Proof.Machine.execLateRsp x s
  | .beatTimeout g => Sys2Proof.Machine.execBeatTimeout g s
  | .retryDelayEnd g order => Sys2Proof.Machine.execRetryDelayEnd g order s
  | .rspStuck g => Sys2Proof.Machine.execRspStuck g s
  | .rspStuckClear g => Sys2Proof.Machine.execRspStuckClear g s
  | .keeperPulseDue g => Sys2Proof.Machine.execKeeperPulseDue g s
  | .keepCut g => Sys2Proof.Machine.execKeepCut g s
  | .keeperPulseSeen g side count => Sys2Proof.Machine.execKeeperPulseSeen g side count s
  | .casNFall g => Sys2Proof.Machine.execCasNFall g s
  | .cintAssert g l => Sys2Proof.Machine.execCintAssert g l s
  | .cintRelease g l => Sys2Proof.Machine.execCintRelease g l s
  | .cintRearm g l => Sys2Proof.Machine.execCintRearm g l s
  | .arm b g lines => Sys2Proof.Machine.execArm b g lines s
  | .pollTimeout g => Sys2Proof.Machine.execPollTimeout g s
  | .cbrRequest g => Sys2Proof.Machine.execCbrRequest g s
  | .lmAcceptance g spc addr => Sys2Proof.Machine.execLmAcceptance g spc addr s
  | .grantLost g => Sys2Proof.Machine.execGrantLost g s
  | .lmWatchdog g => Sys2Proof.Machine.execLmWatchdog g s
  | .lmTenureEnd g => Sys2Proof.Machine.execLmTenureEnd g s
  | .inboundWrite g bytes => Sys2Proof.Machine.execInboundWrite g bytes s
  | .inboundRead g addrs => Sys2Proof.Machine.execInboundRead g addrs s
  | .inbRetry g => Sys2Proof.Machine.execInbRetry g s
  | .inboundFetchEnd g id => Sys2Proof.Machine.execInboundFetchEnd g id s
  | .prefetchHoldEnd g id => Sys2Proof.Machine.execPrefetchHoldEnd g id s
  | .inboundDrain g => Sys2Proof.Machine.execInboundDrain g s
  | .segCtlEn b g v => Sys2Proof.Machine.execSegCtlEn b g v s
  | .ownershipTake g => Sys2Proof.Machine.execOwnershipTake g s
  | .busRelease g => Sys2Proof.Machine.execBusRelease g s
  | .segDrainEnd g => Sys2Proof.Machine.execSegDrainEnd g s
  | .cardReset b g => Sys2Proof.Machine.execCardReset b g s
  | .cardResetEnd g => Sys2Proof.Machine.execCardResetEnd g s
  | .scrubRead found => Sys2Proof.Machine.execScrubRead found s
  | .legBoundary => Sys2Proof.Machine.execLegBoundary s
  | .carryEnd img => Sys2Proof.Machine.execCarryEnd img s
  | .imgCfgWrite b img r v => Sys2Proof.Machine.execImgCfgWrite b img r v s
  | .mirroredLine q line bad d => Sys2Proof.Machine.execMirroredLine q line bad d s
  | .commitRecord q img gen flags time => Sys2Proof.Machine.execCommitRecord q img gen flags time s
  | .resync q img => Sys2Proof.Machine.execResync q img s
  | .ctxCtlEn b n v => Sys2Proof.Machine.execCtxCtlEn b n v s
  | .ctxDrainEnd n => Sys2Proof.Machine.execCtxDrainEnd n s
  | .kick b n => Sys2Proof.Machine.execKick b n s
  | .ctxResume b n => Sys2Proof.Machine.execCtxResume b n s
  | .workItemDispatch k => Sys2Proof.Machine.execWorkItemDispatch k s
  | .threadBind c => Sys2Proof.Machine.execThreadBind c s
  | .overdraft n => Sys2Proof.Machine.execOverdraft n s
  | .waitTimeout n => Sys2Proof.Machine.execWaitTimeout n s
  | .courCtlEn b c v => Sys2Proof.Machine.execCourCtlEn b c v s
  | .lockstepMismatch x => Sys2Proof.Machine.execLockstepMismatch x s
  | .migrationEnd c => Sys2Proof.Machine.execMigrationEnd c s
  | .courierTestEnd c pass => Sys2Proof.Machine.execCourierTestEnd c pass s
  | .add n => Sys2Proof.Machine.execAdd n s
  | .sub n => Sys2Proof.Machine.execSub n s
  | .and n => Sys2Proof.Machine.execAnd n s
  | .or n => Sys2Proof.Machine.execOr n s
  | .xor n => Sys2Proof.Machine.execXor n s
  | .shl n => Sys2Proof.Machine.execShl n s
  | .shr n => Sys2Proof.Machine.execShr n s
  | .sra n => Sys2Proof.Machine.execSra n s
  | .ror n => Sys2Proof.Machine.execRor n s
  | .mul n => Sys2Proof.Machine.execMul n s
  | .cmp n => Sys2Proof.Machine.execCmp n s
  | .swap16 n => Sys2Proof.Machine.execSwap16 n s
  | .swap32 n => Sys2Proof.Machine.execSwap32 n s
  | .crc32c n => Sys2Proof.Machine.execCrc32c n s
  | .jr n => Sys2Proof.Machine.execJr n s
  | .jalr n => Sys2Proof.Machine.execJalr n s
  | .addi n => Sys2Proof.Machine.execAddi n s
  | .andi n => Sys2Proof.Machine.execAndi n s
  | .ori n => Sys2Proof.Machine.execOri n s
  | .xori n => Sys2Proof.Machine.execXori n s
  | .lui n => Sys2Proof.Machine.execLui n s
  | .cmpi n => Sys2Proof.Machine.execCmpi n s
  | .shi n => Sys2Proof.Machine.execShi n s
  | .bfx n => Sys2Proof.Machine.execBfx n s
  | .bfi n => Sys2Proof.Machine.execBfi n s
  | .ldw n found => Sys2Proof.Machine.execLdw n found s
  | .ldh n found => Sys2Proof.Machine.execLdh n found s
  | .ldb n found => Sys2Proof.Machine.execLdb n found s
  | .stw n => Sys2Proof.Machine.execStw n s
  | .sth n => Sys2Proof.Machine.execSth n s
  | .stb n => Sys2Proof.Machine.execStb n s
  | .ldd n found => Sys2Proof.Machine.execLdd n found s
  | .std n => Sys2Proof.Machine.execStd n s
  | .ldl n x => Sys2Proof.Machine.execLdl n x s
  | .stl x => Sys2Proof.Machine.execStl x s
  | .b n => Sys2Proof.Machine.execB n s
  | .bl n => Sys2Proof.Machine.execBl n s
  | .mvd n => Sys2Proof.Machine.execMvd n s
  | .mfd n => Sys2Proof.Machine.execMfd n s
  | .cyr n => Sys2Proof.Machine.execCyr n s
  | .cyw n => Sys2Proof.Machine.execCyw n s
  | .cywn n => Sys2Proof.Machine.execCywn n s
  | .cyl n => Sys2Proof.Machine.execCyl n s
  | .poll n => Sys2Proof.Machine.execPoll n s
  | .trd n => Sys2Proof.Machine.execTrd n s
  | .wait n => Sys2Proof.Machine.execWait n s
  | .msg n => Sys2Proof.Machine.execMsg n s
  | .qput n => Sys2Proof.Machine.execQput n s
  | .qget n => Sys2Proof.Machine.execQget n s
  | .evt n => Sys2Proof.Machine.execEvt n s
  | .time n => Sys2Proof.Machine.execTime n s
  | .budget n => Sys2Proof.Machine.execBudget n s
  | .yield n => Sys2Proof.Machine.execYield n s
  | .trap n => Sys2Proof.Machine.execTrap n s
  | .rett n => Sys2Proof.Machine.execRett n s
  | .sysr n => Sys2Proof.Machine.execSysr n s
  | .stgTimWrite b v => Sys2Proof.Machine.execStgTimWrite b v s
  | .stgOfsWrite b v => Sys2Proof.Machine.execStgOfsWrite b v s
  | .peakClr b => Sys2Proof.Machine.execPeakClr b s
  | .holdupSenseSample code => Sys2Proof.Machine.execHoldupSenseSample code s
  | .vinSenseSample code => Sys2Proof.Machine.execVinSenseSample code s
  | .dieSensorSample code => Sys2Proof.Machine.execDieSensorSample code s
  | .holdupExit => Sys2Proof.Machine.execHoldupExit s
  | .lastgasp b => Sys2Proof.Machine.execLastgasp b s
  | .extremeClr b => Sys2Proof.Machine.execExtremeClr b s
  | .queReset b q => Sys2Proof.Machine.execQueReset b q s
  | .quePush b q v => Sys2Proof.Machine.execQuePush b q v s
  | .quePop n q len found => Sys2Proof.Machine.execQuePop n q len found s
  | .queCfgWrite b q rbase v => Sys2Proof.Machine.execQueCfgWrite b q rbase v s
  | .openTmo q => Sys2Proof.Machine.execOpenTmo q s
  | .positionMismatch q => Sys2Proof.Machine.execPositionMismatch q s
  | .chainTestEnd q pass => Sys2Proof.Machine.execChainTestEnd q pass s
  | .intItemEnqueue g => Sys2Proof.Machine.execIntItemEnqueue g s
  | .bridgeRecordEnqueue q => Sys2Proof.Machine.execBridgeRecordEnqueue q s
  | .spnCtlEn b v => Sys2Proof.Machine.execSpnCtlEn b v s
  | .heartbeatSend q => Sys2Proof.Machine.execHeartbeatSend q s
  | .heartbeat q w count time => Sys2Proof.Machine.execHeartbeat q w count time s
  | .portSilent q => Sys2Proof.Machine.execPortSilent q s
  | .hbMiss q => Sys2Proof.Machine.execHbMiss q s
  | .takeover g => Sys2Proof.Machine.execTakeover g s
  | .coldStartOwner g => Sys2Proof.Machine.execColdStartOwner g s
  | .handover b segs => Sys2Proof.Machine.execHandover b segs s
  | .handoverRelease g => Sys2Proof.Machine.execHandoverRelease g s
  | .handoverPacket q g => Sys2Proof.Machine.execHandoverPacket q g s
  | .handoverFail g => Sys2Proof.Machine.execHandoverFail g s
  | .journal q d => Sys2Proof.Machine.execJournal q d s
  | .journalAcked g jseq => Sys2Proof.Machine.execJournalAcked g jseq s
  | .retire q first g count => Sys2Proof.Machine.execRetire q first g count s
  | .opcCtlEn b k v => Sys2Proof.Machine.execOpcCtlEn b k v s
  | .chainEnterOn k => Sys2Proof.Machine.execChainEnterOn k s
  | .frameStart k => Sys2Proof.Machine.execFrameStart k s
  | .upRecord k d => Sys2Proof.Machine.execUpRecord k d s
  | .frameEnd k => Sys2Proof.Machine.execFrameEnd k s
  | .frameTmo k => Sys2Proof.Machine.execFrameTmo k s
  | .opcResume b k mask => Sys2Proof.Machine.execOpcResume b k mask s
  | .opcChaWrite b k o c v => Sys2Proof.Machine.execOpcChaWrite b k o c v s
  | .opcChbWrite b k o c v => Sys2Proof.Machine.execOpcChbWrite b k o c v s
  | .opcCfgWrite b k v => Sys2Proof.Machine.execOpcCfgWrite b k v s
  | .faultTestStart item bad => Sys2Proof.Machine.execFaultTestStart item bad s
  | .rowCopyEnd q u => Sys2Proof.Machine.execRowCopyEnd q u s
  | .rowMarchEnd q u pass => Sys2Proof.Machine.execRowMarchEnd q u pass s
  | .rowRestoreEnd q u => Sys2Proof.Machine.execRowRestoreEnd q u s
  | .innkeeperFault => Sys2Proof.Machine.execInnkeeperFault s
  | .fltLaneReturn b mask => Sys2Proof.Machine.execFltLaneReturn b mask s
  | .eventRateEnd e => Sys2Proof.Machine.execEventRateEnd e s
  | .evtPendClear b j mask => Sys2Proof.Machine.execEvtPendClear b j mask s
  | .registerWrite b a v => Sys2Proof.Machine.execRegisterWrite b a v s
  | .rcRead n a => Sys2Proof.Machine.execRcRead n a s
  | .counterPairRead n a => Sys2Proof.Machine.execCounterPairRead n a s
  | .slowAccessEnd d => Sys2Proof.Machine.execSlowAccessEnd d s
  | .cfgUnlock b key => Sys2Proof.Machine.execCfgUnlock b key s
  | .guardRelock => Sys2Proof.Machine.execGuardRelock s
  | .cfgCommit b => Sys2Proof.Machine.execCfgCommit b s
  | .checkPassStart => Sys2Proof.Machine.execCheckPassStart s
  | .checkPassEnd => Sys2Proof.Machine.execCheckPassEnd s
  | .commitPassEnd => Sys2Proof.Machine.execCommitPassEnd s
  | .dirtyTimeout => Sys2Proof.Machine.execDirtyTimeout s
  | .erase b slot => Sys2Proof.Machine.execErase b slot s
  | .program b slot => Sys2Proof.Machine.execProgram b slot s
  | .verify b slot => Sys2Proof.Machine.execVerify b slot s
  | .armTrial b slot => Sys2Proof.Machine.execArmTrial b slot s
  | .writeSettings b => Sys2Proof.Machine.execWriteSettings b s
  | .restart b force => Sys2Proof.Machine.execRestart b force s
  | .reject b force => Sys2Proof.Machine.execReject b force s
  | .bootCmdEnd flashBad => Sys2Proof.Machine.execBootCmdEnd flashBad s
  | .confirm b => Sys2Proof.Machine.execConfirm b s
  | .lifecycleToField b => Sys2Proof.Machine.execLifecycleToField b s
  | .keyHash b => Sys2Proof.Machine.execKeyHash b s
  | .dbgHash b => Sys2Proof.Machine.execDbgHash b s
  | .load b => Sys2Proof.Machine.execLoad b s
  | .extest cells => Sys2Proof.Machine.execExtest cells s
  | .samplePreload cells => Sys2Proof.Machine.execSamplePreload cells s
  | .idcode => Sys2Proof.Machine.execIdcode s
  | .freeze => Sys2Proof.Machine.execFreeze s
  | .frzRead a => Sys2Proof.Machine.execFrzRead a s
  | .traceRead entry w => Sys2Proof.Machine.execTraceRead entry w s
  | .frzScan => Sys2Proof.Machine.execFrzScan s
  | .dbgAuth key sig => Sys2Proof.Machine.execDbgAuth key sig s
  | .dbgAccess n a w v => Sys2Proof.Machine.execDbgAccess n a w v s
  | .dbgRelock => Sys2Proof.Machine.execDbgRelock s
  | .lcReturn => Sys2Proof.Machine.execLcReturn s
  | .bypass => Sys2Proof.Machine.execBypass s
  | .freezeNFall => Sys2Proof.Machine.execFreezeNFall s
  | .glitch k => Sys2Proof.Machine.execGlitch k s
  | .powerOn => Sys2Proof.Machine.execPowerOn s
  | .resetPin => Sys2Proof.Machine.execResetPin s
  | .resetEnd side freezeN => Sys2Proof.Machine.execResetEnd side freezeN s
  | .xspiResetEnd => Sys2Proof.Machine.execXspiResetEnd s
  | .supplyOutOfRange sup => Sys2Proof.Machine.execSupplyOutOfRange sup s
  | .supplyInRange sup => Sys2Proof.Machine.execSupplyInRange sup s
  | .pllWarn => Sys2Proof.Machine.execPllWarn s
  | .tsyncEdge => Sys2Proof.Machine.execTsyncEdge s
  | .tsyncMiss => Sys2Proof.Machine.execTsyncMiss s
  | .timeBaseHoldEnd => Sys2Proof.Machine.execTimeBaseHoldEnd s
  | .set b => Sys2Proof.Machine.execSet b s
  | .setNow b => Sys2Proof.Machine.execSetNow b s
  | .responseRelease g => Sys2Proof.Machine.execResponseRelease g s
  | .cbrRelease g => Sys2Proof.Machine.execCbrRelease g s
  | .leaseExpiry g => Sys2Proof.Machine.execLeaseExpiry g s
  | .slotTestEnd recFails slotsFail => Sys2Proof.Machine.execSlotTestEnd recFails slotsFail s
  | .startComplete good failA failB => Sys2Proof.Machine.execStartComplete good failA failB s
  | .startFailReset good failA failB => Sys2Proof.Machine.execStartFailReset good failA failB s
  | .segmentWaitTimeout g order => Sys2Proof.Machine.execSegmentWaitTimeout g order s
  | .trstNLow => Sys2Proof.Machine.execTrstNLow s
  | .fuseWriteEnd n => Sys2Proof.Machine.execFuseWriteEnd n s
  | .msgPacket p h d => Sys2Proof.Machine.execMsgPacket p h d s

end Sys2Proof.Machine
end

