-- ==== Sys2Proof/Machine/Tick.lean ====
section
/-! DEFINITION. What the block does while no command waits: one TIME cycle passes. -/

namespace Sys2Proof.Machine

/-- One TIME cycle of 10 ns with no command (DESIGN CHOICE, log 2): every port sends on its lanes the four words of
that time, a flit where its link is up, as R79 gives one flit 10 ns. Held in reset or frozen, the clock of the AON domain alone runs (R484, R498). -/
def State.tick (s : State) : State :=
  match s.power with
  | .run => (List.range s.member.ports).foldl (fun s p => s.portOut p) (s.elapse 10)
  | _ => { s with clk := s.clk + 10 }

end Sys2Proof.Machine
end

