-- ==== Sys2Proof/Machine/Pins.lean ====
section
/-! DEFINITION. What stands on the transceiver pins and the owner's own lines of a segment (R166 to R168, R197 to R199),
at any instant, as a function of the state. -/

namespace Sys2Proof.Machine

/-- The pins of a segment that the bridge alone drives (R166): COE_N[1:0], CDIR[2:0], whether CCLK runs, CBG_N and
CRST_N. -/
structure SegPins where
  coeN : BitVec 2
  cdir : BitVec 3
  cclk : Bool
  cbgN : Bool
  crstN : Bool
  deriving DecidableEq, Repr

/-- The pins with every transceiver receiving and both enables high. -/
def SegPins.off : SegPins := ⟨3, 0, false, true, true⟩

/-- Whether COE_N[1:0] are held high (R167, R168): in reset, in freeze, with VDD_CORE out of its range, in OFF, and on a
segment that the member does not have. -/
def State.segOff (s : State) (g : Nat) : Bool :=
  s.power != .run || bitAt s.supOut 0 || s.segState g == 0 || !s.hasSeg g

/-- Whether the bridge drives CAD in its cycle in progress (R167, R173, R177): always but in the data of a read. -/
def State.drivesCad (s : State) (g : Nat) (b : BusBeat) : Bool :=
  let setup := if b.cb32 then 0 else 40 + s.stretch g + s.turn g
  b.job.write || decide (s.clk + setup < b.beatAt + s.pulseAt g b)

/-- CDIR[2:0] of an owner by the phase of its bus (R167). -/
def State.cdir (s : State) (g : Nat) : BitVec 3 :=
  match (s.seg g).cycle with
  | .idle => 2
  | .job _ _ _ _ _ _ _ _ _ => if (s.onBus g).any (s.drivesCad g) then 3 else 2
  | .release ends _ write => if write && decide (s.clk < ends) then 3 else 2
  | .lmGrant _ => 0
  | .lmTenure _ _ spc addr reads =>
    if spc == 0 && (s.inbArea g addr).isSome then (if reads then 5 else 4) else 0

/-- Whether CBG_N is low (R190, R191): for a granted legacy master, and for a poll's data pulse. -/
def State.grants (s : State) (g : Nat) : Bool :=
  match (s.seg g).cycle with
  | .lmGrant at_ => decide (at_ ≤ s.clk)
  | .job _ _ _ _ _ _ _ _ _ =>
    (s.onBus g).any (fun b => b.job.poll.isSome && decide (b.beatAt + s.pulseAt g b ≤ s.clk))
  | _ => false

/-- The pins of segment `g` (R166 to R168). -/
def State.segPins (s : State) (g : Nat) : SegPins :=
  if s.segOff g then .off
  else if s.get (SEG_STAT_ROLE g) = 2 then
    { coeN := 0, cdir := s.cdir g, cclk := s.on (SEG_CTL_MODE g), cbgN := !s.grants g,
      crstN := !s.on (SEG_STAT_CRST_ACTIVE g) }
  else { SegPins.off with coeN := 2 }

/-- The control balls that the bridge drives: ALERT_N and PWR_OK, each open-drain, and XSPI_RST_N. -/
structure ControlPins where
  alertN : Bool
  pwrOk : Bool
  xspiRstN : Bool
  deriving DecidableEq, Repr

/-- The control balls (R421, R498, R501, R520): ALERT_N is low while a source that alerts is pending and no reset is
held, PWR_OK is released while every monitored supply is in range and no reset is held (DEDUCED, log 150), and
XSPI_RST_N is low during reset and for 50 µs after it. -/
def State.controlPins (s : State) : ControlPins :=
  { alertN := s.power == .held || s.alerting.isNone,
    pwrOk := s.power != .held && s.supOut == 0,
    xspiRstN := s.power != .held && !s.xspiLow }

/-- Whether every lane transmitter drives zero differential amplitude: in reset and in freeze (R484, R498). -/
def State.lanesQuiet (s : State) : Bool := s.power != .run

/-- What stands on OPc_OPD of chain `k` between frames (R379, R402): low in OFF, in reset, in freeze and on a chain that
the member does not have, else idle pairs. -/
def State.chainLine (s : State) (k : Nat) : ChainLine :=
  if s.power != .run || s.chainState k == 0 || decide (s.member.chains ≤ k) then .low else .idle

end Sys2Proof.Machine
end

