-- ==== Sys2Proof/Safety.lean ====
section
/-! DEFINITION. What claims say of a run: a step that answers a next state, the canonical form of the memories, a state
in which nothing is under way, a register write that nothing turns away, a packet that meets no error. -/

namespace Sys2Proof.Machine

/-- The canonical form of a memory whose unlisted bytes read as `d`: addresses rise, and no entry equals `d`. -/
def Memory.wf (m : List Host.Cell) (d : Byte) : Bool := mwf m d

/-- Every memory of the block is in canonical form: the Ledger, queue RAM, the couriers' instruction and data memory,
the last-gasp record, and the flash, whose erased bytes are 0xFF. -/
def State.memOk (s : State) : Bool :=
  Memory.wf s.ledger 0 && Memory.wf s.qram 0 && Memory.wf s.imem 0 && Memory.wf s.dmem 0 &&
    Memory.wf s.lastGasp 0 && Memory.wf s.flash 0xFF

/-- A command completes in a state: it answers a next state. -/
def Completes (i : Instr) (s : State) : Prop := ∃ t, exec i s = .next t

/-- A safe step stops with neither a fault nor a refusal. -/
def SafeStep (s : State) : Prop := ∃ t, step s = .next t

/-- No accepted request executes and no cycle waits on a segment: `State.drain` finds nothing to do. -/
def State.quiet (s : State) : Bool := s.execs.isEmpty && (List.range 4).all (fun g => (s.seg g).jobs.isEmpty)

/-! ## Register writes -/

/-- The fields of the register at a real address. -/
def fieldsOf (a : Nat) : List FRow :=
  match regRow a with
  | some r => r.fields
  | none => []

/-- The word that a write of `v` leaves in the register at a real address (R7 to R9, R436). -/
def State.newWord (s : State) (a : Nat) (v : Word) : Word :=
  s.adjust a (s.word a) (fieldsNext (fieldsOf a) (s.word a) v)

/-- Whether the requester is the Innkeeper. -/
def isInn (b : By) : Bool := match b.who with
  | .innkeeper => true
  | _ => false

/-- Whether the guard turns a write away (R438). -/
def State.guards (s : State) (b : By) (a : Nat) (v : Word) : Bool :=
  (fieldsOf a).any (·.guarded) && !isInn b && !s.ownsGuard b.ctx.toNat &&
    guardTouched (fieldsOf a) (s.word a) (s.newWord a v) v

/-- Whether a write of `v` by `b` reaches the register at the real address `a`: the register is that of a unit present on
the member and not of context 0 (R251) or of an absent source (R4), and the guard lets the write through. -/
def State.reaches (s : State) (b : By) (a : Nat) (v : Word) : Bool :=
  selOf a == .reg a && s.member.present a && (regRow a).isSome && !(decide (0xc0000 ≤ a) && decide (a < 0xc0100)) &&
    !s.member.noSource a && !s.guards b a v

/-- The state in which a write's word is stored: a write of a guarded register by the owner of the guard ends its
ownership (R437, R438). -/
def State.admitted (s : State) (b : By) (a : Nat) : State :=
  if (fieldsOf a).any (·.guarded) && !isInn b && s.ownsGuard b.ctx.toNat then s.lockGuard else s

/-- The state with a write's new word stored and the configuration check told of a covered register (R442): what the
write does besides comes after it. -/
def State.stored (s : State) (b : By) (a : Nat) (v : Word) : State :=
  let t := (s.admitted b a).setWord a (s.newWord a v)
  if (fieldsOf a).any (·.covered) then t.coveredWrite else t

/-- The word of a write that gives one field a value and leaves the plainly writable fields as they stand. -/
def State.putWordOf (s : State) (f : FRef) (x : Nat) : Word := setBits (s.plainWord f.reg) f.lo f.w x

/-! ## Packets -/

/-- Whether a header and its data agree (R29 to R32, R59): the VC is the TYPE's, LEN counts the data, an access stays
in one 4 KB page, an ATM has a size of R31, a SEQ has an OP of R56. -/
def pktAgrees (k : Pkt) : Bool :=
  let h := k.h
  typeVc h.type == some h.vc && (!usesLen h.type || decide (h.len ≤ 255)) &&
    k.data.length == (if hasData h.type then h.len + 1 else 0) &&
    (h.type != tATM || (atomicSize h.op h.len h.addr).isSome) &&
    (!isAccess h.type || decide (h.addr % 4096 + h.len + 1 ≤ 4096)) && (h.type != tSEQ || decide (h.op ≤ 1))

/-- Whether a packet arrives on port `p` without an error (R59): the port is there with its link up, the header and the
data agree, the TYPE may arrive there, a non-posted request's tag is in range and free (R38), the ORIGIN is the port's
own where it is checked, and the receive buffer granted has room (R48). -/
def State.takes (s : State) (p : Nat) (k : Pkt) : Bool :=
  s.hasPort p && s.linkUp p && pktAgrees k && k.h.type != tMSG &&
    (decide (3 ≤ p) || (k.h.type != tCPL && k.h.type != tCPLD)) &&
    (!nonPosted k.h.type || (decide (k.h.tag < tagRange p) && !(s.port p).tags.contains k.h.tag)) &&
    (decide (3 ≤ p) || !s.on (HP_CTL_ORIGIN_CHK p) || k.h.origin == p) && s.hasRoom p k

end Sys2Proof.Machine
end

