-- ==== Sys2Proof/Certificates/Slice0/Obligations.lean ====
section
/-! DEFINITION. The statements for the provers. The clauses of a statement stand before it, one definition for each
command or law, in the namespace Claims. -/

namespace Sys2Proof.Claims

open Sys2Proof.Machine

/-! ## Packets from the ports -/

/-- A packet of a type with a header's other fields. -/
def packet (t : Nat) (h : Hdr) (d : List Byte) : Pkt := ⟨h.withType t, d⟩

/-- The state of a port that has taken a packet's buffer space and, of a non-posted request, its tag (R38, R45); on a
span port, the partner has been heard (R372). -/
def received (s : State) (p : Nat) (k : Pkt) : State :=
  if nonPosted k.h.type then ((s.heardOn p).takeRoom p k).takeTag p k.h.tag else (s.heardOn p).takeRoom p k

/-- Where the completions of a request of port `p` go. -/
def owedTo (p : Nat) (k : Pkt) : Dest := if nonPosted k.h.type then .port p k.h.tag else .port p 0

/-- No request waits at the port that the packet may not pass (R49, R103). -/
def nothingWaits (s : State) (p : Nat) (k : Pkt) : Bool := !(s.port p).stalled.any (fun y => s.holdsBack y.pkt k)

/-- The packet leaves the receive buffer of port `p`: its space is returned (R46), and copies that waited behind it and
need no record leave too (R49, R103). -/
def leaves (s : State) (p : Nat) (k : Pkt) : State :=
  let t := s.freeRx p k
  t.releaseHeld t.stalledCount

/-- The conditions under which a request of a SINGLE context is accepted from its owner's port (R35, R60, R100, R119,
R250). -/
def singleRequest (s : State) (p : Nat) (k : Pkt) : Bool :=
  s.power == .run && s.takes p k && s.portState p == 2 && nothingWaits s p k &&
    (s.openFor false k.h.ctx k.h.seq).isNone && !s.isVoted k.h.ctx && !k.h.voted &&
    s.get (CTX_VOTE_OWNER k.h.ctx) == p && s.ctxState k.h.ctx == 2 && !s.on (CTX_FENCE_FENCED k.h.ctx) &&
    s.inRange k.h.ctx k.h.seq && !s.accepted k.h.ctx k.h.seq

/-- The channel of a host port (R17). -/
def channelOf (p : Nat) : Fin 3 := if p = 0 then 0 else if p = 1 then 1 else 2

/-- What the acceptance of such a request leaves: its SEQ accepted, an execution for the port's tag, its buffer space
returned, and what may start started (R15, R35, R46, R100). -/
def singleAccepted (s : State) (p : Nat) (k : Pkt) : State :=
  (leaves (((received s p k).accept k.h.ctx k.h.seq).addExec (owedTo p k) (.single (channelOf p)) k none p [p]) p
    k).drain

/-- MWR, NPW, MRD and ATM of a SINGLE context from its owner's port are accepted. -/
def singleRequestsAccepted : Prop :=
  ∀ (s : State) (p : Fin 5) (h : Hdr) (d : List Byte) (bad : Bool), p.val < 3 →
    (singleRequest s p (packet tMWR h d) = true →
      exec (.mwr p h d bad) s = .next (singleAccepted s p (packet tMWR h d))) ∧
    (singleRequest s p (packet tNPW h d) = true →
      exec (.npw p h d bad) s = .next (singleAccepted s p (packet tNPW h d))) ∧
    (singleRequest s p (packet tMRD h []) = true →
      exec (.mrd p h bad) s = .next (singleAccepted s p (packet tMRD h []))) ∧
    (singleRequest s p (packet tATM h d) = true →
      exec (.atm p h d bad) s = .next (singleAccepted s p (packet tATM h d)))

/-- The conditions under which a request of the partner is accepted (R101, R252). -/
def spanRequest (s : State) (p : Nat) (k : Pkt) : Bool :=
  s.power == .run && s.takes p k && s.portState p == 2 && !isSpanControl k && s.ctxState k.h.ctx == 2 &&
    !s.on (CTX_FENCE_FENCED k.h.ctx)

/-- What the acceptance of such a request leaves (R46, R101). -/
def spanAccepted (s : State) (p : Nat) (k : Pkt) : State :=
  (((received s p k).addExec (owedTo p k) (.span k.h.voted) k (some (p - 3)) p [p]).freeRx p k).drain

/-- MWR, NPW, MRD and ATM from the partner are accepted with no vote and no sequence check. -/
def spanRequestsAccepted : Prop :=
  ∀ (s : State) (p : Fin 5) (h : Hdr) (d : List Byte) (bad : Bool), 3 ≤ p.val →
    (spanRequest s p (packet tMWR h d) = true →
      exec (.mwr p h d bad) s = .next (spanAccepted s p (packet tMWR h d))) ∧
    (spanRequest s p (packet tNPW h d) = true →
      exec (.npw p h d bad) s = .next (spanAccepted s p (packet tNPW h d))) ∧
    (spanRequest s p (packet tMRD h []) = true →
      exec (.mrd p h bad) s = .next (spanAccepted s p (packet tMRD h []))) ∧
    (spanRequest s p (packet tATM h d) = true →
      exec (.atm p h d bad) s = .next (spanAccepted s p (packet tATM h d)))

/-- A service request at a host port that is ON: it arrives without an error, and nothing of its context waits. -/
def serviceRequest (s : State) (p : Nat) (k : Pkt) : Bool :=
  s.power == .run && decide (p < 3) && s.takes p k && s.portState p == 2 && nothingWaits s p k

/-- What the service of such a request by `f` leaves: its tag taken, its buffer space returned. -/
def served (s : State) (p : Nat) (k : Pkt) (f : State → State) : State := (leaves (f (received s p k)) p k).drain

/-- A SEQ QUERY at a host port that is ON is answered with the 16 bytes of R56, whatever its context's state. -/
def seqQueryAnswered : Prop :=
  ∀ (s : State) (p : Fin 5) (h : Hdr) (k : Pkt), k = packet tSEQ (h.withOp 0) [] → serviceRequest s p k = true →
    exec (.seqQuery p h) s = .next (served s p k (fun u => u.answerSeq p k.h.tag k.h))

/-- A SEQ SYNC of a REJOINING channel on a VOTED context that is ON takes its snapshot (R57, R127). -/
def seqSyncTaken : Prop :=
  ∀ (s : State) (p : Fin 5) (h : Hdr) (k : Pkt), k = packet tSEQ (h.withOp 1) [] → serviceRequest s p k = true →
    k.h.ctx ≠ 0 → s.isVoted k.h.ctx = true → s.ctxState k.h.ctx = 2 → s.chState p = 3 →
      exec (.seqSync p h) s = .next (served s p k (fun u => u.sync p k.h.tag k.h))

/-- An RPL that no vote decides replays the messages from its number on to its own port (R58). -/
def rplReplayed : Prop :=
  ∀ (s : State) (p : Fin 5) (h : Hdr) (k : Pkt), k = packet tRPL h [] → serviceRequest s p k = true →
    s.openFor true k.h.ctx k.h.seq = none → s.ctxState k.h.ctx = 2 → k.h.voted = false →
      exec (.rpl p h) s = .next (served s p k (fun u =>
        u.replayTo p k.h.tag k.h (s.replayOf k.h.ctx k.h.seq).1 (s.replayOf k.h.ctx k.h.seq).2))

/-- The credits that a port holds after a NOP with the given header (R45). -/
def creditsAfter (s : State) (p : Nat) (h : Hdr) : Credits :=
  (s.port p).tx.add ⟨bits h.w2 0 8, bits h.w2 8 8, bits h.w2 16 8, bits h.w2 24 8⟩

/-- A port whose credits to send are as given, 4095 of a kind at most (R48). -/
def creditsHeld (s : State) (p : Nat) (c : Credits) : State :=
  s.setPort p { s.port p with tx := ⟨min 4095 c.ph, min 4095 c.pd, min 4095 c.nh, min 4095 c.nd⟩ }

/-- A NOP adds its credits; a kind that would exceed 4095 is held at 4095 and is a protocol error; on a span port the
control packets that waited for credits go out (R45, R48, R59, R352). -/
def nopGrantsCredits : Prop :=
  ∀ (s t : State) (p : Fin 5) (h : Hdr) (c : Credits), s.power = .run → s.hasPort p = true → s.linkUp p = true →
    h.vc = 0 → c = creditsAfter s p h → t = creditsHeld (s.heardOn p) p c →
      (c.ph ≤ 4095 → c.pd ≤ 4095 → c.nh ≤ 4095 → c.nd ≤ 4095 →
        exec (.nop p h) s = .next ((if p.val < 3 then t
          else t.flushControl (mget t.span.queue (p - 3) []).length (p - 3)).drain)) ∧
      (4095 < c.ph ∨ 4095 < c.pd ∨ 4095 < c.nh ∨ 4095 < c.nd → p.val < 3 →
        exec (.nop p h) s = .next ((t.protoError p (h.withType tNOP) 0x0B).drain))

/-- The bytes of data that a forwarded request is owed (R24). -/
def owedBytes (e : Exec) : Nat := if e.is tATM then e.operand else if e.is tMRD then e.len else 0

/-- CPL and CPLD with a status of R42 on a span port answer the request forwarded under their tag: without data or with
a status that is not SC it ends with that status; with the last of the data owed it ends with them, with less it goes on
(R24, R40). -/
def completionsTaken : Prop :=
  ∀ (s : State) (p : Fin 5) (h : Hdr) (d : List Byte) (k : Pkt) (e : Exec), s.power = .run → 3 ≤ p.val →
    s.takes p k = true → k.h.op ≤ 9 → s.execs.find? (fun e => e.stage == .forwarded (p.val - 3) k.h.tag) = some e →
    (k = packet tCPL h [] →
      exec (.cpl p h) s = .next (((s.heardOn p).endExec e k.h.op e.sent (e.taddr + e.sent) 1 []).drain)) ∧
    (k = packet tCPLD h d → k.h.op = stSC →
      exec (.cpld p h d) s = .next ((if e.sent + d.length < owedBytes e then (s.heardOn p).partExec e d
        else (s.heardOn p).endExec e stSC 0 e.taddr 1 d).drain)) ∧
    (k = packet tCPLD h d → k.h.op ≠ stSC →
      exec (.cpld p h d) s = .next (((s.heardOn p).endExec e k.h.op e.sent (e.taddr + e.sent) 1 []).drain))

/-- A MSG that arrives is a protocol error of cause TYPE, counted, and its buffer space is returned (R59). -/
def msgRefused : Prop :=
  ∀ (s : State) (p : Fin 5) (h : Hdr) (d : List Byte) (k : Pkt), k = packet tMSG h d → s.power = .run →
    s.hasPort p = true → s.linkUp p = true → k.h.vc = 0 → k.h.len ≤ 255 → d.length = k.h.len + 1 →
      exec (.msgPacket p h d) s = .next ((((s.heardOn p).protoError p k.h 0x08).sendNop p (pktCost k)).drain)

end Sys2Proof.Claims

/-- Requests that need no vote are accepted from the owner's port and from the partner. -/
def Obligations.UnvotedRequestsAccepted : Prop :=
  Sys2Proof.Claims.singleRequestsAccepted ∧ Sys2Proof.Claims.spanRequestsAccepted

/-- Queries, replays, credits, completions and stray messages at a port. -/
def Obligations.PortServicePackets : Prop :=
  Sys2Proof.Claims.seqQueryAnswered ∧ Sys2Proof.Claims.seqSyncTaken ∧ Sys2Proof.Claims.rplReplayed ∧
    Sys2Proof.Claims.nopGrantsCredits ∧ Sys2Proof.Claims.completionsTaken ∧ Sys2Proof.Claims.msgRefused

namespace Sys2Proof.Claims

open Sys2Proof.Machine

/-! ## Records, messages and port states -/

/-- A condition on a state, a requester, a register address and a word under which a write of the word is let through. The
clauses on register writes hold under any that `State.reaches` follows from; the statements give it. -/
abbrev Admits : Type := State → By → Nat → Word → Bool

/-- A write executes normally where a register of R447 stands at the address, is that of a unit present on the member
(R3), is none of context 0 (R251) or of an absent source (R4), and is not guarded, or the requester is the Innkeeper or
the owner of the unlocked guard (R437, R438). -/
def mayWrite (s : State) (b : By) (a : Nat) (_ : Word) : Bool :=
  (regRow a).isSome && selOf a == .reg a && s.member.present a && !(decide (0xc0000 ≤ a) && decide (a < 0xc0100)) &&
    !s.member.noSource a && (!(fieldsOf a).any (·.guarded) || isInn b || s.ownsGuard b.ctx.toNat)

/-- What a command that writes `v` to the register at `a` leaves, when the write reaches it and `f` is what it does
beyond its word: the completion SC is shown, and what may start starts (R430, R434). -/
def wrote (s : State) (b : By) (a : Nat) (v : Word) (f : State → State) : State :=
  ((f (s.stored b a v)).emit (.done b.ctx.toNat a stSC)).drain

/-- The vote window of an open record closes (R104, R114); the check of the record may find an uncorrectable word
(R414). -/
def voteWindowCloses : Prop :=
  ∀ (s u : State) (rpl : Bool) (n : BitVec 8) (seq : BitVec 16) (r r' : Record), s.power = .run →
    s.expire (.vote rpl n.toNat seq.toNat) = some u → u.openFor rpl n.toNat seq.toNat = some r →
    exec (.voteWindowClose rpl n seq false) s = .next ((u.closeRec r).drain) ∧
    ((u.recBad r).openFor rpl n.toNat seq.toNat = some r' →
      exec (.voteWindowClose rpl n seq true) s = .next (((u.recBad r).closeRec r').drain))

/-- What becomes of the copy at place `i` of port `p`'s receive buffer if it is tried again (R49, R103). -/
def tried (s : State) (p i : Nat) (y : StalledCopy) : CopyFate :=
  (s.setPort p { s.port p with stalled := (s.port p).stalled.eraseIdx i }).tryCopy p y.pkt y.arrived
    ((s.port p).stalled.take i)

/-- The first copy that can obtain its record and slots leaves its port's buffer, and with it those that waited behind
it or for its record (R46, R49, R103). -/
def stallEnds : Prop :=
  ∀ (s t : State) (p : Fin 3) (i : Nat) (y : StalledCopy), s.power = .run → (s.port p).stalled[i]? = some y →
    (∀ (j : Nat) (z : StalledCopy), j < i → (s.port p).stalled[j]? = some z → ∃ n, tried s p j z = .waits n) →
    tried s p i y = .left t → exec (.recStallEnd p) s = .next ((t.releaseHeld t.stalledCount).drain)

/-- The request that its target has executed ends, and its end is reported (R16). -/
def executionEnds : Prop :=
  ∀ (s : State) (via : Option (Fin 2)) (n : BitVec 8) (seq : BitVec 16) (e : Exec), s.power = .run →
    s.execs.find? (fun e => e.stage == .finished && e.ctx == n.toNat && e.pkt.h.seq == seq.toNat &&
      e.viaSpan == via.map (·.val)) = some e →
    exec (.executionEnd via n seq) s = .next ((s.executionEnd e).drain)

/-- The message at the head of a host port's list is sent when credits cover it and the arbiter grants it (R55, R338). -/
def messageSent : Prop :=
  ∀ (s : State) (p : Fin 3) (m : Msg) (rest : List PMsg) (c : Cand) (ceil : Bool) (u : State), s.power = .run →
    (s.port p).msgs = .msg m :: rest → (s.port p).tx.covers (pktCost (msgPkt m)) = true → s.linkUp p = true →
    s.arbitrate (7 + p.val) [if replayed rest m then 2 else 1]
      [⟨if replayed rest m then 2 else 1, if replayed rest m then 2 else 1, s.noteOf m.ctx, 0, m.ctx⟩] = (u, some (c, ceil)) →
    exec (.pendingMessageSend p) s = .next ((((u.setPort p { s.port p with
        msgs := rest, tx := (s.port p).tx.sub (pktCost (msgPkt m)) }).sendPkt p (msgPkt m)).traceRec 3 p
          (msgPkt m).h.words (digestOf (msgPkt m).data)).flushRpl (rest.length + 1) p)

/-- The first held notice of a context is released once the inbound data that it follows are written (R17). -/
def heldNoticeReleased : Prop :=
  ∀ (s : State) (n : BitVec 8) (x : HeldNotice) (xs : List HeldNotice), s.power = .run →
    s.heldNotices.filter (fun y => y.ctx == n.toNat) = x :: xs → s.marksDone x.marks = true →
    exec (.noticeRelease n) s = .next (State.releaseNotice
      { s with heldNotices := s.heldNotices.filter (fun (y : HeldNotice) => y.ctx != n.toNat) ++ xs }
      n.toNat x.queue x.origin)

/-- A write of HP_CTL sets EN, and the port follows it (R60). -/
def hostPortEnabled (ok : Admits := State.reaches) : Prop :=
  ∀ (s : State) (b : By) (p : Fin 3) (v : Word), s.power = .run → ok s b (HP_CTL p) v = true →
    exec (.hpCtlEn b p v) s = .next (wrote s b (HP_CTL p) v (fun u => u.portEn p (u.on (HP_CTL_EN p))))

/-- A port in STARTING whose link is up, whose grant is sent and which holds the credits enters ON (R60, R351). -/
def portEntersOn : Prop :=
  ∀ (s : State) (p : Fin 5), s.power = .run → s.hasPort p = true → s.portState p = 1 → s.linkUp p = true →
    (s.port p).granted = true → s.creditsHeld p = true →
    (p.val < 3 → exec (.portEnterOn p) s = .next (((s.setPortState p 2).channelPortOn p).drain)) ∧
    (3 ≤ p.val → exec (.portEnterOn p) s =
      .next ((((s.setPortState p 2).arm (.beat p) 50000).arm (.miss p) 50000).drain))

/-- A mask without bit `k`. -/
def without (v k : Nat) : Nat := if bitAt v k then v - 2 ^ k else v

/-- A draining port that owes nothing starts anew if EN was set again, else is OFF with its retired lanes forgotten
(R60, R413, R445): on an up link its transmitters are asked to idle, and idle when their flits are acknowledged (R89,
R91); without one they idle at once. -/
def portDrains : Prop :=
  ∀ (s u : State) (p : Fin 5), s.power = .run → s.hasPort p = true → s.portState p = 3 → s.portOwes p = false →
    u = (s.setPortState p 0).put FLT_LANE_RETIRED
      (without (without (s.get FLT_LANE_RETIRED) (2 * p.val)) (2 * p.val + 1)) →
    (s.on (portRestartRef p) = true → exec (.portDrainEnd p) s = .next (((s.clearPort p).idleLanes p).portStart p)) ∧
    (s.on (portRestartRef p) = false → u.carries p = true → u.on (LN_STAT_EIDLE_TX (2 * p.val)) = false →
      exec (.portDrainEnd p) s = .next (u.put (LL_CMD_EIDLE p) 1)) ∧
    (s.on (portRestartRef p) = false → u.carries p = false →
      exec (.portDrainEnd p) s = .next ((u.clearPort p).idleLanes p))

/-! ## Channels and fences -/

/-- A SUSPECT channel without a discord for a second is ACTIVE with RECENT 0 (R121, R528). -/
def suspectLapses : Prop :=
  ∀ (s : State) (c : Fin 3), s.power = .run → s.chState c = 1 → (s.discordSecond c).recentDiscords c = 0 →
    exec (.suspectExpiry c) s =
      .next (((s.discordSecond c).put (ACC_CH_STAT_STATE c) 0).put (ACC_CH_STAT_RECENT c) 0)

/-- What the failure of a rejoin leaves: the channel excluded, the failure counted and raised with the context and the
SEQ of the copy that failed it (R130, R132). -/
def rejoinFailed (u : State) (c n seq : Nat) : State :=
  (((u.exclude c 4 n seq).bump (ACC_CH_REJ_REJOIN_FAILS c)).raise 31 n (detail c 4 seq)).drain

/-- A copy of channel `c` in the record of context `n` and a SEQ. -/
def copyOf (s : State) (n seq c : Nat) : Option Pkt :=
  (s.findRec false n seq).bind (fun r => (r.copies.find? (fun x => x.ch == c)).map (·.pkt))

/-- A rejoin fails when its time has passed, or when a copy of its channel has waited its window alone, which the capture
takes (R128, R130, R135). -/
def rejoinFails : Prop :=
  ∀ (s u : State) (c : Fin 3) (n : BitVec 8) (seq : BitVec 16), s.power = .run → u.chState c = 3 →
    (s.expire (.rejoin c) = some u → exec (.rejoinTimeout c) s = .next (rejoinFailed u c 0 0)) ∧
    (s.expire (.rejoinCopy n.toNat seq.toNat c) = some u →
      exec (.rejoinCopyTimeout n seq c) s = .next (rejoinFailed
        (u.dlog 4 c n.toNat seq.toNat (copyOf u n.toNat seq.toNat c) (copyOf u n.toNat seq.toNat c)) c n.toNat
        seq.toNat))

/-- The word that a write of 1 to one field of a register gives, its plainly writable fields as they stand. -/
def one (s : State) (f : FRef) : Word := s.putWordOf f 1

/-- EXCLUDE from a voted request or the Innkeeper excludes the channel; REJOIN has an EXCLUDED channel whose port is ON
enter REJOINING, once FORMED (R121, R126, R127). -/
def channelCommands (ok : Admits := State.reaches) : Prop :=
  ∀ (s : State) (b : By) (c : Fin 3), s.power = .run → votedOrInn b = true →
    (ok s b (ACC_CH_CMD c) (one s (ACC_CH_CMD_EXCLUDE c)) = true →
      exec (.exclude b c) s = .next (wrote s b (ACC_CH_CMD c) (one s (ACC_CH_CMD_EXCLUDE c))
        (fun u => ((u.zero (ACC_CH_CMD_EXCLUDE c)).zero (ACC_CH_CMD_REJOIN c)).exclude c))) ∧
    (ok s b (ACC_CH_CMD c) (one s (ACC_CH_CMD_REJOIN c)) = true → s.chState c = 2 → s.on ACC_STAT_FORMED = true →
      s.portState c = 2 →
      exec (.rejoin b c) s = .next (wrote s b (ACC_CH_CMD c) (one s (ACC_CH_CMD_REJOIN c))
        (fun u => ((u.zero (ACC_CH_CMD_EXCLUDE c)).zero (ACC_CH_CMD_REJOIN c)).enterRejoining c)))

/-- HIGH_CLR sets HIGH to OPEN (R134). -/
def highCleared (ok : Admits := State.reaches) : Prop :=
  ∀ (s : State) (b : By), s.power = .run → ok s b ACC_REC (one s ACC_REC_HIGH_CLR) = true →
    exec (.highClr b) s = .next (wrote s b ACC_REC (one s ACC_REC_HIGH_CLR)
      (fun u => (u.put ACC_REC_HIGH (u.get ACC_REC_OPEN)).zero ACC_REC_HIGH_CLR))

/-- Who may unfence a context (R120): a voted request or, of a VOTED one, the Innkeeper; of a SINGLE one, its owner's
channel or a voted request. -/
def mayUnfence (s : State) (b : By) (n : Nat) : Prop :=
  (s.isVoted n = true ∧ votedOrInn b = true) ∨
    (s.isVoted n = false ∧ (b.who = .voted ∨ ∃ c : Fin 3, b.who = .single c ∧ s.get (CTX_VOTE_OWNER n) = c))

/-- One who may, and who writes the FENCE_ID of a fenced context to its CTX_UNFENCE on another context, unfences it:
FENCED, REASON and REJECTED are 0 (R120). -/
def unfenced (ok : Admits := State.reaches) : Prop :=
  ∀ (s : State) (b : By) (n id : BitVec 8), s.power = .run → n ≠ 0 → b.ctx ≠ n → mayUnfence s b n.toNat →
    ok s b (CTX_UNFENCE n.toNat) (s.putWordOf (CTX_UNFENCE_FENCE_ID n.toNat) id.toNat) = true →
    s.get (CTX_FENCE_FENCE_ID n.toNat) = id.toNat → s.on (CTX_FENCE_FENCED n.toNat) = true →
      exec (.ctxUnfence b n id) s = .next (wrote s b (CTX_UNFENCE n.toNat)
        (s.putWordOf (CTX_UNFENCE_FENCE_ID n.toNat) id.toNat) (fun u =>
          (((u.zero (CTX_UNFENCE_FENCE_ID n.toNat)).put (CTX_FENCE_FENCED n.toNat) 0).put
            (CTX_FENCE_REASON n.toNat) 0).put (CTX_FENCE_REJECTED n.toNat) 0))

end Sys2Proof.Claims

/-- Records close and are filled, executions end, messages and notices leave, ports enter ON and OFF. -/
def Obligations.RecordsMessagesAndPortStates : Prop :=
  Sys2Proof.Claims.voteWindowCloses ∧ Sys2Proof.Claims.stallEnds ∧ Sys2Proof.Claims.executionEnds ∧
    Sys2Proof.Claims.messageSent ∧ Sys2Proof.Claims.heldNoticeReleased ∧ Sys2Proof.Claims.hostPortEnabled ∧
    Sys2Proof.Claims.portEntersOn ∧ Sys2Proof.Claims.portDrains

/-- Channels lapse to ACTIVE, are excluded and rejoin, and a context is unfenced. -/
def Obligations.ChannelsAndFencesCommanded : Prop :=
  Sys2Proof.Claims.suspectLapses ∧ Sys2Proof.Claims.rejoinFails ∧ Sys2Proof.Claims.channelCommands ∧
    Sys2Proof.Claims.highCleared ∧ Sys2Proof.Claims.unfenced

namespace Sys2Proof.Claims

open Sys2Proof.Machine

/-! ## Detectors and training -/

/-- LOS on a lane of an up link outside electrical idle is shown and raised, and a link down is due 1 µs later (R69,
R71, R97). -/
def losAsserted : Prop :=
  ∀ (s : State) (k : Fin 10), s.power = .run → s.hasPort (lanePort k) = true → s.on (LN_STAT_LOS k) = false →
    s.on (LN_STAT_EIDLE_RX k) = false → s.linkUp (lanePort k) = true →
    exec (.losAssert k) s =
      .next (((s.put (LN_STAT_LOS k) 1).raise (70 + k.val) 0 (detail k 0 0)).arm (.losDown k) 1000)

/-- LOS that deasserts is no longer shown, and no link down is due (R69, R71). -/
def losDeasserted : Prop :=
  ∀ (s : State) (k : Fin 10), s.power = .run → s.hasPort (lanePort k) = true →
    exec (.losDeassert k) s = .next ((s.put (LN_STAT_LOS k) 0).disarm (.losDown k))

/-- LOS that has lasted 1 µs takes an up link outside electrical idle down with cause LOS (R71). -/
def losTakesLinkDown : Prop :=
  ∀ (s u : State) (k : Fin 10), s.power = .run → s.hasPort (lanePort k) = true → s.expire (.losDown k) = some u →
    s.linkUp (lanePort k) = true → s.on (LN_STAT_EIDLE_RX k) = false →
    exec (.losLinkDown k) s = .next ((u.linkDown (lanePort k) 0xA).drain)

/-- LOL is shown and raised, and has an up port retrain (R70, R71); it is no longer shown when it deasserts. -/
def lolFollowed : Prop :=
  ∀ (s : State) (k : Fin 10), s.power = .run → s.hasPort (lanePort k) = true →
    (s.on (LN_STAT_LOL k) = false → s.linkUp (lanePort k) = true →
      exec (.lolAssert k) s = .next ((((s.put (LN_STAT_LOL k) 1).raise (80 + k.val) 0 (detail k 0 0)).retrain
        (lanePort k) true).drain)) ∧
    (s.on (LN_STAT_LOL k) = false → s.linkUp (lanePort k) = false →
      exec (.lolAssert k) s = .next (((s.put (LN_STAT_LOL k) 1).raise (80 + k.val) 0 (detail k 0 0)).drain)) ∧
    exec (.lolDeassert k) s = .next (s.put (LN_STAT_LOL k) 0)

/-- The equaliser of a lane as training starts it (R73): at its override, or at the reset setting. -/
def startCtle (s : State) (k : Nat) : State :=
  (s.setLane k { s.lane k with chosen := 8 }).put (LN_CTLE_SETTING k)
    (if s.on (LN_CTLE_OVERRIDE k) then s.get (LN_CTLE_OVR_VAL k) else 8)

/-- QUIET, PRESENCE and PHASE end and the next step starts with its timeout (R73). -/
def firstStepsEnd : Prop :=
  ∀ (s u : State) (p : Fin 5), s.power = .run → s.hasPort p = true →
    (s.phase p = .quiet → s.expire (.train p) = some u →
      exec (.trainQuietEnd p) s =
        .next (((u.putLanes p LN_STAT_EIDLE_TX 0).emit (.pattern p 0)).nextStep p .presence 2 2000000)) ∧
    (s.phase p = .presence → s.lanesAre p LN_STAT_LOS 0 = true →
      exec (.trainPresenceEnd p) s = .next (s.nextStep p .phase 3 50000)) ∧
    (s.phase p = .phase → s.lanesAre p LN_STAT_LOL 0 = true →
      exec (.trainPhaseEnd p) s = .next ((((startCtle (startCtle s (2 * p.val)) (2 * p.val + 1)).emit
        (.pattern p 1)).nextStep p .align 4 20000)))

/-- Whether a lane's sweep may end with the settings `good` that ran without error (R73): one did, or the setting is
overridden. -/
def sweeps (s : State) (k : Nat) (good : BitVec 16) : Prop := good ≠ 0 ∨ s.on (LN_CTLE_OVERRIDE k) = true

/-- ALIGN, EQUALISE, DESKEW and HANDSHAKE end (R66, R73, R75 to R77) on lanes that carry link traffic: with four words
that match on both lanes; with a setting on both and four matching words there; with a word of each lane that shows the
crossing and the skew; with eight TS2 of the PRECODE expected on both, and sixteen sent, the link up. -/
def lastStepsEnd : Prop :=
  ∀ (s t : State) (p : Fin 5) (w0 w1 : List (BitVec 64)), s.power = .run → s.hasPort p = true → s.inPrbs p = false →
    (∀ (a b : BitVec 5) (h0 h1 : List (BitVec 64)), s.phase p = .align →
      t = (s.settled (2 * p) a.toNat h0 w0).settled (2 * p + 1) b.toNat h1 w1 → t.lanesMatch p = true →
      exec (.trainAlignEnd p a b h0 h1 w0 w1) s =
        .next ((t.putLanes p LN_STAT_WORD_LOCK 1).nextStep p .equalise 5 400000)) ∧
    (∀ a b : BitVec 16, s.phase p = .equalise → sweeps s (2 * p.val) a → sweeps s (2 * p.val + 1) b →
      t = s.searchedBoth p 0 0 w0 w1 → t.lanesMatch p = true →
      exec (.trainEqualiseEnd p ⟨a, w0⟩ ⟨b, w1⟩) s = .next (((t.swept (2 * p.val) a.toNat).swept (2 * p.val + 1)
        b.toNat).nextStep p .deskew 6 10000)) ∧
    (∀ (d0 d1 : BitVec 64) (late : Nat) (x : Bool × Nat × Bool), s.phase p = .deskew →
      s.deskewFinds p d0 d1 late = some x →
      exec (.trainDeskewEnd p d0 d1 late) s = .next ((((s.deskewed p x.1 x.2.1 x.2.2).setLink p { s.link p with
        ts2 := 0 }).emit (.pattern p 3)).nextStep p .handshake 7 20000)) ∧
    (s.phase p = .handshake → s.shaken (2 * p.val) w0 = true → s.shaken (2 * p.val + 1) w1 = true →
      exec (.trainHandshakeEnd ⟨p, w0, w1⟩) s = .next ((s.ts2Rest p).linkIsUp p))

/-- A step that reaches its timeout fails with its cause, HANDSHAKE with cause 7 if a TS2 showed another PRECODE than
expected, and 1 ms later training starts again on a port in STARTING, while the lanes of another idle (R73, R74). -/
def trainingFailsAndRetries : Prop :=
  ∀ (s u : State) (p : Fin 5) (w0 w1 : List (BitVec 64)) (c : Nat), s.power = .run → s.hasPort p = true →
    s.expire (.train p) = some u →
    (stepCause (s.phase p) (s.precodeDiffers (2 * p) w0 || s.precodeDiffers (2 * p + 1) w1) = some c →
      exec (.trainStepTimeout p ⟨w0, w1⟩) s = .next (u.trainFail p c)) ∧
    (s.phase p = .failed → s.portState p = 1 → exec (.trainRetry p) s = .next (u.startTraining p)) ∧
    (s.phase p = .failed → s.portState p ≠ 1 → exec (.trainRetry p) s = .next (u.idleLanes p))

/-! ## The link layer -/

/-- The port after the words of a flit position on both lanes: lanes in MODE DIAG matched (R95), polarity and precoding
undone (R65, R67), and the bytes that the words carry, crossed lanes put right (R77, R79). -/
def flitPosition (s : State) (p : Nat) (w0 w1 : List (BitVec 64)) : State × List Byte :=
  let s := (s.probed (2 * p) w0).probed (2 * p + 1) w1
  let a := s.received (2 * p) w0
  let b := a.1.received (2 * p + 1) w1
  (b.1, if s.on (LL_STAT_LANES_SWAPPED p) then mergeLanes b.2 a.2 else mergeLanes a.2 b.2)

/-- A good flit with the FSEQ after the last one taken (R78, R82, R84, R85), on lanes not in MODE PRBS: its ACK is taken,
its FSEQ becomes RX_LAST, an idle transmitter wakes for the ACK owed (R91), its payload joins what has not arrived whole,
and the packets now whole are taken in order. -/
def flitTaken : Prop :=
  ∀ (s a b c : State) (p : Fin 5) (w0 w1 : List (BitVec 64)) (q ack : BitVec 8) (payload : List Byte) (r : Parsed),
    s.power = .run → s.hasPort p = true → s.carries p = true → s.on (LN_STAT_EIDLE_RX (2 * p.val)) = false →
    s.inPrbs p = false → payload.length = 58 →
    flitPosition s p w0 w1 = (a, flitBytes q.toNat ack.toNat payload) → b = a.takeAck p ack.toNat →
    q.toNat = (b.get (LL_SEQ_RX_LAST p) + 1) % 256 →
    c = ((b.put (LL_SEQ_RX_LAST p) q.toNat).disarm (.nak p)).wakeTx p →
    r = parsePkts 16 ((c.link p).rxBytes ++ payload) → r.bad = none →
    exec (.flit p ⟨w0, w1⟩) s = .next (r.pkts.foldl (fun s k => (s.takePacket p k false).drain)
      ((c.setLink p { c.link p with rxBytes := r.rest }).drain))

/-- A NAK that names the last flit acknowledged has every held flit sent again, one that names a held flit those after
it, and so does the replay timeout for every held flit (R86); the decoders pass over the block (R65). -/
def flitsReplayed : Prop :=
  ∀ (s t u : State) (p : Fin 5) (v : BitVec 8) (f : HeldFlit) (fs : List HeldFlit), s.power = .run →
    s.hasPort p = true → t = s.heard p 1 v.toNat →
    (s.carries p = true → (s.link p).replay ≠ [] → v.toNat = s.get (LL_SEQ_TX_ACKED p) →
      exec (.nak p v) s = .next ((t.replayAll p (s.link p).replay).drain)) ∧
    (s.carries p = true → v.toNat ≠ s.get (LL_SEQ_TX_ACKED p) → afterFseq v.toNat (s.link p).replay = some (f :: fs) →
      exec (.nak p v) s = .next ((t.replayAll p (f :: fs)).drain)) ∧
    (s.expire (.replay p) = some u → exec (.replayTimeout p) s = .next ((u.replayAll p (u.link p).replay).drain))

/-- The retrains of a port in the last second. -/
def recentRetrains (s : State) (p : Nat) : List Nat :=
  (s.link p).retrains.filter (fun t => decide (s.clk < t + 1000000000))

/-- What the begin of a retrain on the far end's request leaves (R87): the PRBS phase with its limit of 8 µs, RETRAINING
shown, the retrain counted and raised, an idle transmitter awake, the PRBS31 generators seeded and their checkers
unlocked. -/
def retrainBegun (s : State) (p : Nat) : State :=
  let s := s.setLink p { s.link p with phase := .rtPrbs, retrains := recentRetrains s p ++ [s.clk] }
  let s := ((s.put (LL_STAT_RETRAINING p) 1).put (LL_CMD_RETRAIN p) 0).bump (LL_RETRAIN_CNT_RETRAINS p)
  let s := (((s.raise (90 + p) 0 (detail p 0 0)).wakeTx p).rxAwake p).seedRetrain p
  ((s.emit (.pattern p 4)).disarm (.replay p)).arm (.rtPhase p) 8000

/-- A RETRAIN block begins a retrain, or takes the link down with cause RETRAIN if eight began within 1 s (R87). -/
def retrainBlockTaken : Prop :=
  ∀ (s t : State) (p : Fin 5), s.power = .run → s.hasPort p = true → s.carries p = true → t = s.heard p 3 0 →
    ((recentRetrains s p).length < 8 → exec (.retrainBlock p) s = .next ((retrainBegun t p).drain)) ∧
    (8 ≤ (recentRetrains s p).length → exec (.retrainBlock p) s = .next ((t.linkDown p 9).drain))

/-- Electrical idle of the far transmitter is shown; a wake burst ends it, with a retrain if fewer than two words match
on a lane (R89, R90). -/
def farIdleFollowed : Prop :=
  ∀ (s t : State) (p : Fin 5) (w0 w1 : List (BitVec 64)), s.power = .run → s.hasPort p = true → s.carries p = true →
    t = s.rxAwake p →
    exec (.eidleBlock p) s = .next ((s.heard p 2 0).putLanes p LN_STAT_EIDLE_RX 1) ∧
    (s.on (LN_STAT_EIDLE_RX (2 * p.val)) = true → 2 ≤ t.matching (2 * p.val) w0 → 2 ≤ t.matching (2 * p.val + 1) w1 →
      exec (.wakeBurst p w0 w1) s = .next (t.drain)) ∧
    (s.on (LN_STAT_EIDLE_RX (2 * p.val)) = true →
      t.matching (2 * p.val) w0 < 2 ∨ t.matching (2 * p.val + 1) w1 < 2 →
      exec (.wakeBurst p w0 w1) s = .next ((t.retrain p true).drain))

/-- A transmitter asked to idle with every flit acknowledged and nothing to send announces idle and idles; the link of a
port in OFF ends with it (R60, R89, R91). -/
def txIdleEntered : Prop :=
  ∀ (s t : State) (p : Fin 5), s.power = .run → s.hasPort p = true → s.carries p = true → s.on (LL_CMD_EIDLE p) = true →
    (s.link p).replay = [] → (s.link p).txq = [] → s.on (LN_STAT_EIDLE_TX (2 * p.val)) = false →
    t = ((s.controlOut p 2 0).putLanes p LN_STAT_EIDLE_TX 1).put (LL_CMD_EIDLE p) 0 →
    (t.portState p ≠ 0 → exec (.txEidleEntry p) s = .next t) ∧
    (t.portState p = 0 → exec (.txEidleEntry p) s = .next ((t.clearPort p).idleLanes p))

/-- The checkers of a port's lanes after the words of a retrain's PRBS phase (R87, R93). -/
def checkers (s : State) (p : Nat) (w0 w1 : List (BitVec 64)) (i : Nat) : Checker :=
  s.retrainCheck (2 * p + i) (if i = 0 then w0 else w1)

/-- What the handshake of a retrain leaves: the link carries flits again, from the precoder's start (R65, R87). -/
def resumed (s : State) (p : Nat) (x : Bool × Nat × Bool) : State :=
  let s := (s.deskewed p x.1 x.2.1 x.2.2).setLink p { s.link p with ts2 := 0 }
  let s := (((s.emit (.pattern p 3)).ts2Rest p).setPhase p .up).disarm (.rtPhase p)
  ((s.txReset p).rxAwake p).put (LL_STAT_RETRAINING p) 0

/-- The phases of a retrain end (R87, R413): after the PRBS check, its checkers locked, the boundaries are found again,
unless a lane is LASTING; after four matching words the handshake; after it every held flit is sent again; a phase that
exceeds its limit takes the link down. -/
def retrainPhasesEnd : Prop :=
  ∀ (s u v : State) (p : Fin 5) (w0 w1 : List (BitVec 64)), s.power = .run → s.hasPort p = true →
    (∀ (bad : Bool) (u0 u1 v0 v1 : List (BitVec 64)) (c : Nat → Checker), s.phase p = .rtPrbs →
      c = checkers s p (u0 ++ w0 ++ v0) (u1 ++ w1 ++ v1) → (c 0).lock = true → (c 1).lock = true →
      s.expire (.rtPhase p) = some u → u.lanesChecked p (fun i => (c i).found) = (v, bad) →
      exec (.retrainPrbsEnd p u0 u1 w0 w1 v0 v1) s = .next ((if bad then v.linkDown p 9
        else ((v.setPhase p .rtRealign).emit (.pattern p 1)).arm (.rtPhase p) 20000).drain)) ∧
    (∀ a b : BitVec 5, s.phase p = .rtRealign → s.inPrbs p = false → v = s.searchedBoth p a.toNat b.toNat w0 w1 →
      v.lanesMatch p = true →
      exec (.retrainRealignEnd p a b w0 w1) s = .next ((v.setPhase p .rtHandshake).arm (.rtPhase p) 20000)) ∧
    (∀ (d0 d1 : BitVec 64) (x : Bool × Nat × Bool), s.phase p = .rtHandshake → s.inPrbs p = false →
      s.deskewFinds p d0 d1 0 = some x → s.shaken (2 * p.val) w0 = true → s.shaken (2 * p.val + 1) w1 = true →
      v = resumed s p x →
      exec (.retrainResume p d0 d1 ⟨w0, w1⟩) s = .next ((v.resend p (v.link p).replay).armReplay p)) ∧
    ((s.phase p = .rtPrbs ∨ s.phase p = .rtRealign ∨ s.phase p = .rtHandshake) → s.expire (.rtPhase p) = some u →
      exec (.retrainLimit p) s = .next ((u.linkDown p 9).drain))

/-! ## Lane and link registers -/

/-- Whether the lanes of a port train. -/
def trains (f : LinkPhase) : Bool :=
  f == .quiet || f == .presence || f == .phase || f == .align || f == .equalise || f == .deskew || f == .handshake

/-- BITSLIP moves the boundary of a lane that trains, or whose MODE is DIAG, and sets MATCH to 0 (R75, R76, R95). -/
def bitslipMoves (ok : Admits := State.reaches) : Prop :=
  ∀ (s : State) (b : By) (k : Fin 10), s.power = .run →
    ok s b (LN_ALIGN k) (one s (LN_ALIGN_BITSLIP k)) = true →
    (trains (s.phase (lanePort k)) = true ∨ s.get (LN_CTL_MODE k) = 2) →
      exec (.bitslip b k) s = .next (wrote s b (LN_ALIGN k) (one s (LN_ALIGN_BITSLIP k))
        (fun u => ((u.zero (LN_ALIGN_BITSLIP k)).incr (LN_ALIGN_SLIP_POS k)).put (LN_ALIGN_MATCH k) 0))

/-- LL_CMD retrains a port, asks its transmitters to idle, or wakes them (R87, R89, R90). -/
def linkCommands (ok : Admits := State.reaches) : Prop :=
  ∀ (s : State) (b : By) (p : Fin 5), s.power = .run →
    (ok s b (LL_CMD p) (one s (LL_CMD_RETRAIN p)) = true →
      exec (.retrain b p) s = .next (wrote s b (LL_CMD p) (one s (LL_CMD_RETRAIN p))
        (fun u => (u.retrain p true).zero (LL_CMD_RETRAIN p)))) ∧
    (ok s b (LL_CMD p) (one s (LL_CMD_EIDLE p)) = true →
      exec (.eidle b p) s = .next (wrote s b (LL_CMD p) (one s (LL_CMD_EIDLE p)) (fun u => u.askIdle p))) ∧
    (ok s b (LL_CMD p) (one s (LL_CMD_WAKE p)) = true →
      exec (.wake b p) s = .next (wrote s b (LL_CMD p) (one s (LL_CMD_WAKE p)) (fun u => u.wakePort p)))

/-- The injections of lane `k` that are pending grow by `n` (R94). -/
def injectMore (s : State) (k n : Nat) : State :=
  s.setLane k { s.lane k with inject := (s.lane k).inject + n }

/-- LN_INJ has the next symbol, or the next BURST_LEN symbols, sent in error, and LN_PRBS.CLEAR zeroes the lane's error
counts (R93, R94). -/
def injectionsAndClears (ok : Admits := State.reaches) : Prop :=
  ∀ (s : State) (b : By) (k : Fin 10), s.power = .run →
    (ok s b (LN_INJ k) (one s (LN_INJ_INJECT_ONE k)) = true →
      exec (.injectOne b k) s = .next (wrote s b (LN_INJ k) (one s (LN_INJ_INJECT_ONE k)) (fun u =>
        injectMore ((u.zero (LN_INJ_INJECT_ONE k)).zero (LN_INJ_INJECT_BURST k)) k 1))) ∧
    (ok s b (LN_INJ k) (one s (LN_INJ_INJECT_BURST k)) = true →
      exec (.injectBurst b k) s = .next (wrote s b (LN_INJ k) (one s (LN_INJ_INJECT_BURST k)) (fun u =>
        injectMore ((u.zero (LN_INJ_INJECT_ONE k)).zero (LN_INJ_INJECT_BURST k)) k (u.get (LN_INJ_BURST_LEN k))))) ∧
    (ok s b (LN_PRBS k) (one s (LN_PRBS_CLEAR k)) = true →
      exec (.prbsClear b k) s = .next (wrote s b (LN_PRBS k) (one s (LN_PRBS_CLEAR k)) (fun u =>
        (((s.admitted b (LN_PRBS k)).prbsSwitched (u.zero (LN_PRBS_CLEAR k)) k).zero (LN_PRBS_SYM_ERR_COUNT k)).zero
          (LN_PRBS_BIT_ERR_COUNT k))))

/-- A write of MODE starts or stops the lane's generator and checker (R92, R93, R95); a lane whose MODE becomes PRBS has
its port retrain. -/
def modeWritten (ok : Admits := State.reaches) : Prop :=
  ∀ (s : State) (b : By) (k : Fin 10) (m : BitVec 2), s.power = .run →
    ok s b (LN_CTL k) (s.putWordOf (LN_CTL_MODE k) m.toNat) = true →
    (m = 1 → s.get (LN_CTL_MODE k) ≠ 1 →
      exec (.lnCtlMode b k m) s = .next (wrote s b (LN_CTL k) (s.putWordOf (LN_CTL_MODE k) m.toNat)
        (fun u => ((s.admitted b (LN_CTL k)).prbsSwitched u k).retrain (lanePort k) true))) ∧
    (m ≠ 1 ∨ s.get (LN_CTL_MODE k) = 1 →
      exec (.lnCtlMode b k m) s = .next (wrote s b (LN_CTL k) (s.putWordOf (LN_CTL_MODE k) m.toNat)
        (fun u => (s.admitted b (LN_CTL k)).prbsSwitched u k)))

end Sys2Proof.Claims

/-- Lane detectors and the steps of training. -/
def Obligations.LanesDetectAndTrain : Prop :=
  Sys2Proof.Claims.losAsserted ∧ Sys2Proof.Claims.losDeasserted ∧ Sys2Proof.Claims.losTakesLinkDown ∧
    Sys2Proof.Claims.lolFollowed ∧ Sys2Proof.Claims.firstStepsEnd ∧ Sys2Proof.Claims.lastStepsEnd ∧
    Sys2Proof.Claims.trainingFailsAndRetries

/-- Flits, replays, retrains and electrical idle. -/
def Obligations.LinkLayerFollowsTheFarEnd : Prop :=
  Sys2Proof.Claims.flitTaken ∧ Sys2Proof.Claims.flitsReplayed ∧ Sys2Proof.Claims.retrainBlockTaken ∧
    Sys2Proof.Claims.farIdleFollowed ∧ Sys2Proof.Claims.txIdleEntered ∧ Sys2Proof.Claims.retrainPhasesEnd

/-- Commands in the lane and link registers. -/
def Obligations.LaneRegistersCommand : Prop :=
  Sys2Proof.Claims.bitslipMoves ∧ Sys2Proof.Claims.linkCommands ∧ Sys2Proof.Claims.injectionsAndClears ∧
    Sys2Proof.Claims.modeWritten


namespace Sys2Proof.Claims

open Sys2Proof.Machine

/-! ## Cycles of a segment -/

/-- The state in which a response seen `ns` after the start of a beat is recognised at `at_` (R174): its line may stay low
for 10 µs (R175). -/
def responded (s : State) (g ns at_ : Nat) (b : BusBeat) : State := (s.until_ at_).rspSeen g (b.beatAt + ns)

/-- CACK_N alone in its sample ends a write beat when the phases allow, and the burst or the cycle goes on (R149, R174,
R176). -/
def writeBeatMoves : Prop :=
  ∀ (s : State) (g : Fin 4) (ns at_ : Nat) (d : Word) (clash : Bool) (b : BusBeat) (x : Beat) (rest : List Beat),
    s.power = .run → s.hasSeg g = true → s.onBus g = some b → s.respAt g b ns = some at_ → b.job.poll = none →
    b.job.write = true → b.job.beats = x :: rest →
    exec (.responseCack g ns d ⟨false, false, clash⟩) s =
      .next (((responded s g ns at_ b).beatMoved g b at_ x.addr (b.job.afterBeat rest [])).drain)

/-- CACK_N alone in its sample ends a read beat: its bytes land in the courier's buffer, if it has one, and the parts of a
host read that are complete go out (R147, R149, R150, R273). -/
def readBeatMoves : Prop :=
  ∀ (s u : State) (g : Fin 4) (ns at_ : Nat) (d : Word) (b : BusBeat) (x : Beat) (rest : List Beat)
    (got : List (Nat × Byte)) (j : Job),
    s.power = .run → s.hasSeg g = true → s.onBus g = some b → s.respAt g b ns = some at_ → b.job.poll = none →
    b.job.write = false → b.job.beats = x :: rest →
    got = x.lanes.map (fun l => (l.1, laneByte (b.job.width == 4 && s.on (SEG_CTL_MODE g)) d l.1)) →
    (responded s g ns at_ b).landBeat b.job got = (u, none) → j = b.job.afterBeat rest got →
    exec (.responseCack g ns d ⟨false, false, false⟩) s = .next (((u.sendReady 5 j).beatMoved g b at_ x.addr j).drain)

/-- CERR_N ends the request with TE, cause CERR; the beat timeout ends it with TO, cause TIMEOUT; the poll timeout ends
the poll (R149, R180, R190). -/
def cyclesFail : Prop :=
  ∀ (s : State) (g : Fin 4) (ns at_ : Nat) (b : BusBeat), s.power = .run → s.hasSeg g = true → s.onBus g = some b →
    (s.respAt g b ns = some at_ →
      exec (.responseCerr g ns) s = .next (((responded s g ns at_ b).beatFails g b at_ 1 stTE 2).drain)) ∧
    (b.job.poll = none → at_ = b.beatAt + s.beatTmo g b →
      exec (.beatTimeout g) s = .next (((s.until_ at_).beatFails g b at_ 3 stTO 1).drain)) ∧
    (b.job.poll.isSome = true → at_ = b.beatAt + s.beatTmo g b →
      exec (.pollTimeout g) s = .next (((s.until_ at_).beatFails g b at_ 3 stTO 1).drain))

/-- Of the responses that one sample shows low, CERR_N goes before CRTY_N and CRTY_N before CACK_N (R174, R529). -/
def samplesRanked : Prop :=
  ∀ (s : State) (g : Fin 4) (ns : Nat) (d : Word) (rty clash : Bool),
    exec (.responseCack g ns d ⟨rty, true, clash⟩) s = exec (.responseCerr g ns) s ∧
    exec (.responseCack g ns d ⟨true, false, clash⟩) s = exec (.responseCrty g ⟨ns, false⟩) s ∧
    exec (.responseCrty g ⟨ns, true⟩) s = exec (.responseCerr g ns) s

/-- CRTY_N is counted; beyond the retries allowed the request ends with RT, else the beat, or a locked courier cycle that
reads from its first beat on, waits for its retry, at once or after the delay (R149, R181, R277). -/
def retryTaken : Prop :=
  ∀ (s t u v : State) (g : Fin 4) (ns at_ : Nat) (b : BusBeat) (i j : Job), s.power = .run → s.hasSeg g = true →
    s.onBus g = some b → s.respAt g b ns = some at_ → t = (responded s g ns at_ b).bump (SEG_ERR_CNT1_RETRY g) →
    (b.job.retryMax < b.job.retries + 1 →
      exec (.responseCrty g ⟨ns, false⟩) s = .next ((t.beatFails g b.retried at_ 2 stRT 3).drain)) ∧
    (b.job.retries + 1 ≤ b.job.retryMax → t.closeCycle g b.retried at_ 2 b.job.place.2 = (u, j) →
      v = (if j.cylReads then u.cylAgain g j else u) → v.job g j.order = some i →
      (v.get (SEG_RETRY_DELAY g) = 0 →
        exec (.responseCrty g ⟨ns, false⟩) s = .next (((v.setJob g { i with wait := .ready }).busFree g).drain)) ∧
      (v.get (SEG_RETRY_DELAY g) ≠ 0 →
        exec (.responseCrty g ⟨ns, false⟩) s = .next ((((v.setJob g { i with wait := .retryDelay }).arm (.retry g i.order)
          (v.get (SEG_RETRY_DELAY g) * 1000)).busFree g).drain)))

/-- After the delay the beat is ready again (R181). -/
def retryDelayEnds : Prop :=
  ∀ (s u : State) (g : Fin 4) (o : Nat) (j : Job), s.power = .run → s.hasSeg g = true →
    s.expire (.retry g o) = some u → u.job g o = some j → j.wait = .retryDelay →
    exec (.retryDelayEnd g o) s = .next ((u.setJob g { j with wait := .ready }).drain)

/-- The state in which every response line of a segment is high (R175). -/
def linesHigh (s : State) (g : Nat) : State :=
  ((s.setSeg g { s.seg g with rspLow := false }).disarm (.rspLow g)).put (SEG_STAT_RSP_STUCK g) 0

/-- What passes after a cycle's end once its response lines are high, P7 or C3 apart (R173, R177, R183): nothing within a
tenure, else 40 ns, on a CB32 cycle 60 ns after a write and 120 ns after a read, and TURN. -/
def recovery (s : State) (g : Nat) (cb32 write : Bool) : Nat :=
  if (s.seg g).tenure.isSome then 0 else (if cb32 then if write then 60 else 120 else 40) + s.turn g

/-- The slave's release, then the phases that follow the cycle: the bus is idle; a response line that was low outside a
data pulse is no longer stuck (R173, R175, R177). -/
def responsesReleased : Prop :=
  ∀ (s t : State) (g : Fin 4) (ends : Nat) (cb32 write : Bool), s.power = .run → s.hasSeg g = true →
    t = linesHigh s g →
    ((t.seg g).cycle = .release ends cb32 write → exec (.responseRelease g) s = .next ((State.busFree
      (((t.until_ ends).elapse (recovery t g cb32 write)).setSeg g { t.seg g with cycle := .idle }) g).drain)) ∧
    ((s.seg g).cycle.isRelease = false → (s.seg g).rspLow = true → s.on (SEG_STAT_RSP_STUCK g) = true →
      exec (.rspStuckClear g) s = .next ((t.busFree g).drain))

/-- The instant of a response seen `ns` after the start of the beat in progress, if a cycle of the bridge is on the
bus. -/
def seenAt (s : State) (g ns : Nat) : Nat := match s.onBus g with
  | some b => b.beatAt + ns
  | none => s.clk

/-- A response with no data pulse open is counted and raised, and its line stays low; a line low for 10 µs shows
RSP_STUCK (R175). -/
def strayResponses : Prop :=
  ∀ (s t u : State) (g : Fin 4) (ns : Nat), s.power = .run → s.hasSeg g = true → t = s.until_ (seenAt s g ns) →
    (s.pulseOpen g ns = false → exec (.lateRsp ⟨g, ns⟩) s = .next (((((t.setSeg g { t.seg g with
      rspLow := true }).rspSeen g (seenAt s g ns)).bump (SEG_MISC_CNT_LATE_RSP g)).segEvent g 6 0).drain)) ∧
    (s.expire (.rspLow g) = some u →
      exec (.rspStuck g) s = .next (((u.put (SEG_STAT_RSP_STUCK g) 1).segEvent g 5 0).drain))

/-- A request that waits for a segment that issues no cycle ends by its timeout with TO (R175, R501), placed at the beat
that it would have issued next, or at its own address if it has issued none (R152). -/
def segmentWaitEnds : Prop :=
  ∀ (s : State) (g : Fin 4) (o : Nat) (j : Job), s.power = .run → s.hasSeg g = true → s.job g o = some j →
    s.segIssues g = false → (s.seg g).busy ≠ some o →
    (j.begun = true → exec (.segmentWaitTimeout g o) s = .next ((s.endJob g j stTO j.place.1 j.place.2 1).drain)) ∧
    (j.begun = false → exec (.segmentWaitTimeout g o) s = .next ((s.endJob g j stTO 0 (j.base + j.off) 1).drain))

/-! ## Keeper pulses and card interrupts -/

/-- A keeper pulse that falls due on an owned segment waits behind what holds the bus, a burst cut short, for 200 µs; on
a segment not owned nothing is due (R185). -/
def keeperDue : Prop :=
  ∀ (s u : State) (g : Fin 4), s.power = .run → s.hasSeg g = true → s.expire (.keep g) = some u →
    (u.owns g = true → exec (.keeperPulseDue g) s = .next ((State.busFree ((u.setSeg g { u.seg g with
      keepDue := true, cycle := (u.seg g).cycle.shortened }).arm (.keepCut g) 200000) g).drain)) ∧
    (u.owns g = false → exec (.keeperPulseDue g) s = .next u.drain)

/-- A pulse 200 µs late is counted and raised, and cuts the cycle, the tenure or the legacy master that holds the bus
(R185). -/
def keeperCuts : Prop :=
  ∀ (s u v : State) (g : Fin 4) (b : BusBeat) (t : Tenure) (gr from_ spc addr : Nat) (reads : Bool), s.power = .run →
    s.hasSeg g = true → s.expire (.keepCut g) = some u → v = (u.bump (SEG_KEEP_GAP_KEEP_CUT g)).segEvent g 14 0 →
    (u.onBus g = some b →
      exec (.keepCut g) s = .next (((v.cutTenure g).beatFails g b (v.cutTenure g).clk 3 stTO 1).drain)) ∧
    (u.onBus g = none → (u.seg g).tenure = some t →
      exec (.keepCut g) s = .next (((v.cutTenure g).busFree g).drain)) ∧
    (u.onBus g = none → (u.seg g).tenure = none → (u.seg g).cycle = .lmTenure gr from_ spc addr reads →
      exec (.keepCut g) s = .next ((v.lmWatchdog g).drain))

/-- A pulse seen on a segment not owned records its gap, its SIDE and COUNT, and the edge of CAS_N (R186, R187); a segment
that waits in silence, its pair lost, stands by for the other side (R362). An owner sees the edge alone. -/
def keeperSeenShown : Prop :=
  ∀ (s u : State) (g : Fin 4) (side : Bool) (count : BitVec 7), s.power = .run → s.hasSeg g = true →
    u = ((((s.keeperGap g).casFall g true).put (SEG_KEEP_STAT_COUNT g) count.toNat).put (SEG_KEEP_STAT_SIDE g)
      (ofBool side)).put (SEG_KEEP_STAT_SEEN g) 1 →
    (s.get (SEG_STAT_ROLE g) = 2 → exec (.keeperPulseSeen g side count) s = .next ((s.casFall g true).drain)) ∧
    (s.get (SEG_STAT_ROLE g) ≠ 2 → u.segState g ≠ 1 → exec (.keeperPulseSeen g side count) s = .next u.drain) ∧
    (s.get (SEG_STAT_ROLE g) ≠ 2 → u.segState g = 1 → (u.dueAt (.cold g)).isSome = true → u.paired = false →
      side ≠ u.side → exec (.keeperPulseSeen g side count) s = .next ((u.standBy g).drain))

/-- An edge of CAS_N ends the silence of the segment (R187). -/
def casFallTaken : Prop :=
  ∀ (s : State) (g : Fin 4), s.power = .run → s.hasSeg g = true → s.dueAt (.cold g) = none →
    s.get (SEG_STAT_ROLE g) ≠ 1 →
    exec (.casNFall g) s = .next ((s.setSeg g { s.seg g with casLast := max (s.seg g).casLast s.clk }).drain)

/-- The CINT bits with the bit of line `l` set or cleared. -/
def lineShown (v l : Nat) (low : Bool) : Nat :=
  if low == bitAt v l then v else if low then v + 2 ^ l else v - 2 ^ l

/-- SEG_STAT.CINT follows the lines (R188); a line that is armed and enabled pushes its work item when asserted (R189),
and so when it is rearmed. -/
def interruptLines : Prop :=
  ∀ (s u : State) (g l : Fin 4), s.power = .run → s.hasSeg g = true →
    exec (.cintAssert g l) s = .next (((s.put (SEG_STAT_CINT g) (lineShown (s.get (SEG_STAT_CINT g)) l true)).cintTry g
      l).drain) ∧
    exec (.cintRelease g l) s =
      .next ((s.put (SEG_STAT_CINT g) (lineShown (s.get (SEG_STAT_CINT g)) l false)).drain) ∧
    (s.expire (.cintRearm g l) = some u → exec (.cintRearm g l) s = .next ((State.cintTry (u.setSeg g
      { u.seg g with armed := l.val :: (u.seg g).armed.filter (· != l.val) }) g l).drain))

/-- A write of ARM rearms the lines named, in ascending order (R189). -/
def linesArmed (ok : Admits := State.reaches) : Prop :=
  ∀ (s : State) (b : By) (g : Fin 4) (lines : BitVec 4), s.power = .run →
    ok s b (SEG_CMD g) (s.putWordOf (SEG_CMD_ARM g) lines.toNat) = true →
    exec (.arm b g lines) s = .next (wrote s b (SEG_CMD g) (s.putWordOf (SEG_CMD_ARM g) lines.toNat) (fun u =>
      ((List.range 4).filter (fun l => bitAt lines.toNat l)).foldl (fun u l => u.rearm g l) (u.zero (SEG_CMD_ARM g))))

/-! ## Legacy masters and inbound areas -/

/-- CBR shows the request of the legacy masters; one not yet granted is withdrawn when CBR_N goes high (R191), and its
context's count is lost unless it has another request there (R340). -/
def requestLine : Prop :=
  ∀ (s : State) (g : Fin 4), s.power = .run → s.hasSeg g = true →
    exec (.cbrRequest g) s = .next ((s.put (SEG_STAT_CBR g) 1).drain) ∧
    (s.on (SEG_STAT_CBR g) = true → (s.seg g).ctxs.contains (s.get (SEG_CTL_LM_CTX g)) = false →
      exec (.cbrRelease g) s =
        .next (((s.put (SEG_STAT_CBR g) 0).withdraw (1 + g) (s.get (SEG_CTL_LM_CTX g))).drain)) ∧
    (s.on (SEG_STAT_CBR g) = true → (s.seg g).ctxs.contains (s.get (SEG_CTL_LM_CTX g)) = true →
      exec (.cbrRelease g) s = .next ((s.put (SEG_STAT_CBR g) 0).drain))

/-- The granted master takes the bus when it drives CAS_N low, and its tenure is bounded by SEG_TMO (R191, R192). -/
def masterAccepts : Prop :=
  ∀ (s : State) (g : Fin 4) (spc : Fin 3) (addr : BitVec 24) (gr : Nat), s.power = .run → s.hasSeg g = true →
    (s.seg g).cycle = .lmGrant gr →
    exec (.lmAcceptance g spc addr) s = .next ((((State.casFell ((s.setSeg g { s.seg g with
      cycle := .lmTenure gr s.clk spc addr.toNat false }).disarm (.grant g)) g s.clk)).arm (.tenure g)
        (s.get (SEG_TMO_TMO g) * 500)).drain)

/-- A grant not taken up is withdrawn, counted and raised (R192). -/
def grantWithdrawn : Prop :=
  ∀ (s u : State) (g : Fin 4), s.power = .run → s.hasSeg g = true → s.expire (.grant g) = some u →
    exec (.grantLost g) s = .next ((State.busFree (State.elapse (State.segEvent ((u.setSeg g { u.seg g with
      cycle := .idle, overheld := false }).bump (SEG_LM_CNT_GRANT_LOST g)) g 10 (u.get (SEG_CTL_LM_CTX g))) 40) g).drain)

/-- A tenure that lasts SEG_TMO is answered with CERR_N, counted, raised and captured (R192, R204). -/
def tenureWatched : Prop :=
  ∀ (s u : State) (g : Fin 4) (gr from_ spc addr : Nat) (reads : Bool) (v : State), s.power = .run →
    s.hasSeg g = true → s.expire (.tenure g) = some u → (u.seg g).cycle = .lmTenure gr from_ spc addr reads →
    v = (((u.emit (.respond g 1 [])).bump (SEG_MISC_CNT_LM_WATCHDOG g)).segEvent g 11 (u.get (SEG_CTL_LM_CTX g))) →
    exec (.lmWatchdog g) s = .next ((v.segCapture g 4 (u.get (SEG_CTL_LM_CTX g)) false addr spc).drain)

/-- The end of a tenure charges its bus time to LM_CTX and frees the bus after the release (R191, R312). -/
def tenureEnds : Prop :=
  ∀ (s u : State) (g : Fin 4) (gr from_ spc addr : Nat) (reads : Bool), s.power = .run → s.hasSeg g = true →
    (s.seg g).cycle = .lmTenure gr from_ spc addr reads → u = s.chargeBus (s.get (SEG_CTL_LM_CTX g)) g (s.clk - gr) →
    exec (.lmTenureEnd g) s = .next ((State.busFree (((((u.setSeg g { u.seg g with
      cycle := .idle, inbWait := .none, overheld := false }).disarm (.tenure g)).disarm (.inb g))).elapse 40) g).drain)

/-- An inbound write into an area of the own Ledger is answered and buffered while the buffer has room, and waits 2 µs
when it is full; one that the area refuses is answered with CERR_N (R193, R194). -/
def inboundWrites : Prop :=
  ∀ (s : State) (g : Fin 4) (a : BitVec 24) (x : Byte) (t : List (BitVec 24 × Byte)) (i : Nat) (cs : List Nat)
    (e : InbEntry), s.power = .run → s.hasSeg g = true → cs = ((a, x) :: t).map (fun b => b.1.toNat) →
    e = ⟨s.inbOffset g i a.toNat, a.toNat, false, ((a, x) :: t).map (fun b => (s.inbOffset g i b.1.toNat, b.2))⟩ →
    (s.inbTarget g a.toNat cs true = some (some (i, false)) → (s.seg g).inb.length < 16 →
      exec (.inboundWrite g ((a, x) :: t)) s = .next (((s.setSeg g { s.seg g with
        inb := (s.seg g).inb ++ [e], mark := ((s.seg g).mark + 1) % 65536 }).emit (.respond g 0 [])).drain)) ∧
    (s.inbTarget g a.toNat cs true = some (some (i, false)) → 16 ≤ (s.seg g).inb.length →
      exec (.inboundWrite g ((a, x) :: t)) s =
        .next (((s.setSeg g { s.seg g with inbWait := .write e }).arm (.inb g) 2000).drain)) ∧
    (s.inbTarget g a.toNat cs true = some none →
      exec (.inboundWrite g ((a, x) :: t)) s = .next ((s.emit (.respond g 1 [])).drain))

/-- An inbound read of the own Ledger, for which the bridge drives CAD (R167), is answered from a slot that holds its
bytes; with none it waits, and a fetch from the Ledger starts in a free slot (R195). -/
def inboundReads : Prop :=
  ∀ (s u : State) (g : Fin 4) (a : BitVec 24) (t : List (BitVec 24)) (cs : List Nat) (i : Nat) (p : Prefetch),
    s.power = .run → s.hasSeg g = true → cs = (a :: t).map (·.toNat) →
    s.inbTarget g a.toNat cs false = some (some (i, false)) →
    u = s.setSeg g { s.seg g with cycle := (s.seg g).cycle.reading } →
    ((u.seg g).prefetch.find? (fun p => p.addr == a.toNat && p.lanes == cs) = some p → p.ready = true →
      exec (.inboundRead g (a :: t)) s = .next ((u.emit (.respond g 0 p.data)).drain)) ∧
    ((u.seg g).prefetch.find? (fun p => p.addr == a.toNat && p.lanes == cs) = none → (u.seg g).prefetch.length < 4 →
      exec (.inboundRead g (a :: t)) s =
        .next (((u.inbReadWaits g a.toNat cs false).inbSlot g a.toNat cs false).drain))

/-- An inbound cycle that waits 2 µs is answered with CRTY_N, counted and raised (R194, R195). -/
def inboundRetried : Prop :=
  ∀ (s u : State) (g : Fin 4), s.power = .run → s.hasSeg g = true → s.expire (.inb g) = some u →
    exec (.inbRetry g) s = .next ((State.segEvent (((u.setSeg g { u.seg g with inbWait := .none }).emit
      (.respond g 2 [])).bump (SEG_LM_CNT_INB_RETRY g)) g 8 (u.get (SEG_CTL_LM_CTX g))).drain)

/-- A fetch from the own Ledger fills its slot with the bytes of its addresses, unless one of their words is
uncorrectable (R195, R207); a slot is freed after HOLD. -/
def fetchesEnd : Prop :=
  ∀ (s u : State) (g : Fin 4) (id i : Nat) (p : Prefetch) (r : State × List Byte × Bool), s.power = .run →
    s.hasSeg g = true →
    ((s.seg g).prefetch.find? (fun p => p.id == id && !p.ready && !p.partner) = some p →
      s.inbArea g p.addr = some i →
      r = s.ledgerGather 2 (s.get (SEG_CTL_LM_CTX g)) (p.lanes.map (s.inbOffset g i)) →
      exec (.inboundFetchEnd g id) s = .next ((r.1.inbFill g id r.2.1 (!r.2.2)).drain)) ∧
    (s.expire (.prefetch g id) = some u → exec (.prefetchHoldEnd g id) s =
      .next ((u.setSeg g { u.seg g with prefetch := (u.seg g).prefetch.filter (fun p => p.id != id) }).drain))

/-- What the write of an entry of the inbound posted buffer into the own Ledger leaves (R194, R212, R220): written, or
counted when it is dropped for an uncorrectable word, or reported when the Ledger refuses it. -/
def inboundStored (u : State) (n : Nat) (e : InbEntry) : Verdict → State
  | .te => u.bump LDG_CNT_INB_DROP
  | .refused => u.ledgerFail n stUR e.addr 4
  | .un => u.ledgerFail n stUN e.addr 4
  | _ => u

/-- The oldest entry of the inbound posted buffer is written to the own Ledger (R194, R212, R220). -/
def inboundDrains : Prop :=
  ∀ (s u v : State) (g : Fin 4) (e : InbEntry) (rest : List InbEntry) (vd : Verdict), s.power = .run →
    s.hasSeg g = true → (s.seg g).inb = e :: rest → e.partner = false → vd ≠ .forward →
    (s.setSeg g { s.seg g with inb := rest, drained := ((s.seg g).drained + 1) % 65536 }).ledgerWrite 2
      (s.get (SEG_CTL_LM_CTX g)) e.bytes = (u, vd) → v = inboundStored u (s.get (SEG_CTL_LM_CTX g)) e vd →
    (v.seg g).inbWait = .none → exec (.inboundDrain g) s = .next v.drain

/-! ## States of a segment -/

/-- A write of SEG_CTL sets EN, and the segment follows it (R197, R445). -/
def segmentEnabled (ok : Admits := State.reaches) : Prop :=
  ∀ (s : State) (b : By) (g : Fin 4) (v : Word), s.power = .run → ok s b (SEG_CTL g) v = true →
    exec (.segCtlEn b g v) s = .next (wrote s b (SEG_CTL g) v (fun u => u.segEn g (u.on (SEG_CTL_EN g))))

/-- What the take of an idle bus leaves (R198): the segment is ON, its owner shown, its semaphores free; on a CB32
segment the clock has run; a keeper pulse is issued, and every line is armed. -/
def owning (s : State) (g : Nat) : State :=
  let u := (State.disarm ((s.elapse 1000).setSeg g { s.seg g with
    takePending := false, armed := [], keepLast := none }) (.cold g))
  let u := (((u.setSegState g 2).setSegRole g 2).showLease g).freeSems g
  (List.range 4).foldl (fun u l => u.rearm g l)
    ((u.elapse (if u.on (SEG_CTL_MODE g) then 960 else 0)).issueKeeper g)

/-- The device becomes owner of a segment it may take, once the bus is idle (R198). -/
def segmentTaken : Prop :=
  ∀ (s : State) (g : Fin 4), s.power = .run → s.hasSeg g = true → (s.seg g).takePending = true →
    s.get (SEG_STAT_ROLE g) ≠ 2 → (s.segState g = 1 ∨ s.segState g = 2) → s.on (SEG_STAT_RSP_STUCK g) = false →
    (s.seg g).rspLow = false → (s.seg g).cycle = .idle → mget (owning s g).span.taking g 0 = 0 →
    exec (.ownershipTake g) s = .next ((State.homesGained { owning s g with span := { (owning s g).span with
      taking := mdel (owning s g).span.taking g } } s.homes).drain)

/-- A device that gives a segment up releases its drivers at an idle bus (R199, R200): while DRAINING the locks end, the
requests that wait end with AB and the segment has no owner. -/
def busReleased : Prop :=
  ∀ (s : State) (g : Fin 4), s.power = .run → s.hasSeg g = true → (s.seg g).releasing = true →
    (s.seg g).cycle = .idle → s.span.handover.contains g.val = false →
    (s.segState g = 3 → exec (.busRelease g) s =
      .next ((((((s.endLocks g).dropDrivers g).clearJobs g false stAB).setSegRole g 0).showLease g).drain)) ∧
    (s.segState g ≠ 3 → exec (.busRelease g) s = .next ((s.letGo g stUN true).drain))

/-- A draining segment with nothing left is OFF, or starts anew if EN was set again (R200, R445). -/
def segmentDrained : Prop :=
  ∀ (s u : State) (g : Fin 4), s.power = .run → s.hasSeg g = true → s.segState g = 3 →
    s.get (SEG_STAT_ROLE g) ≠ 2 → (s.seg g).cycle = .idle → (s.seg g).jobs = [] → (s.seg g).tenure = none →
    (s.seg g).releasing = false → u = (s.setSegRole g 0).showLease g →
    (u.on (SEG_STAT_RESTART_PENDING g) = true → exec (.segDrainEnd g) s = .next ((u.startSeg g).drain)) ∧
    (u.on (SEG_STAT_RESTART_PENDING g) = false → exec (.segDrainEnd g) s = .next ((u.setSegState g 0).drain))

/-- CARD_RESET drives CRST_N low for WIDTH ms on an owned segment whose pulse is not under way (R201); at its end
CRST_ACTIVE and CARD_RESET are 0, and the end is raised. -/
def cardsReset (ok : Admits := State.reaches) : Prop :=
  ∀ (s u : State) (b : By) (g : Fin 4), s.power = .run →
    (ok s b (SEG_CMD g) (one s (SEG_CMD_CARD_RESET g)) = true → s.on (SEG_STAT_CRST_ACTIVE g) = false →
      s.owns g = true → exec (.cardReset b g) s = .next (wrote s b (SEG_CMD g) (one s (SEG_CMD_CARD_RESET g))
        (fun u => ((u.zero (SEG_CMD_ARM g)).put (SEG_STAT_CRST_ACTIVE g) 1).arm (.cardReset g)
          (s.get (SEG_RST_WIDTH g) * 1000000)))) ∧
    (s.hasSeg g = true → s.expire (.cardReset g) = some u → u.on (SEG_STAT_CRST_ACTIVE g) = true →
      exec (.cardResetEnd g) s = .next ((State.segEvent ((((u.disarm (.cardReset g)).put (SEG_STAT_CRST_ACTIVE g) 0).put
        (SEG_CMD_CARD_RESET g) 0)) g 13 0).drain))

end Sys2Proof.Claims

/-- The beats and cycles of a segment move, fail, are retried and end. -/
def Obligations.SegmentCycles : Prop :=
  Sys2Proof.Claims.writeBeatMoves ∧ Sys2Proof.Claims.readBeatMoves ∧ Sys2Proof.Claims.cyclesFail ∧
    Sys2Proof.Claims.samplesRanked ∧ Sys2Proof.Claims.retryTaken ∧ Sys2Proof.Claims.retryDelayEnds ∧ Sys2Proof.Claims.responsesReleased ∧
    Sys2Proof.Claims.strayResponses ∧ Sys2Proof.Claims.segmentWaitEnds

/-- Keeper pulses and card interrupts. -/
def Obligations.KeeperAndInterrupts : Prop :=
  Sys2Proof.Claims.keeperDue ∧ Sys2Proof.Claims.keeperCuts ∧ Sys2Proof.Claims.keeperSeenShown ∧
    Sys2Proof.Claims.casFallTaken ∧ Sys2Proof.Claims.interruptLines ∧ Sys2Proof.Claims.linesArmed

/-- Legacy masters and their inbound cycles. -/
def Obligations.LegacyMasters : Prop :=
  Sys2Proof.Claims.requestLine ∧ Sys2Proof.Claims.masterAccepts ∧ Sys2Proof.Claims.grantWithdrawn ∧
    Sys2Proof.Claims.tenureWatched ∧ Sys2Proof.Claims.tenureEnds ∧ Sys2Proof.Claims.inboundWrites ∧
    Sys2Proof.Claims.inboundReads ∧ Sys2Proof.Claims.inboundRetried ∧ Sys2Proof.Claims.fetchesEnd ∧
    Sys2Proof.Claims.inboundDrains

/-- The states of a segment and its card reset. -/
def Obligations.SegmentStates : Prop :=
  Sys2Proof.Claims.segmentEnabled ∧ Sys2Proof.Claims.segmentTaken ∧ Sys2Proof.Claims.busReleased ∧
    Sys2Proof.Claims.segmentDrained ∧ Sys2Proof.Claims.cardsReset

namespace Sys2Proof.Claims

open Sys2Proof.Machine

/-! ## Locks, compatibility ports and arbiters -/

/-- A lock held for TMO ends; a native lock's bus is free again (R156). -/
def locksTimeOut : Prop :=
  ∀ (s u : State) (g : Fin 4) (n : Fin 64), s.power = .run →
    (s.expire (.lock (.native g)) = some u →
      exec (.lockTimeout (.native g)) s = .next (((u.lockEnds (.native g)).busFree g).drain)) ∧
    (s.expire (.lock (.sem n)) = some u → exec (.lockTimeout (.sem n)) s = .next ((u.lockEnds (.sem n)).drain))

/-- A request that has waited for a semaphore for TMO ends with LK (R156), and one that would have locked leaves its
unlocking write to end so too. -/
def semaphoreWaitEnds : Prop :=
  ∀ (s t u : State) (o g : Nat) (j : Job), s.power = .run → s.expire (.semWait o) = some u →
    u.allJobs.find? (fun x => x.2.order == o && x.2.wait == .semaphore) = some (g, j) → t = u.stopJob g j stLK 1 →
    (j.role ≠ .acquire ∨ j.lock = none → exec (.semWaitTimeout o) s = .next t.drain) ∧
    (∀ l, j.role = .acquire → j.lock = some l →
      exec (.semWaitTimeout o) s = .next ((t.unlockLate g l j.ctx).drain))

/-- A free semaphore goes to the first request that waits for it, which then holds it and is ready, or waits for the
acknowledgement of its journal entry (R157, R367). -/
def semaphoreGranted : Prop :=
  ∀ (s u : State) (n : Fin 64) (g o : Nat) (j : Job) (e : Exec) (owed : Bool), s.power = .run →
    s.lockHeld (.sem n) = none → s.semWaiter (.sem n) = some (g, j) → j.owner = .host o → s.execOf o = some e →
    u = (s.disarm (.semWait j.order)).takeSem (.sem n) j.ctx (e.win.getD 64) g e.viaSpan.isSome →
    owed = (u.journals e && !(u.sentOf g).any (fun x => x.order == j.order && x.acked)) →
    exec (.semaphoreGrant n) s = .next (((u.setJob g { j with
      wait := if owed then .journal else .ready,
      role := if j.role == LockRole.none then LockRole.release else j.role }).journalNext g).drain)

/-- A request that its context's owner channel makes (R161): accepted for a SINGLE context that is ON and not fenced. -/
def directAccepted (s : State) (n : Nat) (k : Pkt) : State :=
  (s.addExec (.direct n) (.single (Fin.ofNat 3 (s.get (CTX_VOTE_OWNER n)))) k none (s.get (CTX_VOTE_OWNER n)) []).drain

/-- A read of the inbound compatibility port and a write of the outbound one are accepted (R161, R330, R331). -/
def compatibilityPortsUsed : Prop :=
  ∀ (s : State) (n : BitVec 8) (v : Word), s.power = .run → s.isVoted n.toNat = false → s.ctxState n.toNat = 2 →
    s.on (CTX_FENCE_FENCED n.toNat) = false →
    exec (.compatInqRead n) s = .next (directAccepted s n.toNat (inqPkt n.toNat)) ∧
    exec (.compatOutqWrite n v) s = .next (directAccepted s n.toNat (outqPkt n.toNat v))

/-- The first read that stalls takes the next word of its queue (R329, R330); an access that has stalled for STALL_MAX
ends, a read with TO and a write with RT (R330, R331). -/
def stallsEnd : Prop :=
  ∀ (s u : State) (n : BitVec 8) (e : Exec) (t : Taken), s.power = .run →
    (s.execs.find? (fun e => e.stage == .compatWait && e.is tMRD && e.ctx == n.toNat) = some e →
      s.inqBusy e = false → s.takeFrom (s.get WIN_COMPAT_INQ) 1 true = (u, some t) →
      exec (.wordAvailable n) s = .next (((u.disarm (.compat e.ctx)).finishExec e stSC 0 e.taddr
        (leBytes 4 (t.words.getD 0 0).toNat)).drain)) ∧
    (s.expire (.compat n.toNat) = some u →
      u.execs.find? (fun e => e.stage == .compatWait && e.ctx == n.toNat) = some e →
      exec (.stallTimeout n) s = .next ((u.finishExec e (if e.is tMRD then stTO else stRT) 0 e.taddr []).drain))

/-- The requests of a Ledger arbitration as candidates. -/
def ledgerCands (s : State) (reqs : List (BitVec 5 × BitVec 8)) : List Cand :=
  reqs.map (fun r => s.ledgerCand (r.1.toNat, r.2.toNat))

/-- An arbitration grants (R339): at the Ledger its winner and the losers are accounted for; at a host port the message
at the head goes; a segment, once a keeper pulse that is due has gone, opens the cycle of the job granted, or grants the
bus to the legacy masters. -/
def arbitrationGrants : Prop :=
  ∀ (s u v : State) (c : Cand) (ceil : Bool) (j : Job), s.power = .run →
    (∀ reqs : List (BitVec 5 × BitVec 8),
      s.arbitrate 0 (reqs.map (·.1.toNat)) (ledgerCands s reqs) = (u, some (c, ceil)) →
      exec (.arbitration 0 reqs) s = .next u.drain) ∧
    (∀ p : Fin 3, exec (.arbitration ⟨7 + p.val, by omega⟩ []) s = .next ((s.hostSend p).drain)) ∧
    (∀ g : Fin 4, s.hasSeg g = true → s.segIssues g = true → (s.seg g).cycle = .idle →
      s.on (SEG_STAT_CRST_ACTIVE g) = false → (s.nextJobs g).all (fun j => !s.busSpent j.ctx g) = true →
      v = (s.lmCheck g).busFree g →
      v.arbitrate (1 + g) ((v.seg g).ctxs ++ (if v.on (SEG_STAT_CBR g) then [v.get (SEG_CTL_LM_CTX g)] else []))
        (v.segOffers g) = (u, some (c, ceil)) →
      (c.src ≠ 2 → u.job g c.order = some j → exec (.arbitration ⟨1 + g.val, by omega⟩ []) s = .next ((State.openCycle
        (u.setJob g { j with deferred := false }) g { j with deferred := false } ceil).drain)) ∧
      (c.src = 2 → exec (.arbitration ⟨1 + g.val, by omega⟩ []) s = .next ((u.grantLm g).drain)))

/-- The backoff of a requester ends, and it may be granted again (R340). -/
def backoffEnds : Prop :=
  ∀ (s u : State) (a : Fin 10) (who : BitVec 8), s.power = .run → s.expire (.backoff a who.toNat) = some u →
    exec (.backoffEnd a who) s =
      .next (u.setArb a ((u.arb a).setAccount { (u.arb a).account who.toNat with waiting := false }))

/-- A grant held for MAX_HOLD is counted, captured and raised once, and a burst is cut short; a lock tenure is cut
(R344). -/
def overheldGrants : Prop :=
  ∀ (s u : State) (g : Fin 4) (since src n : Nat) (lock : Bool), s.power = .run → s.hasSeg g = true →
    s.arbGet (ARB_CFG_MAX_HOLD (1 + g)) ≠ 0 → (s.seg g).overheld = false →
    s.holder g = some (since, src, n, lock) →
    u = s.until_ (since + s.arbGet (ARB_CFG_MAX_HOLD (1 + g)) * 500) →
    (lock = false → exec (.overhold g) s = .next ((State.noteOverhold (u.setSeg g { u.seg g with
      overheld := true, cycle := (u.seg g).cycle.shortened }) (1 + g) src n false).drain)) ∧
    (lock = true → exec (.overhold g) s = .next ((State.busFree (State.cutTenure (State.noteOverhold (u.setSeg g
      { u.seg g with overheld := true, cycle := (u.seg g).cycle.shortened }) (1 + g) src n true) g) g).drain))

/-- A commit of an instance has its shadow settings active (R346): at once, but at a segment whose bus is in use once it
is free. -/
def settingsCommitted (ok : Admits := State.reaches) : Prop :=
  ∀ (s : State) (b : By) (i : Fin 10) (v : Word), s.power = .run → s.member.present (ARB_CFG i) = true →
    v = s.putWordOf ARB_COMMIT_INST (2 ^ i.val) → ok s b ARB_COMMIT v = true →
    (¬ (1 ≤ i.val ∧ i.val ≤ 4 ∧ ((s.seg (i - 1)).cycle ≠ .idle ∨ (s.seg (i - 1)).tenure.isSome = true)) →
      exec (.arbCommit b (BitVec.ofNat 10 (2 ^ i.val))) s = .next (wrote s b ARB_COMMIT v (fun u => u.arbApply i))) ∧
    ((1 ≤ i.val ∧ i.val ≤ 4 ∧ ((s.seg (i - 1)).cycle ≠ .idle ∨ (s.seg (i - 1)).tenure.isSome = true)) →
      exec (.arbCommit b (BitVec.ofNat 10 (2 ^ i.val))) s =
        .next (wrote s b ARB_COMMIT v (fun u => u.setArb i { u.arb i with commitWait := true })))

/-! ## The Ledger and the images -/

/-- The scrubber, whose turn has come, reads its next word, goes on and waits for its next turn (R206, R208, R229): a
correctable error is counted and mended, an uncorrectable one counted and kept. -/
def scrubberReads : Prop :=
  ∀ (s t u : State) (found e : Ecc) (w : Nat), s.power = .run → s.expire .scrub = some u →
    w = u.get LDG_SCRUB_POS → e = eccWorse (mget u.ledgerBad w .ok) found →
    t = { u with ledgerBad := mput u.ledgerBad w (if e = .ue then .ue else .ok) .ok } →
    (e = .ok → exec (.scrubRead found) s = .next (t.scrubNext w).scrubWatch) ∧
    (e = .ce → exec (.scrubRead found) s = .next ((t.ledgerFault false 1 0 w).scrubNext w).scrubWatch) ∧
    (e = .ue → exec (.scrubRead found) s = .next ((t.ledgerFault true 1 0 w).scrubNext w).scrubWatch)

/-- What a boundary does before the contexts are released: the images due are committed, a pending plan takes effect, at
a stage start the charges are folded and cleared, the written timing comes into force, and LEG shows the leg (R290 to
R292, R301). -/
def boundaryPassed (u : State) (b : Nat × Bool) : State :=
  let v := (u.legEndImages (u.get STG_STAT_LEG)).applyPlan
  let v := (if b.2 then v.stageStart else v).takeTiming b.1
  v.put STG_STAT_LEG (v.sched.legOf b.1)

/-- The next boundary (R292, R293, R307): after it the contexts whose leg it is are released in ascending order, at a
stage start the deferred cycles offered again, and the energy bounds computed. -/
def boundaryTaken : Prop :=
  ∀ (s u v w : State) (b : Nat × Bool), s.power = .run → s.nextBoundary = b → u = State.untilTb 64 s b.1 →
    v = boundaryPassed u b → w = v.ctxsOn.foldl (fun w n => w.release_ (v.sched.legOf b.1) n) v →
    (b.2 = false → exec .legBoundary s = .next (w.legEnergy.retarget.drain)) ∧
    (b.2 = true → exec .legBoundary s =
      .next (((List.range 4).foldl (fun w g => w.offerAgain g) w).legEnergy.retarget.drain))

/-- The carry of an image ends with every line carried (R218). -/
def carryEnds : Prop :=
  ∀ (s : State) (i : BitVec 8), s.power = .run → s.on (IMG_STAT_CARRYING i.toNat) = true →
    exec (.carryEnd i) s = .next (s.carryAll i.toNat)

/-- What a write of IMG_CFG that leaves EN as it is does: an image whose home the device becomes takes its home's part
(R221). -/
def homeFollowed (old u : State) (i : Nat) : State :=
  if u.imgOn i && u.homeHere i && !(old.imgOn i && old.homeHere i) then u.becomeHome i else u

/-- A write of IMG_BASE or IMG_SIZE of an enabled image discards its buffers, and so does a write of IMG_CFG that changes
EN; of a disabled image the new word alone is stored (R210). -/
def imageRegistersWritten (ok : Admits := State.reaches) : Prop :=
  ∀ (s : State) (b : By) (i : BitVec 8) (v : Word), s.power = .run →
    (ok s b (IMG_BASE i.toNat) v = true → s.on (IMG_CFG_EN i.toNat) = true →
      exec (.imgCfgWrite b i 0 v) s = .next (wrote s b (IMG_BASE i.toNat) v
        (fun u => u.discardImage (s.admitted b (IMG_BASE i.toNat)) i.toNat))) ∧
    (ok s b (IMG_SIZE i.toNat) v = true → s.on (IMG_CFG_EN i.toNat) = true →
      exec (.imgCfgWrite b i 1 v) s = .next (wrote s b (IMG_SIZE i.toNat) v
        (fun u => u.discardImage (s.admitted b (IMG_SIZE i.toNat)) i.toNat))) ∧
    (ok s b (IMG_BASE i.toNat) v = true → s.on (IMG_CFG_EN i.toNat) = false →
      exec (.imgCfgWrite b i 0 v) s = .next (wrote s b (IMG_BASE i.toNat) v (fun u => u))) ∧
    (ok s b (IMG_SIZE i.toNat) v = true → s.on (IMG_CFG_EN i.toNat) = false →
      exec (.imgCfgWrite b i 1 v) s = .next (wrote s b (IMG_SIZE i.toNat) v (fun u => u))) ∧
    (ok s b (IMG_CFG i.toNat) v = true →
      (s.stored b (IMG_CFG i.toNat) v).on (IMG_CFG_EN i.toNat) ≠ s.on (IMG_CFG_EN i.toNat) →
      exec (.imgCfgWrite b i 2 v) s = .next (wrote s b (IMG_CFG i.toNat) v
        (fun u => u.discardImage (s.admitted b (IMG_CFG i.toNat)) i.toNat))) ∧
    (ok s b (IMG_CFG i.toNat) v = true →
      (s.stored b (IMG_CFG i.toNat) v).on (IMG_CFG_EN i.toNat) = s.on (IMG_CFG_EN i.toNat) →
      exec (.imgCfgWrite b i 2 v) s = .next (wrote s b (IMG_CFG i.toNat) v
        (fun u => homeFollowed (s.admitted b (IMG_CFG i.toNat)) u i.toNat)))

/-- Whether a control packet of the partner is taken on span port `q`: it arrives without an error at a port that is
ON (R352, R354). -/
def controlTaken (s : State) (q : Nat) (k : Pkt) : Bool :=
  s.power == .run && decide (q < s.member.spans) && s.takes (3 + q) k && s.portState (3 + q) == 2

/-- The state in which a control packet of the partner has arrived on span port `q`: the partner has been heard (R372),
and the trace takes the packet (R486). -/
def spanHeard (s : State) (q : Nat) (k : Pkt) : State := (s.heardOn (3 + q)).traceSpan (3 + q) k

/-- Lines, commit records and resync requests that the partner sends are taken, their buffer space returned (R221 to
R224, R354). -/
def mirrorTaken : Prop :=
  ∀ (s : State) (q : Fin 2) (k : Pkt),
    (∀ (line : BitVec 20) (bad : BitVec 8) (d : List Byte), k = spanCtl q (0xFE00000000 + 64 * line.toNat) d →
      controlTaken s q k = true → exec (.mirroredLine q line bad d) s =
        .next ((((spanHeard s q k).spanTook q d.length).mirroredLine (64 * line.toNat) d bad.toNat).drain)) ∧
    (∀ (i : BitVec 8) (gen flags time : Word), k = spanCtl q 0xFF00000005 (leBytes 4 i.toNat ++ leBytes 4 gen.toNat ++
      leBytes 4 flags.toNat ++ leBytes 4 time.toNat) → controlTaken s q k = true →
      exec (.commitRecord q i gen flags time) s =
        .next ((((spanHeard s q k).spanTook q 16).commitRecord i.toNat gen.toNat flags.toNat time.toNat).drain)) ∧
    (∀ i : BitVec 8, k = spanCtl q 0xFF00000006 (leBytes 4 i.toNat) → controlTaken s q k = true →
      exec (.resync q i) s = .next ((((spanHeard s q k).spanTook q 4).resyncAsked i.toNat).drain))

end Sys2Proof.Claims

/-- Locks end and are granted, and the compatibility ports are used. -/
def Obligations.LocksAndCompatibilityPorts : Prop :=
  Sys2Proof.Claims.locksTimeOut ∧ Sys2Proof.Claims.semaphoreWaitEnds ∧ Sys2Proof.Claims.semaphoreGranted ∧
    Sys2Proof.Claims.compatibilityPortsUsed ∧ Sys2Proof.Claims.stallsEnd

/-- Arbitrations, their backoff, overhold and settings. -/
def Obligations.ArbitersGrant : Prop :=
  Sys2Proof.Claims.arbitrationGrants ∧ Sys2Proof.Claims.backoffEnds ∧ Sys2Proof.Claims.overheldGrants ∧
    Sys2Proof.Claims.settingsCommitted

/-- The Ledger's scrubber, leg boundaries and the images. -/
def Obligations.LedgerAndImages : Prop :=
  Sys2Proof.Claims.scrubberReads ∧ Sys2Proof.Claims.boundaryTaken ∧ Sys2Proof.Claims.carryEnds ∧
    Sys2Proof.Claims.imageRegistersWritten ∧ Sys2Proof.Claims.mirrorTaken

namespace Sys2Proof.Claims

open Sys2Proof.Machine

/-! ## Contexts and couriers -/

/-- A write of CTX_CTL sets EN, and the context follows it (R250): one that is OFF starts, one in STARTING or ON drains,
and in DRAINING EN shows whether a start is to follow. -/
def contextEnabled (ok : Admits := State.reaches) : Prop :=
  ∀ (s u : State) (b : By) (n : BitVec 8) (v : Word), s.power = .run → ok s b (CTX_CTL n.toNat) v = true →
    u = s.stored b (CTX_CTL n.toNat) v →
    (u.ctxState n.toNat = 0 → u.on (CTX_CTL_EN n.toNat) = true →
      exec (.ctxCtlEn b n v) s = .next (wrote s b (CTX_CTL n.toNat) v (fun u => u.ctxStart n.toNat))) ∧
    (u.ctxState n.toNat = 1 ∨ u.ctxState n.toNat = 2 → u.on (CTX_CTL_EN n.toNat) = false →
      exec (.ctxCtlEn b n v) s = .next (wrote s b (CTX_CTL n.toNat) v (fun u => u.ctxDrain n.toNat))) ∧
    (u.ctxState n.toNat = 3 → exec (.ctxCtlEn b n v) s = .next (wrote s b (CTX_CTL n.toNat) v (fun u =>
      u.put (CTX_STAT_RESTART_PENDING n.toNat) (ofBool (u.on (CTX_CTL_EN n.toNat))))))

/-- A draining context that has ended its work starts again where a start is pending, else it is OFF (R250, R445). -/
def contextDrained : Prop :=
  ∀ (s : State) (n : BitVec 8), s.power = .run → s.ctxState n.toNat = 3 → 0 < n.toNat → s.ctxBusy n.toNat = false →
    (s.on (CTX_STAT_RESTART_PENDING n.toNat) = true → exec (.ctxDrainEnd n) s = .next ((s.ctxStart n.toNat).drain)) ∧
    (s.on (CTX_STAT_RESTART_PENDING n.toNat) = false →
      exec (.ctxDrainEnd n) s = .next ((s.put (CTX_STAT_STATE n.toNat) 0).drain))

/-- A kick is a wake of its context (R239); RESUME gives a halted context the state of R237 and has it IDLE (R245). The
bits read 0. -/
def contextCommands (ok : Admits := State.reaches) : Prop :=
  ∀ (s : State) (b : By) (n : BitVec 8), s.power = .run →
    (ok s b (CTX_CMD n.toNat) (one s (CTX_CMD_KICK n.toNat)) = true →
      exec (.kick b n) s = .next (wrote s b (CTX_CMD n.toNat) (one s (CTX_CMD_KICK n.toNat)) (fun u =>
        ((u.zero (CTX_CMD_KICK n.toNat)).zero (CTX_CMD_RESUME n.toNat)).wake n.toNat))) ∧
    (ok s b (CTX_CMD n.toNat) (one s (CTX_CMD_RESUME n.toNat)) = true → s.run n.toNat = 5 →
      exec (.ctxResume b n) s = .next (wrote s b (CTX_CMD n.toNat) (one s (CTX_CMD_RESUME n.toNat)) (fun u =>
        (((u.zero (CTX_CMD_KICK n.toNat)).zero (CTX_CMD_RESUME n.toNat)).freshArch n.toNat).put
          (CTX_STAT_RUN n.toNat) 0)))

/-- What taking the head item `i` off work queue `k` leaves: its word checked (R332). -/
def itemTaken (s : State) (k : Nat) (i : WorkItem) (rest : List WorkItem) : State :=
  (s.setQueue (144 + k) { s.queue (144 + k) with items := rest }).wordsChecked (144 + k) (s.headPlace (144 + k) 0)
    (ofBool (i.ecc == .ce)) (i.ecc == .ue)

/-- The head item of a work queue moves into the empty slot of the context it names, which is woken; an item that names a
context not fed by the queue is discarded and counted (R241). -/
def workItemsDispatched : Prop :=
  ∀ (s t : State) (k : Fin 16) (i : WorkItem) (rest : List WorkItem) (n : Nat), s.power = .run →
    (s.queue (144 + k)).items = i :: rest → (s.queue (144 + k)).testing = false →
    (s.queue (144 + k)).retired = false → n = bits i.seen 0 8 → t = itemTaken s k i rest →
    (s.fedBy n k = true → (s.arch n).item = none → exec (.workItemDispatch k) s = .next ((t.setArch n { t.arch n with
      item := some i.seen, itemLine := i.line }).wake n)) ∧
    (s.fedBy n k = false → exec (.workItemDispatch k) s = .next (t.bump COUR_GLB_WQ_DISCARD))

/-- A courier binds its next READY context to a free thread, or, for a TOP context, in place of the one it preempts, which
is READY again, or WAITING if it waits (R240). -/
def threadsBound : Prop :=
  ∀ (s t : State) (c : Fin 16) (n k v : Nat), s.power = .run → c.val < s.member.couriers → s.courRuns c = true →
    t = s.settleCour c → t.nextReady c = some n →
    (t.freeThread c = some k → exec (.threadBind c) s = .next (t.bindTo c k n)) ∧
    (t.freeThread c = none → t.noteOf n = 0 → t.victim c = some v → t.run v ≠ 3 → exec (.threadBind c) s =
      .next ((((t.unbind v 1).makeReady v).bump (COUR_CNT_PREEMPT c)).bindTo c (t.get (CTX_STAT_THREAD v)) n)) ∧
    (t.freeThread c = none → t.noteOf n = 0 → t.victim c = some v → t.run v = 3 → exec (.threadBind c) s =
      .next (((t.unbind v 3).bump (COUR_CNT_PREEMPT c)).bindTo c (t.get (CTX_STAT_THREAD v)) n))

/-- A running context whose charge has reached its budget is suspended, counted and raised (R295). -/
def overdraftSuspends : Prop :=
  ∀ (s : State) (n : BitVec 8), s.power = .run → s.run n.toNat = 2 →
    s.slotBudget n.toNat ≤ s.get (CTX_CHG_SLOTS n.toNat) →
    exec (.overdraft n) s = .next ((((s.leave n.toNat 4).bump (CTX_USE_OVERDRAFTS n.toNat)).bump
      STG_CNT_OVERDRAFT).raise 56 n.toNat (s.courDetail n.toNat 0))

/-- A WAIT whose instant has come on the time base ends, with C set where it was a timeout (R281, R282). -/
def waitsTimeOut : Prop :=
  ∀ (s u : State) (n : BitVec 8) (t : Nat), s.power = .run → (s.arch n.toNat).due = some t →
    u = State.untilTb 64 s t →
    ((s.arch n.toNat).waitFor = .time → exec (.waitTimeout n) s = .next (u.endWait n.toNat false)) ∧
    ((s.arch n.toNat).waitFor ≠ .time → exec (.waitTimeout n) s = .next (u.endWait n.toNat true))

/-- A write of COUR_CTL sets EN, and the courier follows it (R247, R445): one that is ON is retired, one in STARTING stops
without its test; in DRAINING EN shows whether a start is to follow. -/
def courierEnabled (ok : Admits := State.reaches) : Prop :=
  ∀ (s u : State) (b : By) (c : Fin 16) (v : Word), s.power = .run → ok s b (COUR_CTL c) v = true →
    u = s.stored b (COUR_CTL c) v →
    (u.get (COUR_STAT_STATE c) = 2 → u.on (COUR_CTL_EN c) = false →
      exec (.courCtlEn b c v) s = .next (wrote s b (COUR_CTL c) v (fun u => u.retireCour c 2))) ∧
    (u.get (COUR_STAT_STATE c) = 1 → u.on (COUR_CTL_EN c) = false →
      exec (.courCtlEn b c v) s = .next (wrote s b (COUR_CTL c) v (fun u =>
        ((u.noTest (.courier c)).put (COUR_STAT_STATE c) 0).put (COUR_STAT_ROLE c) 2))) ∧
    (u.get (COUR_STAT_STATE c) = 0 → u.on (COUR_CTL_EN c) = true → u.replaced.contains (.courier c) = false →
      exec (.courCtlEn b c v) s = .next (wrote s b (COUR_CTL c) v (fun u =>
        (((u.put (COUR_STAT_STATE c) 1).put (COUR_STAT_ROLE c) 3).incr (COUR_STAT_GEN c)).askTest c 0))) ∧
    (u.get (COUR_STAT_STATE c) = 3 → exec (.courCtlEn b c v) s = .next (wrote s b (COUR_CTL c) v (fun u =>
      u.put (COUR_STAT_RESTART_PENDING c) (ofBool (u.on (COUR_CTL_EN c))))))

/-- A courier that is ON stops for a fault of its own (R233, R262, R412): cores that disagree are counted, raised with the
context on the thread, and the courier is retired and tested; a parity error of its state store retires and tests it; a
corrected word is retested; an uncorrectable instruction word retires it while a spare is left, and else after a retest that
finds the word bad again. -/
def mismatchRetires : Prop :=
  ∀ (s : State) (c : Fin 16), s.power = .run → c.val < s.member.couriers → s.get (COUR_STAT_STATE c) = 2 →
    (∀ k : Fin 4, exec (.lockstepMismatch ⟨c, .mismatch k⟩) s =
      .next (((((s.bump (COUR_CNT_MISMATCH c)).raise 41 ((s.boundAt c k).getD 0) (detail c k 0)).retireCour c
        3)).askTest c 0x100)) ∧
    exec (.lockstepMismatch ⟨c, .store⟩) s = .next ((s.retireCour c 3).askTest c 0) ∧
    (∀ clean, exec (.lockstepMismatch ⟨c, .corrected clean⟩) s = .next (s.wordRetest c clean)) ∧
    (∀ (i : BitVec 14) (clean : Bool), s.spareCour.isSome = true →
      exec (.lockstepMismatch ⟨c, .word i clean⟩) s = .next (((s.setImemEcc c i.toNat .ue).retireCour c 3).askTest c 0)) ∧
    (∀ (i : BitVec 14) (t : State) (lasting : Bool), s.spareCour = none → s.get (COUR_STAT_ROLE c) = 0 →
      ((s.setImemEcc c i.toNat .ue).setImemEcc c i.toNat .ok).testedNow (.courier c) 0 true = (t, lasting) →
      exec (.lockstepMismatch ⟨c, .word i true⟩) s = .next (if lasting then t.courLasting c else t) ∧
      exec (.lockstepMismatch ⟨c, .word i false⟩) s = .next (((s.setImemEcc c i.toNat .ue).retireCour c 3).askTest c 0))

/-- Event 42 raised when a courier that took another's place is MAPPED (R247). -/
def announced (t u : State) (q : Nat) : State :=
  if t.get (COUR_STAT_ROLE q) = 0 then u.raise 42 0 (detail q 0 0) else u

/-- A migration ends: the resolutions held are applied, the contexts that moved are READY, the courier left stops,
starting again where a start is pending, and event 42 names the new one (R247, R445). -/
def migrationEnds : Prop :=
  ∀ (s t u v : State) (c : Fin 16) (q l : Nat), s.power = .run → c.val < s.member.couriers →
    s.migrating.find? (fun m => m.1 == c.val) = some (c.val, q, l) →
    t = State.heldApplied { s with migrating := s.migrating.filter (fun (m : Nat × Nat × Nat) => m.1 != c.val) } q →
    u = (t.heldBy q).foldl (fun s n => if s.run n = 6 then s.makeReady n else s) t →
    v = (u.put (COUR_STAT_STATE c) (if u.get (COUR_STAT_ROLE c) = 3 then 1 else 0)).put (COUR_STAT_BUSY c) 0 →
    (u.on (COUR_STAT_RESTART_PENDING c) = false → exec (.migrationEnd c) s = .next (announced t v q)) ∧
    (u.on (COUR_STAT_RESTART_PENDING c) = true →
      exec (.migrationEnd c) s = .next (announced t ((v.put (COUR_STAT_RESTART_PENDING c) 0).courStart c) q))

/-- The test of a courier ends (R248, R409, R412): TRANSIENT, it becomes the spare, its memories swept; LASTING, it stays
RETIRED. -/
def courierTestEnds : Prop :=
  ∀ (s t u : State) (c : Fin 16) (a : ActiveTest) (pass : Bool), s.power = .run → c.val < s.member.couriers →
    s.get (COUR_STAT_ROLE c) = 3 → s.get (COUR_STAT_STATE c) = 1 →
    s.active.find? (fun a => a.test.res == Resource.courier c) = some a →
    t = { s with active := s.active.filter (fun (a : ActiveTest) => !(a.test.res == Resource.courier c)) } →
    (t.classify (.courier c) a.test.detail pass = (u, false) → exec (.courierTestEnd c pass) s =
      .next ((((u.courSwept c a.test.detail).put (COUR_STAT_ROLE c) 1).put (COUR_STAT_STATE c) 2).showSpare)) ∧
    (t.classify (.courier c) a.test.detail pass = (u, true) → exec (.courierTestEnd c pass) s =
      .next { (u.put (COUR_STAT_ROLE c) 2).put (COUR_STAT_STATE c) 0 with
                replaced := u.replaced ++ [.courier c] })

/-! ## The stage plan and energy -/

/-- Writes of the stage registers: the timing shadow, whose OFFSET stays below STAGE (R291), and the clearing of every
PEAK (R313). -/
def stageRegisters (ok : Admits := State.reaches) : Prop :=
  ∀ (s : State) (b : By) (v : Word), s.power = .run →
    (ok s b STG_TIM v = true → exec (.stgTimWrite b v) s = .next (wrote s b STG_TIM v (fun u =>
      u.put STG_OFS_OFFSET (min (u.get STG_TIM_STAGE - 1) (u.get STG_OFS_OFFSET))))) ∧
    (ok s b STG_OFS v = true → exec (.stgOfsWrite b v) s = .next (wrote s b STG_OFS v (fun u => u))) ∧
    (ok s b STG_CMD (one s STG_CMD_PEAK_CLR) = true → exec (.peakClr b) s =
      .next (wrote s b STG_CMD (one s STG_CMD_PEAK_CLR) (fun u => u.peakClr.zero STG_CMD_PEAK_CLR)))

/-- Commands of NRG_CMD: the last-gasp record is written for cause 1 (R310); every EXTREME takes the latest code
(R315). -/
def energyCommands (ok : Admits := State.reaches) : Prop :=
  ∀ (s : State) (b : By), s.power = .run →
    (ok s b NRG_CMD (one s NRG_CMD_LASTGASP) = true → exec (.lastgasp b) s =
      .next (wrote s b NRG_CMD (one s NRG_CMD_LASTGASP) (fun u =>
        ((u.zero NRG_CMD_LASTGASP).zero NRG_CMD_EXTREME_CLR).gasp 1))) ∧
    (ok s b NRG_CMD (one s NRG_CMD_EXTREME_CLR) = true → exec (.extremeClr b) s =
      .next (wrote s b NRG_CMD (one s NRG_CMD_EXTREME_CLR) (fun u =>
        ((u.zero NRG_CMD_LASTGASP).zero NRG_CMD_EXTREME_CLR).extremeClr)))

/-- A conversion of HOLDUP_SENSE above both levels is stored with its extreme, and ends the runs towards hold-up and the
last gasp (R303, R304, R310). -/
def holdupSenseTaken : Prop :=
  ∀ (s u : State) (code : BitVec 10), s.power = .run → s.get NRG_HU_ENTER < code.toNat →
    s.get NRG_LG_LG < code.toNat → s.get NRG_HU_COUNT ≠ 0 → u = s.adcStore 0 code.toNat →
    exec (.holdupSenseSample code) s =
      .next (State.exitWatch { u with sched := { u.sched with huRun := 0, lgRun := 0 } })

/-- A run of HU_COUNT conversions at or below NRG_HU enters hold-up (R304). -/
def holdupEntered : Prop :=
  ∀ (s u : State) (code : BitVec 10), s.power = .run → s.get NRG_HU_ENTER ≠ 0 → code.toNat ≤ s.get NRG_HU_ENTER →
    s.get NRG_LG_LG < code.toNat → s.get NRG_HU_COUNT ≠ 0 → s.get NRG_HU_COUNT ≤ s.sched.huRun + 1 →
    s.on NRG_STAT_HU = false → u = s.adcStore 0 code.toNat →
    exec (.holdupSenseSample code) s = .next ((State.retarget (State.raise (State.put
      { u with sched := { u.sched with huRun := s.sched.huRun + 1, lgRun := 0 } } NRG_STAT_HU 1) 60 0 0)).exitWatch)

/-- A conversion of VIN_SENSE above its level is stored with its extreme and shows the supply good (R303, R304). -/
def vinSenseTaken : Prop :=
  ∀ (s u : State) (code : BitVec 10), s.power = .run → s.get NRG_VIN_LOW < code.toNat → s.get NRG_HU_COUNT ≠ 0 →
    u = s.adcStore 1 code.toNat → exec (.vinSenseSample code) s =
      .next (State.exitWatch (State.put { u with sched := { u.sched with vinRun := 0 } } NRG_STAT_VIN_LOW 0))

/-- A conversion of the next die sensor is stored with its extreme, and NRG_TJ shows the highest of the four (R303,
R305). -/
def dieSensorTaken : Prop :=
  ∀ (s t : State) (code : BitVec 10), s.power = .run → exec (.dieSensorSample code) s = .next t →
    t.sched.sensor = s.sched.sensor + 1 ∧
    t.get NRG_TJ_CODE = (List.range 4).foldl (fun m i => max m ((s.adcStore (2 + s.sched.sensor.val) code.toNat).get
      (NRG_ADC_CODE (2 + i)))) 0

/-- A die sensor's conversion is taken whenever the device runs (R303), and in a freeze every conversion is stored, the
always-on domain running (R484, R489). -/
def dieSensorAnswers : Prop :=
  ∀ (s : State) (code : BitVec 10),
    (s.power = .run → exec (.dieSensorSample code) s = .next (s.dieSample code.toNat)) ∧
    (s.power = .frozen → exec (.dieSensorSample code) s = .next (s.dieStore code.toNat) ∧
      exec (.holdupSenseSample code) s = .next (s.adcStore 0 code.toNat) ∧
      exec (.vinSenseSample code) s = .next (s.adcStore 1 code.toNat))

/-- Once the supply has been good for EXIT_TIME the hold-up condition ends and the plan is asked for anew (R304). -/
def holdupEnds : Prop :=
  ∀ (s u : State), s.power = .run → s.expire .huExit = some u →
    exec .holdupExit s = .next ((u.put NRG_STAT_HU 0).retarget)

end Sys2Proof.Claims

/-- Contexts: their states, kicks, work items, threads, budgets and waits. -/
def Obligations.ContextsRun : Prop :=
  Sys2Proof.Claims.contextEnabled ∧ Sys2Proof.Claims.contextDrained ∧ Sys2Proof.Claims.contextCommands ∧
    Sys2Proof.Claims.workItemsDispatched ∧ Sys2Proof.Claims.threadsBound ∧ Sys2Proof.Claims.overdraftSuspends ∧
    Sys2Proof.Claims.waitsTimeOut

/-- Couriers: their states, retirement, migration and test. -/
def Obligations.CouriersKept : Prop :=
  Sys2Proof.Claims.courierEnabled ∧ Sys2Proof.Claims.mismatchRetires ∧ Sys2Proof.Claims.migrationEnds ∧
    Sys2Proof.Claims.courierTestEnds

/-- Stage timing, the conversions of supply and temperature, hold-up and the last gasp. -/
def Obligations.StagesAndSupply : Prop :=
  Sys2Proof.Claims.stageRegisters ∧ Sys2Proof.Claims.energyCommands ∧ Sys2Proof.Claims.holdupSenseTaken ∧
    Sys2Proof.Claims.holdupEntered ∧ Sys2Proof.Claims.vinSenseTaken ∧ Sys2Proof.Claims.dieSensorTaken ∧
    Sys2Proof.Claims.dieSensorAnswers ∧ Sys2Proof.Claims.holdupEnds

namespace Sys2Proof.Claims

open Sys2Proof.Machine

/-! ## The Flacon queues -/

/-- Commands that write queue registers: a reset discards what the queue holds (R334); a push puts an item on a shared
credit of a work queue (R326); a new place or kind of storage resets the queues it moves (R322). -/
def queueRegisters (ok : Admits := State.reaches) : Prop :=
  ∀ (s : State) (b : By) (q : Fin 160), s.power = .run →
    (ok s b (QUE_CMD q) (one s (QUE_CMD_RESET q)) = true → exec (.queReset b q) s =
      .next (wrote s b (QUE_CMD q) (one s (QUE_CMD_RESET q)) (fun u => (u.resetQueue q).zero (QUE_CMD_RESET q)))) ∧
    (∀ (v : Word) (t : State), ok s b (QUE_PUSH q) v = true → isWorkQueue q = true →
      ((s.stored b (QUE_PUSH q) v).zero (QUE_PUSH_ITEM q)).pushItem q v = some t → exec (.quePush b q v) s =
        .next ((t.emit (.done b.ctx.toNat (QUE_PUSH q) stSC)).drain)) ∧
    (∀ v : Word, ok s b (QUE_CFG q) v = true → exec (.queCfgWrite b q false v) s =
      .next (wrote s b (QUE_CFG q) v (fun u => State.queuesMoved (s.admitted b (QUE_CFG q)) u q))) ∧
    (∀ v : Word, ok s b (QUE_RBASE q) v = true → exec (.queCfgWrite b q true v) s =
      .next (wrote s b (QUE_RBASE q) v (fun u => State.queuesMoved (s.admitted b (QUE_RBASE q)) u q)))

/-- A pop by a read of whole 8-byte words takes from the head of the queue, each word as the check finds it, and answers
the tag and the words (R327, R328, R332); a read of another length ends with UR. -/
def queuesPopped : Prop :=
  ∀ (s : State) (n : BitVec 8) (q : Fin 160) (len : Nat) (found : List Ecc) (r : State × List Byte), s.power = .run →
    (len % 8 = 0 → 8 ≤ len → len ≤ 256 → (s.headFound q found).pop q len = r →
      exec (.quePop n q len found) s = .next ((r.1.emit (.read n.toNat (popAddr q) r.2)).drain)) ∧
    (len % 8 ≠ 0 ∨ len < 8 ∨ 256 < len →
      exec (.quePop n q len found) s = .next ((s.emit (.done n.toNat (popAddr q) stUR)).drain))

/-- A packet open for OPEN_TMO is closed with TRUNC (R324). -/
def openPacketsTimeOut : Prop :=
  ∀ (s u : State) (q : Fin 160), s.power = .run → s.expire (.openPkt q) = some u →
    exec (.openTmo q) s = .next (u.closeTruncated q)

/-- Positions that differ reset the queue for a fault on the UX4816 (R333, R334); the test of a queue's chain ends its
closing down, and one found LASTING retires the queue (R411). -/
def queueFaultsTested : Prop :=
  ∀ (s t : State) (q : Fin 160), s.power = .run →
    (s.member = .ux4816 → exec (.positionMismatch q) s = .next (s.queueFault q 1)) ∧
    (∀ (pass b : Bool), s.active.any (fun a => a.test.res == Resource.chain q) = true →
      (s.endTest (.chain q)).classify (.chain q) 0 pass = (t, b) →
      (b = false → exec (.chainTestEnd q pass) s =
        .next (t.setQueue q { t.queue q with testing := false, retired := (t.queue q).retired })) ∧
      (b = true → exec (.chainTestEnd q pass) s = .next { t.setQueue q { t.queue q with
        testing := false, retired := true } with replaced := t.replaced ++ [.chain q] }))

/-- The interrupt items `ws` of a segment enter their work queues as a credit allows, in order, each one that has none
staying (R326). -/
def itemsEnter (s : State) (g : Nat) : List Word → State
  | [] => s
  | w :: ws =>
    match s.pushInterrupt (144 + s.get (SEG_INT_WQ (bits w 10 2) (bits w 8 2))) w with
    | some t => itemsEnter (t.setSeg g { t.seg g with held := (t.seg g).held.erase w }) g ws
    | none => itemsEnter s g ws

/-- The interrupt items that wait in a segment enter their work queues as credits allow (R326), and the first record of the
bridge that waits for a queue enters it once no packet is open there (R285). -/
def waitingItemsEnter : Prop :=
  ∀ s : State, s.power = .run →
    (∀ g : Fin 4, s.hasSeg g = true → exec (.intItemEnqueue g) s = .next ((itemsEnter s g (s.seg g).held).drain)) ∧
    (∀ (q : Fin 160) (r : BridgeRecord), s.bridgeWait.find? (fun r => r.queue == q.val) = some r →
      s.mayPut q r.ctx r.src = true → (s.queue q).openPacket = none → exec (.bridgeRecordEnqueue q) s =
        .next (State.enterRecord { s with bridgeWait := s.bridgeWait.filter (fun x => !(x == r)) ++
          (s.bridgeWait.filter (fun x => x == r)).drop 1 } r))

/-! ## The Span -/

/-- A write of SPN_CTL sets the enables of the span ports (R351). -/
def spanPortsEnabled (ok : Admits := State.reaches) : Prop :=
  ∀ (s : State) (b : By) (v : Word), s.power = .run → ok s b SPN_CTL v = true →
    exec (.spnCtlEn b v) s = .next (wrote s b SPN_CTL v (fun u =>
      if (u.portEn 3 (u.on SPN_CTL_EN_S0)).member.spans = 2 then
        (u.portEn 3 (u.on SPN_CTL_EN_S0)).portEn 4 ((u.portEn 3 (u.on SPN_CTL_EN_S0)).on SPN_CTL_EN_S1)
      else u.portEn 3 (u.on SPN_CTL_EN_S0)))

/-- Every 50 µs a heartbeat goes out on a span port that is ON, with the next COUNT (R355). -/
def heartbeatSent : Prop :=
  ∀ (s u v : State) (q : Fin 2), s.power = .run → q.val < s.member.spans → s.expire (.beat (3 + q)) = some u →
    v = u.linkControl q (spanCtl q 0xFF00000001 (u.heartbeat (mget u.span.hbCount q 0))) →
    exec (.heartbeatSend q) s = .next ((State.arm { v with span := { v.span with
      hbCount := mput v.span.hbCount q ((mget u.span.hbCount q 0 + 1) % 256) 0 } } (.beat (3 + q)) 50000).drain)

/-- A heartbeat of the partner is taken (R355 to R359, R363). -/
def heartbeatTaken : Prop :=
  ∀ (s : State) (q : Fin 2) (w count : Word) (time : BitVec 64) (d : List Byte),
    d = leBytes 4 w.toNat ++ leBytes 4 count.toNat ++ leBytes 8 time.toNat →
    controlTaken s q (spanCtl q 0xFF00000001 d) = true →
    exec (.heartbeat q w count time) s = .next (((spanHeard s q (spanCtl q 0xFF00000001 d)).heartbeatIn q d).drain)

/-- A span port without a heartbeat for 50 µs counts a miss (R356); after 400 µs it is SILENT, raised, and the pair looked
at again (R356, R357). -/
def heartbeatsMissed : Prop :=
  ∀ (s u : State) (q : Fin 2), s.power = .run → q.val < s.member.spans →
    (s.expire (.miss (3 + q)) = some u →
      exec (.hbMiss q) s = .next (((u.bump SPN_CNT1_HB_MISS).arm (.miss (3 + q)) 50000).drain)) ∧
    (s.expire (.silent (3 + q)) = some u → u.on (SPN_PORT_SILENT q) = false → exec (.portSilent q) s =
      .next ((((u.put (SPN_PORT_SILENT q) 1).raise 105 0 (detail q 0 0)).pairEval).drain))

/-- A lease that runs out is shown (R358). -/
def leaseEnds : Prop :=
  ∀ (s u : State) (g : Fin 4), s.power = .run → s.hasSeg g = true → s.expire (.lease g) = some u →
    exec (.leaseExpiry g) s = .next ((u.showLease g).drain)

/-- Under the conditions of a takeover a standby is to become owner, counted and raised (R360); a segment in STARTING
of a device without its partner that has been silent long enough becomes owned (R362). -/
def ownershipClaimed : Prop :=
  ∀ (s u : State) (g : Fin 4), s.power = .run → s.hasSeg g = true →
    (s.mayTake g = true → (s.seg g).takePending = false →
      u = (s.bump SPN_CNT0_TAKEOVER).raise 109 0 (detail g 0 0) → exec (.takeover g) s =
        .next ((State.becomeOwner { u with span := { u.span with taking := mins u.span.taking g 1 } } g).drain)) ∧
    (s.paired = false → s.expire (.cold g) = some u → u.segState g = 1 →
      exec (.coldStartOwner g) s = .next ((u.becomeOwner g).drain))

/-- A write of SPN_CMD starts the handover of every segment named (R363); the bus found idle is released, the partner
told on each span port that is ON, and its OWN awaited for 1 ms (R363, R364). -/
def handoverGoes (ok : Admits := State.reaches) : Prop :=
  ∀ (s u : State), s.power = .run →
    (∀ (b : By) (segs : BitVec 4), ok s b SPN_CMD (s.putWordOf SPN_CMD_HANDOVER segs.toNat) = true →
      exec (.handover b segs) s = .next (wrote s b SPN_CMD (s.putWordOf SPN_CMD_HANDOVER segs.toNat) (fun u =>
        ((List.range 4).filter (fun g => bitAt segs.toNat g)).foldl (fun s g => s.handover g) u))) ∧
    (∀ g : Fin 4, s.hasSeg g = true → s.span.handover.contains g.val = true → (s.seg g).cycle = .idle →
      u = s.letGo g stUN true → exec (.handoverRelease g) s = .next ((State.arm ((List.range u.member.spans).foldl
        (fun s q => if s.portState (3 + q) = 2 then s.linkControl q (spanCtl q 0xFF00000002 (leBytes 4 g)) else s)
        { u with span := { u.span with
            handover := u.span.handover.filter (· != g.val), released := u.span.released ++ [g.val] } })
          (.handover g) 1000000).drain))

/-- A HANDOVER packet has a standby that no takeover makes owner become owner (R363); a handover without the partner's OWN
within 1 ms is refused (R364). -/
def handoverEnds : Prop :=
  ∀ (s u : State), s.power = .run →
    (∀ (q : Fin 2) (g : Fin 4), controlTaken s q (spanCtl q 0xFF00000002 (leBytes 4 g)) = true →
      u = (spanHeard s q (spanCtl q 0xFF00000002 (leBytes 4 g))).spanTook q 4 → u.hasSeg g = true → u.segState g = 2 →
      u.get (SEG_STAT_ROLE g) = 1 → mget u.span.taking g 0 ≠ 1 → exec (.handoverPacket q g) s =
        .next ((State.becomeOwner { u with span := { u.span with taking := mins u.span.taking g 2 } } g).drain)) ∧
    (∀ g : Fin 4, s.hasSeg g = true → s.expire (.handover g) = some u → exec (.handoverFail g) s =
      .next ((State.handoverRefused { u with span := { u.span with
        released := u.span.released.filter (· != g.val) } } g).drain))

/-- A JOURNAL packet with a new number is kept, at most 256 to a segment, and shown by a standby; the mark of its context
follows the SEQ it came by on the partner's side (R368, R370). One whose number is held, or beyond the 256, changes nothing
more. -/
def journalTaken : Prop :=
  ∀ (s u v : State) (q : Fin 2) (d : List Byte) (g : Nat) (e : JEntry) (es : List JEntry),
    controlTaken s q (spanCtl q 0xFF00000003 d) = true → journalEntry d = (g, e) →
    u = (spanHeard s q (spanCtl q 0xFF00000003 d)).spanTook q d.length →
    es = mget u.span.held g [] →
    v = { u with span := { u.span with held := mput u.span.held g (es ++ [e]) [] } } →
    (es.any (fun x => x.jseq == e.jseq) = true ∨ 256 ≤ es.length → exec (.journal q d) s = .next u.drain) ∧
    (es.any (fun x => x.jseq == e.jseq) = false → es.length < 256 → v.get (SEG_STAT_ROLE g) ≠ 2 → e.rxSide = u.side →
      exec (.journal q d) s = .next ((v.put (SPN_SEG_JRN_OPEN g) (es.length + 1)).drain)) ∧
    (es.any (fun x => x.jseq == e.jseq) = false → es.length < 256 → v.get (SEG_STAT_ROLE g) ≠ 2 → e.rxSide ≠ u.side →
      exec (.journal q d) s = .next (((v.put (SPN_SEG_JRN_OPEN g) (es.length + 1)).raiseMark g e.pkt.h.ctx
        e.pkt.h.seq).drain))

/-- An acknowledged journal entry has its request ready to be issued (R367). -/
def journalAcknowledged : Prop :=
  ∀ (s u : State) (g : Fin 4) (jseq : BitVec 16) (e : JEntry), s.power = .run → s.hasSeg g = true →
    (s.sentOf g).find? (fun e => e.jseq == jseq.toNat && !e.acked) = some e →
    u = s.setSent g ((s.sentOf g).map (fun x => if x.jseq == jseq.toNat then { x with acked := true } else x)) →
    exec (.journalAcked g jseq) s = .next ((u.setSeg g { u.seg g with jobs := (u.seg g).jobs.map (fun (j : Job) =>
      if j.wait == .journal && j.owner == .host e.order then { j with wait := .ready } else j) }).drain)

/-- A RETIRE packet ends COUNT entries from its first number, and a standby shows how many are left (R368). -/
def journalRetired : Prop :=
  ∀ (s u v : State) (q : Fin 2) (first : BitVec 16) (g : Fin 4) (count : BitVec 8) (es : List JEntry) (k : Pkt),
    k = spanCtl q 0xFF00000004 (leBytes 4 (first.toNat + g.val * 2 ^ 16 + count.toNat * 2 ^ 24)) →
    controlTaken s q k = true → u = (spanHeard s q k).spanTook q 4 → es = (mget u.span.held g []).filter (fun e =>
      !decide ((e.jseq + 65536 - first.toNat) % 65536 < count.toNat)) →
    v = { u with span := { u.span with held := mput u.span.held g es [] } } →
    (v.get (SEG_STAT_ROLE g) = 2 → exec (.retire q first g count) s = .next v.drain) ∧
    (v.get (SEG_STAT_ROLE g) ≠ 2 →
      exec (.retire q first g count) s = .next ((v.put (SPN_SEG_JRN_OPEN g) es.length).drain))

end Sys2Proof.Claims

/-- The Flacon queues: resets, pushes, pops, timeouts, faults and what waits to enter. -/
def Obligations.QueuesServe : Prop :=
  Sys2Proof.Claims.queueRegisters ∧ Sys2Proof.Claims.queuesPopped ∧ Sys2Proof.Claims.openPacketsTimeOut ∧
    Sys2Proof.Claims.queueFaultsTested ∧ Sys2Proof.Claims.waitingItemsEnter

/-- The Span: ports, heartbeats, leases and the claims of ownership. -/
def Obligations.SpanHearsPartner : Prop :=
  Sys2Proof.Claims.spanPortsEnabled ∧ Sys2Proof.Claims.heartbeatSent ∧ Sys2Proof.Claims.heartbeatTaken ∧
    Sys2Proof.Claims.heartbeatsMissed ∧ Sys2Proof.Claims.leaseEnds ∧ Sys2Proof.Claims.ownershipClaimed

/-- Handover and the journal. -/
def Obligations.SpanHandsOver : Prop :=
  Sys2Proof.Claims.handoverGoes ∧ Sys2Proof.Claims.handoverEnds ∧ Sys2Proof.Claims.journalTaken ∧
    Sys2Proof.Claims.journalAcknowledged ∧ Sys2Proof.Claims.journalRetired

namespace Sys2Proof.Claims

open Sys2Proof.Machine

/-! ## The Outpost chains -/

/-- A write of OPC_CTL sets EN, and the chain follows it (R402, R445). -/
def chainEnabled (ok : Admits := State.reaches) : Prop :=
  ∀ (s u : State) (b : By) (k : Fin 4) (v : Word), s.power = .run → ok s b (OPC_CTL k) v = true →
    u = s.stored b (OPC_CTL k) v →
    (u.chainState k = 0 → u.on (OPC_CTL_EN k) = true →
      exec (.opcCtlEn b k v) s = .next (wrote s b (OPC_CTL k) v (fun u => u.chainStart k))) ∧
    (u.chainState k = 2 → u.on (OPC_CTL_EN k) = false → exec (.opcCtlEn b k v) s =
      .next (wrote s b (OPC_CTL k) v (fun u => (u.setChain k { u.chain k with drain := 3 }).setChainState k 3))) ∧
    (u.chainState k = 3 → exec (.opcCtlEn b k v) s = .next (wrote s b (OPC_CTL k) v (fun u =>
      u.put (OPC_STAT_RESTART_PENDING k) (ofBool (u.on (OPC_CTL_EN k))))))

/-- A starting chain enters ON after 20 µs, its counters from zero and its first frame due (R402). -/
def chainEntersOn : Prop :=
  ∀ (s u : State) (k : Fin 4), s.power = .run → k.val < s.member.chains → s.expire (.chainStart k) = some u →
    exec (.chainEnterOn k) s = .next (State.arm (State.homesGained ((u.setChain k { u.chain k with
      frames := 0, silent := 0, safe := false,
      posts := (List.range 8).foldl (fun (m : SMap Outpost) o =>
        mput m o { mget m o Outpost.fresh with nedge := 0 } Outpost.fresh) (u.chain k).posts }).setChainState k 2)
          u.homes) (.frame k) 0)

/-- The frame that falls due on a chain that is ON or DRAINING is sent, with one record for each Outpost, and the chain
waits for its up records; on the line go SOF, its bytes and EOF, coded at the running disparity, which is left for the next
frame; RESUME is taken with it (R380, R382, R390, R402). -/
def framesStart : Prop :=
  ∀ (s u : State) (k : Fin 4), s.power = .run → k.val < s.member.chains → s.expire (.frame k) = some u →
    u.chainState k = 2 ∨ u.chainState k = 3 →
    ∃ (t : State) (d : List Byte) (up : Bool), exec (.frameStart k) s = .next t ∧
      (t.chain k).busy = true ∧ (t.chain k).pos = 0 ∧ (t.chain k).last = (u.chainState k == 3) ∧
      t.get (OPC_CMD_RESUME k) = 0 ∧ t.out.getLast? = some (.frame k d (codeGroups up (frameChars d)).1) ∧
      (t.chain k).rd = (codeGroups up (frameChars d)).2 ∧ d.length = 13 + 5 * t.outposts k

/-- An up record is the next Outpost's: a good one is taken, another counted (R384). -/
def upRecordsTaken : Prop :=
  ∀ (s u : State) (k : Fin 4) (d : List Byte), s.power = .run → k.val < s.member.chains → (s.chain k).busy = true →
    (s.chain k).pos < s.outposts k → u = s.setChain k { s.chain k with pos := (s.chain k).pos + 1 } →
    (recordGood (s.chain k).pos (s.chain k).cur d = true →
      exec (.upRecord k d) s = .next (u.goodRecord k (s.chain k).pos d)) ∧
    (recordGood (s.chain k).pos (s.chain k).cur d = false →
      exec (.upRecord k d) s = .next (u.bump (OPC_CNT0_REC_BAD k)))

/-- A frame ends (R215, R384, R396, R398 to R401): records not received are counted, each Outpost without a good one is
accounted for, an unanswered service slot is marked again, and while ON the images are committed and the edge packet put.
After 90 µs without EOF the frame is counted, raised and ended. -/
def framesEnd : Prop :=
  ∀ (s u v w : State) (k : Fin 4) (x : Chain), s.power = .run → k.val < s.member.chains → s.chain k = x →
    x.busy = true →
    v = ((s.setChain k { x with busy := false, slot := none }).disarm (.frameTmo k)).bumpBy (OPC_CNT0_REC_BAD k)
      (s.outposts k - x.pos) →
    w = (List.range (s.outposts k)).foldl (fun s o => s.missedRecord k o) (match x.slot with
      | none => v
      | some q => v.mark k q.outpost [q.param]) →
    (w.chainState k = 2 → x.last = false →
      exec (.frameEnd k) s = .next ((((w.commitInput k).commitOutput k).commitFrame k).edgePacket k)) ∧
    (w.chainState k ≠ 2 → x.last = false → exec (.frameEnd k) s = .next (w.edgePacket k)) ∧
    (w.chainState k ≠ 2 → x.last = true → 1 < ((w.edgePacket k).chain k).drain → exec (.frameEnd k) s =
      .next ((w.edgePacket k).setChain k { (w.edgePacket k).chain k with
        drain := ((w.edgePacket k).chain k).drain - 1 })) ∧
    (w.chainState k ≠ 2 → x.last = true → ((w.edgePacket k).chain k).drain ≤ 1 → exec (.frameEnd k) s =
      .next (((w.edgePacket k).setChain k { (w.edgePacket k).chain k with
        drain := ((w.edgePacket k).chain k).drain - 1 }).chainOff k)) ∧
    (s.expire (.frameTmo k) = some u →
      exec (.frameTmo k) s = .next (((u.bump (OPC_CNT0_FRAME_TMO k)).chainEvent k 13 0 0).frameEnds k))

/-- Writes of channel and chain parameters mark what the service slot has to send (R396); RESUME waits for the next frame
(R390). -/
def chainRegisters (ok : Admits := State.reaches) : Prop :=
  ∀ (s : State) (b : By) (k : Fin 4), s.power = .run →
    (∀ (o : Fin 8) (c : Fin 16) (v : Word), ok s b (OPC_CHA k o c) v = true → exec (.opcChaWrite b k o c v) s =
      .next (wrote s b (OPC_CHA k o c) v (fun u => u.mark k o [c.val, 0x10 + c.val]))) ∧
    (∀ (o : Fin 8) (c : Fin 16) (v : Word), ok s b (OPC_CHB k o c) v = true → exec (.opcChbWrite b k o c v) s =
      .next (wrote s b (OPC_CHB k o c) v (fun u => u.mark k o [0x20 + c.val, 0x30 + c.val]))) ∧
    (∀ v : Word, ok s b (OPC_CFG k) v = true → exec (.opcCfgWrite b k v) s = .next (wrote s b (OPC_CFG k) v
      (fun u => (List.range (u.outposts k)).foldl (fun s i => s.mark k i [0xF3]) u))) ∧
    (∀ m : BitVec 8, ok s b (OPC_CMD k) (s.putWordOf (OPC_CMD_RESUME k) m.toNat) = true →
      exec (.opcResume b k m) s =
        .next (wrote s b (OPC_CMD k) (s.putWordOf (OPC_CMD_RESUME k) m.toNat) (fun u => u)))

/-! ## Faults and events -/

/-- A queued test starts on a unit free of others while tests run: at once, or, for a row, with a spare row taken; without
a spare row the row is UNTESTED (R407, R410). While TEST_EN is 0 none starts. -/
def testsStart : Prop :=
  ∀ (s u w : State) (i : Fin 32) (bad : BitVec 4) (t : Test) (j : Nat), s.power = .run →
    s.tests[i.val]? = some t → s.active.any (fun a => a.test.res.unit == t.res.unit) = false →
    (s.tests.take i).any (fun u => u.res.unit == t.res.unit) = false →
    u = { s with tests := s.tests.eraseIdx i } →
    (s.on FLT_CFG_TEST_EN = false → exec (.faultTestStart i bad) s = .next s) ∧
    (s.on FLT_CFG_TEST_EN = true → t.res.isRow = false → exec (.faultTestStart i bad) s =
      .next { u.bump FLT_CNT1_TESTS with active := u.active ++ [⟨t, 0, .marching⟩] }) ∧
    (s.on FLT_CFG_TEST_EN = true → t.res.isRow = true → u.takeSpare t.res bad.toNat = (w, some j) →
      exec (.faultTestStart i bad) s = .next { w.bump FLT_CNT1_TESTS with active := w.active ++ [⟨t, j, .copying⟩] }) ∧
    (s.on FLT_CFG_TEST_EN = true → t.res.isRow = true → u.takeSpare t.res bad.toNat = (w, none) →
      exec (.faultTestStart i bad) s = .next (w.untested t.res t.detail))

/-- The steps of a row test (R407, R409): the copy, the March test, which leaves the row replaced unless it passes and
does not repeat, and the restoration. -/
def rowTestsGo : Prop :=
  ∀ (s : State) (q : Bool) (u : Fin 32) (a : ActiveTest), s.power = .run → s.rowTest q u = some a →
    (a.step = .copying →
      exec (.rowCopyEnd q u) s = .next ((s.setActive { a with step := .marching }).copyRow a.test.res)) ∧
    (a.step = .marching → s.repeats a.test.res = false →
      exec (.rowMarchEnd q u true) s = .next (s.setActive { a with step := .restoring })) ∧
    (a.step = .marching → exec (.rowMarchEnd q u false) s =
      .next ((s.rowReplaced a).classify a.test.res a.test.detail false).1) ∧
    (a.step = .restoring → exec (.rowRestoreEnd q u) s =
      .next ((((s.endTest a.test.res).copyRow a.test.res).spareBit (spareRefs a.test.res).1 a.spare false).classify
        a.test.res a.test.detail true).1)

/-- The test of a freed record and its slots ends: those that fail are withdrawn (R414); a record that passes
but is LASTING for its repeats (R409) is withdrawn too (DEDUCED, log entry 148). -/
def slotTestsEnd : Prop :=
  ∀ (s : State) (recFails : Bool) (fails n k : Nat) (a : ActiveTest) (st t : State) (lasting : Bool), s.power = .run →
    s.active.find? (·.test.res.isSlot) = some a →
    a.test.res = .slot n k → st = s.endTest (.slot n k) →
    st.classify (.slot n k) a.test.detail (!recFails && min k fails == 0) = (t, lasting) →
    exec (.slotTestEnd recFails fails) s =
      .next { t with
        recsOut := t.recsOut + ofBool (recFails || (lasting && min k fails == 0)), slotsOut := t.slotsOut + min k fails }

/-- A fault of the Innkeeper resets the device (R415); lanes written to FLT_LANE return to service (R413). -/
def faultCommands (ok : Admits := State.reaches) : Prop :=
  ∀ (s : State) (b : By) (m : BitVec 10), s.power = .run →
    exec .innkeeperFault s = .next (s.deviceReset rsInnkeeper) ∧
    (ok s b FLT_LANE (s.putWordOf FLT_LANE_RETIRED m.toNat) = true → exec (.fltLaneReturn b m) s =
      .next (wrote s b FLT_LANE (s.putWordOf FLT_LANE_RETIRED m.toNat) (fun u =>
        (u.setWord FLT_LANE (s.word FLT_LANE)).laneReturn m.toNat)))

/-- RATE after a source's last record, the raises merged since give one record, and RATE runs again (R419) if the register
still gives one; without any, or with EN now 0, none. -/
def ratesEnd : Prop :=
  ∀ (s u v w : State) (e : BitVec 8) (m : Merge), s.power = .run → s.expire (.rate e.toNat) = some u →
    u.merges.find? (fun m => m.event == e.toNat) = some m →
    v = { u with merges := u.merges.filter (fun (x : Merge) => x.event != e.toNat) } →
    (m.merged = 0 → exec (.eventRateEnd e) s = .next v) ∧
    (v.on (EVT_CFG_EN e.toNat) = false → exec (.eventRateEnd e) s = .next v) ∧
    (m.merged ≠ 0 → v.on (EVT_CFG_EN e.toNat) = true → v.on (EVT_CFG_RATE e.toNat) = false →
      exec (.eventRateEnd e) s = .next ((v.writeEvent { m.lastRec with rep := m.merged }).2.foldl
        (fun s d => s.raise d.1 0 d.2) (v.writeEvent { m.lastRec with rep := m.merged }).1)) ∧
    (m.merged ≠ 0 → v.on (EVT_CFG_EN e.toNat) = true → v.on (EVT_CFG_RATE e.toNat) = true →
      w = { (v.arm (.rate e.toNat) (v.get (EVT_CFG_RATE e.toNat) * 1000)) with
              merges := v.merges ++ [⟨e.toNat, 0, m.lastRec⟩] } →
      exec (.eventRateEnd e) s = .next ((w.writeEvent { m.lastRec with rep := m.merged }).2.foldl
        (fun s d => s.raise d.1 0 d.2) (w.writeEvent { m.lastRec with rep := m.merged }).1))

/-- A write of EVT_PEND clears the pending bits written with 1 and leaves the others (R421). -/
def pendingCleared (ok : Admits := State.reaches) : Prop :=
  ∀ (s : State) (b : By) (j : Fin 16) (m : Word), s.power = .run → ok s b (EVT_PEND j) m = true →
    exec (.evtPendClear b j m) s = .next (wrote s b (EVT_PEND j) m (fun u => u)) ∧
    (s.stored b (EVT_PEND j) m).get (EVT_PEND_PEND j) =
      s.get (EVT_PEND_PEND j) - (s.get (EVT_PEND_PEND j) &&& m.toNat)

end Sys2Proof.Claims

/-- Outpost chains: their states, frames, up records and parameters. -/
def Obligations.ChainsFrame : Prop :=
  Sys2Proof.Claims.chainEnabled ∧ Sys2Proof.Claims.chainEntersOn ∧ Sys2Proof.Claims.framesStart ∧
    Sys2Proof.Claims.upRecordsTaken ∧ Sys2Proof.Claims.framesEnd ∧ Sys2Proof.Claims.chainRegisters

/-- Targeted tests, lanes returned, event rates and pending bits. -/
def Obligations.FaultsTested : Prop :=
  Sys2Proof.Claims.testsStart ∧ Sys2Proof.Claims.rowTestsGo ∧ Sys2Proof.Claims.slotTestsEnd ∧
    Sys2Proof.Claims.faultCommands ∧ Sys2Proof.Claims.ratesEnd ∧ Sys2Proof.Claims.pendingCleared

namespace Sys2Proof.Claims

open Sys2Proof.Machine

/-! ## Register space, the guard and the configuration check -/

/-- A write of an aligned register address that the guard admits stores the register's new word, has the register's own
effect and completes with the status that the effect gives; a misaligned one, and a word to the last-gasp record, is
refused with UR, counted, captured and raised (R430, R434, R450). -/
def registersWritten (ok : Admits := State.reaches) : Prop :=
  ∀ (s t : State) (b : By) (a : BitVec 26) (v : Word) (st : Nat), s.power = .run →
    (a.toNat % 4 = 0 → ok s b a.toNat v = true →
      (s.admitted b a.toNat).written (s.stored b a.toNat v) b false a.toNat v = (t, st) →
      exec (.registerWrite b a v) s = .next ((t.emit (.done b.ctx.toNat a.toNat st)).drain)) ∧
    (∀ o : Nat, selOf a.toNat = .gasp o → exec (.registerWrite b a v) s =
      .next (((s.sizeNoted 1 true 4 b.ctx.toNat a.toNat).emit (.done b.ctx.toNat a.toNat stUR)).drain)) ∧
    (a.toNat % 4 ≠ 0 → (∀ o, selOf a.toNat ≠ .gasp o) → exec (.registerWrite b a v) s =
      .next (((s.sizeNoted 2 true 4 b.ctx.toNat a.toNat).emit (.done b.ctx.toNat a.toNat stUR)).drain))

/-- A read of a register with a field cleared by reading gives its word, and then clears the field (R9). -/
def clearedByReading : Prop :=
  ∀ (s : State) (n : BitVec 8) (a : BitVec 26) (r : Nat), s.power = .run → a.toNat % 4 = 0 → selOf a.toNat = .reg r →
    s.member.present r = true → hasRc r = true → pairHigh r = none → mfind s.latches r = none →
    exec (.rcRead n a) s =
      .next (((s.readClear r).emit (.read n.toNat a.toNat (leBytes 4 (s.peekReg r).toNat))).drain)

/-- A read of the low word of a counter pair latches the high word for its context; a read of the high word by that
context gives the latched word and frees it (R433). -/
def counterPairsRead : Prop :=
  ∀ (s : State) (n : BitVec 8) (a : BitVec 26) (r : Nat), s.power = .run → a.toNat % 4 = 0 → selOf a.toNat = .reg r →
    s.member.present r = true →
    (∀ h : Nat, pairHigh r = some h → exec (.counterPairRead n a) s =
      .next ((State.emit { s with latches := mins s.latches h (n.toNat, s.peekReg h) }
        (.read n.toNat a.toNat (leBytes 4 (s.peekReg r).toNat))).drain)) ∧
    (∀ w : Word, isPairHigh r = true → mfind s.latches r = some (n.toNat, w) → exec (.counterPairRead n a) s =
      .next ((State.emit { s with latches := mdel s.latches r }
        (.read n.toNat a.toNat (leBytes 4 w.toNat))).drain))

/-- The first access that crosses into a slow domain takes effect (R435). -/
def slowAccessesEnd : Prop :=
  ∀ (s : State) (d : Fin 3) (e : Exec), s.power = .run → s.slowHead d = some e →
    exec (.slowAccessEnd d) s = .next ((s.regAccess e).drain)

/-- The key 0xA5C3 unlocks the guard for the context that writes it, for 256 REG cycles; another value locks it; so does
the end of that time (R437). -/
def guardUnlocked (ok : Admits := State.reaches) : Prop :=
  ∀ (s u : State) (b : By) (key : Word), s.power = .run →
    (ok s b CFG_UNLOCK (s.putWordOf CFG_UNLOCK_KEY key.toNat) = true → key = 0xA5C3#32 →
      exec (.cfgUnlock b key) s = .next (wrote s b CFG_UNLOCK (s.putWordOf CFG_UNLOCK_KEY key.toNat) (fun u =>
        (((u.zero CFG_UNLOCK_KEY).put CFG_STAT_UNLOCKED 1).put CFG_STAT_UNLOCK_CTX b.ctx.toNat).arm .guard 2560))) ∧
    (ok s b CFG_UNLOCK (s.putWordOf CFG_UNLOCK_KEY key.toNat) = true → key ≠ 0xA5C3#32 →
      exec (.cfgUnlock b key) s = .next (wrote s b CFG_UNLOCK (s.putWordOf CFG_UNLOCK_KEY key.toNat) (fun u =>
        (u.zero CFG_UNLOCK_KEY).lockGuard))) ∧
    (s.expire .guard = some u → exec .guardRelock s = .next (u.put CFG_STAT_UNLOCKED 0))

/-- COMMIT starts a commit pass (R441, R443); a check pass starts every PERIOD, but while a pass runs (R441). -/
def passesStart (ok : Admits := State.reaches) : Prop :=
  ∀ (s u : State) (b : By), s.power = .run →
    (ok s b CFG_COMMIT (one s CFG_COMMIT_COMMIT) = true → exec (.cfgCommit b) s =
      .next (wrote s b CFG_COMMIT (one s CFG_COMMIT_COMMIT) State.commitWrite)) ∧
    (s.expire .pass = some u → u.on CFG_STAT_SWEEPING = false → exec .checkPassStart s =
      .next { (u.put CFG_STAT_SWEEPING 1).arm .pass (u.get CFG_CTL_PERIOD * 10000) with commitRuns := false }) ∧
    (s.expire .pass = some u → u.on CFG_STAT_SWEEPING = true → exec .checkPassStart s = .next u)

/-- A check pass that ends whole records its result; it sets MISMATCH with cause 0 where a valid reference differs while
the settings are neither dirty nor being committed (R444). -/
def checkPassEnds : Prop :=
  ∀ (s : State), s.power = .run → s.on CFG_STAT_SWEEPING = true → s.commitRuns = false →
    ((s.on CFG_STAT_REF_VALID = true ∧ s.on CFG_STAT_DIRTY = false ∧ s.on CFG_STAT_COMMIT_PEND = false ∧
        s.cfgCrc.toNat ≠ s.get CFG_REF_CRC) →
      exec .checkPassEnd s = .next (((s.put CFG_LAST_CRC s.cfgCrc.toNat).passOver).setMismatch 0)) ∧
    (s.on CFG_STAT_REF_VALID = false ∨ s.on CFG_STAT_DIRTY = true ∨ s.on CFG_STAT_COMMIT_PEND = true ∨
        s.cfgCrc.toNat = s.get CFG_REF_CRC →
      exec .checkPassEnd s = .next ((s.put CFG_LAST_CRC s.cfgCrc.toNat).passOver))

/-- A commit pass that ends makes its result the reference, and the settings are no longer dirty (R443); DIRTY for longer
than DIRTY_TMO is a mismatch with cause 1 (R444). -/
def commitPassEnds : Prop :=
  ∀ (s u : State), s.power = .run →
    (s.on CFG_STAT_SWEEPING = true → s.commitRuns = true → exec .commitPassEnd s = .next
      ((((((((s.put CFG_REF_CRC s.cfgCrc.toNat).put CFG_STAT_REF_VALID 1).put CFG_STAT_DIRTY 0).put
        CFG_STAT_COMMIT_PEND 0).put CFG_COMMIT_COMMIT 0).disarm .dirty)).passOver)) ∧
    (s.expire .dirty = some u → u.on CFG_STAT_DIRTY = true → exec .dirtyTimeout s = .next (u.setMismatch 1))

/-! ## Boot and update -/

/-- The word of a write of BOOT_CMD. -/
def bootWord (op slot : Nat) (force : Bool) : Word := BitVec.ofNat 32 (op + 16 * slot + 32 * ofBool force)

/-- A write of BOOT_CMD from a voted request or the Innkeeper, taken while no command runs. -/
def bootTaken (s : State) (b : By) (op slot : Nat) (force : Bool) : State :=
  wrote s b BOOT_CMD (bootWord op slot force) (fun u => (u.setWord BOOT_CMD 0).bootCommand op slot force)

/-- A voted request or the Innkeeper starts the command that OP names while none runs (R466 to R470). -/
def bootCommandsTaken (ok : Admits := State.reaches) : Prop :=
  ∀ (s : State) (b : By), s.power = .run → votedOrInn b = true → s.on BOOT_STAT_BUSY = false →
    (∀ x : Fin 2,
      (ok s b BOOT_CMD (bootWord 1 x false) = true → exec (.erase b x) s = .next (bootTaken s b 1 x false)) ∧
      (ok s b BOOT_CMD (bootWord 2 x false) = true → exec (.program b x) s = .next (bootTaken s b 2 x false)) ∧
      (ok s b BOOT_CMD (bootWord 3 x false) = true → exec (.verify b x) s = .next (bootTaken s b 3 x false)) ∧
      (ok s b BOOT_CMD (bootWord 4 x false) = true → exec (.armTrial b x) s = .next (bootTaken s b 4 x false))) ∧
    (ok s b BOOT_CMD (bootWord 5 0 false) = true → exec (.writeSettings b) s = .next (bootTaken s b 5 0 false)) ∧
    (∀ f : Bool,
      (ok s b BOOT_CMD (bootWord 6 0 f) = true → exec (.restart b f) s = .next (bootTaken s b 6 0 f)) ∧
      (ok s b BOOT_CMD (bootWord 7 0 f) = true → exec (.reject b f) s = .next (bootTaken s b 7 0 f)))

/-- An ERASE that is not refused begins: BUSY is set (R468). It is refused with result 2 of the running slot or in a
trial. -/
def eraseBegins : Prop :=
  ∀ (u : State) (x : Nat) (f : Bool),
    (u.runsSlot x = false → u.on BOOT_STAT_TRIAL = false → (u.bootCommand 1 x f).get BOOT_STAT_BUSY = 1) ∧
    (u.runsSlot x = true ∨ u.on BOOT_STAT_TRIAL = true → u.bootCommand 1 x f = u.put BOOT_STAT_LAST_RESULT 2)

/-- A command ends (R468): one that the flash failed with result 3; an erase leaves the slot blank, not CONFIRMED and not
VALID; a program writes the staged bytes; a verify shows what it finds. -/
def bootCommandsEnd : Prop :=
  ∀ (s u : State) (c : BootCmd), s.power = .run → s.bootCmd = some c →
    u = State.put { s with bootCmd := none } BOOT_STAT_BUSY 0 →
    exec (.bootCmdEnd true) s = .next ((u.bump BOOT_FLASH_ERRORS).bootResult 3) ∧
    (c.op = 2 → exec (.bootCmdEnd false) s = .next (State.bootResult (((u.staged c).1.flashWrite (slotBase c.slot +
      c.dst) (u.staged c).2).put (BOOT_SLOT_VALID c.slot) 0) 1)) ∧
    (c.op = 3 → exec (.bootCmdEnd false) s = .next ((u.showSlot c.slot (u.verifySlot c.slot)).bootResult
      (if u.verifySlot c.slot = 0 then 1 else 4))) ∧
    (c.op = 4 → ∀ d, u.dirOr = d → exec (.bootCmdEnd false) s = .next (State.bootResult (d.1.setDir { d.2 with
      trial := some c.slot, bootsLeft := u.get BOOT_TRIAL_CFG_BOOTS }) 1))

/-- CONFIRM of a trial that runs makes its slot active and CONFIRMED, and ends the trial (R467). -/
def trialConfirmed (ok : Admits := State.reaches) : Prop :=
  ∀ (s : State) (b : By) (d : Directory), s.power = .run → votedOrInn b = true →
    ok s b BOOT_CONFIRM (one s BOOT_CONFIRM_CONFIRM) = true → s.dir = some d → s.on BOOT_STAT_TRIAL = true →
    s.get BOOT_STAT_PHASE = 4 → exec (.confirm b) s = .next (wrote s b BOOT_CONFIRM (one s BOOT_CONFIRM_CONFIRM)
      (fun u => ((u.put BOOT_CONFIRM_CONFIRM 0).setDir { d with
        active := s.get BOOT_STAT_SLOT, confirmed := withBit d.confirmed (s.get BOOT_STAT_SLOT) true, trial := none,
        bootsLeft := 0 }).put BOOT_STAT_TRIAL 0))

/-- A start that completes (R460): with an image found, READY with the directory recorded, or maintenance as the load
comes to; without one, maintenance (R465). -/
def startsComplete : Prop :=
  ∀ (s t : State) (d : Directory) (good : BitVec 16) (a b : Bool) (l : Loaded), s.power = .run →
    s.on GLB_STAT_READY = false → t = s.xspiWait.startShow → t.dir = some d →
    (∀ (u : State) (r : Nat), t.startLoad d (fun x => if x = 0 then a else b) good = (l, some (.ready u r)) →
      exec (.startComplete good a b) s = .next ((u.recordStart l.d r).startEnds false r)) ∧
    (∀ (u : State) (r : Nat), t.startLoad d (fun x => if x = 0 then a else b) good = (l, some (.maint u r)) →
      exec (.startComplete good a b) s = .next ((u.recordStart l.d r).maintenance r)) ∧
    (t.startLoad d (fun x => if x = 0 then a else b) good = (l, none) → exec (.startComplete good a b) s =
      .next (State.maintenance ((l.s.innWrite SPN_CTL (2 ^ l.s.member.spans - 1 + bits (l.s.word SPN_CTL) 2 30 * 4)
        ).recordStart l.d l.reason) l.reason))

/-- A start that fails at step 5, 7 or 8 records its reason and its slot in the directory, and the device resets
(R461). -/
def startsFail : Prop :=
  ∀ (s t : State) (d : Directory) (good : BitVec 16) (a b : Bool) (l : Loaded) (r x : Nat) (i : Image0),
    s.power = .run → s.on GLB_STAT_READY = false → t = s.xspiWait.startShow → t.dir = some d →
    t.startLoad d (fun x => if x = 0 then a else b) good = (l, some (.fails r)) → l.found = some (x, i) →
    exec (.startFailReset good a b) s = .next (State.deviceReset (t.setDir { l.d.slotFails x l.trial with
      pend := some (r, withBit ((d.pend.map (·.2)).getD 0) x true) }) rsSoftware)

end Sys2Proof.Claims

/-- Register writes, reads that clear or latch, the guard and the configuration check. -/
def Obligations.RegisterSpaceServes : Prop :=
  Sys2Proof.Claims.registersWritten ∧ Sys2Proof.Claims.clearedByReading ∧ Sys2Proof.Claims.counterPairsRead ∧
    Sys2Proof.Claims.slowAccessesEnd ∧ Sys2Proof.Claims.guardUnlocked

/-- The passes of the configuration check. -/
def Obligations.ConfigurationChecked : Prop :=
  Sys2Proof.Claims.passesStart ∧ Sys2Proof.Claims.checkPassEnds ∧ Sys2Proof.Claims.commitPassEnds

/-- Boot commands, the trial's confirmation and the ends of a start. -/
def Obligations.BootAndUpdate : Prop :=
  Sys2Proof.Claims.bootCommandsTaken ∧ Sys2Proof.Claims.eraseBegins ∧ Sys2Proof.Claims.bootCommandsEnd ∧
    Sys2Proof.Claims.trialConfirmed ∧ Sys2Proof.Claims.startsComplete ∧ Sys2Proof.Claims.startsFail

namespace Sys2Proof.Claims

open Sys2Proof.Machine

/-! ## Fuses and the vault -/

/-- An OTP write begun: it stands among those in progress once (R477). -/
def fuses (u : State) (n : Nat) : State :=
  { u with fusing := if u.fusing.contains n then u.fusing else u.fusing ++ [n] }

/-- In MANUFACTURE, KEY_HASH, DBG_HASH and LOAD begin their write, and a voted request or the Innkeeper moves a part with
its image key hash fused and its vault loaded towards FIELD (R475 to R477). -/
def fuseWritesBegin (ok : Admits := State.reaches) : Prop :=
  ∀ (s : State) (b : By), s.power = .run → s.lifecycle = 0 →
    (ok s b SEC_LC_CMD (one s SEC_LC_CMD_TO) = true → votedOrInn b = true → s.otp.keyHash.isSome = true →
      s.otp.vault.isSome = true → exec (.lifecycleToField b) s =
        .next (wrote s b SEC_LC_CMD (one s SEC_LC_CMD_TO) (fun u => fuses (u.zero SEC_LC_CMD_TO) 0))) ∧
    (ok s b SEC_FUSE_CMD (one s SEC_FUSE_CMD_KEY_HASH) = true → exec (.keyHash b) s =
      .next (wrote s b SEC_FUSE_CMD (one s SEC_FUSE_CMD_KEY_HASH) (fun u => fuses u 1))) ∧
    (ok s b SEC_FUSE_CMD (one s SEC_FUSE_CMD_DBG_HASH) = true → exec (.dbgHash b) s =
      .next (wrote s b SEC_FUSE_CMD (one s SEC_FUSE_CMD_DBG_HASH) (fun u => fuses u 2))) ∧
    (ok s b SEC_VAULT_CMD (one s SEC_VAULT_CMD_LOAD) = true → exec (.load b) s =
      .next (wrote s b SEC_VAULT_CMD (one s SEC_VAULT_CMD_LOAD) (fun u => fuses u 3)))

/-- Outside MANUFACTURE the same writes begin nothing; a move towards FIELD is then refused with UR (R477). -/
def fuseWritesRefused (ok : Admits := State.reaches) : Prop :=
  ∀ (s : State) (b : By), s.power = .run → s.lifecycle ≠ 0 →
    (ok s b SEC_LC_CMD (one s SEC_LC_CMD_TO) = true → exec (.lifecycleToField b) s =
      .next ((((s.stored b SEC_LC_CMD (one s SEC_LC_CMD_TO)).zero SEC_LC_CMD_TO).emit
        (.done b.ctx.toNat SEC_LC_CMD stUR)).drain)) ∧
    (ok s b SEC_FUSE_CMD (one s SEC_FUSE_CMD_KEY_HASH) = true → exec (.keyHash b) s =
      .next (wrote s b SEC_FUSE_CMD (one s SEC_FUSE_CMD_KEY_HASH)
        (fun u => (u.zero SEC_FUSE_CMD_KEY_HASH).zero SEC_FUSE_CMD_DBG_HASH))) ∧
    (ok s b SEC_FUSE_CMD (one s SEC_FUSE_CMD_DBG_HASH) = true → exec (.dbgHash b) s =
      .next (wrote s b SEC_FUSE_CMD (one s SEC_FUSE_CMD_DBG_HASH)
        (fun u => (u.zero SEC_FUSE_CMD_KEY_HASH).zero SEC_FUSE_CMD_DBG_HASH))) ∧
    (ok s b SEC_VAULT_CMD (one s SEC_VAULT_CMD_LOAD) = true → exec (.load b) s =
      .next (wrote s b SEC_VAULT_CMD (one s SEC_VAULT_CMD_LOAD) (fun u => u.zero SEC_VAULT_CMD_LOAD)))

/-- A write in progress ends: the FIELD fuse is blown and PENDING shows it; a hash takes the data registers unless it has
been fused before; the vault takes the key registers, which are cleared (R475 to R477). -/
def fuseWritesEnd : Prop :=
  ∀ (s u : State) (n : Fin 4), s.power = .run → s.fusing.contains n.val = true →
    u = { s with fusing := s.fusing.filter (· != n.val) } →
    (n = 0 → exec (.fuseWriteEnd n) s = .next { u.put SEC_LC_PENDING 1 with otp := { s.otp with fuses := 1 } }) ∧
    (n = 1 → s.otp.keyHash = none → exec (.fuseWriteEnd n) s =
      .next { u.put SEC_FUSE_CMD_KEY_HASH 0 with otp := { s.otp with keyHash := some s.fuseData } }) ∧
    (n = 1 → s.otp.keyHash ≠ none → exec (.fuseWriteEnd n) s = .next (u.put SEC_FUSE_CMD_KEY_HASH 0)) ∧
    (n = 2 → s.otp.dbgHash = none → exec (.fuseWriteEnd n) s =
      .next { u.put SEC_FUSE_CMD_DBG_HASH 0 with otp := { s.otp with dbgHash := some s.fuseData } }) ∧
    (n = 2 → s.otp.dbgHash ≠ none → exec (.fuseWriteEnd n) s = .next (u.put SEC_FUSE_CMD_DBG_HASH 0)) ∧
    (n = 3 → ∃ t, exec (.fuseWriteEnd n) s = .next t ∧ t.otp = { s.otp with vault := some s.vaultKey } ∧
      t.get SEC_VAULT_CMD_LOAD = 0 ∧ ∀ i < 8, t.word (SEC_VAULT_KEY i) = 0)

/-! ## The TAP -/

/-- The TAP with an instruction in force. -/
def instructed (s : State) (code : Nat) : State := { s with tap := { s.tap with ir := code } }

/-- IDCODE gives the member's code, SAMPLE/PRELOAD preloads the boundary, BYPASS selects the bypass register, in every
state; TRST_N resets the TAP and nothing else (R481, R497). -/
def tapServes : Prop :=
  ∀ (s : State) (cells : List Bool),
    (s.member = .ux4816 → exec .idcode s = .next ((instructed s 0x02).emit (.jtag 0x02 0x14816B47))) ∧
    (s.member = .ux4808 → exec .idcode s = .next ((instructed s 0x02).emit (.jtag 0x02 0x14808B47))) ∧
    (s.member = .ux4804 → exec .idcode s = .next ((instructed s 0x02).emit (.jtag 0x02 0x14804B47))) ∧
    (∃ x, exec (.samplePreload cells) s = .next (State.emit
      { s with tap := { s.tap with ir := 0x01, boundary := cells }, nextFree := s.nextFree + 1 } (.jtag 0x01 x))) ∧
    exec .bypass s = .next (instructed s 0x3F) ∧
    exec .trstNLow s = .next { s with tap := { s.tap with ir := 0x02, boundary := [] } }

/-- In freeze, EXTEST drives the boundary and the freeze instructions give a frozen word, a trace word and a scan chain,
without a change of what is read (R481, R485, R486). -/
def freezeReadOut : Prop :=
  ∀ (s : State) (cells : List Bool) (a : BitVec 26) (entry : BitVec 16) (w : Fin 8), s.power = .frozen →
    exec (.extest cells) s =
      .next (State.emit { s with tap := { s.tap with ir := 0x00, boundary := cells } } (.jtag 0x00 (cellsValue cells))) ∧
    (∀ x : Word, s.frozenWord (a.toNat / 4 * 4) = some (some x) → exec (.frzRead a) s =
      .next ((instructed s 0x11).emit (.jtag 0x11 (x.toNat * 2 ^ 32)))) ∧
    (s.frozenWord (a.toNat / 4 * 4) = none → exec (.frzRead a) s = .next ((instructed s 0x11).emit (.jtag 0x11 2))) ∧
    (s.frozenWord (a.toNat / 4 * 4) = some none → ∃ x, exec (.frzRead a) s = .next (State.emit
      { instructed s 0x11 with nextFree := s.nextFree + 1 } (.jtag 0x11 (x * 2 ^ 32 + 1)))) ∧
    exec (.traceRead entry w) s = .next ((instructed s 0x12).emit (.jtag 0x12
      (((mget s.trace (entry.toNat % 8192) []).getD w.val 0).toNat * 2 ^ 32))) ∧
    (∃ x, exec .frzScan s = .next (State.emit { instructed s 0x13 with nextFree := s.nextFree + 1 } (.jtag 0x13 x)))

/-- While the device runs, the instructions of freeze act as BYPASS (R481). -/
def freezeReadOutRefused : Prop :=
  ∀ (s : State) (cells : List Bool) (a : BitVec 26) (entry : BitVec 16) (w : Fin 8), s.power ≠ .frozen →
    exec (.extest cells) s = .next (instructed s 0x3F) ∧ exec (.frzRead a) s = .next (instructed s 0x3F) ∧
    exec (.traceRead entry w) s = .next (instructed s 0x3F) ∧ exec .frzScan s = .next (instructed s 0x3F)

/-- FREEZE stops a device that runs, and ends a debug session (R482, R484). -/
def frozenByTap : Prop :=
  ∀ s : State, s.power = .run →
    exec .freeze s = .next { (instructed s 0x10).put SEC_DBG_UNLOCKED 0 with power := .frozen }

/-! ## Debug -/

/-- A response to the challenge opens the session where key and signature are right, and is otherwise counted, with a
new challenge and 100 ms in which none is accepted; within these nothing is taken (R482). -/
def debugAuthenticated : Prop :=
  ∀ (s u : State) (key sig : List Byte), s.power = .run → s.tap.challenge ≠ [] →
    u = (instructed s 0x18).emit (.jtag 0x18 (leNat s.tap.challenge)) →
    (s.clk < s.tap.blocked → exec (.dbgAuth key sig) s = .next u) ∧
    (s.tap.blocked ≤ s.clk → s.authOk key sig = true → exec (.dbgAuth key sig) s =
      .next (State.raise { u.put SEC_DBG_UNLOCKED 1 with tap := { u.tap with challenge := [] } } 14 0 0)) ∧
    (s.tap.blocked ≤ s.clk → s.authOk key sig = false → ∃ t, exec (.dbgAuth key sig) s = .next t ∧
      t.regs = (u.bump SEC_DBG_AUTH_FAIL).regs ∧ t.tap.blocked = s.clk + 100000000 ∧ t.tap.challenge.length = 32)

/-- In an open session a debug access is accepted as a request of its context, where that context is ON and not fenced;
DBG_RELOCK ends the session (R482, R483). -/
def debugServes : Prop :=
  ∀ (s : State) (n : BitVec 8) (a : BitVec 26) (w : Bool) (v : Word), s.power = .run →
    (s.debugOpen = true → s.ctxState n.toNat = 2 → s.on (CTX_FENCE_FENCED n.toNat) = false →
      exec (.dbgAccess n a w v) s = .next (((instructed s 0x19).addExec (.direct n.toNat) .debug
        (debugPkt n.toNat a.toNat w v) none 9 []).drain)) ∧
    (s.debugOpen = true → s.ctxState n.toNat < 2 → ∃ t, exec (.dbgAccess n a w v) s =
      .next (State.emit t (.done n.toNat a.toNat stUR)) ∧ t.execs = s.execs) ∧
    exec .dbgRelock s = .next ((instructed s 0x1A).put SEC_DBG_UNLOCKED 0)

/-- LC_RETURN of a part in FIELD with an open session blows the RETURN fuse, erases the vault and resets the device; it
leaves the flash and the other fuses (R477). -/
def partReturned : Prop :=
  ∀ s : State, s.power = .run → s.lifecycle = 1 → s.on SEC_DBG_UNLOCKED = true →
    ∃ t, exec .lcReturn s = .next t ∧ t.power = .held ∧ t.otp = { s.otp with vault := none, fuses := 3 } ∧
      t.flash = s.flash ∧ t.tap = { s.tap with ir := 0x1C } ∧ t.pending = s.pending

end Sys2Proof.Claims

/-- Fuses and the vault: writes begin and end in MANUFACTURE. -/
def Obligations.FusesBlown : Prop :=
  Sys2Proof.Claims.fuseWritesBegin ∧ Sys2Proof.Claims.fuseWritesRefused ∧ Sys2Proof.Claims.fuseWritesEnd

/-- The TAP: identification, boundary, freeze and its read-out, debug and return. -/
def Obligations.TapServes : Prop :=
  Sys2Proof.Claims.tapServes ∧ Sys2Proof.Claims.freezeReadOut ∧ Sys2Proof.Claims.freezeReadOutRefused ∧
    Sys2Proof.Claims.frozenByTap ∧ Sys2Proof.Claims.debugAuthenticated ∧ Sys2Proof.Claims.debugServes ∧
    Sys2Proof.Claims.partReturned

namespace Sys2Proof.Claims

open Sys2Proof.Machine

/-! ## Reset, freeze and supplies -/

/-- What a reset with a cause other than power-on leaves of a device that was not in reset (R496, R497): the device is
held; every register is at its reset value but those of the AON domain that R497 keeps and the one that shows the spare;
the cause is recorded, in the history too; the last-gasp record, the OTP and the vault, the lifecycle, the flash with the
two copies of its directory, the TAP and the pins stay; nothing is under way. -/
def heldBy (s t : State) (cause : Nat) : Prop :=
  t.power = .held ∧
  (∀ a : Nat, a ∉ keptRegs → a ≠ COUR_GLB → t.word a = resetWord a) ∧
  t.word NRG_LG_STAT = s.word NRG_LG_STAT ∧ t.word CRP_SUP_LOW = s.word CRP_SUP_LOW ∧
  t.get CRP_RST_CAUSE_CAUSE = cause ∧ t.get CRP_RST_HIST_HIST = (s.get CRP_RST_HIST_HIST ||| 2 ^ cause) ∧
  t.lastGasp = s.lastGasp ∧ t.otp = s.otp ∧ t.lifecycle = s.lifecycle ∧ t.flash = s.flash ∧ t.dirs = s.dirs ∧
  t.freezeHigh = s.freezeHigh ∧ t.supOut = s.supOut ∧ t.member = s.member ∧ t.clk = s.clk ∧ t.out = s.out ∧
  t.pending = s.pending ∧ t.execs = [] ∧ t.records = [] ∧ t.queues = [] ∧ t.segs = [] ∧ t.ledger = [] ∧ t.locks = []

/-- RESET_N low for 1 µs resets a device that runs with cause PIN, one that is frozen with cause FREEZE; SEC_GLITCH and the
TAP stay (R496, R497). -/
def pinResets : Prop :=
  ∀ s : State, s.power ≠ .held →
    (s.power = .run → ∃ t, exec .resetPin s = .next t ∧ heldBy s t 1 ∧ t.word SEC_GLITCH = s.word SEC_GLITCH ∧
      t.tap = s.tap) ∧
    (s.power = .frozen → ∃ t, exec .resetPin s = .next t ∧ heldBy s t 6 ∧ t.word SEC_GLITCH = s.word SEC_GLITCH ∧
      t.tap = s.tap)

/-- A glitch detector that fires sets its bit, counts, and resets the device with cause GLITCH (R479, R496). -/
def glitchResets : Prop :=
  ∀ (s : State) (k : Fin 3), s.power ≠ .held →
    ∃ t, exec (.glitch k) s = .next t ∧ heldBy s t 2 ∧
      t.get (if k = 0 then SEC_GLITCH_VOLT else if k = 1 then SEC_GLITCH_CLOCK else SEC_GLITCH_TEMP) = 1 ∧
      t.get SEC_GLITCH_COUNT = min 65535 (s.get SEC_GLITCH_COUNT + 1) ∧ t.tap = { s.tap with challenge := [] }

/-- VDD_AON that rises resets everything but the fuses, the vault and the flash: the AON domain's registers and record
and the TAP too (R496, R497). -/
def powerOnResets : Prop :=
  ∀ s : State, ∃ t, exec .powerOn s = .next t ∧ t.power = .held ∧
    (∀ a : Nat, a ≠ COUR_GLB → a ≠ CRP_RST_HIST → t.word a = resetWord a) ∧ t.get CRP_RST_HIST_HIST = 1 ∧
    t.get CRP_RST_CAUSE_CAUSE = 0 ∧ t.lastGasp = [] ∧ t.tap = Tap.fresh ∧ t.otp = s.otp ∧ t.flash = s.flash ∧
    t.dirs = s.dirs ∧ t.pending = s.pending

/-- A reset that ends with every monitored supply in range lets the device run with the time base at 0, PREF_SIDE
sampled and the lifecycle that the fuses give; a part in RETURN has no device key (R477, R498, R510). It does not end
while a supply is out of range. -/
def resetEnds : Prop :=
  ∀ (s : State) (side fz : Bool), s.power = .held →
    (s.supOut = 0 → ∃ t, exec (.resetEnd side fz) s = .next t ∧ t.power = .run ∧ t.tb = 0 ∧ t.side = side ∧
      t.freezeHigh = fz ∧ t.clk = s.clk + 10000 ∧ t.xspiLow = true ∧ t.get CRP_STAT_PLL_LOCK = 1 ∧
      t.lifecycle = (if s.otp.fuses = 0 then 0 else if s.otp.fuses = 1 then 1 else 2) ∧
      (t.lifecycle = 2 → t.otp.vault = none) ∧ (t.lifecycle ≠ 2 → t.otp = s.otp) ∧ t.flash = s.flash ∧
      t.ledger = s.ledger ∧ t.execs = s.execs) ∧
    (s.supOut ≠ 0 → exec (.resetEnd side fz) s = .next s)

/-- XSPI_RST_N goes high 50 µs after the reset has ended (R520). -/
def flashReleased : Prop :=
  ∀ s u : State, s.power = .run → s.expire .xspi = some u → exec .xspiResetEnd s = .next { u with xspiLow := false }

/-- A falling edge on FREEZE_N stops a device that runs (R484). -/
def frozenByPin : Prop :=
  ∀ s : State,
    (s.power = .run → exec .freezeNFall s =
      .next { s.put SEC_DBG_UNLOCKED 0 with power := .frozen, freezeHigh := false }) ∧
    (s.power ≠ .run → exec .freezeNFall s = .next { s with freezeHigh := false })

/-- A supply out of range sets its bit of CRP_SUP_LOW; one that returns is in range again, and its bit stays; the segment
of a returning bank may issue again (R501). -/
def suppliesWatched : Prop :=
  ∀ (s : State) (i : Fin 10),
    exec (.supplyOutOfRange i) s =
      .next { s.put CRP_SUP_LOW_LOW (s.get CRP_SUP_LOW_LOW ||| 2 ^ i.val) with supOut := s.supOut ||| 2 ^ i.val } ∧
    (i.val < 4 ∨ 8 ≤ i.val ∨ s.power ≠ .run → bitAt s.supOut i.val = true →
      exec (.supplyInRange i) s = .next { s with supOut := s.supOut - 2 ^ i.val }) ∧
    (4 ≤ i.val → i.val < 8 → s.power = .run → bitAt s.supOut i.val = true →
      exec (.supplyInRange i) s = .next (State.busFree { s with supOut := s.supOut - 2 ^ i.val } (i.val - 4)))

/-! ## The PLL and the time base -/

/-- A PLL warning is counted, and EV_CLK_PLL raised if none was within 1 ms (R491). -/
def pllWarned : Prop :=
  ∀ s : State, s.power = .run →
    ((∀ t : Nat, s.pllSaid = some t → t + 1000000 ≤ s.clk) →
      exec .pllWarn s = .next (State.raise { s.bump CRP_PLL_WARN_CNT with pllSaid := some s.clk } 6 0 0)) ∧
    (∀ t : Nat, s.pllSaid = some t → s.clk < t + 1000000 → exec .pllWarn s = .next (s.bump CRP_PLL_WARN_CNT))

/-- The error of the time base against the nearest multiple of the TSYNC period, in ns (R493). -/
def edgeError (s : State) : Int :=
  (s.now : Int) - ((s.now + s.tsyncNs / 2) / s.tsyncNs * s.tsyncNs : Nat)

/-- The state with an edge's error and the trimmed rate shown (R493). -/
def edgeShown (s : State) : State :=
  (s.put CRP_TB_ERR_ERR (signed32 (edgeError s))).put CRP_TB_RATE_RATE
    (rate21 (s.rate - (edgeError s * 500).tdiv (s.get CRP_TSYNC_PERIOD)))

/-- An edge's correction (R493): within the step threshold the error is slewed; a time base further behind is stepped to
the multiple, one further ahead is held, and both clear TB_LOCKED and count. -/
def edgesCorrect : Prop :=
  ∀ s : State, s.get CRP_TSYNC_PERIOD ≠ 0 →
    ((edgeError s).natAbs ≤ s.get CRP_TB_TH_STEP_TH * 1000 →
      s.tsyncError = State.tbGood { edgeShown s with tbSlew := -edgeError s * 2 ^ 24 }) ∧
    ((s.get CRP_TB_TH_STEP_TH * 1000 : Int) < -edgeError s →
      s.tsyncError = (((edgeShown s).tbTo ((s.now + s.tsyncNs / 2) / s.tsyncNs * s.tsyncNs)).tbUnlock).tbEvent) ∧
    ((s.get CRP_TB_TH_STEP_TH * 1000 : Int) < edgeError s →
      s.tsyncError = (State.tbUnlock { edgeShown s with tbHold := (edgeError s).toNat, tbSlew := 0 }).tbEvent)

/-- The state that takes an edge: it is remembered, and the watch for the next one starts (R493, R494). -/
def edgeTaken (s : State) : State :=
  State.arm { s with disc := { s.disc with lastEdge := some s.clk } } .tsync (s.tsyncNs * 3 / 2)

/-- A TSYNC edge with SRC = 1 corrects the time base, applies a SET that waits, or counts as missed where it comes within
half a period; a missing edge counts, and clears TB_LOCKED (R493, R494). -/
def edgesTaken : Prop :=
  ∀ s u : State, s.power = .run →
    (s.get CRP_TB_CTL_SRC = 1 → (∀ t : Nat, s.disc.lastEdge = some t → s.tsyncNs ≤ 2 * (s.clk - t)) →
      s.on CRP_TB_CMD_SET = false → exec .tsyncEdge s = .next (edgeTaken s).tsyncError) ∧
    (s.get CRP_TB_CTL_SRC = 1 → (∀ t : Nat, s.disc.lastEdge = some t → s.tsyncNs ≤ 2 * (s.clk - t)) →
      s.on CRP_TB_CMD_SET = true → s.now ≤ s.setValue ∨ s.anyOn = false → exec .tsyncEdge s = .next (State.tbSet
        (State.put { edgeTaken s with disc := { (edgeTaken s).disc with good := 0 } } CRP_TB_ERR_ERR
          (signed32 ((s.now : Int) - s.setValue))))) ∧
    (s.get CRP_TB_CTL_SRC = 1 → (∀ t : Nat, s.disc.lastEdge = some t → s.tsyncNs ≤ 2 * (s.clk - t)) →
      s.on CRP_TB_CMD_SET = true → s.setValue < s.now → s.anyOn = true →
        exec .tsyncEdge s = .next ((edgeTaken s).put CRP_TB_CMD_SET 0).tsyncError) ∧
    (s.get CRP_TB_CTL_SRC = 1 → (∃ t : Nat, s.disc.lastEdge = some t ∧ 2 * (s.clk - t) < s.tsyncNs) →
      exec .tsyncEdge s = .next (s.bump CRP_TB_CNT_TSYNC_MISS)) ∧
    (s.get CRP_TB_CTL_SRC ≠ 1 → exec .tsyncEdge s = .next s) ∧
    (s.expire .tsync = some u → exec .tsyncMiss s = .next ((u.tbUnlock.bump CRP_TB_CNT_TSYNC_MISS).raise 7 0 0))

/-- A hold of the time base ends: time goes on by what was held (R493). -/
def holdEnds : Prop :=
  ∀ s : State, s.power = .run → exec .timeBaseHoldEnd s = .next (s.elapse s.tbHold)

/-- SET steps the time base at once, or with SRC = 1 waits for the next edge; SET_NOW steps it at once (R494). A value
below the present time is not applied while a context is ON. -/
def timeBaseSet (ok : Admits := State.reaches) : Prop :=
  ∀ (s : State) (b : By), s.power = .run →
    (ok s b CRP_TB_CMD (one s CRP_TB_CMD_SET) = true → s.get CRP_TB_CTL_SRC = 1 → exec (.set b) s =
      .next (wrote s b CRP_TB_CMD (one s CRP_TB_CMD_SET) (fun u =>
        ((u.put CRP_TB_CMD_SET (s.get CRP_TB_CMD_SET)).zero CRP_TB_CMD_SET_NOW).put CRP_TB_CMD_SET 1))) ∧
    (ok s b CRP_TB_CMD (one s CRP_TB_CMD_SET) = true → s.get CRP_TB_CTL_SRC ≠ 1 → exec (.set b) s =
      .next (wrote s b CRP_TB_CMD (one s CRP_TB_CMD_SET) (fun u =>
        ((u.put CRP_TB_CMD_SET (s.get CRP_TB_CMD_SET)).zero CRP_TB_CMD_SET_NOW).tbSet))) ∧
    (ok s b CRP_TB_CMD (one s CRP_TB_CMD_SET_NOW) = true → exec (.setNow b) s =
      .next (wrote s b CRP_TB_CMD (one s CRP_TB_CMD_SET_NOW) (fun u =>
        ((u.put CRP_TB_CMD_SET (s.get CRP_TB_CMD_SET)).zero CRP_TB_CMD_SET_NOW).tbSet)))

/-- What SET does when it is applied (R494). -/
def setApplied : Prop :=
  ∀ u : State,
    (u.now ≤ u.setValue ∨ u.anyOn = false → u.tbSet =
      ((u.put CRP_TB_CMD_SET 0).tbTo u.setValue).tbEvent) ∧
    (u.setValue < u.now → u.anyOn = true → u.tbSet = u.put CRP_TB_CMD_SET 0)

end Sys2Proof.Claims

/-- Resets, freeze, supplies and the flash reset. -/
def Obligations.DeviceResets : Prop :=
  Sys2Proof.Claims.pinResets ∧ Sys2Proof.Claims.glitchResets ∧ Sys2Proof.Claims.powerOnResets ∧
    Sys2Proof.Claims.resetEnds ∧ Sys2Proof.Claims.flashReleased ∧ Sys2Proof.Claims.frozenByPin ∧
    Sys2Proof.Claims.suppliesWatched

/-- The PLL warning and the discipline of the time base. -/
def Obligations.TimeBaseDisciplined : Prop :=
  Sys2Proof.Claims.pllWarned ∧ Sys2Proof.Claims.edgesCorrect ∧ Sys2Proof.Claims.edgesTaken ∧
    Sys2Proof.Claims.holdEnds ∧ Sys2Proof.Claims.timeBaseSet ∧ Sys2Proof.Claims.setApplied

namespace Sys2Proof.Claims

open Sys2Proof.Machine

/-! ## Courier instructions on registers, and branches -/

/-- Context `n` issues at its PC the instruction word `w` with OPCODE `op`, which its courier's copy of the instruction
memory holds without an error that cannot be corrected (R257, R261, R262). -/
def issuing (s : State) (n : Fin 256) (w : Word) (op : Nat) : Prop :=
  s.canIssue n.val = true ∧ (s.arch n.val).pc < 16384 ∧ s.imemEcc (s.courOf n.val) (s.arch n.val).pc ≠ .ue ∧
    s.imemWord (s.arch n.val).pc = w ∧ bits w 26 6 = op

/-- The same of a word of the ALU group with a FUNC and AUX zero (R257, R264). -/
def issuingAlu (s : State) (n : Fin 256) (w : Word) (func : Nat) : Prop :=
  issuing s n w 0x00 ∧ bits w 0 6 = func ∧ bits w 6 5 = 0

/-- Context `n` gets the registers `a`, its slots are charged to it and its courier, and nothing else changes. -/
def becomes (s t : State) (n : Fin 256) (slots : Nat) (a : Arch) : Prop :=
  t = { s.charge_ n.val slots with archs := t.archs } ∧ t.arch n.val = a ∧ ∀ m : Nat, m ≠ n.val → t.arch m = s.arch m

/-- What follows an instruction that has completed and goes on at the next word: nothing, but behind the last word of the
instruction memory the context falls through and traps with IMEM and INFO 16384 (R266). -/
def goesOn (s : State) (n : Fin 256) (t : State) : State :=
  if (s.arch n.val).pc = 16383 then t.trap n.val 2 16384 else t

/-- An instruction that completes with a next state in which its context has the registers `a` and goes on at the next
word; slots are charged, and nothing else changes. -/
def completes (i : Instr) (s : State) (n : Fin 256) (slots : Nat) (a : Arch) : Prop :=
  ∃ t, exec i s = .next (goesOn s n t) ∧ becomes s t n slots { a with pc := (s.arch n.val).pc + 1 }

/-- The operands of context `n` for a word: w[ra], w[rb], w[rd] and IMM16 extended from bit 15 (R257, R264). -/
def ra (s : State) (n : Fin 256) (w : Word) : Word := (s.arch n.val).reg (bits w 16 5)
@[inherit_doc ra] def rb (s : State) (n : Fin 256) (w : Word) : Word := (s.arch n.val).reg (bits w 11 5)
@[inherit_doc ra] def rd (s : State) (n : Fin 256) (w : Word) : Word := (s.arch n.val).reg (bits w 21 5)
@[inherit_doc ra] def immS (w : Word) : Word := (w.setWidth 16).signExtend 32

/-- A result with Z and N of it, written to rd; C and V stay (R263). -/
def zn (s : State) (n : Fin 256) (w r : Word) : Arch :=
  { s.arch n.val with z := decide (r = 0), n := r.msb }.setReg (bits w 21 5) r

/-- The flags of a sum: C its carry, V where the signed sum differs from the result (R263). -/
def sumFlags (a : Arch) (x y : Word) : Arch :=
  { a with z := decide (x + y = 0), n := (x + y).msb, c := decide (2 ^ 32 ≤ x.toNat + y.toNat),
           v := decide (x.toInt + y.toInt ≠ (x + y).toInt) }

/-- The flags of a difference: C where no borrow occurs, V where the signed difference differs from the result (R263). -/
def diffFlags (a : Arch) (x y : Word) : Arch :=
  { a with z := decide (x - y = 0), n := (x - y).msb, c := decide (y.toNat ≤ x.toNat),
           v := decide (x.toInt - y.toInt ≠ (x - y).toInt) }

/-- ADD and SUB write the sum or difference to rd with all four flags; CMP sets the flags alone (R263, R264). -/
def addSubCompare : Prop :=
  ∀ (s : State) (n : Fin 256) (w : Word),
    (issuingAlu s n w 0x00 → completes (.add n) s n 1
      ((sumFlags (s.arch n.val) (ra s n w) (rb s n w)).setReg (bits w 21 5) (ra s n w + rb s n w))) ∧
    (issuingAlu s n w 0x01 → completes (.sub n) s n 1
      ((diffFlags (s.arch n.val) (ra s n w) (rb s n w)).setReg (bits w 21 5) (ra s n w - rb s n w))) ∧
    (issuingAlu s n w 0x0A → bits w 21 5 = 0 → completes (.cmp n) s n 1
      (diffFlags (s.arch n.val) (ra s n w) (rb s n w)))

/-- AND, OR, XOR and the shifts by w[rb] bits [4:0] write their result to rd with Z and N; MUL takes 2 slots and writes
the product modulo 2^32 (R264). -/
def logicShiftMultiply : Prop :=
  ∀ (s : State) (n : Fin 256) (w : Word),
    (issuingAlu s n w 0x02 → completes (.and n) s n 1 (zn s n w (ra s n w &&& rb s n w))) ∧
    (issuingAlu s n w 0x03 → completes (.or n) s n 1 (zn s n w (ra s n w ||| rb s n w))) ∧
    (issuingAlu s n w 0x04 → completes (.xor n) s n 1 (zn s n w (ra s n w ^^^ rb s n w))) ∧
    (issuingAlu s n w 0x05 → completes (.shl n) s n 1 (zn s n w (ra s n w <<< bits (rb s n w) 0 5))) ∧
    (issuingAlu s n w 0x06 → completes (.shr n) s n 1 (zn s n w (ra s n w >>> bits (rb s n w) 0 5))) ∧
    (issuingAlu s n w 0x07 → completes (.sra n) s n 1 (zn s n w ((ra s n w).sshiftRight (bits (rb s n w) 0 5)))) ∧
    (issuingAlu s n w 0x08 → completes (.ror n) s n 1 (zn s n w ((ra s n w).rotateRight (bits (rb s n w) 0 5)))) ∧
    (issuingAlu s n w 0x09 → completes (.mul n) s n 2
      (zn s n w (BitVec.ofNat 32 ((ra s n w).toNat * (rb s n w).toNat))))

/-- SWAP16 exchanges the bytes of each half, SWAP32 reverses the four bytes, with Z and N (R264). -/
def bytesSwapped : Prop :=
  ∀ (s : State) (n : Fin 256) (w r : Word), bits w 11 5 = 0 →
    (issuingAlu s n w 0x10 → bits r 0 8 = bits (ra s n w) 8 8 → bits r 8 8 = bits (ra s n w) 0 8 →
      bits r 16 8 = bits (ra s n w) 24 8 → bits r 24 8 = bits (ra s n w) 16 8 →
      completes (.swap16 n) s n 1 (zn s n w r)) ∧
    (issuingAlu s n w 0x11 → bits r 0 8 = bits (ra s n w) 24 8 → bits r 8 8 = bits (ra s n w) 16 8 →
      bits r 16 8 = bits (ra s n w) 8 8 → bits r 24 8 = bits (ra s n w) 0 8 →
      completes (.swap32 n) s n 1 (zn s n w r))

/-- One bit of the CRC-32C step of R267. -/
def crcBit (c : Word) : Word := if c.getLsbD 0 then (c >>> 1) ^^^ 0x82F63B78 else c >>> 1

/-- CRC32C.n steps the running value in rd over the 1, 2 or 4 low bytes of ra, lowest first, eight bits a byte (R267). -/
def crcStepped : Prop :=
  ∀ (s : State) (n : Fin 256) (w : Word) (k : Nat), issuing s n w 0x00 → bits w 0 6 = 0x12 → bits w 11 5 = 0 →
    (bits w 6 5 = 0 ∧ k = 1 ∨ bits w 6 5 = 1 ∧ k = 2 ∨ bits w 6 5 = 2 ∧ k = 4) →
    completes (.crc32c n) s n 1 (zn s n w ((List.range k).foldl (fun c i =>
      crcBit (crcBit (crcBit (crcBit (crcBit (crcBit (crcBit (crcBit (c ^^^ (ra s n w >>> (8 * i) &&& 0xFF)))))))))) (rd s n w)))

/-- A word of an instruction that traps without effect, with its slots charged (R245, R262). -/
def traps (i : Instr) (s : State) (n : Fin 256) (slots cause info : Nat) : Prop :=
  exec i s = .next ((s.charge_ n.val slots).trap n.val cause info)

/-- The value of "123456789" under CRC32C.1 from 0xFFFF_FFFF, complemented, is 0xE306_9283 (R267). -/
def crcCheckValue : Prop :=
  [0x31#32, 0x32#32, 0x33#32, 0x34#32, 0x35#32, 0x36#32, 0x37#32, 0x38#32, 0x39#32].foldl (fun c b =>
    crcBit (crcBit (crcBit (crcBit (crcBit (crcBit (crcBit (crcBit (c ^^^ b))))))))) 0xFFFFFFFF#32 ^^^ 0xFFFFFFFF#32 = 0xE3069283#32

/-- The instructions of the ALU group but CRC32C, with their FUNC. -/
def aluRows (n : Fin 256) : List (Instr × Nat) :=
  [(.add n, 0x00), (.sub n, 0x01), (.and n, 0x02), (.or n, 0x03), (.xor n, 0x04), (.shl n, 0x05), (.shr n, 0x06),
   (.sra n, 0x07), (.ror n, 0x08), (.mul n, 0x09), (.cmp n, 0x0A), (.swap16 n, 0x10), (.swap32 n, 0x11),
   (.jr n, 0x20), (.jalr n, 0x21)]

/-- A word of the ALU group that breaks a constraint of its row traps with ILLEGAL: AUX not zero but in CRC32C, where it
is above 2; rd not zero in CMP and JR; rb not zero in SWAP16, SWAP32, CRC32C, JR and JALR (R258, R264). -/
def aluReserved : Prop :=
  ∀ (s : State) (n : Fin 256) (w : Word), issuing s n w 0x00 →
    (∀ e ∈ aluRows n, bits w 0 6 = e.2 → bits w 6 5 ≠ 0 → traps e.1 s n 1 1 w.toNat) ∧
    (bits w 0 6 = 0x12 → bits w 6 5 > 2 → traps (.crc32c n) s n 1 1 w.toNat) ∧
    (∀ e ∈ [(Instr.cmp n, 0x0A), (.jr n, 0x20)], bits w 0 6 = e.2 → bits w 21 5 ≠ 0 → traps e.1 s n 1 1 w.toNat) ∧
    (∀ e ∈ [(Instr.swap16 n, 0x10), (.swap32 n, 0x11), (.crc32c n, 0x12), (.jr n, 0x20), (.jalr n, 0x21)],
      bits w 0 6 = e.2 → bits w 11 5 ≠ 0 → traps e.1 s n 1 1 w.toNat)

/-- ADDI, CMPI, ANDI, ORI, XORI and LUI (R263, R265): the first two extend IMM16 from bit 15, the others fill with
zeros. -/
def immediates : Prop :=
  ∀ (s : State) (n : Fin 256) (w : Word),
    (issuing s n w 0x01 → completes (.addi n) s n 1
      ((sumFlags (s.arch n.val) (ra s n w) (immS w)).setReg (bits w 21 5) (ra s n w + immS w))) ∧
    (issuing s n w 0x06 → bits w 21 5 = 0 → completes (.cmpi n) s n 1
      (diffFlags (s.arch n.val) (ra s n w) (immS w))) ∧
    (issuing s n w 0x02 → completes (.andi n) s n 1 (zn s n w (ra s n w &&& (w &&& 0xFFFF)))) ∧
    (issuing s n w 0x03 → completes (.ori n) s n 1 (zn s n w (ra s n w ||| (w &&& 0xFFFF)))) ∧
    (issuing s n w 0x04 → completes (.xori n) s n 1 (zn s n w (ra s n w ^^^ (w &&& 0xFFFF)))) ∧
    (issuing s n w 0x05 → bits w 16 5 = 0 → completes (.lui n) s n 1
      ((s.arch n.val).setReg (bits w 21 5) (w <<< 16)))

/-- SHI shifts by IMM[4:0] in the way that IMM[6:5] names (R265). -/
def shiftImmediate : Prop :=
  ∀ (s : State) (n : Fin 256) (w : Word), issuing s n w 0x07 → bits w 7 9 = 0 →
    completes (.shi n) s n 1 (zn s n w
      (if bits w 5 2 = 0 then ra s n w <<< bits w 0 5 else if bits w 5 2 = 1 then ra s n w >>> bits w 0 5
        else if bits w 5 2 = 2 then (ra s n w).sshiftRight (bits w 0 5) else (ra s n w).rotateRight (bits w 0 5)))

/-- BFX takes the field of `k` bits at bit `p`, filled with zeros, or with X = 1 with its sign; BFI puts the `k` low bits of
ra at bit `p` of rd, whose other bits stay (R265). -/
def bitFields : Prop :=
  ∀ (s : State) (n : Fin 256) (w r : Word) (p k : Nat), p = bits w 0 5 → k = bits w 5 5 + 1 → p + k ≤ 32 →
    (issuing s n w 0x08 → bits w 10 6 = 0 → (∀ i < 32, r.getLsbD i = (decide (i < k) && (ra s n w).getLsbD (p + i))) →
      completes (.bfx n) s n 1 (zn s n w r)) ∧
    (issuing s n w 0x08 → bits w 10 6 = 1 →
      (∀ i < 32, r.getLsbD i = (ra s n w).getLsbD (if i < k then p + i else p + k - 1)) →
      completes (.bfx n) s n 1 (zn s n w r)) ∧
    (issuing s n w 0x09 → bits w 10 6 = 0 →
      (∀ i < 32, r.getLsbD i = if p ≤ i ∧ i < p + k then (ra s n w).getLsbD (i - p) else (rd s n w).getLsbD i) →
      completes (.bfi n) s n 1 (zn s n w r))

/-- A word of these that breaks a constraint of its row traps with ILLEGAL, a bit field past bit 31 among them (R258,
R265). -/
def immediatesReserved : Prop :=
  ∀ (s : State) (n : Fin 256) (w : Word),
    (issuing s n w 0x05 → bits w 16 5 ≠ 0 → traps (.lui n) s n 1 1 w.toNat) ∧
    (issuing s n w 0x06 → bits w 21 5 ≠ 0 → traps (.cmpi n) s n 1 1 w.toNat) ∧
    (issuing s n w 0x07 → bits w 7 9 ≠ 0 → traps (.shi n) s n 1 1 w.toNat) ∧
    (issuing s n w 0x08 → bits w 11 5 ≠ 0 ∨ 32 < bits w 0 5 + (bits w 5 5 + 1) → traps (.bfx n) s n 1 1 w.toNat) ∧
    (issuing s n w 0x09 → bits w 10 6 ≠ 0 ∨ 32 < bits w 0 5 + (bits w 5 5 + 1) → traps (.bfi n) s n 1 1 w.toNat)

/-- MVD writes word `k` of a descriptor from rs, MFD reads it to rd; neither sets flags (R269). -/
def descriptorWords : Prop :=
  ∀ (s : State) (n : Fin 256) (w : Word) (d k : Nat), d = bits w 18 3 → k = bits w 0 2 → bits w 15 3 = 0 → bits w 2 13 = 0 →
    d < (s.arch n.val).d.length →
    (issuing s n w 0x26 → ∃ x : BitVec 128,
      (∀ i < 128, x.getLsbD i = if i / 32 = k then (rd s n w).getLsbD (i % 32)
        else ((s.arch n.val).d.getD d 0).getLsbD i) ∧
      completes (.mvd n) s n 1 { s.arch n.val with d := (s.arch n.val).d.set d x }) ∧
    (issuing s n w 0x27 → completes (.mfd n) s n 1
      ((s.arch n.val).setReg (bits w 21 5) (((s.arch n.val).d.getD d 0).extractLsb' (32 * k) 32)))

/-- Both trap with ILLEGAL where the t field or X[14:2] is not zero (R258, R269). -/
def descriptorReserved : Prop :=
  ∀ (s : State) (n : Fin 256) (w : Word), bits w 15 3 ≠ 0 ∨ bits w 2 13 ≠ 0 →
    (issuing s n w 0x26 → traps (.mvd n) s n 1 1 w.toNat) ∧ (issuing s n w 0x27 → traps (.mfd n) s n 1 1 w.toNat)

/-- TRD shows the data, the status or the bus time of a token with Z and N and leaves the token (R279): of a token that is
not DONE no data and no status, and of a PENDING one the answers and the bus time of its cycle so far. -/
def tokenRead : Prop :=
  ∀ (s : State) (n : Fin 256) (w : Word) (k : Token), issuing s n w 0x25 → bits w 18 3 = 0 → bits w 2 13 = 0 →
    k = (s.arch n.val).t.getD (bits w 15 3) ⟨0, 0, 0, 0, 0⟩ →
    (k.state = 2 → bits w 0 2 = 0 → completes (.trd n) s n 1 (zn s n w k.data)) ∧
    (k.state = 2 → bits w 0 2 = 1 → completes (.trd n) s n 1
      (zn s n w (BitVec.ofNat 32 (2 + 16 * k.status + 256 * min 15 k.retries)))) ∧
    (k.state ≠ 1 → bits w 0 2 = 2 → completes (.trd n) s n 1 (zn s n w (BitVec.ofNat 32 k.busNs))) ∧
    (k.state ≠ 2 → bits w 0 2 = 0 → completes (.trd n) s n 1 (zn s n w 0)) ∧
    (k.state ≠ 2 → k.state ≠ 1 → bits w 0 2 = 1 →
      completes (.trd n) s n 1 (zn s n w (BitVec.ofNat 32 (k.state + 256 * min 15 k.retries)))) ∧
    (∀ j : Job, k.state = 1 → (((List.range 4).map (fun g => (s.seg g).jobs)).flatten).find? (fun j =>
        j.owner == .token n.val (bits w 15 3)) = some j →
      (bits w 0 2 = 1 → completes (.trd n) s n 1 (zn s n w (BitVec.ofNat 32 (1 + 256 * min 15 j.answers)))) ∧
      (bits w 0 2 = 2 → completes (.trd n) s n 1 (zn s n w (BitVec.ofNat 32 j.busNs))))

/-! ## Jumps and branches -/

/-- An instruction that completes and goes on at the word `pc`, in 1 slot. -/
def jumps (i : Instr) (s : State) (n : Fin 256) (a : Arch) (pc : Nat) : Prop :=
  ∃ t, exec i s = .next t ∧ becomes s t n 1 { a with pc := pc }

/-- JR and JALR go on at the word that ra names, JALR with the index after it in rd; a target past the instruction memory
traps with IMEM (R264, R266). -/
def registerJumps : Prop :=
  ∀ (s : State) (n : Fin 256) (w : Word), bits w 11 5 = 0 →
    (issuingAlu s n w 0x20 → bits w 21 5 = 0 → (ra s n w).toNat < 16384 →
      jumps (.jr n) s n (s.arch n.val) (ra s n w).toNat) ∧
    (issuingAlu s n w 0x20 → bits w 21 5 = 0 → 16384 ≤ (ra s n w).toNat →
      exec (.jr n) s = .next ((s.charge_ n.val 1).trap n.val 2 (ra s n w).toNat)) ∧
    (issuingAlu s n w 0x21 → (ra s n w).toNat < 16384 →
      jumps (.jalr n) s n ((s.arch n.val).setReg (bits w 21 5) (BitVec.ofNat 32 ((s.arch n.val).pc + 1)))
        (ra s n w).toNat) ∧
    (issuingAlu s n w 0x21 → 16384 ≤ (ra s n w).toNat →
      exec (.jalr n) s = .next ((s.charge_ n.val 1).trap n.val 2 (ra s n w).toNat))

/-- Whether a branch condition holds of the flags (R266). -/
def condition (a : Arch) (k : Nat) : Bool :=
  [a.z, !a.z, a.c, !a.c, a.n, !a.n, a.v, !a.v, a.c && !a.z, !a.c || a.z, decide (a.n = a.v), decide (a.n ≠ a.v),
   !a.z && decide (a.n = a.v), a.z || decide (a.n ≠ a.v), true].getD k false

/-- The target of a branch: its own index plus OFF extended from bit 19 (R266). -/
def target (s : State) (n : Fin 256) (w : Word) : Int := ((s.arch n.val).pc : Int) + (w.setWidth 20).toInt

/-- B branches when its condition holds, and otherwise goes on; BL also writes the index after it to w31; a target outside
the instruction memory traps with IMEM (R266). -/
def branches : Prop :=
  ∀ (s : State) (n : Fin 256) (w : Word), bits w 20 2 = 0 → bits w 22 4 < 15 →
    (issuing s n w 0x18 → condition (s.arch n.val) (bits w 22 4) = false → completes (.b n) s n 1 (s.arch n.val)) ∧
    (issuing s n w 0x19 → condition (s.arch n.val) (bits w 22 4) = false → completes (.bl n) s n 1 (s.arch n.val)) ∧
    (issuing s n w 0x18 → condition (s.arch n.val) (bits w 22 4) = true → 0 ≤ target s n w → target s n w < 16384 →
      jumps (.b n) s n (s.arch n.val) (target s n w).toNat) ∧
    (issuing s n w 0x19 → condition (s.arch n.val) (bits w 22 4) = true → 0 ≤ target s n w → target s n w < 16384 →
      jumps (.bl n) s n ((s.arch n.val).setReg 31 (BitVec.ofNat 32 ((s.arch n.val).pc + 1))) (target s n w).toNat) ∧
    (condition (s.arch n.val) (bits w 22 4) = true → target s n w < 0 ∨ 16384 ≤ target s n w →
      (issuing s n w 0x18 → exec (.b n) s = .next ((s.charge_ n.val 1).trap n.val 2 (target s n w % 2 ^ 32).toNat)) ∧
      (issuing s n w 0x19 → exec (.bl n) s = .next ((s.charge_ n.val 1).trap n.val 2 (target s n w % 2 ^ 32).toNat)))

/-- The reserved condition traps with ILLEGAL (R258, R266). -/
def branchesReserved : Prop :=
  ∀ (s : State) (n : Fin 256) (w : Word), bits w 22 4 = 15 ∨ bits w 20 2 ≠ 0 →
    (issuing s n w 0x18 → traps (.b n) s n 1 1 w.toNat) ∧ (issuing s n w 0x19 → traps (.bl n) s n 1 1 w.toNat)

end Sys2Proof.Claims

/-- The ALU group: each writes its result and flags to its context, charges its slots, and changes nothing else. -/
def Obligations.AluComputes : Prop :=
  Sys2Proof.Claims.addSubCompare ∧ Sys2Proof.Claims.logicShiftMultiply ∧ Sys2Proof.Claims.bytesSwapped ∧
    Sys2Proof.Claims.crcStepped ∧ Sys2Proof.Claims.crcCheckValue ∧ Sys2Proof.Claims.registerJumps ∧
    Sys2Proof.Claims.aluReserved

/-- Immediates, shifts and bit fields: each changes its context's registers alone. -/
def Obligations.ImmediatesCompute : Prop :=
  Sys2Proof.Claims.immediates ∧ Sys2Proof.Claims.shiftImmediate ∧ Sys2Proof.Claims.bitFields ∧
    Sys2Proof.Claims.immediatesReserved

/-- Descriptor words are moved to and from registers. -/
def Obligations.DescriptorWordsMoved : Prop :=
  Sys2Proof.Claims.descriptorWords ∧ Sys2Proof.Claims.descriptorReserved

/-- Jumps and branches go on at their target, or trap with IMEM where it lies outside the instruction memory. -/
def Obligations.BranchesTaken : Prop :=
  Sys2Proof.Claims.branches ∧ Sys2Proof.Claims.branchesReserved ∧ Sys2Proof.Claims.registerJumps

namespace Sys2Proof.Claims

open Sys2Proof.Machine

/-! ## Courier instructions on memories -/

/-- An instruction that proceeds: its slots are charged in the state that its effect leaves, and its context goes on at
the next word. -/
def proceeds (i : Instr) (s : State) (n : Fin 256) (slots : Nat) (u : State) : Prop :=
  exec i s = .next (goesOn s n ((u.charge_ n.val slots).setArch n.val { u.arch n.val with pc := (s.arch n.val).pc + 1 }))

/-- The offset of a load or store (R268, R270). -/
def memAt (s : State) (n : Fin 256) (w : Word) : Nat := (ra s n w + immS w).toNat

/-- The `k` bytes of context `n`'s data area from an offset, little-endian. -/
def dataVal (s : State) (n : Fin 256) (off k : Nat) : Nat :=
  leNat ((List.range k).map (fun i => mget s.dmem (s.dataAt n.val off + i) 0))

/-- A load reads `k` bytes of the data area at its offset and gives them to its context; it traps with DMEM_RANGE past the
area, with ALIGN where the offset is no multiple of `al`, with DMEM_UE on a word that cannot be corrected (R262, R268). -/
def loads (i : Found → Instr) (op k al slots : Nat) (put : Arch → Word → Nat → Arch) (n : Fin 256) : Prop :=
  ∀ (s : State) (w : Word) (off : Nat), issuing s n w op → bits w 24 2 = 0 ∨ k < 16 → off = memAt s n w →
    (off + k ≤ s.dataSize n.val → off % al = 0 → (∀ j < k, s.dmemEcc (s.dataAt n.val off + j) ≠ .ue) →
      completes (i .clean) s n slots (put (s.arch n.val) w (dataVal s n off k))) ∧
    (∀ found, s.dataSize n.val < off + k → traps (i found) s n slots 3 off) ∧
    (∀ found, off + k ≤ s.dataSize n.val → off % al ≠ 0 → traps (i found) s n slots 5 off) ∧
    (∀ found, off + k ≤ s.dataSize n.val → off % al = 0 →
      found = .bad ∨ (∃ j < k, s.dmemEcc (s.dataAt n.val off + j) = .ue) → exec (i found) s =
        .next (((s.charge_ n.val slots).trap n.val 4 off).dmemBadWord (s.courOf n.val) (s.dataAt n.val off)))

/-- A value loaded into rd; none of the loads sets flags (R268). -/
def toRd (a : Arch) (w : Word) (v : Nat) : Arch := a.setReg (bits w 21 5) (BitVec.ofNat 32 v)

/-- LDW, LDH and LDB fill rd with zeros above what they read; LDD reads a descriptor in 2 slots (R268). -/
def dataLoaded : Prop :=
  ∀ n : Fin 256, loads (fun f => .ldw n f) 0x0A 4 4 1 toRd n ∧ loads (fun f => .ldh n f) 0x0B 2 2 1 toRd n ∧
    loads (fun f => .ldb n f) 0x0C 1 1 1 toRd n ∧
    loads (fun f => .ldd n f) 0x12 16 8 2 (fun a w v => { a with d := a.d.set (bits w 21 3) (BitVec.ofNat 128 v) }) n

/-- The data memory after `k` bytes of `v` stored at place `p`: those bytes are `v`'s, little-endian; every other byte
is as before; a word that the store covers is whole again, and no other word's check changes; the canonical form of
both maps is kept. -/
def storedAt (s t : State) (p k v : Nat) : Prop :=
  (∀ j < k, mget t.dmem (p + j) 0 = BitVec.ofNat 8 (v / 256 ^ j)) ∧
  (∀ a, a < p ∨ p + k ≤ a → mget t.dmem a 0 = mget s.dmem a 0) ∧
  (∀ x, p ≤ 8 * x ∧ 8 * x + 8 ≤ p + k → mget t.dmemBad x .ok = .ok) ∧
  (∀ x, ¬ (p ≤ 8 * x ∧ 8 * x + 8 ≤ p + k) → mget t.dmemBad x .ok = mget s.dmemBad x .ok) ∧
  (mwf s.dmem 0 = true → mwf t.dmem 0 = true) ∧ (mwf s.dmemBad .ok = true → mwf t.dmemBad .ok = true)

/-- A store writes its bytes to the data area and changes no register, no flag and no other byte; it traps as a load
does, with DMEM_UE where it covers a word that cannot be corrected only in part (R262, R268). -/
def stores (i : Instr) (op k al slots : Nat) (val : State → Word → Nat) (n : Fin 256) : Prop :=
  ∀ (s : State) (w : Word) (off : Nat), issuing s n w op → bits w 24 2 = 0 ∨ k < 16 → off = memAt s n w →
    (off + k ≤ s.dataSize n.val → off % al = 0 →
      (∀ j < k, s.dmemEcc (s.dataAt n.val off + j) = .ue → s.dataAt n.val off ≤ (s.dataAt n.val off + j) / 8 * 8 ∧
        (s.dataAt n.val off + j) / 8 * 8 + 8 ≤ s.dataAt n.val off + k) →
      ∃ t, exec i s = .next (goesOn s n t) ∧ storedAt s t (s.dataAt n.val off) k (val s w) ∧
        t = { s.charge_ n.val slots with archs := t.archs, dmem := t.dmem, dmemBad := t.dmemBad } ∧
        t.arch n.val = { s.arch n.val with pc := (s.arch n.val).pc + 1 } ∧ ∀ m : Nat, m ≠ n.val → t.arch m = s.arch m) ∧
    (s.dataSize n.val < off + k → traps i s n slots 3 off) ∧
    (off + k ≤ s.dataSize n.val → off % al ≠ 0 → traps i s n slots 5 off)

/-- STW, STH and STB store the low bytes of rs, STD a descriptor in 2 slots (R268). -/
def dataStored : Prop :=
  ∀ n : Fin 256, stores (.stw n) 0x0D 4 4 1 (fun s w => (rd s n w).toNat) n ∧
    stores (.sth n) 0x0E 2 2 1 (fun s w => (rd s n w).toNat) n ∧
    stores (.stb n) 0x0F 1 1 1 (fun s w => (rd s n w).toNat) n ∧
    stores (.std n) 0x13 16 8 2 (fun s w => ((s.arch n.val).d.getD (bits w 21 3) 0).toNat) n

/-- LDD and STD trap with ILLEGAL where bits [25:24] are not zero (R258, R268). -/
def dataReserved : Prop :=
  ∀ (s : State) (n : Fin 256) (w : Word) (f : Found), bits w 24 2 ≠ 0 →
    (issuing s n w 0x12 → traps (.ldd n f) s n 1 1 w.toNat) ∧ (issuing s n w 0x13 → traps (.std n) s n 1 1 w.toNat)

/-- The slots that context `n` has left of its budget (R261, R295). -/
def slotsLeft (s : State) (n : Fin 256) : Nat := s.slotBudget n.val - s.get (CTX_CHG_SLOTS n.val)

/-- A wait of `k` slots for a port that is granted before the budget is used up (R261). -/
def waitFits (s : State) (n : Fin 256) (k : Nat) : Prop := k = 0 ∨ k < slotsLeft s n

/-- The Ledger read of an LDL that has waited `k` slots and whose word is found so. -/
def ldlRead (s : State) (n : Fin 256) (k off : Nat) (e : Ecc) : State × List Byte × Bool :=
  ((s.charge_ n.val k).ledgerFound off e).ledgerRead 0 n.val off 4

/-- LDL gives rd the Ledger word at its offset in 6 slots and those of its backoffs (R270); a word that cannot be corrected
traps with LEDGER_UE; it traps with ALIGN, with LEDGER_REFUSED past the Ledger (R262). An LDL that its port has not
granted, or whose budget is used up while it waits, is charged its wait and has not started (R261). -/
def ledgerLoaded : Prop :=
  ∀ (s : State) (n : Fin 256) (w : Word) (off : Nat) (e : Ecc) (bs : List (BitVec 11)) (k : Nat), issuing s n w 0x10 →
    off = memAt s n w → k = (bs.map (fun b => (b.toNat + 3) / 4)).sum →
    (off % 4 = 0 → off + 4 ≤ s.member.ledgerBytes → waitFits s n k →
      ((ldlRead s n k off e).2.2 = false → proceeds (.ldl n ⟨e, bs, true⟩) s n 6 ((ldlRead s n k off e).1.setArch n.val
        (toRd ((ldlRead s n k off e).1.arch n.val) w (leNat (ldlRead s n k off e).2.1)))) ∧
      ((ldlRead s n k off e).2.2 = true → exec (.ldl n ⟨e, bs, true⟩) s = .next (State.charge_
        ((((s.charge_ n.val 6).trap n.val 7 off).ledgerFound off e).ledgerRead 0 n.val off 4).1 n.val k))) ∧
    (∀ g : Bool, off % 4 = 0 → off + 4 ≤ s.member.ledgerBytes → g = false ∨ ¬ waitFits s n k →
      exec (.ldl n ⟨e, bs, g⟩) s = .next (s.charge_ n.val (max 1 (min k (slotsLeft s n))))) ∧
    (∀ g : Bool, off % 4 ≠ 0 → traps (.ldl n ⟨e, bs, g⟩) s n 6 5 off) ∧
    (∀ g : Bool, off % 4 = 0 → s.member.ledgerBytes < off + 4 → traps (.ldl n ⟨e, bs, g⟩) s n 6 6 off)

/-- The Ledger write of an STL that has waited `k` slots. -/
def stlWrite (s : State) (n : Fin 256) (k off : Nat) (v : Word) : State × Verdict :=
  (s.charge_ n.val k).ledgerWrite 0 n.val (offsets off (leBytes 4 v.toNat))

/-- STL writes the word of rs to the Ledger in 2 slots and those of its wait, where R212 lets its context write; a write
into an output image whose home is the other device is forwarded, or reported with UN where there is none; it traps with
ALIGN, with LEDGER_REFUSED past the Ledger or where R212 refuses it, with LEDGER_UE where R207 ends it (R214, R262, R270).
One not granted, or whose budget is used up while it waits, is charged its wait and has not started (R261). -/
def ledgerStored : Prop :=
  ∀ (s : State) (n : Fin 256) (w : Word) (off k : Nat) (r : State × Verdict), issuing s n w 0x11 → off = memAt s n w →
    r = stlWrite s n k off (rd s n w) →
    (off % 4 = 0 → off + 4 ≤ s.member.ledgerBytes → waitFits s n k →
      (r.2 = .ok → proceeds (.stl ⟨n, k, true⟩) s n 2 r.1) ∧
      (r.2 = .forward → proceeds (.stl ⟨n, k, true⟩) s n 2 ((s.charge_ n.val k).ledgerAway n.val
        (offsets off (leBytes 4 (rd s n w).toNat)))) ∧
      (r.2 = .un → proceeds (.stl ⟨n, k, true⟩) s n 2 ((s.charge_ n.val k).ledgerFail n.val stUN off 4)) ∧
      (r.2 = .refused → exec (.stl ⟨n, k, true⟩) s = .next (State.charge_ (((s.charge_ n.val 2).trap n.val 6 off).ledgerWrite 0
        n.val (offsets off (leBytes 4 (rd s n w).toNat))).1 n.val k)) ∧
      (r.2 = .te → exec (.stl ⟨n, k, true⟩) s = .next (State.charge_ (((s.charge_ n.val 2).trap n.val 7 off).ledgerWrite 0
        n.val (offsets off (leBytes 4 (rd s n w).toNat))).1 n.val k))) ∧
    (∀ g : Bool, off % 4 = 0 → off + 4 ≤ s.member.ledgerBytes → g = false ∨ ¬ waitFits s n k →
      exec (.stl ⟨n, k, g⟩) s = .next (s.charge_ n.val (max 1 (min k (slotsLeft s n))))) ∧
    (∀ g : Bool, off % 4 ≠ 0 → traps (.stl ⟨n, k, g⟩) s n 2 5 off) ∧
    (∀ g : Bool, off % 4 = 0 → s.member.ledgerBytes < off + 4 → traps (.stl ⟨n, k, g⟩) s n 2 6 off)

/-! ## Bus cycle instructions -/

/-- A descriptor that R272 lets through for the instructions but POLL: its segment is there, its reserved fields are zero,
and its place, width, location and length are within their bounds. -/
def descLegal (s : State) (d : Desc) : Prop :=
  s.hasSeg d.seg = true ∧ d.reserved = false ∧ d.tmo ≤ 400 ∧ d.loc ≠ 3 ∧ d.width ≠ 3 ∧ d.len ≤ 255 ∧ d.space ≠ 3 ∧
    (d.loc = 0 → d.len ≤ 3) ∧ (d.space = 2 → d.a / 2 ^ 16 % 2 ^ 5 ≠ 0) ∧ d.a + d.len ≤ 0xFFFFFF

/-- Its buffer lies within the data area or the Ledger (R272). -/
def bufferFits (s : State) (n : Fin 256) (d : Desc) : Prop :=
  (d.loc = 1 → d.buf + d.len + 1 ≤ s.dataSize n.val) ∧ (d.loc = 2 → d.buf + d.len + 1 ≤ s.member.ledgerBytes)

/-- A token and a courier tag are free (R242, R274). -/
def tokenFree (s : State) (n : Fin 256) (w : Word) : Prop :=
  (s.token n.val (bits w 15 3)).state ≠ 1 ∧ s.get COUR_TAGS_IN_USE < 128

/-- A cycle of a bus instruction as its descriptor gives it (R271, R273). -/
def cycleOf (s : State) (n : Fin 256) (d : Desc) (j : Job) : Prop :=
  j.ctx = n.val ∧ j.base = d.a ∧ j.spc = d.space ∧ j.burst = d.burst ∧ j.xor = orderMask d.order ∧
    j.retryMax = d.retry ∧ j.tmo = d.tmo * 500 ∧ j.bufAt = d.buf ∧ j.order = s.order ∧ j.answers = 0

/-- The state in which a bus instruction has taken its token and tag and handed its cycle to its segment, behind those
before it (R274, R276). -/
def issued (s : State) (n : Fin 256) (t : Nat) (g : Nat) (j : Job) : State :=
  { s.takeToken n.val t with order := s.order + 1 }.addJob g j

/-- CYR, CYL and POLL on a segment that this device owns hand their cycle to it, with the token PENDING (R274, R277,
R278). -/
def cyclesRead : Prop :=
  ∀ (s : State) (n : Fin 256) (w : Word) (d : Desc), d = descOf ((s.arch n.val).d.getD (bits w 18 3) 0) → bits w 0 15 = 0 →
    tokenFree s n w → s.owns d.seg = true →
    (issuing s n w 0x20 → bits w 21 5 = 0 → descLegal s d → bufferFits s n d → ∃ j, cycleOf s n d j ∧
      j.owner = .token n.val (bits w 15 3) ∧ j.write = false ∧ j.len = d.len + 1 ∧ j.buf = d.loc ∧ j.lock = none ∧
      proceeds (.cyr n) s n 2 (issued s n (bits w 15 3) d.seg j)) ∧
    (issuing s n w 0x23 → descLegal s d → d.loc = 0 → d.burst = false → ∃ j, cycleOf s n d j ∧
      j.owner = .token n.val (bits w 15 3) ∧ j.len = d.len + 1 ∧ j.rmw = .merge d.mask (rd s n w).toNat ∧
      j.lock = some (.native (Fin.ofNat 4 d.seg)) ∧ proceeds (.cyl n) s n 2 (issued s n (bits w 15 3) d.seg j)) ∧
    (issuing s n w 0x24 → bits w 21 5 = 0 → s.hasSeg d.seg = true → d.reserved = false → d.tmo ≤ 400 → d.space = 3 →
      d.loc = 0 → d.a < 4 → ∃ j, cycleOf s n d j ∧ j.owner = .token n.val (bits w 15 3) ∧ j.poll = some d.a ∧
      proceeds (.poll n) s n 2 (issued s n (bits w 15 3) d.seg j))

/-- The bytes that a write of a courier takes at its issue: from rs, or from the data area (R274). -/
def sourced (s : State) (n : Fin 256) (w : Word) (d : Desc) (bs : List Byte) : Prop :=
  (d.loc = 0 ∧ bs = leBytes (d.len + 1) (rd s n w).toNat) ∨
  (d.loc = 1 ∧ (∀ j ≤ d.len, s.dmemEcc (s.dataAt n.val d.buf + j) ≠ .ue) ∧
    bs = (List.range (d.len + 1)).map (fun i => mget s.dmem (s.dataAt n.val d.buf + i) 0))

/-- CYWN hands its write to its segment with the token PENDING; the token of CYW resolves at once with SC (R274, R275).
The beats carry the bytes taken, in the byte order that ORDER gives. -/
def cyclesWritten : Prop :=
  ∀ (s : State) (n : Fin 256) (w : Word) (d : Desc) (bs : List Byte),
    d = descOf ((s.arch n.val).d.getD (bits w 18 3) 0) → bits w 0 15 = 0 → tokenFree s n w → s.owns d.seg = true →
    descLegal s d → bufferFits s n d → sourced s n w d bs →
    (issuing s n w 0x22 → ∃ j, cycleOf s n d j ∧ j.owner = .token n.val (bits w 15 3) ∧ j.write = true ∧
      j.beats = splitBeats d.a (orderMask d.order) j.width 0 bs ∧
      proceeds (.cywn n) s n 2 (issued s n (bits w 15 3) d.seg j)) ∧
    (issuing s n w 0x21 → ∃ j, cycleOf s n d j ∧ j.owner = .courierWrite n.val ∧ j.write = true ∧
      j.beats = splitBeats d.a (orderMask d.order) j.width 0 bs ∧
      proceeds (.cyw n) s n 2 ((issued s n (bits w 15 3) d.seg j).resolveToken n.val (bits w 15 3) stSC 0 0 0))

/-- On a segment that this device does not own the token resolves at once with UN, and no cycle is handed over (R242,
R274). -/
def cyclesAway : Prop :=
  ∀ (s : State) (n : Fin 256) (w : Word) (d : Desc), d = descOf ((s.arch n.val).d.getD (bits w 18 3) 0) → bits w 0 15 = 0 →
    tokenFree s n w → s.owns d.seg = false → descLegal s d → d.loc = 0 →
    (issuing s n w 0x20 → bits w 21 5 = 0 →
      proceeds (.cyr n) s n 2 ((s.takeToken n.val (bits w 15 3)).resolveToken n.val (bits w 15 3) stUN 0 0 0)) ∧
    (issuing s n w 0x21 →
      proceeds (.cyw n) s n 2 ((s.takeToken n.val (bits w 15 3)).resolveToken n.val (bits w 15 3) stUN 0 0 0)) ∧
    (issuing s n w 0x22 →
      proceeds (.cywn n) s n 2 ((s.takeToken n.val (bits w 15 3)).resolveToken n.val (bits w 15 3) stUN 0 0 0)) ∧
    (issuing s n w 0x23 → d.burst = false →
      proceeds (.cyl n) s n 2 ((s.takeToken n.val (bits w 15 3)).resolveToken n.val (bits w 15 3) stUN 0 0 0))

/-- A POLL of a segment that this device does not own resolves with UN too, and its line is rearmed (R189, R274). -/
def pollAway : Prop :=
  ∀ (s u : State) (n : Fin 256) (w : Word) (d : Desc), d = descOf ((s.arch n.val).d.getD (bits w 18 3) 0) →
    bits w 0 15 = 0 → bits w 21 5 = 0 → tokenFree s n w → s.owns d.seg = false → s.hasSeg d.seg = true →
    d.reserved = false → d.tmo ≤ 400 → d.space = 3 → d.loc = 0 → d.a < 4 → issuing s n w 0x24 →
    u = (s.takeToken n.val (bits w 15 3)).resolveToken n.val (bits w 15 3) stUN 0 0 0 →
    proceeds (.poll n) s n 2 (u.arm (.cintRearm d.seg d.a) (u.get (SEG_INT_REARM d.seg d.a) * 1000))

/-- A descriptor that R272 does not let through traps with DESC before its buffer is looked at, a buffer outside its memory
traps before the token is, a PENDING token traps with TOKEN_BUSY; without a free tag the instruction is not started and
the wait is charged (R242, R261, R262, R272). Shown for CYR and CYWN. -/
def cyclesTrapped : Prop :=
  ∀ (s : State) (n : Fin 256) (w : Word) (d : Desc), d = descOf ((s.arch n.val).d.getD (bits w 18 3) 0) → bits w 0 15 = 0 →
    ∀ i, (i = .cyr n ∧ issuing s n w 0x20 ∧ bits w 21 5 = 0 ∨ i = .cywn n ∧ issuing s n w 0x22) →
    (¬ descLegal s d → traps i s n 2 9 (bits w 18 3)) ∧
    (descLegal s d → d.loc = 1 → s.dataSize n.val < d.buf + d.len + 1 → traps i s n 2 3 d.buf) ∧
    (descLegal s d → d.loc = 2 → s.member.ledgerBytes < d.buf + d.len + 1 → traps i s n 2 6 d.buf) ∧
    (descLegal s d → bufferFits s n d → (s.token n.val (bits w 15 3)).state = 1 → traps i s n 2 8 (bits w 15 3)) ∧
    (descLegal s d → bufferFits s n d → (s.token n.val (bits w 15 3)).state ≠ 1 → 128 ≤ s.get COUR_TAGS_IN_USE →
      exec i s = .next ((s.tagStall n.val).charge_ n.val 1))

/-! ## Waiting and control -/

/-- A WAIT that ends in `slots` slots in the state `u`: C tells whether by its timeout; the slots are charged, and nothing
else changes (R281). -/
def waitEnds (s : State) (n : Fin 256) (slots : Nat) (u : State) (c : Bool) : Prop :=
  ∃ t, exec (.wait n) s = .next (goesOn s n t) ∧ t.arch n.val = { s.arch n.val with c := c, pc := (s.arch n.val).pc + 1 } ∧
    (∀ m : Nat, m ≠ n.val → t.arch m = s.arch m) ∧ (∀ a, t.word a = (u.charge_ n.val slots).word a) ∧
    t = { u with archs := t.archs, regs := t.regs, courSlots := t.courSlots }

/-- A WAIT whose token condition holds ends in 1 slot with C cleared (R281): of any listed token, or with ALL of every
one, that it is not PENDING. -/
def waitMet : Prop :=
  ∀ (s : State) (n : Fin 256) (w : Word), issuing s n w 0x28 → bits w 18 3 = 0 → bits w 15 3 = 0 → bits w 9 3 = 0 →
    bits w 13 2 = 0 → bits w 0 9 ≠ 0 → bits w 0 9 < 256 →
    (bits w 12 1 = 0 → (∃ i < 8, bitAt (bits w 0 9) i = true ∧ (s.token n.val i).state ≠ 1) →
      waitEnds s n 1 s false) ∧
    (bits w 12 1 = 1 → (∀ i < 8, bitAt (bits w 0 9) i = true → (s.token n.val i).state ≠ 1) →
      waitEnds s n 1 s false)

/-- A WAIT for a time of 0 ns ends in 1 slot with C cleared; one for tokens all PENDING, or for an event, with a timeout of
0 ns ends in 1 slot with C set (R281). -/
def waitZero : Prop :=
  ∀ (s : State) (n : Fin 256) (w : Word), issuing s n w 0x28 → bits w 18 3 = 0 → bits w 15 3 = 0 → bits w 9 3 = 0 →
    (rd s n w).toNat = 0 →
    (bits w 13 2 = 2 → bits w 12 1 = 0 → bits w 0 9 = 0 → waitEnds s n 1 s false) ∧
    (bits w 21 5 ≠ 0 → ((bits w 13 2 = 0 ∧ bits w 0 9 ≠ 0 ∧ bits w 0 9 < 256 ∧ ∀ i < 8, (s.token n.val i).state = 1) ∨
      (bits w 13 2 = 1 ∧ bits w 12 1 = 0)) → waitEnds s n 1 s true)

/-- A WAIT for tokens all PENDING, for an event or for a time that is not over waits, bound to its thread at first, until
an instant of the time base where it has a time (R240, R281, R282): its context stands behind it. -/
def waitBegins : Prop :=
  ∀ (s : State) (n : Fin 256) (w : Word) (f : WaitFor) (due : Option Nat), issuing s n w 0x28 → bits w 18 3 = 0 →
    bits w 15 3 = 0 → bits w 9 3 = 0 →
    ((bits w 13 2 = 0 ∧ bits w 0 9 ≠ 0 ∧ bits w 0 9 < 256 ∧ f = .tokens (bits w 0 9) (bits w 12 1 == 1) ∧
        ∀ i < 8, (s.token n.val i).state = 1) ∨
      (bits w 13 2 = 1 ∧ bits w 12 1 = 0 ∧ f = .event (bits w 0 9)) ∨
      (bits w 13 2 = 2 ∧ bits w 12 1 = 0 ∧ bits w 0 9 = 0 ∧ bits w 21 5 ≠ 0 ∧ f = .time)) →
    (bits w 21 5 = 0 ∧ due = none ∨ bits w 21 5 ≠ 0 ∧ (rd s n w).toNat ≠ 0 ∧ due = some (s.now + (rd s n w).toNat)) →
    ∃ t, exec (.wait n) s = .next (goesOn s n t) ∧ t.run n.val = 3 ∧
      t.arch n.val = { s.arch n.val with
        waitFor := f, due := due, waitSince := some s.clk, pc := (s.arch n.val).pc + 1 } ∧
      t.get (CTX_CHG_SLOTS n.val) = s.get (CTX_CHG_SLOTS n.val) ∧
      (∀ m : Nat, m ≠ n.val → t.arch m = s.arch m) ∧ t.timers = s.timers ∧ t.clk = s.clk

/-- A WAIT that has not ended within 4 slots leaves its thread, its 4 slots charged (R240, R281, R294); until then it
holds it. -/
def waitLeaves : Prop :=
  ∀ (s : State) (n : Fin 256) (b : Nat), (s.arch n.val).waitSince = some b →
    (1 + (s.clk - b + 4) / 5 ≤ 4 → s.settleWait n.val = s) ∧
    (4 < 1 + (s.clk - b + 4) / 5 → (s.settleWait n.val).run n.val = 3 ∧
      (s.settleWait n.val).arch n.val = { s.arch n.val with waitSince := none } ∧
      (s.settleWait n.val).get (CTX_CHG_SLOTS n.val) = min (2 ^ 25 - 1) (s.get (CTX_CHG_SLOTS n.val) + 4))

/-- YIELD goes on at once where a wake has been recorded, and clears it; else its context is unbound and IDLE and goes on
behind the YIELD at its next wake (R287). Without open packets it does nothing else. -/
def yields : Prop :=
  ∀ (s : State) (n : Fin 256) (w : Word), issuing s n w 0x2F → bits w 21 5 = 0 → bits w 0 21 = 0 →
    (∀ q ∈ s.packetQueues n.val, s.hasOpen n.val q = false) →
    ((s.arch n.val).wake = true → completes (.yield n) s n 1 { s.arch n.val with wake := false }) ∧
    ((s.arch n.val).wake = false → proceeds (.yield n) s n 1 (s.unbind n.val 0))

/-- EVT raises the event 48 + k of its context with w[rs] (R286). -/
def eventsRaised : Prop :=
  ∀ (s : State) (n : Fin 256) (w : Word), issuing s n w 0x2C → bits w 3 18 = 0 →
    proceeds (.evt n) s n 1 (s.raise (48 + bits w 0 3) n.val (rd s n w).toNat)

/-- TIME reads the time base to two registers in 2 slots, BUDGET what is left of the context's slots or bus time, SYSR what
its selector names, both with Z and N (R286). -/
def systemRead : Prop :=
  ∀ (s : State) (n : Fin 256) (w : Word), bits w 15 6 = 0 →
    (issuing s n w 0x2D → bits w 0 15 = 0 → bits w 21 5 % 2 = 0 → bits w 21 5 ≠ 0 → completes (.time n) s n 2
      (((s.arch n.val).setReg (bits w 21 5) (BitVec.ofNat 32 s.now)).setReg (bits w 21 5 + 1)
        (BitVec.ofNat 32 (s.now / 2 ^ 32)))) ∧
    (issuing s n w 0x2E → bits w 0 15 = 0 → completes (.budget n) s n 1
      (zn s n w (BitVec.ofNat 32 (min 0xFFFFFFFF (s.slotBudget n.val - s.get (CTX_CHG_SLOTS n.val)))))) ∧
    (∀ g < 4, issuing s n w 0x2E → bits w 0 15 = g + 1 → completes (.budget n) s n 1
      (zn s n w (BitVec.ofNat 32 (min 0xFFFFFFFF (s.busBudget n.val g - s.busCharged n.val g))))) ∧
    (∀ (k : Nat) (v : Word), issuing s n w 0x32 → bits w 0 15 = k →
      (k = 0 ∧ v = BitVec.ofNat 32 (s.arch n.val).trapPc ∨ k = 1 ∧ v = BitVec.ofNat 32 (s.arch n.val).lastCause ∨
        k = 2 ∧ v = (s.arch n.val).lastInfo ∨ k = 3 ∧ v = BitVec.ofNat 32 n.val ∨
        k = 4 ∧ v = BitVec.ofNat 32 (s.courOf n.val) ∨ k = 5 ∧ v = BitVec.ofNat 32 (s.get STG_STAT_LEG)) →
      completes (.sysr n) s n 1 (zn s n w v))

/-- TRAP traps with cause TRAP and its 16-bit immediate; RETT goes on at TRAP_PC plus its skip and leaves the handler, and
traps with ILLEGAL outside one (R245, R286). -/
def trapsAndReturns : Prop :=
  ∀ (s : State) (n : Fin 256) (w : Word),
    (issuing s n w 0x30 → bits w 16 10 = 0 → traps (.trap n) s n 1 11 (bits w 0 16)) ∧
    (issuing s n w 0x31 → bits w 1 25 = 0 → (s.arch n.val).inTrap = true → (s.arch n.val).trapPc + bits w 0 1 < 16384 →
      ∃ t, exec (.rett n) s = .next t ∧ t.get (CTX_STAT_IN_TRAP n.val) = 0 ∧ t.arch n.val =
        { s.arch n.val with inTrap := false, pc := (s.arch n.val).trapPc + bits w 0 1 } ∧
        ∀ m : Nat, m ≠ n.val → t.arch m = s.arch m) ∧
    (issuing s n w 0x31 → bits w 1 25 = 0 → (s.arch n.val).inTrap = false → traps (.rett n) s n 1 1 w.toNat)

/-! ## Queue instructions -/

/-- MSG closes the open packet of the notice queue and releases its notice; with none open it opens an empty one first
(R283, R284). -/
def messagesReleased : Prop :=
  ∀ (s : State) (n : Fin 256) (w : Word) (q : Nat), issuing s n w 0x29 → bits w 0 26 = 0 → q = s.get (CTX_QUE_NQ n.val) →
    (s.hasOpen n.val q = true → proceeds (.msg n) s n 2 ((s.closePacket q false).programNotice n.val)) ∧
    (s.hasOpen n.val q = true → ((s.closePacket q false).queue q).openPacket = none) ∧
    (s.hasOpen n.val q = false → s.mayPut q n.val 0 = true → ∃ u v,
      u = (s.openEmpty q n.val 0).1.raiseLoss q (s.openEmpty q n.val 0).2 ∧
      v = (if u.hasOpen n.val q then u.closePacket q false else u) ∧ proceeds (.msg n) s n 2 (v.programNotice n.val)) ∧
    (s.hasOpen n.val q = false → s.mayPut q n.val 0 = false → exec (.msg n) s = .next (s.charge_ n.val 1))

/-- The queue of the context's set that SEL names (R283). -/
def setQueueOf (s : State) (n : Fin 256) (sel q : Nat) : Prop :=
  sel = 0 ∧ q = s.get (CTX_QUE_NQ n.val) ∨ sel = 1 ∧ s.on (CTX_QUE_WQ_EN n.val) = true ∧ q = 144 + s.get (CTX_QUE_WQ n.val) ∨
    sel = 2 ∧ s.on (CTX_QUE_AUX_EN n.val) = true ∧ q = s.get (CTX_QUE_AUXQ n.val)

/-- A word appended to the open packet of a queue with room for it, with C cleared (R283). -/
def appended (s t : State) (n : Fin 256) (q : Nat) (v : Word) : Prop :=
  (t.queue q).packets = (s.queue q).packets.map (fun p =>
    if p.isOpen then { p with words := p.words ++ [⟨v, .ok⟩], count := p.count + 1 } else p) ∧
  (∀ k, k ≠ q → t.queue k = s.queue k) ∧ t.dmem = s.dmem ∧ t.ledger = s.ledger ∧
  t.arch n.val = { s.arch n.val with c := false, pc := (s.arch n.val).pc + 1 } ∧ ∀ m : Nat, m ≠ n.val → t.arch m = s.arch m

/-- QPUT appends w[rs] to the packet that its program has open, where the ring has room; onto a work queue with a credit
it puts an item; a queue outside the set traps with QUEUE (R283). -/
def wordsPut : Prop :=
  ∀ (s : State) (n : Fin 256) (w : Word) (q : Nat), issuing s n w 0x2A → bits w 15 6 = 0 → bits w 3 12 = 0 →
    (setQueueOf s n (bits w 0 2) q → isWorkQueue q = false → bits w 2 1 = 0 → s.hasOpen n.val q = true →
      (s.queue q).testing = false → (s.queue q).retired = false → (∀ p, (s.queue q).openPacket = some p → p.count < 1023) →
      ((s.queue q).packets.map QPacket.size).sum + 1 ≤ s.queueCap q →
      ∃ t, exec (.qput n) s = .next (goesOn s n t) ∧ appended s t n q (rd s n w)) ∧
    (setQueueOf s n (bits w 0 2) q → isWorkQueue q = true → (s.queue q).testing = false → (s.queue q).retired = false →
      s.credits q ≠ 0 → ∃ t, exec (.qput n) s = .next (goesOn s n t) ∧ (t.queue q).items = (s.queue q).items ++ [⟨rd s n w, false, false, .ok⟩] ∧
        (t.arch n.val).c = false ∧ ∀ k, k ≠ q → t.queue k = s.queue k) ∧
    (bits w 0 2 = 2 → s.on (CTX_QUE_AUX_EN n.val) = false → q = s.get (CTX_QUE_AUXQ n.val) → traps (.qput n) s n 2 10 q) ∧
    (bits w 0 2 = 1 → s.on (CTX_QUE_WQ_EN n.val) = false → q = 144 + s.get (CTX_QUE_WQ n.val) → traps (.qput n) s n 2 10 q)

/-- QGET from WQ takes the item of the context's slot, or with none gives 0 with Z set; the notice queue and a queue
outside the set trap with QUEUE (R241, R283). -/
def wordsGot : Prop :=
  ∀ (s : State) (n : Fin 256) (w v : Word), issuing s n w 0x2B → bits w 15 6 = 0 → bits w 2 13 = 0 →
    (bits w 0 2 = 1 → s.on (CTX_QUE_WQ_EN n.val) = true → (s.arch n.val).item = some v → (s.arch n.val).itemLine = false →
      completes (.qget n) s n 2 ({ s.arch n.val with item := none, z := false, n := true }.setReg (bits w 21 5) v)) ∧
    (bits w 0 2 = 1 → s.on (CTX_QUE_WQ_EN n.val) = true → (s.arch n.val).item = none →
      completes (.qget n) s n 2 ({ s.arch n.val with z := true, n := false }.setReg (bits w 21 5) 0)) ∧
    (bits w 0 2 = 0 → traps (.qget n) s n 2 10 (s.get (CTX_QUE_NQ n.val))) ∧
    (bits w 0 2 = 2 → s.on (CTX_QUE_AUX_EN n.val) = false → traps (.qget n) s n 2 10 (s.get (CTX_QUE_AUXQ n.val)))

end Sys2Proof.Claims

/-- Loads and stores of data memory: bytes, registers and traps; a store changes no other byte. -/
def Obligations.DataMemoryAccessed : Prop :=
  Sys2Proof.Claims.dataLoaded ∧ Sys2Proof.Claims.dataStored ∧ Sys2Proof.Claims.dataReserved

/-- Loads and stores of the Ledger, with their traps. -/
def Obligations.LedgerAccessed : Prop := Sys2Proof.Claims.ledgerLoaded ∧ Sys2Proof.Claims.ledgerStored

/-- Bus cycle instructions hand their cycles to their segments, resolve at once, trap or wait; tokens are read. -/
def Obligations.BusCyclesIssued : Prop :=
  Sys2Proof.Claims.cyclesRead ∧ Sys2Proof.Claims.cyclesWritten ∧ Sys2Proof.Claims.cyclesAway ∧ Sys2Proof.Claims.pollAway ∧
    Sys2Proof.Claims.cyclesTrapped ∧ Sys2Proof.Claims.tokenRead

/-- Waiting, yielding, events, the time, budgets, and traps with their return. -/
def Obligations.ProgramsControl : Prop :=
  Sys2Proof.Claims.waitMet ∧ Sys2Proof.Claims.waitZero ∧ Sys2Proof.Claims.waitBegins ∧ Sys2Proof.Claims.waitLeaves ∧
    Sys2Proof.Claims.yields ∧
    Sys2Proof.Claims.eventsRaised ∧ Sys2Proof.Claims.systemRead ∧ Sys2Proof.Claims.trapsAndReturns

/-- Messages released and queue words put and got by programs. -/
def Obligations.ProgramQueues : Prop :=
  Sys2Proof.Claims.messagesReleased ∧ Sys2Proof.Claims.wordsPut ∧ Sys2Proof.Claims.wordsGot

namespace Sys2Proof.Claims

open Sys2Proof.Machine

/-! ## Steps, reset and freeze -/

/-- The commands that reach the device whether or not it runs: JTAG, the freeze pin, the resets and the supplies. -/
def reachesAlways (i : Instr) : Prop :=
  (∃ c, i = .extest c) ∨ (∃ c, i = .samplePreload c) ∨ i = .idcode ∨ i = .freeze ∨ (∃ a, i = .frzRead a) ∨
    (∃ n w, i = .traceRead n w) ∨ i = .frzScan ∨ (∃ k g, i = .dbgAuth k g) ∨ (∃ n a w v, i = .dbgAccess n a w v) ∨
    i = .dbgRelock ∨ i = .lcReturn ∨ i = .bypass ∨ i = .freezeNFall ∨ (∃ k, i = .glitch k) ∨ i = .powerOn ∨
    i = .resetPin ∨ (∃ a b, i = .resetEnd a b) ∨ (∃ k, i = .supplyOutOfRange k) ∨ (∃ k, i = .supplyInRange k) ∨
    i = .trstNLow

/-- The conversions of the AON domain's ADC, which go on in a freeze (R303, R484, R502). -/
def converts (i : Instr) : Prop :=
  (∃ c, i = .holdupSenseSample c) ∨ (∃ c, i = .vinSenseSample c) ∨ ∃ c, i = .dieSensorSample c

/-- The registers of the AON domain that change in a freeze: the supply latch and the ADC's codes (R484, R501, R503). -/
def aonRegs : List Nat := [CRP_SUP_LOW, NRG_TJ, NRG_ADC 0, NRG_ADC 1, NRG_ADC 2, NRG_ADC 3, NRG_ADC 4, NRG_ADC 5]

/-- The commands that end a freeze: power-on, a glitch and the reset pin (R484, R496). -/
def endsFreeze (i : Instr) : Prop := i = .powerOn ∨ i = .resetPin ∨ ∃ k, i = .glitch k

/-- The state `s` of a device that was frozen in the state `s₀`: every part stands as it did, but for the TAP and what it
shifts out, the clock, the ADC and the supply latch of the AON domain, the supplies out of range, the freeze pin, and the
free values read since; no command that ends the freeze waits (R484 to R486). -/
def keptFrozen (s₀ s : State) : Prop :=
  s.power = .frozen ∧
  s = { s₀ with power := .frozen, regs := s.regs, tap := s.tap, out := s.out, clk := s.clk, nextFree := s.nextFree,
                freezeHigh := s.freezeHigh, supOut := s.supOut, pending := s.pending,
                sched := { s₀.sched with sensor := s.sched.sensor } } ∧
  (∀ a, a ∉ aonRegs → s.word a = s₀.word a) ∧ ∀ i ∈ s.pending, ¬ endsFreeze i

end Sys2Proof.Claims

/-- A step runs the command at the front of the queue on the state with the rest of the queue. -/
def Obligations.StepRunsFront : Prop :=
  ∀ (s : Sys2Proof.Machine.State) (i : Sys2Proof.Instr) (rest : List Sys2Proof.Instr), s.pending = i :: rest →
    Sys2Proof.Machine.step s = Sys2Proof.Machine.exec i { s with pending := rest }

/-- With no command waiting one TIME cycle passes, and the time base of a running device advances by 10 ns (log 2: the
model's choice); ports that send nothing change nothing more. -/
def Obligations.IdleTicks : Prop :=
  ∀ s : Sys2Proof.Machine.State, s.pending = [] →
    (s.power ≠ .run → Sys2Proof.Machine.step s = .next { s with clk := s.clk + 10 }) ∧
    (s.power = .run → (∀ p, (s.link p).phase = .off ∨ (s.link p).phase = .quiet) →
      (∀ k < 10, s.get (Sys2Proof.Machine.LN_CTL_MODE k) ≠ 1) → Sys2Proof.Machine.step s = .next (s.elapse 10)) ∧
    (s.power = .run → s.tbHold = 0 → s.tbSlew = 0 → s.on Sys2Proof.Machine.CRP_REF_SSC = false →
      s.get Sys2Proof.Machine.CRP_TB_RATE_RATE = 0 → s.clk % 10 = 0 → (s.elapse 10).now = s.now + 10)

/-- After reset the device is held with nothing under way, its memories empty, every register at its reset value. -/
def Obligations.ResetLeaves : Prop :=
  ∀ s : Sys2Proof.Machine.State, s = Sys2Proof.Machine.State.reset →
    s.power = .held ∧ s.pending = [] ∧ s.tb = 0 ∧ s.execs = [] ∧ s.records = [] ∧ s.locks = [] ∧ s.memOk = true ∧
    s.lifecycle = 0 ∧ s.get Sys2Proof.Machine.CRP_RST_HIST_HIST = 1 ∧ s.get Sys2Proof.Machine.CRP_RST_CAUSE_CAUSE = 0 ∧
    ∀ a, a ≠ Sys2Proof.Machine.CRP_RST_HIST → s.word a = Sys2Proof.Machine.resetWord a

/-- A device that does not run takes no command but those that reach it always and, frozen, the conversions of its ADC. -/
def Obligations.HeldIgnores : Prop :=
  ∀ (s : Sys2Proof.Machine.State) (i : Sys2Proof.Instr), s.power ≠ .run → ¬ Sys2Proof.Claims.reachesAlways i →
    (s.power = .frozen → ¬ Sys2Proof.Claims.converts i) → Sys2Proof.Machine.exec i s = .next s

/-- A frozen device stays as it stood: every step keeps it, whatever JTAG reads of it, until a command ends the freeze. -/
def Obligations.FrozenKept : Prop :=
  (∀ s : Sys2Proof.Machine.State, s.power = .frozen → (∀ i ∈ s.pending, ¬ Sys2Proof.Claims.endsFreeze i) →
    Sys2Proof.Claims.keptFrozen s s) ∧
  ∀ s₀ s t : Sys2Proof.Machine.State, Sys2Proof.Claims.keptFrozen s₀ s → Sys2Proof.Machine.step s = .next t →
    Sys2Proof.Claims.keptFrozen s₀ t

namespace Sys2Proof.Claims

open Sys2Proof.Machine

/-! ## Packets -/

/-- A packet whose type is one of R31 and whose data is as long as its header says (R29). -/
def whole (k : Pkt) : Prop :=
  isType k.h.type = true ∧ k.data.length = if hasData k.h.type then k.h.len + 1 else 0

/-- The payloads of the next `n` flits of a port whose packets wait, and what still waits (R80). -/
def payloads : Nat → List (List Byte) → List (List Byte) × List (List Byte)
  | 0, q => ([], q)
  | n + 1, q =>
    ((fillFlit (q.length + 1) 58 q).1 :: (payloads n (fillFlit (q.length + 1) 58 q).2).1,
      (payloads n (fillFlit (q.length + 1) 58 q).2).2)

/-- The packets that a port reads from payloads that arrive one after the other, the bytes of one that has not arrived
whole, and whether each could be read (R80, R81). -/
def heard (rx : List Byte) : List (List Byte) → List Pkt × List Byte × Bool
  | [] => ([], rx, true)
  | p :: ps =>
    ((parsePkts 16 (rx ++ p)).pkts ++ (heard (parsePkts 16 (rx ++ p)).rest ps).1,
      (heard (parsePkts 16 (rx ++ p)).rest ps).2.1,
      (parsePkts 16 (rx ++ p)).bad.isNone && (heard (parsePkts 16 (rx ++ p)).rest ps).2.2)

/-- The words of a header hold its fields where R28 places them. -/
def headerLaid : Prop :=
  ∀ h : Hdr,
    h.w0.toNat = h.type * 2 ^ 27 + h.vc * 2 ^ 25 + ofBool h.voted * 2 ^ 24 + h.ctx * 2 ^ 16 + h.seq ∧
    h.w1.toNat = h.tag * 2 ^ 22 + h.len * 2 ^ 13 + h.op * 2 ^ 9 + ofBool h.fence * 2 ^ 8 + h.addr / 2 ^ 32 ∧
    h.w2.toNat = h.addr % 2 ^ 32 ∧
    h.w3.toNat = h.origin * 2 ^ 28 + bits h.w3 25 3 * 2 ^ 25 + h.event * 2 ^ 16 + bits h.w3 0 16

/-- A header built from fields within their widths has those fields, no FENCE, and zero in what is reserved (R28). -/
def headerBuilt : Prop :=
  ∀ (type vc : Nat) (voted : Bool) (ctx seq tag len op addr origin event : Nat) (h : Hdr),
    h = mkHdr type vc voted ctx seq tag len op addr origin event → type < 2 ^ 5 → vc < 2 ^ 2 → ctx < 2 ^ 8 →
    seq < 2 ^ 16 → tag < 2 ^ 10 → len < 2 ^ 9 → op < 2 ^ 4 → addr < 2 ^ 40 → origin < 2 ^ 4 → event < 2 ^ 9 →
    h.type = type ∧ h.vc = vc ∧ h.voted = voted ∧ h.ctx = ctx ∧ h.seq = seq ∧ h.tag = tag ∧ h.len = len ∧ h.op = op ∧
    h.addr = addr ∧ h.origin = origin ∧ h.event = event ∧ h.fence = false ∧ bits h.w3 25 3 = 0 ∧ bits h.w3 0 16 = 0

/-- A packet's bytes are its four header words, word 0 first, each least significant byte first, and its data (R28). -/
def headerBytes : Prop :=
  ∀ (k : Pkt) (i : Nat),
    (i < 16 → (pktBytes k).getD i 0 = BitVec.ofNat 8 ((k.h.words.getD (i / 4) 0).toNat / 256 ^ (i % 4))) ∧
    (16 ≤ i → (pktBytes k).getD i 0 = k.data.getD (i - 16) 0)

/-- Level indices as a precoder that last sent `p` sends them (R65). -/
def precoded (p : Nat) (ls qs : List Nat) : Prop :=
  qs.length = ls.length ∧ ∀ i < ls.length, qs.getD i 0 < 4 ∧
    (qs.getD i 0 + (if i = 0 then p else qs.getD (i - 1) 0)) % 4 = ls.getD i 0

/-- The precoder sends each level index less the one it sent before, modulo 4, and the decoder that starts from the same
index gives the level indices back, both left with the last index sent (R65). -/
def precoderAgrees : Prop :=
  ∀ (p : Nat) (ls : List Nat), p < 4 → (∀ l ∈ ls, l < 4) →
    precoded p ls (precodeLevels p ls).1 ∧ (precodeLevels p ls).2 = (precodeLevels p ls).1.getLastD p ∧
    decodeLevels p (precodeLevels p ls).1 = (ls, (precodeLevels p ls).2)

/-- A lane word stands for 32 symbols, the lowest bit pair first, with the levels of R64, and is made of them again; the
words that a precoder leaves are decoded to those that it took (R64, R65); a swapped pair inverts each level and nothing
else (R67). -/
def wordsCarried : Prop :=
  ∀ w : BitVec 64,
    (∀ i < 32, (wordLevels w).getD i 0 =
      [-3, -1, 3, 1].getD (ofBool (w.getLsbD (2 * i)) + 2 * ofBool (w.getLsbD (2 * i + 1))) 0) ∧
    (wordLevels (invertWord w) = (wordLevels w).map (fun x => -x)) ∧
    ∀ (p : Nat) (ws : List (BitVec 64)), p < 4 →
      mapWords decodeLevels p (mapWords precodeLevels p ws).1 = (ws, (mapWords precodeLevels p ws).2)

/-- Byte 8u + j of 64 bytes goes in unit u on lane u mod 2 of the port, and the two lanes together carry the bytes back
(R63, R79). -/
def flitsOnLanes : Prop :=
  ∀ bs : List Byte, bs.length = 64 →
    mergeLanes (laneWords bs 0) (laneWords bs 1) = bs ∧
    ∀ u < 8, ∀ j < 8, ((laneWords bs (u % 2)).getD (u / 2) 0).extractLsb' (8 * j) 8 = bs.getD (8 * u + j) 0

/-- A TS word matches in its polarity, and carries LANE, KIND, PRECODE and CNT; TP1 does not match (R72, R76). -/
def trainingWordsRead : Prop :=
  (∀ (lane : Fin 2) (kind : Fin 4) (pre : Bool) (cnt : Fin 256) (w : BitVec 64), w = tsWord lane kind pre cnt →
    wordMatch w = some false ∧ wordMatch (invertWord w) = some true ∧
    ∀ inv i, i = wordInfo inv (if inv then invertWord w else w) →
      infoLane i = lane ∧ infoKind i = kind ∧ infoPre i = pre ∧ infoCnt i = cnt) ∧
  wordMatch tp1Word = none ∧ wordLevels tp1Word = (List.range 32).map (fun i => if i % 2 = 0 then -3 else 3)

/-! ## Registers -/

/-- What a write of `v` makes of each field of a register that held `old` (R7, R9, R436): a field that is read only, or
cleared by reads, stays; one that is written takes its value, held to its range; bits written with 1 clear or set; of a
masked field, the bits that the mask selects take the new value. -/
def fieldsWritten : Prop :=
  ∀ (a : Nat) (old v new : Word), new = fieldsNext (fieldsOf a) old v → ∀ g ∈ fieldsOf a,
    (g.acc = .ro ∨ g.acc = .rc → bits new g.lo g.w = bits old g.lo g.w) ∧
    (g.acc = .wo → bits new g.lo g.w = bits v g.lo g.w) ∧
    (g.acc = .rw → bits new g.lo g.w = max g.min (min g.max (bits v g.lo g.w))) ∧
    ∀ i < g.w,
      (g.acc = .w1c → new.getLsbD (g.lo + i) = (old.getLsbD (g.lo + i) && !v.getLsbD (g.lo + i))) ∧
      (g.acc = .w1s → new.getLsbD (g.lo + i) = (old.getLsbD (g.lo + i) || v.getLsbD (g.lo + i))) ∧
      (g.acc = .rwm → new.getLsbD (g.lo + i) =
        if v.getLsbD (g.lo + 16 + i) then v.getLsbD (g.lo + i) else old.getLsbD (g.lo + i))

/-- A write leaves every bit of a register that is in none of its fields as it is. -/
def restKept : Prop :=
  ∀ (a : Nat) (old v : Word) (i : Nat), i < 32 → (∀ g ∈ fieldsOf a, i < g.lo ∨ g.lo + g.w ≤ i) →
    (fieldsNext (fieldsOf a) old v).getLsbD i = old.getLsbD i

/-- A write that the guard turns away is refused whole (R438): it completes with UR, counts in GUARD_FAIL, and changes no
register but the counts and captures of refusals and what its event shows; the unlock stays. -/
def guardRefuses : Prop :=
  ∀ (s t : State) (b : By) (posted : Bool) (a c st : Nat) (v : Word), s.guards b a v = true →
    s.member.noSource a = false → ¬ (0xc0000 ≤ a ∧ a < 0xc0100) → s.writeReg b posted a c v = (t, st) →
    st = 1 ∧ t.get CFG_CNT1_GUARD_FAIL = min (2 ^ CFG_CNT1_GUARD_FAIL.w - 1) (s.get CFG_CNT1_GUARD_FAIL + 1) ∧
    t.get CFG_STAT_UNLOCKED = s.get CFG_STAT_UNLOCKED ∧ t.get CFG_STAT_UNLOCK_CTX = s.get CFG_STAT_UNLOCK_CTX ∧
    (∀ r, r / 0x10000 ∉ [0, 2, 3, 4, 12, 13, 14, 21] → t.word r = s.word r) ∧ t.execs = s.execs ∧ t.locks = s.locks

/-- A window register takes a write that the guard lets through (R438): by the owner of the unlocked guard, which locks
after it; by others only where no guarded field changes, and the unlock stays, as it does for the Innkeeper (R439). -/
def guardPasses : Prop :=
  ∀ (s t : State) (b : By) (posted : Bool) (a c st : Nat) (v : Word), a / 0x10000 = 7 → (regRow a).isSome = true →
    s.guards b a v = false → s.writeReg b posted a c v = (t, st) →
    st = 0 ∧ t.word a = s.newWord a v ∧ (∀ r, r ≠ a → r / 0x10000 ≠ 2 → t.word r = s.word r) ∧
    (isInn b = false → s.ownsGuard b.ctx.toNat = true → (∃ g ∈ fieldsOf a, g.guarded = true) →
      t.get CFG_STAT_UNLOCKED = 0) ∧
    (isInn b = true ∨ s.ownsGuard b.ctx.toNat = false → t.get CFG_STAT_UNLOCKED = s.get CFG_STAT_UNLOCKED)

/-- The configuration register of an event whose source the member does not have reads as zero, and a write of it
completes without an effect, guarded or not (R4). -/
def absentSources : Prop :=
  ∀ (s : State) (b : By) (posted : Bool) (a c : Nat) (v : Word), s.member.noSource a = true →
    s.writeReg b posted a c v = (s, 0) ∧ s.peekReg a = 0

/-! ## Locks -/

/-- At most one context holds each lock (R154 to R156). -/
def oneHolder (s : State) : Prop := ∀ l, (s.locks.filter (fun h => h.name == l && !h.timedOut)).length ≤ 1

/-- A lock taken is held by its context; every other lock is held as before; a semaphore shows its holder (R155, R164). -/
def lockTaken : Prop :=
  ∀ (s : State) (l : LockName) (n : BitVec 8) (w g : Nat) (remote : Bool) (t : State),
    t = s.acquire l n.toNat w g remote →
    t.lockHeld l = some ⟨l, n.toNat, remote, false, w, g⟩ ∧ (∀ k, k ≠ l → t.lockHeld k = s.lockHeld k) ∧
    t.dueAt (.lock l) = some (s.clk + s.get WIN_LOCK_CTL_TMO * 1000) ∧
    ∀ k : Fin 64, l = .sem k → t.get (WIN_SEM_OWNER_CTX k) = n.toNat ∧ t.get (WIN_SEM_OWNER_HELD k) = 1 ∧
      t.get (WIN_SEM_OWNER_REMOTE k) = ofBool remote

/-- A lock released by its holder is free, every other lock is held as before, and its timer is off (R156). -/
def lockReleased : Prop :=
  ∀ (s : State) (l : LockName) (h : HeldLock) (t : State), oneHolder s → s.lockHeld l = some h →
    t = s.releaseLock l h.ctx → t.lockHeld l = none ∧ (∀ k, k ≠ l → t.lockHeld k = s.lockHeld k) ∧
    t.dueAt (.lock l) = none ∧ ∀ k : Fin 64, l = .sem k → t.get (WIN_SEM_OWNER_HELD k) = 0

/-- The unlocking write of a context whose lock has timed out frees nothing of the lock's new holder, and its timer goes
on (R156). -/
def holderUntouched : Prop :=
  ∀ (s : State) (l : LockName) (h : HeldLock) (n : Nat), s.lockHeld l = some h → h.ctx ≠ n →
    (s.releaseLock l n).lockHeld l = some h ∧ (s.releaseLock l n).timers = s.timers ∧
    (s.releaseLock l n).regs = s.regs

/-- A lock that times out is free for others, is counted at its window, and its holder's unlocking write is awaited
(R156). -/
def lockExpired : Prop :=
  ∀ (s : State) (l : LockName) (h : HeldLock) (t : State), oneHolder s → s.lockHeld l = some h →
    t = s.lockTimedOut l → t.lockHeld l = none ∧ (∀ k, k ≠ l → t.lockHeld k = s.lockHeld k) ∧
    { h with timedOut := true } ∈ t.locks ∧
    (h.window < 64 → t.get (WIN_STAT_LOCK_TO h.window) =
      min (2 ^ (WIN_STAT_LOCK_TO h.window).w - 1) (s.get (WIN_STAT_LOCK_TO h.window) + 1))

/-- Taking, releasing and timing out keep one holder to each lock. -/
def holdersKept : Prop :=
  ∀ (s : State) (l : LockName) (n w g : Nat) (remote : Bool), oneHolder s →
    oneHolder (s.acquire l n w g remote) ∧ oneHolder (s.releaseLock l n) ∧ oneHolder (s.lockTimedOut l)

/-! ## Queues -/

/-- The words put by one producer into a queue with room for them and a length word, in which no packet is open, stand in
one open packet behind the others, with TRUNC where its last packet was cut (R323, R324). -/
def packetOpened : Prop :=
  ∀ (s : State) (q n src : Nat) (w : Word) (ws : List Word) (t : State), (s.queue q).openPacket = none →
    (s.queue q).retired = false → ws.length < 1023 →
    ((s.queue q).packets.map QPacket.size).sum + ws.length + 2 ≤ s.queueCap q →
    t = (s.putWords q n src (w :: ws)).1 →
    (t.queue q).packets = (s.queue q).packets ++ [⟨n, src, (s.queue q).truncNext.contains (n, src),
      (w :: ws).map (fun x => ⟨x, .ok⟩), ws.length + 1, true, .ok, true⟩] ∧
    (∀ k, k ≠ q → t.queue k = s.queue k) ∧ (t.queue q).items = (s.queue q).items ∧
    (s.putWords q n src (w :: ws)).2 = false

/-- The open packet closed gets its length word, whose fields are where R323 places them; the others stay. -/
def packetClosed : Prop :=
  ∀ (s : State) (q : Nat) (p : QPacket) (ps : List QPacket) (t : State), (s.queue q).packets = ps ++ [p] →
    p.isOpen = true → (∀ x ∈ ps, x.isOpen = false) → t = s.closePacket q false →
    (t.queue q).packets = ps ++ [{ p with isOpen := false }] ∧ (t.queue q).openPacket = none ∧
    (∀ k, k ≠ q → t.queue k = s.queue k)

/-- The length word of a packet of at most 1023 words (R323). -/
def lengthLaid : Prop :=
  ∀ p : QPacket, p.count ≤ 1023 → p.ctx < 256 → p.src < 16 →
    bits p.lengthWord 0 12 = p.count * 4 ∧ bits p.lengthWord 12 4 = 0 ∧ bits p.lengthWord 16 8 = p.ctx ∧
    bits p.lengthWord 24 4 = p.src ∧ bits p.lengthWord 28 3 = 0 ∧ p.lengthWord.getLsbD 31 = p.trunc

/-- Consumers see only closed packets: from a head packet closed and whole a pop that asks for enough takes its length
word and its words, from an open one nothing (R323, R328); the next data word is sought behind a packet that holds none
(R329). -/
def packetTaken : Prop :=
  ∀ (x : Queue) (p : QPacket) (ps : List QPacket) (ws : List Word) (n : Nat), x.items = [] → x.packets = p :: ps →
    p.words = ws.map (fun w => ⟨w, .ok⟩) → p.lenLeft = true → ws.length < n →
    (p.isOpen = true → x.take n = none ∧ x.takeData = none) ∧
    (p.isOpen = false → x.take n =
      some ⟨{ x with packets := ps }, p.lengthWord :: ws, true, true, false, ofBool (p.lenEcc == .ce), p.lenEcc == .ue⟩) ∧
    (p.isOpen = false → ws = [] → p.lenEcc = .ok → x.takeData = ({ x with packets := ps } : Queue).takeData)

/-! ## Contexts -/

/-- A trap of a context whose handler is enabled and not entered (R245, R254): the context goes on at TRAP_VEC with its PC
saved and IN_TRAP set; the first trap since VALID was cleared is captured, every trap counts; no other context's
registers change. -/
def trapHandled : Prop :=
  ∀ (s : State) (n : Fin 256) (cause info : Nat) (a : Arch) (t : State), a = s.arch n.val →
    s.on (CTX_PROG_TRAP_EN n.val) = true → a.inTrap = false → a.pc < 16384 → cause < 16 → info < 2 ^ 32 →
    t = s.trap n.val cause info →
    t.arch n.val = { a with inTrap := true, trapPc := a.pc, pc := s.get (CTX_PROG_TRAP_VEC n.val), lastCause := cause,
                            lastInfo := BitVec.ofNat 32 info } ∧
    (∀ m : Nat, m ≠ n.val → t.arch m = s.arch m) ∧ t.get (CTX_STAT_IN_TRAP n.val) = 1 ∧ t.run n.val = s.run n.val ∧
    t.get (CTX_TRAP0_COUNT n.val) = min (2 ^ (CTX_TRAP0_COUNT n.val).w - 1) (s.get (CTX_TRAP0_COUNT n.val) + 1) ∧
    t.get (CTX_TRAP0_VALID n.val) = 1 ∧
    (s.on (CTX_TRAP0_VALID n.val) = false → t.get (CTX_TRAP0_CAUSE n.val) = cause ∧
      t.get (CTX_TRAP1_PC n.val) = a.pc ∧ t.get (CTX_TRAP2_INFO n.val) = info) ∧
    (s.on (CTX_TRAP0_VALID n.val) = true → t.get (CTX_TRAP0_CAUSE n.val) = s.get (CTX_TRAP0_CAUSE n.val) ∧
      t.word (CTX_TRAP1 n.val) = s.word (CTX_TRAP1 n.val) ∧ t.word (CTX_TRAP2 n.val) = s.word (CTX_TRAP2 n.val)) ∧
    t.dmem = s.dmem ∧ t.imem = s.imem ∧ t.ledger = s.ledger ∧ t.queues = s.queues

/-- The word registers of a context (R235, R257): w0 reads as zero and discards writes; another register reads what was
last written to it. -/
def wordRegisters : Prop :=
  ∀ (a : Arch) (r q : Nat) (v : Word), a.w.length = 32 → r < 32 → q < 32 →
    a.reg 0 = 0 ∧ (a.setReg r v).reg q = (if q = 0 then 0 else if q = r then v else a.reg q) ∧
    (a.setReg r v).w.length = 32 ∧ (a.setReg r v).pc = a.pc ∧ (a.setReg r v).z = a.z ∧ (a.setReg r v).n = a.n ∧
    (a.setReg r v).c = a.c ∧ (a.setReg r v).v = a.v ∧ (a.setReg r v).d = a.d ∧ (a.setReg r v).t = a.t

/-! ## Digests -/

/-- One bit of the CRC-64 of R108. -/
def digestBit (c : BitVec 64) : BitVec 64 := if c.msb then (c <<< 1) ^^^ 0x42F0E1EBA9EA3693 else c <<< 1

end Sys2Proof.Claims

/-- The packet header lays its fields as R28 gives, and a packet travels as its words and data, least byte first. -/
def Obligations.HeaderLaidOut : Prop :=
  Sys2Proof.Claims.headerLaid ∧ Sys2Proof.Claims.headerBuilt ∧ Sys2Proof.Claims.headerBytes

/-- Whole packets that fill the flits of a link are read at its far end, each as it was sent and in order, none else. -/
def Obligations.PacketsCrossLinks : Prop :=
  ∀ ks : List Sys2Proof.Pkt, (∀ k ∈ ks, Sys2Proof.Claims.whole k) → ∀ (n : Nat) (ps q : List (List Sys2Proof.Byte)),
    Sys2Proof.Claims.payloads n (ks.map Sys2Proof.Machine.pktBytes) = (ps, q) →
    (∀ p ∈ ps, p.length = 58) ∧
    (∃ (got left : List Sys2Proof.Pkt) (rx : List Sys2Proof.Byte), ks = got ++ left ∧
      Sys2Proof.Claims.heard [] ps = (got, rx, true) ∧
      rx ++ q.flatten = (left.map Sys2Proof.Machine.pktBytes).flatten) ∧
    ((ks.map Sys2Proof.Machine.pktBytes).flatten.length ≤ 55 * n →
      q = [] ∧ Sys2Proof.Claims.heard [] ps = (ks, [], true))

/-- A write changes each field of a register by its access code, and no bit besides. -/
def Obligations.FieldsWritten : Prop := Sys2Proof.Claims.fieldsWritten ∧ Sys2Proof.Claims.restKept

/-- The guard turns guarded writes away, or lets the owner's through and locks after it. -/
def Obligations.GuardDecides : Prop :=
  Sys2Proof.Claims.guardRefuses ∧ Sys2Proof.Claims.guardPasses ∧ Sys2Proof.Claims.absentSources

/-- Locks and semaphores have one holder, which taking, releasing and timing out keep. -/
def Obligations.LocksExclude : Prop :=
  Sys2Proof.Claims.lockTaken ∧ Sys2Proof.Claims.lockReleased ∧ Sys2Proof.Claims.holderUntouched ∧
    Sys2Proof.Claims.lockExpired ∧ Sys2Proof.Claims.holdersKept

/-- Packets of a queue: words put, the packet closed with its length word, and taken whole by its consumer. -/
def Obligations.PacketsQueued : Prop :=
  Sys2Proof.Claims.packetOpened ∧ Sys2Proof.Claims.packetClosed ∧ Sys2Proof.Claims.lengthLaid ∧
    Sys2Proof.Claims.packetTaken

/-- A trap enters the handler of its context, with its capture. -/
def Obligations.TrapsHandled : Prop := Sys2Proof.Claims.trapHandled

/-- The word registers of a context, w0 among them. -/
def Obligations.WordRegisters : Prop := Sys2Proof.Claims.wordRegisters

/-- The digest is the CRC-64 of R108: from zero, eight bits a byte, most significant first, with its check value. -/
def Obligations.DigestComputed : Prop :=
  Sys2Proof.Machine.crc64 [] = 0 ∧
  (∀ (bs : List Sys2Proof.Byte) (b : Sys2Proof.Byte), Sys2Proof.Machine.crc64 (bs ++ [b]) =
    (List.range 8).foldl (fun c _ => Sys2Proof.Claims.digestBit c)
      (Sys2Proof.Machine.crc64 bs ^^^ (b.setWidth 64 <<< 56))) ∧
  Sys2Proof.Machine.crc64 [0x31, 0x32, 0x33, 0x34, 0x35, 0x36, 0x37, 0x38, 0x39] = 0x6C40DF5F0B497347

/-- Every command completes: in every state, with all its operands, it answers a next state; so does a step. -/
def Obligations.EveryCommandCompletes : Prop :=
  (∀ (i : Sys2Proof.Instr) (s : Sys2Proof.Machine.State), ∃ t, Sys2Proof.Machine.exec i s = .next t) ∧
    ∀ s : Sys2Proof.Machine.State, ∃ t, Sys2Proof.Machine.step s = .next t

/-- Writes of the ports, the Accord and the lanes have their effects wherever the write executes normally. -/
def Obligations.PortWritesComplete : Prop :=
  Sys2Proof.Claims.hostPortEnabled Sys2Proof.Claims.mayWrite ∧ Sys2Proof.Claims.channelCommands Sys2Proof.Claims.mayWrite ∧
    Sys2Proof.Claims.highCleared Sys2Proof.Claims.mayWrite ∧ Sys2Proof.Claims.unfenced Sys2Proof.Claims.mayWrite ∧
    Sys2Proof.Claims.bitslipMoves Sys2Proof.Claims.mayWrite ∧ Sys2Proof.Claims.linkCommands Sys2Proof.Claims.mayWrite ∧
    Sys2Proof.Claims.injectionsAndClears Sys2Proof.Claims.mayWrite ∧ Sys2Proof.Claims.modeWritten Sys2Proof.Claims.mayWrite

/-- Writes of the segments, the arbiters and the images have their effects wherever the write executes normally. -/
def Obligations.BusWritesComplete : Prop :=
  Sys2Proof.Claims.linesArmed Sys2Proof.Claims.mayWrite ∧ Sys2Proof.Claims.segmentEnabled Sys2Proof.Claims.mayWrite ∧
    Sys2Proof.Claims.cardsReset Sys2Proof.Claims.mayWrite ∧ Sys2Proof.Claims.settingsCommitted Sys2Proof.Claims.mayWrite ∧
    Sys2Proof.Claims.imageRegistersWritten Sys2Proof.Claims.mayWrite

/-- Writes of contexts, couriers, stages, queues, the Span and the chains have their effects wherever they execute
normally. -/
def Obligations.EngineWritesComplete : Prop :=
  Sys2Proof.Claims.contextEnabled Sys2Proof.Claims.mayWrite ∧ Sys2Proof.Claims.contextCommands Sys2Proof.Claims.mayWrite ∧
    Sys2Proof.Claims.courierEnabled Sys2Proof.Claims.mayWrite ∧ Sys2Proof.Claims.stageRegisters Sys2Proof.Claims.mayWrite ∧
    Sys2Proof.Claims.energyCommands Sys2Proof.Claims.mayWrite ∧ Sys2Proof.Claims.queueRegisters Sys2Proof.Claims.mayWrite ∧
    Sys2Proof.Claims.spanPortsEnabled Sys2Proof.Claims.mayWrite ∧ Sys2Proof.Claims.handoverGoes Sys2Proof.Claims.mayWrite ∧
    Sys2Proof.Claims.chainEnabled Sys2Proof.Claims.mayWrite ∧ Sys2Proof.Claims.chainRegisters Sys2Proof.Claims.mayWrite

/-- Writes of the fault, event, configuration, boot, security and clock registers have their effects wherever they
execute normally. -/
def Obligations.DeviceWritesComplete : Prop :=
  Sys2Proof.Claims.faultCommands Sys2Proof.Claims.mayWrite ∧ Sys2Proof.Claims.pendingCleared Sys2Proof.Claims.mayWrite ∧
    Sys2Proof.Claims.registersWritten Sys2Proof.Claims.mayWrite ∧ Sys2Proof.Claims.guardUnlocked Sys2Proof.Claims.mayWrite ∧
    Sys2Proof.Claims.passesStart Sys2Proof.Claims.mayWrite ∧ Sys2Proof.Claims.bootCommandsTaken Sys2Proof.Claims.mayWrite ∧
    Sys2Proof.Claims.trialConfirmed Sys2Proof.Claims.mayWrite ∧ Sys2Proof.Claims.fuseWritesBegin Sys2Proof.Claims.mayWrite ∧
    Sys2Proof.Claims.timeBaseSet Sys2Proof.Claims.mayWrite

namespace Sys2Proof.Claims

open Sys2Proof.Machine

/-! ## Pins -/

/-- The transceivers of a segment stand as R167 gives: both enables high in OFF, reset and freeze and with VDD_CORE out of
its range (R168); the output buffer off and every group receiving in STARTING and as STANDBY; an owner drives the
groups that its bus phase names. CRST_N and CBG_N follow the owner's card reset and grants (R166). -/
def transceiversSet : Prop :=
  ∀ (s : State) (g : Fin 4), s.hasSeg g = true →
    (s.power ≠ .run ∨ bitAt s.supOut 0 = true ∨ s.segState g = 0 → s.segPins g = ⟨3, 0, false, true, true⟩) ∧
    (s.power = .run → bitAt s.supOut 0 = false → s.segState g ≠ 0 →
      (s.get (SEG_STAT_ROLE g) ≠ 2 → s.segPins g = ⟨2, 0, false, true, true⟩) ∧
      (s.get (SEG_STAT_ROLE g) = 2 →
        (s.segPins g).coeN = 0 ∧ (s.segPins g).crstN = !s.on (SEG_STAT_CRST_ACTIVE g) ∧
        (s.segPins g).cclk = s.on (SEG_CTL_MODE g) ∧
        ((s.seg g).cycle = .idle → (s.segPins g).cdir = 2 ∧ (s.segPins g).cbgN = true) ∧
        (∀ b, s.onBus g = some b → b.job.write = true → (s.segPins g).cdir = 3) ∧
        (∀ b, s.onBus g = some b → b.job.write = false → b.beatAt + s.pulseAt g b ≤ s.clk → (s.segPins g).cdir = 2) ∧
        (∀ at_, (s.seg g).cycle = .lmGrant at_ →
          (s.segPins g).cdir = 0 ∧ ((s.segPins g).cbgN = false ↔ at_ ≤ s.clk)) ∧
        (∀ a b spc addr reads, (s.seg g).cycle = .lmTenure a b spc addr reads → (s.segPins g).cdir =
          if spc = 0 ∧ (s.inbArea g addr).isSome = true then (if reads then 5 else 4) else 0)))

/-- ALERT_N is low while a source with ALERT is pending; PWR_OK is high while every monitored supply is in range; both
are released, and XSPI_RST_N low, while the device is held in reset, but PWR_OK, which is low there (R421, R498, R501,
R520; DEDUCED, log 150). -/
def controlBalls : Prop :=
  ∀ s : State,
    (s.power = .held → s.controlPins = ⟨true, false, false⟩) ∧
    (s.power ≠ .held → (s.controlPins.pwrOk = true ↔ s.supOut = 0) ∧ s.controlPins.xspiRstN = !s.xspiLow ∧
      (s.controlPins.alertN = false ↔ ∃ e < 512, s.on (EVT_CFG_ALERT e) = true ∧
        bitAt (s.get (EVT_PEND_PEND (e / 32))) (e % 32) = true))

/-- A chain's line is constantly low in OFF, reset and freeze, and else carries idle pairs between frames (R379, R402). -/
def chainLines : Prop :=
  ∀ (s : State) (k : Fin 4), k.val < s.member.chains →
    (s.chainLine k = .low ↔ s.power ≠ .run ∨ s.chainState k = 0)

end Sys2Proof.Claims

/-- Transceivers, control balls and chain lines stand as the state gives. -/
def Obligations.PinsStand : Prop :=
  Sys2Proof.Claims.transceiversSet ∧ Sys2Proof.Claims.controlBalls ∧ Sys2Proof.Claims.chainLines

/-- Lane words: their levels, the precoder, the places of a flit's bytes, and the words of training. -/
def Obligations.LanesCarry : Prop :=
  Sys2Proof.Claims.precoderAgrees ∧ Sys2Proof.Claims.wordsCarried ∧ Sys2Proof.Claims.flitsOnLanes ∧
    Sys2Proof.Claims.trainingWordsRead
end

