-- ==== Sys2Proof/Laws/Bytes.lean ====
section
/-! SUPPORT. Numbers and their bytes, and that no flit is a control flit. -/

namespace Sys2Proof.Machine

/-- The number of a few bytes is below the range they give. -/
theorem leNat_lt (n : Nat) (l : List Byte) (h : l.length ≤ n) : leNat l < 2 ^ (8 * n) := by
  induction l generalizing n with
  | nil => exact Nat.two_pow_pos _
  | cons b t ih =>
    cases n with
    | zero => simp at h
    | succ n =>
      have := ih n (by simpa using h)
      have hb := b.isLt
      simp only [leNat]
      rw [Nat.mul_add, Nat.pow_add]
      omega

/-- The bytes of a number give it back, within their range. -/
theorem leNat_leBytes (n x : Nat) : leNat (leBytes n x) = x % 2 ^ (8 * n) := by
  induction n generalizing x with
  | zero => simp [leNat, leBytes, Nat.mod_one]
  | succ n ih =>
    simp only [leBytes, leNat, ih]
    rw [Nat.mul_add, Nat.pow_add, Nat.mul_comm (2 ^ (8 * n)), Nat.mod_mul]
    simp

@[simp] theorem leBytes_length (n x : Nat) : (leBytes n x).length = n := by
  induction n generalizing x with
  | zero => rfl
  | succ n ih => simp [leBytes, ih]

/-- The CRC of a control flit is complemented, so a flit with a good CRC is none (R84, R89). -/
theorem flit_not_control (q a : Nat) (pl : List Byte) (h : pl.length = 58) : asControl (flitBytes q a pl) = none := by
  unfold asControl
  simp only
  split
  · next hc =>
    exfalso
    obtain ⟨hc, -⟩ := hc
    have h2 := congrArg (List.drop 60) hc
    have h1 := congrArg (List.take 60) hc
    generalize leNat ((flitBytes q a pl).take 1) = c at *
    generalize leNat (((flitBytes q a pl).drop 1).take 1) = v at *
    have e1 : (leBytes 1 q ++ leBytes 1 a ++ pl).length = 60 := by simp [h]
    have e2 : (leBytes 1 c ++ leBytes 1 v ++ List.replicate 58 (0x5A#8)).length = 60 := by simp
    rw [show flitBytes q a pl = (leBytes 1 q ++ leBytes 1 a ++ pl) ++ leBytes 4 (crc32c (leBytes 1 q ++ leBytes 1 a ++ pl)).toNat from rfl,
      show controlBytes c v = (leBytes 1 c ++ leBytes 1 v ++ List.replicate 58 (0x5A#8)) ++ leBytes 4 (~~~ (crc32c (leBytes 1 c ++ leBytes 1 v ++ List.replicate 58 (0x5A#8)))).toNat from rfl] at h1 h2
    rw [List.take_left' e1, List.take_left' e2] at h1
    rw [List.drop_left' e1, List.drop_left' e2, h1] at h2
    have h3 := congrArg leNat h2
    simp only [leNat_leBytes] at h3
    generalize crc32c _ = x at h3
    have hx := x.isLt
    rw [BitVec.toNat_not] at h3
    omega
  · rfl

end Sys2Proof.Machine
end

