-- ==== Sys2Proof/Laws/Maps.lean ====
section
/-! SUPPORT. Laws of sparse maps and byte memories: a read after a write, and the canonical form kept by every
operation. The read laws need no hypothesis on the map. -/

namespace Sys2Proof.Machine

variable {α : Type}

theorem mfind_mins_same (m : SMap α) (k : Nat) (v : α) : mfind (mins m k v) k = some v := by
  induction m with
  | nil => simp [mins, mfind]
  | cons e t ih =>
    obtain ⟨k', v'⟩ := e
    simp only [mins]
    split
    · simp [mfind]
    · split
      · simp [mfind]
      · have h : ¬ k' = k := fun h => by omega
        simp [mfind, h, ih]

theorem mfind_mins_other (m : SMap α) {k j : Nat} (v : α) (h : j ≠ k) : mfind (mins m k v) j = mfind m j := by
  have hk : ¬ k = j := fun e => h e.symm
  induction m with
  | nil => simp [mins, mfind, hk]
  | cons e t ih =>
    obtain ⟨k', v'⟩ := e
    simp only [mins]
    split
    · simp [mfind, hk]
    · split
      · next e => subst e; simp [mfind, hk]
      · simp [mfind, ih]

theorem mfind_mdel_same (m : SMap α) (k : Nat) : mfind (mdel m k) k = none := by
  induction m with
  | nil => rfl
  | cons e t ih =>
    obtain ⟨k', v'⟩ := e
    simp only [mdel]
    split
    · exact ih
    · next h => simp [mfind, h, ih]

theorem mfind_mdel_other (m : SMap α) {k j : Nat} (h : j ≠ k) : mfind (mdel m k) j = mfind m j := by
  induction m with
  | nil => rfl
  | cons e t ih =>
    obtain ⟨k', v'⟩ := e
    simp only [mdel]
    split
    · next e =>
      subst e
      have : ¬ k' = j := fun e => h e.symm
      simp [mfind, ih, this]
    · simp [mfind, ih]

/-- A read of the key just written gives what was written. -/
@[simp] theorem mget_mput_same [DecidableEq α] (m : SMap α) (k : Nat) (v d : α) : mget (mput m k v d) k d = v := by
  unfold mget mput
  split
  · next h => simp [mfind_mdel_same, h]
  · simp [mfind_mins_same]

/-- A write leaves every other key alone. -/
theorem mget_mput_other [DecidableEq α] (m : SMap α) {k j : Nat} (v d : α) (h : j ≠ k) :
    mget (mput m k v d) j d = mget m j d := by
  unfold mget mput
  split
  · rw [mfind_mdel_other m h]
  · rw [mfind_mins_other m v h]

theorem mget_nil (k : Nat) (d : α) : mget ([] : SMap α) k d = d := rfl

/-! ## The canonical form -/

/-- Keys rise from above a bound. -/
def risingFrom (m : SMap α) (lo : Nat) : Bool := rising m (some lo)

theorem risingFrom_mono {m : SMap α} {a b : Nat} (h : risingFrom m b = true) (hab : a ≤ b) :
    risingFrom m a = true := by
  cases m with
  | nil => rfl
  | cons e t =>
    obtain ⟨k, v⟩ := e
    simp only [risingFrom, rising, Bool.and_eq_true, decide_eq_true_eq] at *
    exact ⟨by omega, h.2⟩

theorem risingFrom_mins {m : SMap α} {lo k : Nat} (v : α) (h : risingFrom m lo = true) (hk : lo < k) :
    risingFrom (mins m k v) lo = true := by
  induction m generalizing lo with
  | nil => simp [mins, risingFrom, rising, hk]
  | cons e t ih =>
    obtain ⟨k', v'⟩ := e
    simp only [risingFrom, rising, Bool.and_eq_true, decide_eq_true_eq] at h
    simp only [mins]
    split
    · next hl => simp [risingFrom, rising, hk, hl, h.2]
    · split
      · next e => subst e; simp [risingFrom, rising, hk, h.2]
      · have : k' < k := by omega
        have := ih h.2 this
        simp only [risingFrom] at this
        simp [risingFrom, rising, h.1, this]

theorem risingFrom_mdel {m : SMap α} {lo : Nat} (k : Nat) (h : risingFrom m lo = true) :
    risingFrom (mdel m k) lo = true := by
  induction m generalizing lo with
  | nil => rfl
  | cons e t ih =>
    obtain ⟨k', v'⟩ := e
    simp only [risingFrom, rising, Bool.and_eq_true, decide_eq_true_eq] at h
    simp only [mdel]
    split
    · exact ih (risingFrom_mono h.2 (by omega))
    · have := ih h.2
      simp only [risingFrom] at this
      simp [risingFrom, rising, h.1, this]

theorem rising_none {m : SMap α} : rising m none = true ↔ m = [] ∨ ∃ k v t, m = (k, v) :: t ∧ risingFrom t k = true := by
  cases m with
  | nil => simp [rising]
  | cons e t =>
    obtain ⟨k, v⟩ := e
    constructor
    · intro h; exact .inr ⟨k, v, t, rfl, h⟩
    · rintro (h | ⟨k', v', t', h, h'⟩)
      · cases h
      · cases h; exact h'

theorem rising_mins {m : SMap α} {k : Nat} (v : α) (h : rising m none = true) : rising (mins m k v) none = true := by
  rcases rising_none.1 h with rfl | ⟨k', v', t, rfl, h'⟩
  · rfl
  · simp only [mins]
    split
    · next hl => simpa [rising, risingFrom, hl] using h'
    · split
      · next e => subst e; simpa [rising, risingFrom] using h'
      · have : k' < k := by omega
        simpa [rising, risingFrom] using risingFrom_mins v h' this

theorem rising_mdel {m : SMap α} (k : Nat) (h : rising m none = true) : rising (mdel m k) none = true := by
  rcases rising_none.1 h with rfl | ⟨k', v', t, rfl, h'⟩
  · rfl
  · simp only [mdel]
    split
    · rcases hm : mdel t k with _ | ⟨e, u⟩
      · rfl
      · obtain ⟨a, b⟩ := e
        have := risingFrom_mdel k h'
        rw [hm] at this
        simp only [risingFrom, rising, Bool.and_eq_true] at this
        exact this.2
    · simpa [rising, risingFrom] using risingFrom_mdel k h'

theorem mem_mins {m : SMap α} {k : Nat} {v : α} {e : Nat × α} (h : e ∈ mins m k v) : e = (k, v) ∨ e ∈ m := by
  induction m with
  | nil => simpa [mins] using h
  | cons x t ih =>
    obtain ⟨k', v'⟩ := x
    simp only [mins] at h
    split at h
    · simpa using h
    · split at h
      · rcases List.mem_cons.1 h with h | h
        · exact .inl h
        · exact .inr (List.mem_cons_of_mem _ h)
      · rcases List.mem_cons.1 h with h | h
        · exact .inr (by simp [h])
        · exact (ih h).imp id (List.mem_cons_of_mem _)

theorem mem_mdel {m : SMap α} {k : Nat} {e : Nat × α} (h : e ∈ mdel m k) : e ∈ m := by
  induction m with
  | nil => exact h
  | cons x t ih =>
    obtain ⟨k', v'⟩ := x
    simp only [mdel] at h
    split at h
    · exact List.mem_cons_of_mem _ (ih h)
    · rcases List.mem_cons.1 h with h | h
      · simp [h]
      · exact List.mem_cons_of_mem _ (ih h)

variable [DecidableEq α]

theorem mwf_nil (d : α) : mwf ([] : SMap α) d = true := rfl

/-- A write keeps the canonical form. -/
theorem mwf_mput {m : SMap α} {d : α} (k : Nat) (v : α) (h : mwf m d = true) : mwf (mput m k v d) d = true := by
  simp only [mwf, Bool.and_eq_true, List.all_eq_true, decide_eq_true_eq] at *
  unfold mput
  split
  · exact ⟨rising_mdel k h.1, fun e he => h.2 e (mem_mdel he)⟩
  · next hv =>
    refine ⟨rising_mins v h.1, fun e he => ?_⟩
    rcases mem_mins he with rfl | he
    · exact hv
    · exact h.2 e he

/-- A removal keeps the canonical form. -/
theorem mwf_mdel {m : SMap α} {d : α} (k : Nat) (h : mwf m d = true) : mwf (mdel m k) d = true := by
  simp only [mwf, Bool.and_eq_true, List.all_eq_true, decide_eq_true_eq] at *
  exact ⟨rising_mdel k h.1, fun e he => h.2 e (mem_mdel he)⟩

/-! ## Byte memories -/

/-- A write of bytes keeps the canonical form. -/
theorem mwf_writeMem {m : List Host.Cell} {d : Byte} (a : Nat) (bs : List Byte) (h : mwf m d = true) :
    mwf (writeMem m d a bs) d = true := by
  induction bs generalizing m a with
  | nil => exact h
  | cons b t ih => exact ih (a + 1) (mwf_mput a b h)

/-- A write of bytes leaves every byte outside its range alone. -/
theorem mget_writeMem_other {m : List Host.Cell} {d : Byte} (a : Nat) (bs : List Byte) (c : Nat)
    (h : c < a ∨ a + bs.length ≤ c) : mget (writeMem m d a bs) c d = mget m c d := by
  induction bs generalizing m a with
  | nil => rfl
  | cons b t ih =>
    simp only [writeMem]
    rw [ih]
    · exact mget_mput_other m b d (by simp at h; omega)
    · simp at h; omega

/-- The byte at a place of the range just written. -/
theorem mget_writeMem_same {m : List Host.Cell} {d : Byte} (a : Nat) (bs : List Byte) (i : Nat)
    (h : i < bs.length) : mget (writeMem m d a bs) (a + i) d = bs.getD i d := by
  induction bs generalizing m a i with
  | nil => simp at h
  | cons b t ih =>
    simp only [writeMem]
    cases i with
    | zero =>
      rw [mget_writeMem_other (a + 1) t (a + 0) (by omega)]
      simp
    | succ i =>
      have := ih (m := mput m a b d) (a + 1) i (by simpa using h)
      rw [show a + (i + 1) = a + 1 + i by omega, this]
      simp

/-- A removal below or above a bound, as a filter by key, keeps the canonical form. -/
theorem mwf_filter {m : SMap α} {d : α} (f : Nat × α → Bool) (h : mwf m d = true) : mwf (m.filter f) d = true := by
  have key : ∀ (t : SMap α) (lo : Nat), risingFrom t lo = true → risingFrom (t.filter f) lo = true := by
    intro t
    induction t with
    | nil => intro _ _; rfl
    | cons e t ih =>
      obtain ⟨k, v⟩ := e
      intro lo h
      simp only [risingFrom, rising, Bool.and_eq_true, decide_eq_true_eq] at h
      simp only [List.filter]
      split
      · have := ih k h.2
        simp only [risingFrom] at this
        simp [risingFrom, rising, h.1, this]
      · exact ih lo (risingFrom_mono h.2 (by omega))
  simp only [mwf, Bool.and_eq_true, List.all_eq_true, decide_eq_true_eq] at *
  refine ⟨?_, fun e he => h.2 e (List.mem_filter.1 he).1⟩
  rcases rising_none.1 h.1 with rfl | ⟨k, v, t, rfl, h'⟩
  · rfl
  · simp only [List.filter]
    split
    · simpa [rising, risingFrom] using key t k h'
    · have := key t k h'
      rcases hm : t.filter f with _ | ⟨⟨a, b⟩, u⟩
      · rfl
      · rw [hm] at this
        simp only [risingFrom, rising, Bool.and_eq_true] at this
        exact this.2

end Sys2Proof.Machine
end

