-- ==== Sys2Proof/Laws/Regs.lean ====
section
/-! SUPPORT. Laws of register fields: a field just written reads as written, and a write leaves every other register
and every disjoint field of its own register alone. -/

namespace Sys2Proof

theorem natBits_testBit (n lo w i : Nat) : (natBits n lo w).testBit i = (decide (i < w) && n.testBit (lo + i)) := by
  simp [natBits, Nat.testBit_mod_two_pow, Nat.testBit_div_two_pow, Nat.add_comm]

theorem natBits_lt (n lo w : Nat) : natBits n lo w < 2 ^ w := Nat.mod_lt _ (Nat.two_pow_pos w)

theorem bits_lt (x : Word) (lo w : Nat) : bits x lo w < 2 ^ w := natBits_lt _ _ _

/-- A number is its bits above a field, the field, and its bits below. -/
theorem natBits_split (n lo w : Nat) :
    n = 2 ^ (lo + w) * (n / 2 ^ (lo + w)) + (natBits n lo w * 2 ^ lo + n % 2 ^ lo) := by
  have h1 := Nat.div_add_mod n (2 ^ lo)
  have h2 := Nat.div_add_mod (n / 2 ^ lo) (2 ^ w)
  rw [Nat.div_div_eq_div_mul, ← Nat.pow_add] at h2
  unfold natBits
  generalize n / 2 ^ lo % 2 ^ w = m at *
  generalize n / 2 ^ (lo + w) = a at *
  generalize n / 2 ^ lo = b at *
  generalize n % 2 ^ lo = r at *
  rw [Nat.pow_add]
  subst h2
  rw [← h1]
  rw [Nat.mul_add, Nat.mul_assoc, Nat.mul_comm m, Nat.add_assoc]

theorem setBits_nat (n lo w v : Nat) :
    n - natBits n lo w * 2 ^ lo + v % 2 ^ w * 2 ^ lo =
      2 ^ (lo + w) * (n / 2 ^ (lo + w)) + (v % 2 ^ w * 2 ^ lo + n % 2 ^ lo) := by
  have h := natBits_split n lo w
  generalize v % 2 ^ w * 2 ^ lo = a at *
  generalize natBits n lo w * 2 ^ lo = b at *
  generalize n % 2 ^ lo = c at *
  generalize 2 ^ (lo + w) * (n / 2 ^ (lo + w)) = d at *
  omega

theorem setBits_low (n lo w v : Nat) : v % 2 ^ w * 2 ^ lo + n % 2 ^ lo < 2 ^ (lo + w) := by
  have h1 := Nat.mod_lt v (Nat.two_pow_pos w)
  have h2 := Nat.mod_lt n (Nat.two_pow_pos lo)
  have h3 : (v % 2 ^ w + 1) * 2 ^ lo ≤ 2 ^ w * 2 ^ lo := Nat.mul_le_mul_right _ h1
  rw [Nat.pow_add, Nat.mul_comm (2 ^ lo)]
  rw [Nat.add_mul] at h3
  omega

theorem setBits_testBit (n lo w v i : Nat) :
    (n - natBits n lo w * 2 ^ lo + v % 2 ^ w * 2 ^ lo).testBit i =
      if lo ≤ i ∧ i < lo + w then v.testBit (i - lo) else n.testBit i := by
  rw [setBits_nat, Nat.testBit_two_pow_mul_add _ (setBits_low n lo w v), Nat.mul_comm (v % 2 ^ w),
    Nat.testBit_two_pow_mul_add _ (Nat.mod_lt n (Nat.two_pow_pos lo)), Nat.testBit_mod_two_pow,
    Nat.testBit_mod_two_pow, Nat.testBit_div_two_pow]
  by_cases h1 : i < lo + w
  · by_cases h2 : i < lo
    · simp [h1, h2, show ¬ lo ≤ i by omega]
    · simp [h1, h2, show lo ≤ i by omega, show i - lo < w by omega]
  · simp [h1, show i - (lo + w) + (lo + w) = i by omega]

theorem setBits_toNat (x : Word) (lo w v : Nat) (h : lo + w ≤ 32) :
    (setBits x lo w v).toNat = x.toNat - natBits x.toNat lo w * 2 ^ lo + v % 2 ^ w * 2 ^ lo := by
  rw [setBits, BitVec.toNat_ofNat]
  apply Nat.mod_eq_of_lt
  apply Nat.lt_pow_two_of_testBit
  intro i hi
  rw [setBits_testBit]
  have hx : x.toNat.testBit i = false := Nat.testBit_lt_two_pow (Nat.lt_of_lt_of_le x.isLt (Nat.pow_le_pow_right (by omega) hi))
  rw [if_neg (by omega), hx]

/-- The field just written reads as written. -/
theorem bits_setBits_same (x : Word) (lo w v : Nat) (h : lo + w ≤ 32) :
    bits (setBits x lo w v) lo w = v % 2 ^ w := by
  apply Nat.eq_of_testBit_eq
  intro i
  rw [bits, natBits_testBit, setBits_toNat x lo w v h, setBits_testBit, Nat.testBit_mod_two_pow]
  by_cases hi : i < w
  · simp [hi]
  · simp [hi]

/-- A write of one field leaves a disjoint field alone. -/
theorem bits_setBits_other (x : Word) (lo w v lo' w' : Nat) (h : lo + w ≤ 32)
    (hd : lo' + w' ≤ lo ∨ lo + w ≤ lo') : bits (setBits x lo w v) lo' w' = bits x lo' w' := by
  apply Nat.eq_of_testBit_eq
  intro i
  rw [bits, bits, natBits_testBit, natBits_testBit, setBits_toNat x lo w v h, setBits_testBit]
  by_cases hi : i < w'
  · rw [if_neg (by omega)]
  · simp [hi]

/-- Writing a field with what it holds changes nothing. -/
theorem setBits_self (x : Word) (lo w : Nat) : setBits x lo w (bits x lo w) = x := by
  apply BitVec.eq_of_toNat_eq
  rw [setBits, BitVec.toNat_ofNat, bits, Nat.mod_eq_of_lt (natBits_lt _ _ _)]
  have h := natBits_split x.toNat lo w
  have : x.toNat - natBits x.toNat lo w * 2 ^ lo + natBits x.toNat lo w * 2 ^ lo = x.toNat := by
    generalize natBits x.toNat lo w * 2 ^ lo = b at *
    omega
  rw [this, Nat.mod_eq_of_lt x.isLt]

namespace Machine

/-- Two fields share no bit: other registers, or other bits of one register. -/
def FRef.apart (f g : FRef) : Bool :=
  f.reg != g.reg || decide (g.lo + g.w ≤ f.lo) || decide (f.lo + f.w ≤ g.lo)

@[simp] theorem word_setWord_same (s : State) (a : Nat) (w : Word) : (s.setWord a w).word a = w := by
  simp [State.word, State.setWord]

theorem word_setWord_other (s : State) {a c : Nat} (w : Word) (h : c ≠ a) : (s.setWord a w).word c = s.word c := by
  unfold State.word State.setWord
  exact mget_regs_other s w h
where
  mget_regs_other (s : State) {a c : Nat} (w : Word) (h : c ≠ a) :
      mget (mput s.regs a w (resetWord a)) c (resetWord c) = mget s.regs c (resetWord c) := by
    unfold mget mput
    split
    · rw [mfind_mdel_other s.regs h]
    · rw [mfind_mins_other s.regs w h]

/-- A register just written reads as written. -/
theorem get_put_same (s : State) (f : FRef) (v : Nat) (h : f.lo + f.w ≤ 32) : (s.put f v).get f = v % 2 ^ f.w := by
  simp [State.get, State.put, bits_setBits_same _ _ _ _ h]

/-- A field just written with a value that fits reads as written. -/
theorem get_put_fit (s : State) (f : FRef) (v : Nat) (h : f.lo + f.w ≤ 32) (hv : v < 2 ^ f.w) :
    (s.put f v).get f = v := by rw [get_put_same s f v h, Nat.mod_eq_of_lt hv]

/-- A write of a field leaves a field apart from it alone. -/
theorem get_put_apart (s : State) (f g : FRef) (v : Nat) (h : f.lo + f.w ≤ 32) (hd : FRef.apart f g = true) :
    (s.put f v).get g = s.get g := by
  unfold State.get State.put
  by_cases e : g.reg = f.reg
  · rw [e, word_setWord_same]
    refine bits_setBits_other _ _ _ _ _ _ h ?_
    simp only [FRef.apart, e, Bool.or_eq_true, decide_eq_true_eq, bne_self_eq_false, Bool.false_eq_true, false_or] at hd
    omega
  · rw [word_setWord_other s _ e]

theorem get_lt (s : State) (f : FRef) : s.get f < 2 ^ f.w := bits_lt _ _ _

/-- A write of a field with what it holds leaves every register as it reads. -/
theorem word_put_self (s : State) (f : FRef) (a : Nat) : (s.put f (s.get f)).word a = s.word a := by
  unfold State.put State.get
  by_cases e : a = f.reg
  · rw [e, word_setWord_same, setBits_self]
  · rw [word_setWord_other s _ e]

end Machine

end Sys2Proof
end

