-- ==== Sys2Proof/Laws/State.lean ====
section
/-! SUPPORT. What each update of the state leaves alone: one lemma for each field and each update, true by definition,
so that no proof unfolds a record update; and what each accessor reads after its own update. -/

namespace Sys2Proof.Machine

variable (s : State)

/-! ## setWord -/

@[simp] theorem State.setWord_power (a : Nat) (w : Word) : (s.setWord a w).power = s.power := rfl
@[simp] theorem State.setWord_clk (a : Nat) (w : Word) : (s.setWord a w).clk = s.clk := rfl
@[simp] theorem State.setWord_member (a : Nat) (w : Word) : (s.setWord a w).member = s.member := rfl
@[simp] theorem State.setWord_side (a : Nat) (w : Word) : (s.setWord a w).side = s.side := rfl
@[simp] theorem State.setWord_supOut (a : Nat) (w : Word) : (s.setWord a w).supOut = s.supOut := rfl
@[simp] theorem State.setWord_arbActive (a : Nat) (w : Word) : (s.setWord a w).arbActive = s.arbActive := rfl
@[simp] theorem State.setWord_latches (a : Nat) (w : Word) : (s.setWord a w).latches = s.latches := rfl
@[simp] theorem State.setWord_timers (a : Nat) (w : Word) : (s.setWord a w).timers = s.timers := rfl
@[simp] theorem State.setWord_tb (a : Nat) (w : Word) : (s.setWord a w).tb = s.tb := rfl
@[simp] theorem State.setWord_tbSlew (a : Nat) (w : Word) : (s.setWord a w).tbSlew = s.tbSlew := rfl
@[simp] theorem State.setWord_tbHold (a : Nat) (w : Word) : (s.setWord a w).tbHold = s.tbHold := rfl
@[simp] theorem State.setWord_disc (a : Nat) (w : Word) : (s.setWord a w).disc = s.disc := rfl
@[simp] theorem State.setWord_out (a : Nat) (w : Word) : (s.setWord a w).out = s.out := rfl
@[simp] theorem State.setWord_ports (a : Nat) (w : Word) : (s.setWord a w).ports = s.ports := rfl
@[simp] theorem State.setWord_links (a : Nat) (w : Word) : (s.setWord a w).links = s.links := rfl
@[simp] theorem State.setWord_lanes (a : Nat) (w : Word) : (s.setWord a w).lanes = s.lanes := rfl
@[simp] theorem State.setWord_records (a : Nat) (w : Word) : (s.setWord a w).records = s.records := rfl
@[simp] theorem State.setWord_discords (a : Nat) (w : Word) : (s.setWord a w).discords = s.discords := rfl
@[simp] theorem State.setWord_synced (a : Nat) (w : Word) : (s.setWord a w).synced = s.synced := rfl
@[simp] theorem State.setWord_noQuorum (a : Nat) (w : Word) : (s.setWord a w).noQuorum = s.noQuorum := rfl
@[simp] theorem State.setWord_recsOut (a : Nat) (w : Word) : (s.setWord a w).recsOut = s.recsOut := rfl
@[simp] theorem State.setWord_slotsOut (a : Nat) (w : Word) : (s.setWord a w).slotsOut = s.slotsOut := rfl
@[simp] theorem State.setWord_ahead (a : Nat) (w : Word) : (s.setWord a w).ahead = s.ahead := rfl
@[simp] theorem State.setWord_advances (a : Nat) (w : Word) : (s.setWord a w).advances = s.advances := rfl
@[simp] theorem State.setWord_retention (a : Nat) (w : Word) : (s.setWord a w).retention = s.retention := rfl
@[simp] theorem State.setWord_execs (a : Nat) (w : Word) : (s.setWord a w).execs = s.execs := rfl
@[simp] theorem State.setWord_order (a : Nat) (w : Word) : (s.setWord a w).order = s.order := rfl
@[simp] theorem State.setWord_segs (a : Nat) (w : Word) : (s.setWord a w).segs = s.segs := rfl
@[simp] theorem State.setWord_locks (a : Nat) (w : Word) : (s.setWord a w).locks = s.locks := rfl
@[simp] theorem State.setWord_arbs (a : Nat) (w : Word) : (s.setWord a w).arbs = s.arbs := rfl
@[simp] theorem State.setWord_queues (a : Nat) (w : Word) : (s.setWord a w).queues = s.queues := rfl
@[simp] theorem State.setWord_qram (a : Nat) (w : Word) : (s.setWord a w).qram = s.qram := rfl
@[simp] theorem State.setWord_ledger (a : Nat) (w : Word) : (s.setWord a w).ledger = s.ledger := rfl
@[simp] theorem State.setWord_ledgerBad (a : Nat) (w : Word) : (s.setWord a w).ledgerBad = s.ledgerBad := rfl
@[simp] theorem State.setWord_images (a : Nat) (w : Word) : (s.setWord a w).images = s.images := rfl
@[simp] theorem State.setWord_span (a : Nat) (w : Word) : (s.setWord a w).span = s.span := rfl
@[simp] theorem State.setWord_bridgeWait (a : Nat) (w : Word) : (s.setWord a w).bridgeWait = s.bridgeWait := rfl
@[simp] theorem State.setWord_history (a : Nat) (w : Word) : (s.setWord a w).history = s.history := rfl
@[simp] theorem State.setWord_merges (a : Nat) (w : Word) : (s.setWord a w).merges = s.merges := rfl
@[simp] theorem State.setWord_heldNotices (a : Nat) (w : Word) : (s.setWord a w).heldNotices = s.heldNotices := rfl
@[simp] theorem State.setWord_tests (a : Nat) (w : Word) : (s.setWord a w).tests = s.tests := rfl
@[simp] theorem State.setWord_active (a : Nat) (w : Word) : (s.setWord a w).active = s.active := rfl
@[simp] theorem State.setWord_errAt (a : Nat) (w : Word) : (s.setWord a w).errAt = s.errAt := rfl
@[simp] theorem State.setWord_transients (a : Nat) (w : Word) : (s.setWord a w).transients = s.transients := rfl
@[simp] theorem State.setWord_replaced (a : Nat) (w : Word) : (s.setWord a w).replaced = s.replaced := rfl
@[simp] theorem State.setWord_spareUsed (a : Nat) (w : Word) : (s.setWord a w).spareUsed = s.spareUsed := rfl
@[simp] theorem State.setWord_compat (a : Nat) (w : Word) : (s.setWord a w).compat = s.compat := rfl
@[simp] theorem State.setWord_archs (a : Nat) (w : Word) : (s.setWord a w).archs = s.archs := rfl
@[simp] theorem State.setWord_busNs (a : Nat) (w : Word) : (s.setWord a w).busNs = s.busNs := rfl
@[simp] theorem State.setWord_imem (a : Nat) (w : Word) : (s.setWord a w).imem = s.imem := rfl
@[simp] theorem State.setWord_dmem (a : Nat) (w : Word) : (s.setWord a w).dmem = s.dmem := rfl
@[simp] theorem State.setWord_dmemBad (a : Nat) (w : Word) : (s.setWord a w).dmemBad = s.dmemBad := rfl
@[simp] theorem State.setWord_imemBad (a : Nat) (w : Word) : (s.setWord a w).imemBad = s.imemBad := rfl
@[simp] theorem State.setWord_trace (a : Nat) (w : Word) : (s.setWord a w).trace = s.trace := rfl
@[simp] theorem State.setWord_traceNum (a : Nat) (w : Word) : (s.setWord a w).traceNum = s.traceNum := rfl
@[simp] theorem State.setWord_tracePost (a : Nat) (w : Word) : (s.setWord a w).tracePost = s.tracePost := rfl
@[simp] theorem State.setWord_traceAt (a : Nat) (w : Word) : (s.setWord a w).traceAt = s.traceAt := rfl
@[simp] theorem State.setWord_restarts (a : Nat) (w : Word) : (s.setWord a w).restarts = s.restarts := rfl
@[simp] theorem State.setWord_commitRuns (a : Nat) (w : Word) : (s.setWord a w).commitRuns = s.commitRuns := rfl
@[simp] theorem State.setWord_migrating (a : Nat) (w : Word) : (s.setWord a w).migrating = s.migrating := rfl
@[simp] theorem State.setWord_heldTokens (a : Nat) (w : Word) : (s.setWord a w).heldTokens = s.heldTokens := rfl
@[simp] theorem State.setWord_courSlots (a : Nat) (w : Word) : (s.setWord a w).courSlots = s.courSlots := rfl
@[simp] theorem State.setWord_chains (a : Nat) (w : Word) : (s.setWord a w).chains = s.chains := rfl
@[simp] theorem State.setWord_sched (a : Nat) (w : Word) : (s.setWord a w).sched = s.sched := rfl
@[simp] theorem State.setWord_lastGasp (a : Nat) (w : Word) : (s.setWord a w).lastGasp = s.lastGasp := rfl
@[simp] theorem State.setWord_dirtySince (a : Nat) (w : Word) : (s.setWord a w).dirtySince = s.dirtySince := rfl
@[simp] theorem State.setWord_otp (a : Nat) (w : Word) : (s.setWord a w).otp = s.otp := rfl
@[simp] theorem State.setWord_lifecycle (a : Nat) (w : Word) : (s.setWord a w).lifecycle = s.lifecycle := rfl
@[simp] theorem State.setWord_fusing (a : Nat) (w : Word) : (s.setWord a w).fusing = s.fusing := rfl
@[simp] theorem State.setWord_flash (a : Nat) (w : Word) : (s.setWord a w).flash = s.flash := rfl
@[simp] theorem State.setWord_dirs (a : Nat) (w : Word) : (s.setWord a w).dirs = s.dirs := rfl
@[simp] theorem State.setWord_bootCmd (a : Nat) (w : Word) : (s.setWord a w).bootCmd = s.bootCmd := rfl
@[simp] theorem State.setWord_boot (a : Nat) (w : Word) : (s.setWord a w).boot = s.boot := rfl
@[simp] theorem State.setWord_tap (a : Nat) (w : Word) : (s.setWord a w).tap = s.tap := rfl
@[simp] theorem State.setWord_freezeHigh (a : Nat) (w : Word) : (s.setWord a w).freezeHigh = s.freezeHigh := rfl
@[simp] theorem State.setWord_xspiLow (a : Nat) (w : Word) : (s.setWord a w).xspiLow = s.xspiLow := rfl
@[simp] theorem State.setWord_pllSaid (a : Nat) (w : Word) : (s.setWord a w).pllSaid = s.pllSaid := rfl
@[simp] theorem State.setWord_nextFree (a : Nat) (w : Word) : (s.setWord a w).nextFree = s.nextFree := rfl
@[simp] theorem State.setWord_pending (a : Nat) (w : Word) : (s.setWord a w).pending = s.pending := rfl
@[simp] theorem State.setWord_port (a : Nat) (w : Word) (k : Nat) : (s.setWord a w).port k = s.port k := rfl
@[simp] theorem State.setWord_link (a : Nat) (w : Word) (k : Nat) : (s.setWord a w).link k = s.link k := rfl
@[simp] theorem State.setWord_seg (a : Nat) (w : Word) (k : Nat) : (s.setWord a w).seg k = s.seg k := rfl
@[simp] theorem State.setWord_arb (a : Nat) (w : Word) (k : Nat) : (s.setWord a w).arb k = s.arb k := rfl
@[simp] theorem State.setWord_queue (a : Nat) (w : Word) (k : Nat) : (s.setWord a w).queue k = s.queue k := rfl
@[simp] theorem State.setWord_arch (a : Nat) (w : Word) (k : Nat) : (s.setWord a w).arch k = s.arch k := rfl

/-! ## put -/

@[simp] theorem State.put_power (f : FRef) (v : Nat) : (s.put f v).power = s.power := rfl
@[simp] theorem State.put_clk (f : FRef) (v : Nat) : (s.put f v).clk = s.clk := rfl
@[simp] theorem State.put_member (f : FRef) (v : Nat) : (s.put f v).member = s.member := rfl
@[simp] theorem State.put_side (f : FRef) (v : Nat) : (s.put f v).side = s.side := rfl
@[simp] theorem State.put_supOut (f : FRef) (v : Nat) : (s.put f v).supOut = s.supOut := rfl
@[simp] theorem State.put_arbActive (f : FRef) (v : Nat) : (s.put f v).arbActive = s.arbActive := rfl
@[simp] theorem State.put_latches (f : FRef) (v : Nat) : (s.put f v).latches = s.latches := rfl
@[simp] theorem State.put_timers (f : FRef) (v : Nat) : (s.put f v).timers = s.timers := rfl
@[simp] theorem State.put_tb (f : FRef) (v : Nat) : (s.put f v).tb = s.tb := rfl
@[simp] theorem State.put_tbSlew (f : FRef) (v : Nat) : (s.put f v).tbSlew = s.tbSlew := rfl
@[simp] theorem State.put_tbHold (f : FRef) (v : Nat) : (s.put f v).tbHold = s.tbHold := rfl
@[simp] theorem State.put_disc (f : FRef) (v : Nat) : (s.put f v).disc = s.disc := rfl
@[simp] theorem State.put_out (f : FRef) (v : Nat) : (s.put f v).out = s.out := rfl
@[simp] theorem State.put_ports (f : FRef) (v : Nat) : (s.put f v).ports = s.ports := rfl
@[simp] theorem State.put_links (f : FRef) (v : Nat) : (s.put f v).links = s.links := rfl
@[simp] theorem State.put_lanes (f : FRef) (v : Nat) : (s.put f v).lanes = s.lanes := rfl
@[simp] theorem State.put_records (f : FRef) (v : Nat) : (s.put f v).records = s.records := rfl
@[simp] theorem State.put_discords (f : FRef) (v : Nat) : (s.put f v).discords = s.discords := rfl
@[simp] theorem State.put_synced (f : FRef) (v : Nat) : (s.put f v).synced = s.synced := rfl
@[simp] theorem State.put_noQuorum (f : FRef) (v : Nat) : (s.put f v).noQuorum = s.noQuorum := rfl
@[simp] theorem State.put_recsOut (f : FRef) (v : Nat) : (s.put f v).recsOut = s.recsOut := rfl
@[simp] theorem State.put_slotsOut (f : FRef) (v : Nat) : (s.put f v).slotsOut = s.slotsOut := rfl
@[simp] theorem State.put_ahead (f : FRef) (v : Nat) : (s.put f v).ahead = s.ahead := rfl
@[simp] theorem State.put_advances (f : FRef) (v : Nat) : (s.put f v).advances = s.advances := rfl
@[simp] theorem State.put_retention (f : FRef) (v : Nat) : (s.put f v).retention = s.retention := rfl
@[simp] theorem State.put_execs (f : FRef) (v : Nat) : (s.put f v).execs = s.execs := rfl
@[simp] theorem State.put_order (f : FRef) (v : Nat) : (s.put f v).order = s.order := rfl
@[simp] theorem State.put_segs (f : FRef) (v : Nat) : (s.put f v).segs = s.segs := rfl
@[simp] theorem State.put_locks (f : FRef) (v : Nat) : (s.put f v).locks = s.locks := rfl
@[simp] theorem State.put_arbs (f : FRef) (v : Nat) : (s.put f v).arbs = s.arbs := rfl
@[simp] theorem State.put_queues (f : FRef) (v : Nat) : (s.put f v).queues = s.queues := rfl
@[simp] theorem State.put_qram (f : FRef) (v : Nat) : (s.put f v).qram = s.qram := rfl
@[simp] theorem State.put_ledger (f : FRef) (v : Nat) : (s.put f v).ledger = s.ledger := rfl
@[simp] theorem State.put_ledgerBad (f : FRef) (v : Nat) : (s.put f v).ledgerBad = s.ledgerBad := rfl
@[simp] theorem State.put_images (f : FRef) (v : Nat) : (s.put f v).images = s.images := rfl
@[simp] theorem State.put_span (f : FRef) (v : Nat) : (s.put f v).span = s.span := rfl
@[simp] theorem State.put_bridgeWait (f : FRef) (v : Nat) : (s.put f v).bridgeWait = s.bridgeWait := rfl
@[simp] theorem State.put_history (f : FRef) (v : Nat) : (s.put f v).history = s.history := rfl
@[simp] theorem State.put_merges (f : FRef) (v : Nat) : (s.put f v).merges = s.merges := rfl
@[simp] theorem State.put_heldNotices (f : FRef) (v : Nat) : (s.put f v).heldNotices = s.heldNotices := rfl
@[simp] theorem State.put_tests (f : FRef) (v : Nat) : (s.put f v).tests = s.tests := rfl
@[simp] theorem State.put_active (f : FRef) (v : Nat) : (s.put f v).active = s.active := rfl
@[simp] theorem State.put_errAt (f : FRef) (v : Nat) : (s.put f v).errAt = s.errAt := rfl
@[simp] theorem State.put_transients (f : FRef) (v : Nat) : (s.put f v).transients = s.transients := rfl
@[simp] theorem State.put_replaced (f : FRef) (v : Nat) : (s.put f v).replaced = s.replaced := rfl
@[simp] theorem State.put_spareUsed (f : FRef) (v : Nat) : (s.put f v).spareUsed = s.spareUsed := rfl
@[simp] theorem State.put_compat (f : FRef) (v : Nat) : (s.put f v).compat = s.compat := rfl
@[simp] theorem State.put_archs (f : FRef) (v : Nat) : (s.put f v).archs = s.archs := rfl
@[simp] theorem State.put_busNs (f : FRef) (v : Nat) : (s.put f v).busNs = s.busNs := rfl
@[simp] theorem State.put_imem (f : FRef) (v : Nat) : (s.put f v).imem = s.imem := rfl
@[simp] theorem State.put_dmem (f : FRef) (v : Nat) : (s.put f v).dmem = s.dmem := rfl
@[simp] theorem State.put_dmemBad (f : FRef) (v : Nat) : (s.put f v).dmemBad = s.dmemBad := rfl
@[simp] theorem State.put_imemBad (f : FRef) (v : Nat) : (s.put f v).imemBad = s.imemBad := rfl
@[simp] theorem State.put_trace (f : FRef) (v : Nat) : (s.put f v).trace = s.trace := rfl
@[simp] theorem State.put_traceNum (f : FRef) (v : Nat) : (s.put f v).traceNum = s.traceNum := rfl
@[simp] theorem State.put_tracePost (f : FRef) (v : Nat) : (s.put f v).tracePost = s.tracePost := rfl
@[simp] theorem State.put_traceAt (f : FRef) (v : Nat) : (s.put f v).traceAt = s.traceAt := rfl
@[simp] theorem State.put_restarts (f : FRef) (v : Nat) : (s.put f v).restarts = s.restarts := rfl
@[simp] theorem State.put_commitRuns (f : FRef) (v : Nat) : (s.put f v).commitRuns = s.commitRuns := rfl
@[simp] theorem State.put_migrating (f : FRef) (v : Nat) : (s.put f v).migrating = s.migrating := rfl
@[simp] theorem State.put_heldTokens (f : FRef) (v : Nat) : (s.put f v).heldTokens = s.heldTokens := rfl
@[simp] theorem State.put_courSlots (f : FRef) (v : Nat) : (s.put f v).courSlots = s.courSlots := rfl
@[simp] theorem State.put_chains (f : FRef) (v : Nat) : (s.put f v).chains = s.chains := rfl
@[simp] theorem State.put_sched (f : FRef) (v : Nat) : (s.put f v).sched = s.sched := rfl
@[simp] theorem State.put_lastGasp (f : FRef) (v : Nat) : (s.put f v).lastGasp = s.lastGasp := rfl
@[simp] theorem State.put_dirtySince (f : FRef) (v : Nat) : (s.put f v).dirtySince = s.dirtySince := rfl
@[simp] theorem State.put_otp (f : FRef) (v : Nat) : (s.put f v).otp = s.otp := rfl
@[simp] theorem State.put_lifecycle (f : FRef) (v : Nat) : (s.put f v).lifecycle = s.lifecycle := rfl
@[simp] theorem State.put_fusing (f : FRef) (v : Nat) : (s.put f v).fusing = s.fusing := rfl
@[simp] theorem State.put_flash (f : FRef) (v : Nat) : (s.put f v).flash = s.flash := rfl
@[simp] theorem State.put_dirs (f : FRef) (v : Nat) : (s.put f v).dirs = s.dirs := rfl
@[simp] theorem State.put_bootCmd (f : FRef) (v : Nat) : (s.put f v).bootCmd = s.bootCmd := rfl
@[simp] theorem State.put_boot (f : FRef) (v : Nat) : (s.put f v).boot = s.boot := rfl
@[simp] theorem State.put_tap (f : FRef) (v : Nat) : (s.put f v).tap = s.tap := rfl
@[simp] theorem State.put_freezeHigh (f : FRef) (v : Nat) : (s.put f v).freezeHigh = s.freezeHigh := rfl
@[simp] theorem State.put_xspiLow (f : FRef) (v : Nat) : (s.put f v).xspiLow = s.xspiLow := rfl
@[simp] theorem State.put_pllSaid (f : FRef) (v : Nat) : (s.put f v).pllSaid = s.pllSaid := rfl
@[simp] theorem State.put_nextFree (f : FRef) (v : Nat) : (s.put f v).nextFree = s.nextFree := rfl
@[simp] theorem State.put_pending (f : FRef) (v : Nat) : (s.put f v).pending = s.pending := rfl
@[simp] theorem State.put_port (f : FRef) (v : Nat) (k : Nat) : (s.put f v).port k = s.port k := rfl
@[simp] theorem State.put_link (f : FRef) (v : Nat) (k : Nat) : (s.put f v).link k = s.link k := rfl
@[simp] theorem State.put_seg (f : FRef) (v : Nat) (k : Nat) : (s.put f v).seg k = s.seg k := rfl
@[simp] theorem State.put_arb (f : FRef) (v : Nat) (k : Nat) : (s.put f v).arb k = s.arb k := rfl
@[simp] theorem State.put_queue (f : FRef) (v : Nat) (k : Nat) : (s.put f v).queue k = s.queue k := rfl
@[simp] theorem State.put_arch (f : FRef) (v : Nat) (k : Nat) : (s.put f v).arch k = s.arch k := rfl

/-! ## bumpBy -/

@[simp] theorem State.bumpBy_power (f : FRef) (k : Nat) : (s.bumpBy f k).power = s.power := rfl
@[simp] theorem State.bumpBy_clk (f : FRef) (k : Nat) : (s.bumpBy f k).clk = s.clk := rfl
@[simp] theorem State.bumpBy_member (f : FRef) (k : Nat) : (s.bumpBy f k).member = s.member := rfl
@[simp] theorem State.bumpBy_side (f : FRef) (k : Nat) : (s.bumpBy f k).side = s.side := rfl
@[simp] theorem State.bumpBy_supOut (f : FRef) (k : Nat) : (s.bumpBy f k).supOut = s.supOut := rfl
@[simp] theorem State.bumpBy_arbActive (f : FRef) (k : Nat) : (s.bumpBy f k).arbActive = s.arbActive := rfl
@[simp] theorem State.bumpBy_latches (f : FRef) (k : Nat) : (s.bumpBy f k).latches = s.latches := rfl
@[simp] theorem State.bumpBy_timers (f : FRef) (k : Nat) : (s.bumpBy f k).timers = s.timers := rfl
@[simp] theorem State.bumpBy_tb (f : FRef) (k : Nat) : (s.bumpBy f k).tb = s.tb := rfl
@[simp] theorem State.bumpBy_tbSlew (f : FRef) (k : Nat) : (s.bumpBy f k).tbSlew = s.tbSlew := rfl
@[simp] theorem State.bumpBy_tbHold (f : FRef) (k : Nat) : (s.bumpBy f k).tbHold = s.tbHold := rfl
@[simp] theorem State.bumpBy_disc (f : FRef) (k : Nat) : (s.bumpBy f k).disc = s.disc := rfl
@[simp] theorem State.bumpBy_out (f : FRef) (k : Nat) : (s.bumpBy f k).out = s.out := rfl
@[simp] theorem State.bumpBy_ports (f : FRef) (k : Nat) : (s.bumpBy f k).ports = s.ports := rfl
@[simp] theorem State.bumpBy_links (f : FRef) (k : Nat) : (s.bumpBy f k).links = s.links := rfl
@[simp] theorem State.bumpBy_lanes (f : FRef) (k : Nat) : (s.bumpBy f k).lanes = s.lanes := rfl
@[simp] theorem State.bumpBy_records (f : FRef) (k : Nat) : (s.bumpBy f k).records = s.records := rfl
@[simp] theorem State.bumpBy_discords (f : FRef) (k : Nat) : (s.bumpBy f k).discords = s.discords := rfl
@[simp] theorem State.bumpBy_synced (f : FRef) (k : Nat) : (s.bumpBy f k).synced = s.synced := rfl
@[simp] theorem State.bumpBy_noQuorum (f : FRef) (k : Nat) : (s.bumpBy f k).noQuorum = s.noQuorum := rfl
@[simp] theorem State.bumpBy_recsOut (f : FRef) (k : Nat) : (s.bumpBy f k).recsOut = s.recsOut := rfl
@[simp] theorem State.bumpBy_slotsOut (f : FRef) (k : Nat) : (s.bumpBy f k).slotsOut = s.slotsOut := rfl
@[simp] theorem State.bumpBy_ahead (f : FRef) (k : Nat) : (s.bumpBy f k).ahead = s.ahead := rfl
@[simp] theorem State.bumpBy_advances (f : FRef) (k : Nat) : (s.bumpBy f k).advances = s.advances := rfl
@[simp] theorem State.bumpBy_retention (f : FRef) (k : Nat) : (s.bumpBy f k).retention = s.retention := rfl
@[simp] theorem State.bumpBy_execs (f : FRef) (k : Nat) : (s.bumpBy f k).execs = s.execs := rfl
@[simp] theorem State.bumpBy_order (f : FRef) (k : Nat) : (s.bumpBy f k).order = s.order := rfl
@[simp] theorem State.bumpBy_segs (f : FRef) (k : Nat) : (s.bumpBy f k).segs = s.segs := rfl
@[simp] theorem State.bumpBy_locks (f : FRef) (k : Nat) : (s.bumpBy f k).locks = s.locks := rfl
@[simp] theorem State.bumpBy_arbs (f : FRef) (k : Nat) : (s.bumpBy f k).arbs = s.arbs := rfl
@[simp] theorem State.bumpBy_queues (f : FRef) (k : Nat) : (s.bumpBy f k).queues = s.queues := rfl
@[simp] theorem State.bumpBy_qram (f : FRef) (k : Nat) : (s.bumpBy f k).qram = s.qram := rfl
@[simp] theorem State.bumpBy_ledger (f : FRef) (k : Nat) : (s.bumpBy f k).ledger = s.ledger := rfl
@[simp] theorem State.bumpBy_ledgerBad (f : FRef) (k : Nat) : (s.bumpBy f k).ledgerBad = s.ledgerBad := rfl
@[simp] theorem State.bumpBy_images (f : FRef) (k : Nat) : (s.bumpBy f k).images = s.images := rfl
@[simp] theorem State.bumpBy_span (f : FRef) (k : Nat) : (s.bumpBy f k).span = s.span := rfl
@[simp] theorem State.bumpBy_bridgeWait (f : FRef) (k : Nat) : (s.bumpBy f k).bridgeWait = s.bridgeWait := rfl
@[simp] theorem State.bumpBy_history (f : FRef) (k : Nat) : (s.bumpBy f k).history = s.history := rfl
@[simp] theorem State.bumpBy_merges (f : FRef) (k : Nat) : (s.bumpBy f k).merges = s.merges := rfl
@[simp] theorem State.bumpBy_heldNotices (f : FRef) (k : Nat) : (s.bumpBy f k).heldNotices = s.heldNotices := rfl
@[simp] theorem State.bumpBy_tests (f : FRef) (k : Nat) : (s.bumpBy f k).tests = s.tests := rfl
@[simp] theorem State.bumpBy_active (f : FRef) (k : Nat) : (s.bumpBy f k).active = s.active := rfl
@[simp] theorem State.bumpBy_errAt (f : FRef) (k : Nat) : (s.bumpBy f k).errAt = s.errAt := rfl
@[simp] theorem State.bumpBy_transients (f : FRef) (k : Nat) : (s.bumpBy f k).transients = s.transients := rfl
@[simp] theorem State.bumpBy_replaced (f : FRef) (k : Nat) : (s.bumpBy f k).replaced = s.replaced := rfl
@[simp] theorem State.bumpBy_spareUsed (f : FRef) (k : Nat) : (s.bumpBy f k).spareUsed = s.spareUsed := rfl
@[simp] theorem State.bumpBy_compat (f : FRef) (k : Nat) : (s.bumpBy f k).compat = s.compat := rfl
@[simp] theorem State.bumpBy_archs (f : FRef) (k : Nat) : (s.bumpBy f k).archs = s.archs := rfl
@[simp] theorem State.bumpBy_busNs (f : FRef) (k : Nat) : (s.bumpBy f k).busNs = s.busNs := rfl
@[simp] theorem State.bumpBy_imem (f : FRef) (k : Nat) : (s.bumpBy f k).imem = s.imem := rfl
@[simp] theorem State.bumpBy_dmem (f : FRef) (k : Nat) : (s.bumpBy f k).dmem = s.dmem := rfl
@[simp] theorem State.bumpBy_dmemBad (f : FRef) (k : Nat) : (s.bumpBy f k).dmemBad = s.dmemBad := rfl
@[simp] theorem State.bumpBy_imemBad (f : FRef) (k : Nat) : (s.bumpBy f k).imemBad = s.imemBad := rfl
@[simp] theorem State.bumpBy_trace (f : FRef) (k : Nat) : (s.bumpBy f k).trace = s.trace := rfl
@[simp] theorem State.bumpBy_traceNum (f : FRef) (k : Nat) : (s.bumpBy f k).traceNum = s.traceNum := rfl
@[simp] theorem State.bumpBy_tracePost (f : FRef) (k : Nat) : (s.bumpBy f k).tracePost = s.tracePost := rfl
@[simp] theorem State.bumpBy_traceAt (f : FRef) (k : Nat) : (s.bumpBy f k).traceAt = s.traceAt := rfl
@[simp] theorem State.bumpBy_restarts (f : FRef) (k : Nat) : (s.bumpBy f k).restarts = s.restarts := rfl
@[simp] theorem State.bumpBy_commitRuns (f : FRef) (k : Nat) : (s.bumpBy f k).commitRuns = s.commitRuns := rfl
@[simp] theorem State.bumpBy_migrating (f : FRef) (k : Nat) : (s.bumpBy f k).migrating = s.migrating := rfl
@[simp] theorem State.bumpBy_heldTokens (f : FRef) (k : Nat) : (s.bumpBy f k).heldTokens = s.heldTokens := rfl
@[simp] theorem State.bumpBy_courSlots (f : FRef) (k : Nat) : (s.bumpBy f k).courSlots = s.courSlots := rfl
@[simp] theorem State.bumpBy_chains (f : FRef) (k : Nat) : (s.bumpBy f k).chains = s.chains := rfl
@[simp] theorem State.bumpBy_sched (f : FRef) (k : Nat) : (s.bumpBy f k).sched = s.sched := rfl
@[simp] theorem State.bumpBy_lastGasp (f : FRef) (k : Nat) : (s.bumpBy f k).lastGasp = s.lastGasp := rfl
@[simp] theorem State.bumpBy_dirtySince (f : FRef) (k : Nat) : (s.bumpBy f k).dirtySince = s.dirtySince := rfl
@[simp] theorem State.bumpBy_otp (f : FRef) (k : Nat) : (s.bumpBy f k).otp = s.otp := rfl
@[simp] theorem State.bumpBy_lifecycle (f : FRef) (k : Nat) : (s.bumpBy f k).lifecycle = s.lifecycle := rfl
@[simp] theorem State.bumpBy_fusing (f : FRef) (k : Nat) : (s.bumpBy f k).fusing = s.fusing := rfl
@[simp] theorem State.bumpBy_flash (f : FRef) (k : Nat) : (s.bumpBy f k).flash = s.flash := rfl
@[simp] theorem State.bumpBy_dirs (f : FRef) (k : Nat) : (s.bumpBy f k).dirs = s.dirs := rfl
@[simp] theorem State.bumpBy_bootCmd (f : FRef) (k : Nat) : (s.bumpBy f k).bootCmd = s.bootCmd := rfl
@[simp] theorem State.bumpBy_boot (f : FRef) (k : Nat) : (s.bumpBy f k).boot = s.boot := rfl
@[simp] theorem State.bumpBy_tap (f : FRef) (k : Nat) : (s.bumpBy f k).tap = s.tap := rfl
@[simp] theorem State.bumpBy_freezeHigh (f : FRef) (k : Nat) : (s.bumpBy f k).freezeHigh = s.freezeHigh := rfl
@[simp] theorem State.bumpBy_xspiLow (f : FRef) (k : Nat) : (s.bumpBy f k).xspiLow = s.xspiLow := rfl
@[simp] theorem State.bumpBy_pllSaid (f : FRef) (k : Nat) : (s.bumpBy f k).pllSaid = s.pllSaid := rfl
@[simp] theorem State.bumpBy_nextFree (f : FRef) (k : Nat) : (s.bumpBy f k).nextFree = s.nextFree := rfl
@[simp] theorem State.bumpBy_pending (f : FRef) (k : Nat) : (s.bumpBy f k).pending = s.pending := rfl
@[simp] theorem State.bumpBy_port (f : FRef) (j : Nat) (k : Nat) : (s.bumpBy f j).port k = s.port k := rfl
@[simp] theorem State.bumpBy_link (f : FRef) (j : Nat) (k : Nat) : (s.bumpBy f j).link k = s.link k := rfl
@[simp] theorem State.bumpBy_seg (f : FRef) (j : Nat) (k : Nat) : (s.bumpBy f j).seg k = s.seg k := rfl
@[simp] theorem State.bumpBy_arb (f : FRef) (j : Nat) (k : Nat) : (s.bumpBy f j).arb k = s.arb k := rfl
@[simp] theorem State.bumpBy_queue (f : FRef) (j : Nat) (k : Nat) : (s.bumpBy f j).queue k = s.queue k := rfl
@[simp] theorem State.bumpBy_arch (f : FRef) (j : Nat) (k : Nat) : (s.bumpBy f j).arch k = s.arch k := rfl

/-! ## bump -/

@[simp] theorem State.bump_power (f : FRef) : (s.bump f).power = s.power := rfl
@[simp] theorem State.bump_clk (f : FRef) : (s.bump f).clk = s.clk := rfl
@[simp] theorem State.bump_member (f : FRef) : (s.bump f).member = s.member := rfl
@[simp] theorem State.bump_side (f : FRef) : (s.bump f).side = s.side := rfl
@[simp] theorem State.bump_supOut (f : FRef) : (s.bump f).supOut = s.supOut := rfl
@[simp] theorem State.bump_arbActive (f : FRef) : (s.bump f).arbActive = s.arbActive := rfl
@[simp] theorem State.bump_latches (f : FRef) : (s.bump f).latches = s.latches := rfl
@[simp] theorem State.bump_timers (f : FRef) : (s.bump f).timers = s.timers := rfl
@[simp] theorem State.bump_tb (f : FRef) : (s.bump f).tb = s.tb := rfl
@[simp] theorem State.bump_tbSlew (f : FRef) : (s.bump f).tbSlew = s.tbSlew := rfl
@[simp] theorem State.bump_tbHold (f : FRef) : (s.bump f).tbHold = s.tbHold := rfl
@[simp] theorem State.bump_disc (f : FRef) : (s.bump f).disc = s.disc := rfl
@[simp] theorem State.bump_out (f : FRef) : (s.bump f).out = s.out := rfl
@[simp] theorem State.bump_ports (f : FRef) : (s.bump f).ports = s.ports := rfl
@[simp] theorem State.bump_links (f : FRef) : (s.bump f).links = s.links := rfl
@[simp] theorem State.bump_lanes (f : FRef) : (s.bump f).lanes = s.lanes := rfl
@[simp] theorem State.bump_records (f : FRef) : (s.bump f).records = s.records := rfl
@[simp] theorem State.bump_discords (f : FRef) : (s.bump f).discords = s.discords := rfl
@[simp] theorem State.bump_synced (f : FRef) : (s.bump f).synced = s.synced := rfl
@[simp] theorem State.bump_noQuorum (f : FRef) : (s.bump f).noQuorum = s.noQuorum := rfl
@[simp] theorem State.bump_recsOut (f : FRef) : (s.bump f).recsOut = s.recsOut := rfl
@[simp] theorem State.bump_slotsOut (f : FRef) : (s.bump f).slotsOut = s.slotsOut := rfl
@[simp] theorem State.bump_ahead (f : FRef) : (s.bump f).ahead = s.ahead := rfl
@[simp] theorem State.bump_advances (f : FRef) : (s.bump f).advances = s.advances := rfl
@[simp] theorem State.bump_retention (f : FRef) : (s.bump f).retention = s.retention := rfl
@[simp] theorem State.bump_execs (f : FRef) : (s.bump f).execs = s.execs := rfl
@[simp] theorem State.bump_order (f : FRef) : (s.bump f).order = s.order := rfl
@[simp] theorem State.bump_segs (f : FRef) : (s.bump f).segs = s.segs := rfl
@[simp] theorem State.bump_locks (f : FRef) : (s.bump f).locks = s.locks := rfl
@[simp] theorem State.bump_arbs (f : FRef) : (s.bump f).arbs = s.arbs := rfl
@[simp] theorem State.bump_queues (f : FRef) : (s.bump f).queues = s.queues := rfl
@[simp] theorem State.bump_qram (f : FRef) : (s.bump f).qram = s.qram := rfl
@[simp] theorem State.bump_ledger (f : FRef) : (s.bump f).ledger = s.ledger := rfl
@[simp] theorem State.bump_ledgerBad (f : FRef) : (s.bump f).ledgerBad = s.ledgerBad := rfl
@[simp] theorem State.bump_images (f : FRef) : (s.bump f).images = s.images := rfl
@[simp] theorem State.bump_span (f : FRef) : (s.bump f).span = s.span := rfl
@[simp] theorem State.bump_bridgeWait (f : FRef) : (s.bump f).bridgeWait = s.bridgeWait := rfl
@[simp] theorem State.bump_history (f : FRef) : (s.bump f).history = s.history := rfl
@[simp] theorem State.bump_merges (f : FRef) : (s.bump f).merges = s.merges := rfl
@[simp] theorem State.bump_heldNotices (f : FRef) : (s.bump f).heldNotices = s.heldNotices := rfl
@[simp] theorem State.bump_tests (f : FRef) : (s.bump f).tests = s.tests := rfl
@[simp] theorem State.bump_active (f : FRef) : (s.bump f).active = s.active := rfl
@[simp] theorem State.bump_errAt (f : FRef) : (s.bump f).errAt = s.errAt := rfl
@[simp] theorem State.bump_transients (f : FRef) : (s.bump f).transients = s.transients := rfl
@[simp] theorem State.bump_replaced (f : FRef) : (s.bump f).replaced = s.replaced := rfl
@[simp] theorem State.bump_spareUsed (f : FRef) : (s.bump f).spareUsed = s.spareUsed := rfl
@[simp] theorem State.bump_compat (f : FRef) : (s.bump f).compat = s.compat := rfl
@[simp] theorem State.bump_archs (f : FRef) : (s.bump f).archs = s.archs := rfl
@[simp] theorem State.bump_busNs (f : FRef) : (s.bump f).busNs = s.busNs := rfl
@[simp] theorem State.bump_imem (f : FRef) : (s.bump f).imem = s.imem := rfl
@[simp] theorem State.bump_dmem (f : FRef) : (s.bump f).dmem = s.dmem := rfl
@[simp] theorem State.bump_dmemBad (f : FRef) : (s.bump f).dmemBad = s.dmemBad := rfl
@[simp] theorem State.bump_imemBad (f : FRef) : (s.bump f).imemBad = s.imemBad := rfl
@[simp] theorem State.bump_trace (f : FRef) : (s.bump f).trace = s.trace := rfl
@[simp] theorem State.bump_traceNum (f : FRef) : (s.bump f).traceNum = s.traceNum := rfl
@[simp] theorem State.bump_tracePost (f : FRef) : (s.bump f).tracePost = s.tracePost := rfl
@[simp] theorem State.bump_traceAt (f : FRef) : (s.bump f).traceAt = s.traceAt := rfl
@[simp] theorem State.bump_restarts (f : FRef) : (s.bump f).restarts = s.restarts := rfl
@[simp] theorem State.bump_commitRuns (f : FRef) : (s.bump f).commitRuns = s.commitRuns := rfl
@[simp] theorem State.bump_migrating (f : FRef) : (s.bump f).migrating = s.migrating := rfl
@[simp] theorem State.bump_heldTokens (f : FRef) : (s.bump f).heldTokens = s.heldTokens := rfl
@[simp] theorem State.bump_courSlots (f : FRef) : (s.bump f).courSlots = s.courSlots := rfl
@[simp] theorem State.bump_chains (f : FRef) : (s.bump f).chains = s.chains := rfl
@[simp] theorem State.bump_sched (f : FRef) : (s.bump f).sched = s.sched := rfl
@[simp] theorem State.bump_lastGasp (f : FRef) : (s.bump f).lastGasp = s.lastGasp := rfl
@[simp] theorem State.bump_dirtySince (f : FRef) : (s.bump f).dirtySince = s.dirtySince := rfl
@[simp] theorem State.bump_otp (f : FRef) : (s.bump f).otp = s.otp := rfl
@[simp] theorem State.bump_lifecycle (f : FRef) : (s.bump f).lifecycle = s.lifecycle := rfl
@[simp] theorem State.bump_fusing (f : FRef) : (s.bump f).fusing = s.fusing := rfl
@[simp] theorem State.bump_flash (f : FRef) : (s.bump f).flash = s.flash := rfl
@[simp] theorem State.bump_dirs (f : FRef) : (s.bump f).dirs = s.dirs := rfl
@[simp] theorem State.bump_bootCmd (f : FRef) : (s.bump f).bootCmd = s.bootCmd := rfl
@[simp] theorem State.bump_boot (f : FRef) : (s.bump f).boot = s.boot := rfl
@[simp] theorem State.bump_tap (f : FRef) : (s.bump f).tap = s.tap := rfl
@[simp] theorem State.bump_freezeHigh (f : FRef) : (s.bump f).freezeHigh = s.freezeHigh := rfl
@[simp] theorem State.bump_xspiLow (f : FRef) : (s.bump f).xspiLow = s.xspiLow := rfl
@[simp] theorem State.bump_pllSaid (f : FRef) : (s.bump f).pllSaid = s.pllSaid := rfl
@[simp] theorem State.bump_nextFree (f : FRef) : (s.bump f).nextFree = s.nextFree := rfl
@[simp] theorem State.bump_pending (f : FRef) : (s.bump f).pending = s.pending := rfl
@[simp] theorem State.bump_port (f : FRef) (k : Nat) : (s.bump f).port k = s.port k := rfl
@[simp] theorem State.bump_link (f : FRef) (k : Nat) : (s.bump f).link k = s.link k := rfl
@[simp] theorem State.bump_seg (f : FRef) (k : Nat) : (s.bump f).seg k = s.seg k := rfl
@[simp] theorem State.bump_arb (f : FRef) (k : Nat) : (s.bump f).arb k = s.arb k := rfl
@[simp] theorem State.bump_queue (f : FRef) (k : Nat) : (s.bump f).queue k = s.queue k := rfl
@[simp] theorem State.bump_arch (f : FRef) (k : Nat) : (s.bump f).arch k = s.arch k := rfl

/-! ## incr -/

@[simp] theorem State.incr_power (f : FRef) : (s.incr f).power = s.power := rfl
@[simp] theorem State.incr_clk (f : FRef) : (s.incr f).clk = s.clk := rfl
@[simp] theorem State.incr_member (f : FRef) : (s.incr f).member = s.member := rfl
@[simp] theorem State.incr_side (f : FRef) : (s.incr f).side = s.side := rfl
@[simp] theorem State.incr_supOut (f : FRef) : (s.incr f).supOut = s.supOut := rfl
@[simp] theorem State.incr_arbActive (f : FRef) : (s.incr f).arbActive = s.arbActive := rfl
@[simp] theorem State.incr_latches (f : FRef) : (s.incr f).latches = s.latches := rfl
@[simp] theorem State.incr_timers (f : FRef) : (s.incr f).timers = s.timers := rfl
@[simp] theorem State.incr_tb (f : FRef) : (s.incr f).tb = s.tb := rfl
@[simp] theorem State.incr_tbSlew (f : FRef) : (s.incr f).tbSlew = s.tbSlew := rfl
@[simp] theorem State.incr_tbHold (f : FRef) : (s.incr f).tbHold = s.tbHold := rfl
@[simp] theorem State.incr_disc (f : FRef) : (s.incr f).disc = s.disc := rfl
@[simp] theorem State.incr_out (f : FRef) : (s.incr f).out = s.out := rfl
@[simp] theorem State.incr_ports (f : FRef) : (s.incr f).ports = s.ports := rfl
@[simp] theorem State.incr_links (f : FRef) : (s.incr f).links = s.links := rfl
@[simp] theorem State.incr_lanes (f : FRef) : (s.incr f).lanes = s.lanes := rfl
@[simp] theorem State.incr_records (f : FRef) : (s.incr f).records = s.records := rfl
@[simp] theorem State.incr_discords (f : FRef) : (s.incr f).discords = s.discords := rfl
@[simp] theorem State.incr_synced (f : FRef) : (s.incr f).synced = s.synced := rfl
@[simp] theorem State.incr_noQuorum (f : FRef) : (s.incr f).noQuorum = s.noQuorum := rfl
@[simp] theorem State.incr_recsOut (f : FRef) : (s.incr f).recsOut = s.recsOut := rfl
@[simp] theorem State.incr_slotsOut (f : FRef) : (s.incr f).slotsOut = s.slotsOut := rfl
@[simp] theorem State.incr_ahead (f : FRef) : (s.incr f).ahead = s.ahead := rfl
@[simp] theorem State.incr_advances (f : FRef) : (s.incr f).advances = s.advances := rfl
@[simp] theorem State.incr_retention (f : FRef) : (s.incr f).retention = s.retention := rfl
@[simp] theorem State.incr_execs (f : FRef) : (s.incr f).execs = s.execs := rfl
@[simp] theorem State.incr_order (f : FRef) : (s.incr f).order = s.order := rfl
@[simp] theorem State.incr_segs (f : FRef) : (s.incr f).segs = s.segs := rfl
@[simp] theorem State.incr_locks (f : FRef) : (s.incr f).locks = s.locks := rfl
@[simp] theorem State.incr_arbs (f : FRef) : (s.incr f).arbs = s.arbs := rfl
@[simp] theorem State.incr_queues (f : FRef) : (s.incr f).queues = s.queues := rfl
@[simp] theorem State.incr_qram (f : FRef) : (s.incr f).qram = s.qram := rfl
@[simp] theorem State.incr_ledger (f : FRef) : (s.incr f).ledger = s.ledger := rfl
@[simp] theorem State.incr_ledgerBad (f : FRef) : (s.incr f).ledgerBad = s.ledgerBad := rfl
@[simp] theorem State.incr_images (f : FRef) : (s.incr f).images = s.images := rfl
@[simp] theorem State.incr_span (f : FRef) : (s.incr f).span = s.span := rfl
@[simp] theorem State.incr_bridgeWait (f : FRef) : (s.incr f).bridgeWait = s.bridgeWait := rfl
@[simp] theorem State.incr_history (f : FRef) : (s.incr f).history = s.history := rfl
@[simp] theorem State.incr_merges (f : FRef) : (s.incr f).merges = s.merges := rfl
@[simp] theorem State.incr_heldNotices (f : FRef) : (s.incr f).heldNotices = s.heldNotices := rfl
@[simp] theorem State.incr_tests (f : FRef) : (s.incr f).tests = s.tests := rfl
@[simp] theorem State.incr_active (f : FRef) : (s.incr f).active = s.active := rfl
@[simp] theorem State.incr_errAt (f : FRef) : (s.incr f).errAt = s.errAt := rfl
@[simp] theorem State.incr_transients (f : FRef) : (s.incr f).transients = s.transients := rfl
@[simp] theorem State.incr_replaced (f : FRef) : (s.incr f).replaced = s.replaced := rfl
@[simp] theorem State.incr_spareUsed (f : FRef) : (s.incr f).spareUsed = s.spareUsed := rfl
@[simp] theorem State.incr_compat (f : FRef) : (s.incr f).compat = s.compat := rfl
@[simp] theorem State.incr_archs (f : FRef) : (s.incr f).archs = s.archs := rfl
@[simp] theorem State.incr_busNs (f : FRef) : (s.incr f).busNs = s.busNs := rfl
@[simp] theorem State.incr_imem (f : FRef) : (s.incr f).imem = s.imem := rfl
@[simp] theorem State.incr_dmem (f : FRef) : (s.incr f).dmem = s.dmem := rfl
@[simp] theorem State.incr_dmemBad (f : FRef) : (s.incr f).dmemBad = s.dmemBad := rfl
@[simp] theorem State.incr_imemBad (f : FRef) : (s.incr f).imemBad = s.imemBad := rfl
@[simp] theorem State.incr_trace (f : FRef) : (s.incr f).trace = s.trace := rfl
@[simp] theorem State.incr_traceNum (f : FRef) : (s.incr f).traceNum = s.traceNum := rfl
@[simp] theorem State.incr_tracePost (f : FRef) : (s.incr f).tracePost = s.tracePost := rfl
@[simp] theorem State.incr_traceAt (f : FRef) : (s.incr f).traceAt = s.traceAt := rfl
@[simp] theorem State.incr_restarts (f : FRef) : (s.incr f).restarts = s.restarts := rfl
@[simp] theorem State.incr_commitRuns (f : FRef) : (s.incr f).commitRuns = s.commitRuns := rfl
@[simp] theorem State.incr_migrating (f : FRef) : (s.incr f).migrating = s.migrating := rfl
@[simp] theorem State.incr_heldTokens (f : FRef) : (s.incr f).heldTokens = s.heldTokens := rfl
@[simp] theorem State.incr_courSlots (f : FRef) : (s.incr f).courSlots = s.courSlots := rfl
@[simp] theorem State.incr_chains (f : FRef) : (s.incr f).chains = s.chains := rfl
@[simp] theorem State.incr_sched (f : FRef) : (s.incr f).sched = s.sched := rfl
@[simp] theorem State.incr_lastGasp (f : FRef) : (s.incr f).lastGasp = s.lastGasp := rfl
@[simp] theorem State.incr_dirtySince (f : FRef) : (s.incr f).dirtySince = s.dirtySince := rfl
@[simp] theorem State.incr_otp (f : FRef) : (s.incr f).otp = s.otp := rfl
@[simp] theorem State.incr_lifecycle (f : FRef) : (s.incr f).lifecycle = s.lifecycle := rfl
@[simp] theorem State.incr_fusing (f : FRef) : (s.incr f).fusing = s.fusing := rfl
@[simp] theorem State.incr_flash (f : FRef) : (s.incr f).flash = s.flash := rfl
@[simp] theorem State.incr_dirs (f : FRef) : (s.incr f).dirs = s.dirs := rfl
@[simp] theorem State.incr_bootCmd (f : FRef) : (s.incr f).bootCmd = s.bootCmd := rfl
@[simp] theorem State.incr_boot (f : FRef) : (s.incr f).boot = s.boot := rfl
@[simp] theorem State.incr_tap (f : FRef) : (s.incr f).tap = s.tap := rfl
@[simp] theorem State.incr_freezeHigh (f : FRef) : (s.incr f).freezeHigh = s.freezeHigh := rfl
@[simp] theorem State.incr_xspiLow (f : FRef) : (s.incr f).xspiLow = s.xspiLow := rfl
@[simp] theorem State.incr_pllSaid (f : FRef) : (s.incr f).pllSaid = s.pllSaid := rfl
@[simp] theorem State.incr_nextFree (f : FRef) : (s.incr f).nextFree = s.nextFree := rfl
@[simp] theorem State.incr_pending (f : FRef) : (s.incr f).pending = s.pending := rfl
@[simp] theorem State.incr_port (f : FRef) (k : Nat) : (s.incr f).port k = s.port k := rfl
@[simp] theorem State.incr_link (f : FRef) (k : Nat) : (s.incr f).link k = s.link k := rfl
@[simp] theorem State.incr_seg (f : FRef) (k : Nat) : (s.incr f).seg k = s.seg k := rfl
@[simp] theorem State.incr_arb (f : FRef) (k : Nat) : (s.incr f).arb k = s.arb k := rfl
@[simp] theorem State.incr_queue (f : FRef) (k : Nat) : (s.incr f).queue k = s.queue k := rfl
@[simp] theorem State.incr_arch (f : FRef) (k : Nat) : (s.incr f).arch k = s.arch k := rfl

/-! ## emit -/

@[simp] theorem State.emit_power (o : Out) : (s.emit o).power = s.power := rfl
@[simp] theorem State.emit_clk (o : Out) : (s.emit o).clk = s.clk := rfl
@[simp] theorem State.emit_member (o : Out) : (s.emit o).member = s.member := rfl
@[simp] theorem State.emit_side (o : Out) : (s.emit o).side = s.side := rfl
@[simp] theorem State.emit_supOut (o : Out) : (s.emit o).supOut = s.supOut := rfl
@[simp] theorem State.emit_regs (o : Out) : (s.emit o).regs = s.regs := rfl
@[simp] theorem State.emit_arbActive (o : Out) : (s.emit o).arbActive = s.arbActive := rfl
@[simp] theorem State.emit_latches (o : Out) : (s.emit o).latches = s.latches := rfl
@[simp] theorem State.emit_timers (o : Out) : (s.emit o).timers = s.timers := rfl
@[simp] theorem State.emit_tb (o : Out) : (s.emit o).tb = s.tb := rfl
@[simp] theorem State.emit_tbSlew (o : Out) : (s.emit o).tbSlew = s.tbSlew := rfl
@[simp] theorem State.emit_tbHold (o : Out) : (s.emit o).tbHold = s.tbHold := rfl
@[simp] theorem State.emit_disc (o : Out) : (s.emit o).disc = s.disc := rfl
@[simp] theorem State.emit_ports (o : Out) : (s.emit o).ports = s.ports := rfl
@[simp] theorem State.emit_links (o : Out) : (s.emit o).links = s.links := rfl
@[simp] theorem State.emit_lanes (o : Out) : (s.emit o).lanes = s.lanes := rfl
@[simp] theorem State.emit_records (o : Out) : (s.emit o).records = s.records := rfl
@[simp] theorem State.emit_discords (o : Out) : (s.emit o).discords = s.discords := rfl
@[simp] theorem State.emit_synced (o : Out) : (s.emit o).synced = s.synced := rfl
@[simp] theorem State.emit_noQuorum (o : Out) : (s.emit o).noQuorum = s.noQuorum := rfl
@[simp] theorem State.emit_recsOut (o : Out) : (s.emit o).recsOut = s.recsOut := rfl
@[simp] theorem State.emit_slotsOut (o : Out) : (s.emit o).slotsOut = s.slotsOut := rfl
@[simp] theorem State.emit_ahead (o : Out) : (s.emit o).ahead = s.ahead := rfl
@[simp] theorem State.emit_advances (o : Out) : (s.emit o).advances = s.advances := rfl
@[simp] theorem State.emit_retention (o : Out) : (s.emit o).retention = s.retention := rfl
@[simp] theorem State.emit_execs (o : Out) : (s.emit o).execs = s.execs := rfl
@[simp] theorem State.emit_order (o : Out) : (s.emit o).order = s.order := rfl
@[simp] theorem State.emit_segs (o : Out) : (s.emit o).segs = s.segs := rfl
@[simp] theorem State.emit_locks (o : Out) : (s.emit o).locks = s.locks := rfl
@[simp] theorem State.emit_arbs (o : Out) : (s.emit o).arbs = s.arbs := rfl
@[simp] theorem State.emit_queues (o : Out) : (s.emit o).queues = s.queues := rfl
@[simp] theorem State.emit_qram (o : Out) : (s.emit o).qram = s.qram := rfl
@[simp] theorem State.emit_ledger (o : Out) : (s.emit o).ledger = s.ledger := rfl
@[simp] theorem State.emit_ledgerBad (o : Out) : (s.emit o).ledgerBad = s.ledgerBad := rfl
@[simp] theorem State.emit_images (o : Out) : (s.emit o).images = s.images := rfl
@[simp] theorem State.emit_span (o : Out) : (s.emit o).span = s.span := rfl
@[simp] theorem State.emit_bridgeWait (o : Out) : (s.emit o).bridgeWait = s.bridgeWait := rfl
@[simp] theorem State.emit_history (o : Out) : (s.emit o).history = s.history := rfl
@[simp] theorem State.emit_merges (o : Out) : (s.emit o).merges = s.merges := rfl
@[simp] theorem State.emit_heldNotices (o : Out) : (s.emit o).heldNotices = s.heldNotices := rfl
@[simp] theorem State.emit_tests (o : Out) : (s.emit o).tests = s.tests := rfl
@[simp] theorem State.emit_active (o : Out) : (s.emit o).active = s.active := rfl
@[simp] theorem State.emit_errAt (o : Out) : (s.emit o).errAt = s.errAt := rfl
@[simp] theorem State.emit_transients (o : Out) : (s.emit o).transients = s.transients := rfl
@[simp] theorem State.emit_replaced (o : Out) : (s.emit o).replaced = s.replaced := rfl
@[simp] theorem State.emit_spareUsed (o : Out) : (s.emit o).spareUsed = s.spareUsed := rfl
@[simp] theorem State.emit_compat (o : Out) : (s.emit o).compat = s.compat := rfl
@[simp] theorem State.emit_archs (o : Out) : (s.emit o).archs = s.archs := rfl
@[simp] theorem State.emit_busNs (o : Out) : (s.emit o).busNs = s.busNs := rfl
@[simp] theorem State.emit_imem (o : Out) : (s.emit o).imem = s.imem := rfl
@[simp] theorem State.emit_dmem (o : Out) : (s.emit o).dmem = s.dmem := rfl
@[simp] theorem State.emit_dmemBad (o : Out) : (s.emit o).dmemBad = s.dmemBad := rfl
@[simp] theorem State.emit_imemBad (o : Out) : (s.emit o).imemBad = s.imemBad := rfl
@[simp] theorem State.emit_trace (o : Out) : (s.emit o).trace = s.trace := rfl
@[simp] theorem State.emit_traceNum (o : Out) : (s.emit o).traceNum = s.traceNum := rfl
@[simp] theorem State.emit_tracePost (o : Out) : (s.emit o).tracePost = s.tracePost := rfl
@[simp] theorem State.emit_traceAt (o : Out) : (s.emit o).traceAt = s.traceAt := rfl
@[simp] theorem State.emit_restarts (o : Out) : (s.emit o).restarts = s.restarts := rfl
@[simp] theorem State.emit_commitRuns (o : Out) : (s.emit o).commitRuns = s.commitRuns := rfl
@[simp] theorem State.emit_migrating (o : Out) : (s.emit o).migrating = s.migrating := rfl
@[simp] theorem State.emit_heldTokens (o : Out) : (s.emit o).heldTokens = s.heldTokens := rfl
@[simp] theorem State.emit_courSlots (o : Out) : (s.emit o).courSlots = s.courSlots := rfl
@[simp] theorem State.emit_chains (o : Out) : (s.emit o).chains = s.chains := rfl
@[simp] theorem State.emit_sched (o : Out) : (s.emit o).sched = s.sched := rfl
@[simp] theorem State.emit_lastGasp (o : Out) : (s.emit o).lastGasp = s.lastGasp := rfl
@[simp] theorem State.emit_dirtySince (o : Out) : (s.emit o).dirtySince = s.dirtySince := rfl
@[simp] theorem State.emit_otp (o : Out) : (s.emit o).otp = s.otp := rfl
@[simp] theorem State.emit_lifecycle (o : Out) : (s.emit o).lifecycle = s.lifecycle := rfl
@[simp] theorem State.emit_fusing (o : Out) : (s.emit o).fusing = s.fusing := rfl
@[simp] theorem State.emit_flash (o : Out) : (s.emit o).flash = s.flash := rfl
@[simp] theorem State.emit_dirs (o : Out) : (s.emit o).dirs = s.dirs := rfl
@[simp] theorem State.emit_bootCmd (o : Out) : (s.emit o).bootCmd = s.bootCmd := rfl
@[simp] theorem State.emit_boot (o : Out) : (s.emit o).boot = s.boot := rfl
@[simp] theorem State.emit_tap (o : Out) : (s.emit o).tap = s.tap := rfl
@[simp] theorem State.emit_freezeHigh (o : Out) : (s.emit o).freezeHigh = s.freezeHigh := rfl
@[simp] theorem State.emit_xspiLow (o : Out) : (s.emit o).xspiLow = s.xspiLow := rfl
@[simp] theorem State.emit_pllSaid (o : Out) : (s.emit o).pllSaid = s.pllSaid := rfl
@[simp] theorem State.emit_nextFree (o : Out) : (s.emit o).nextFree = s.nextFree := rfl
@[simp] theorem State.emit_pending (o : Out) : (s.emit o).pending = s.pending := rfl
@[simp] theorem State.emit_word (o : Out) (c : Nat) : (s.emit o).word c = s.word c := rfl
@[simp] theorem State.emit_get (o : Out) (c : FRef) : (s.emit o).get c = s.get c := rfl
@[simp] theorem State.emit_on (o : Out) (c : FRef) : (s.emit o).on c = s.on c := rfl
@[simp] theorem State.emit_port (o : Out) (k : Nat) : (s.emit o).port k = s.port k := rfl
@[simp] theorem State.emit_link (o : Out) (k : Nat) : (s.emit o).link k = s.link k := rfl
@[simp] theorem State.emit_seg (o : Out) (k : Nat) : (s.emit o).seg k = s.seg k := rfl
@[simp] theorem State.emit_arb (o : Out) (k : Nat) : (s.emit o).arb k = s.arb k := rfl
@[simp] theorem State.emit_queue (o : Out) (k : Nat) : (s.emit o).queue k = s.queue k := rfl
@[simp] theorem State.emit_arch (o : Out) (k : Nat) : (s.emit o).arch k = s.arch k := rfl

/-! ## setPort -/

@[simp] theorem State.setPort_power (p : Nat) (x : Port) : (s.setPort p x).power = s.power := rfl
@[simp] theorem State.setPort_clk (p : Nat) (x : Port) : (s.setPort p x).clk = s.clk := rfl
@[simp] theorem State.setPort_member (p : Nat) (x : Port) : (s.setPort p x).member = s.member := rfl
@[simp] theorem State.setPort_side (p : Nat) (x : Port) : (s.setPort p x).side = s.side := rfl
@[simp] theorem State.setPort_supOut (p : Nat) (x : Port) : (s.setPort p x).supOut = s.supOut := rfl
@[simp] theorem State.setPort_regs (p : Nat) (x : Port) : (s.setPort p x).regs = s.regs := rfl
@[simp] theorem State.setPort_arbActive (p : Nat) (x : Port) : (s.setPort p x).arbActive = s.arbActive := rfl
@[simp] theorem State.setPort_latches (p : Nat) (x : Port) : (s.setPort p x).latches = s.latches := rfl
@[simp] theorem State.setPort_timers (p : Nat) (x : Port) : (s.setPort p x).timers = s.timers := rfl
@[simp] theorem State.setPort_tb (p : Nat) (x : Port) : (s.setPort p x).tb = s.tb := rfl
@[simp] theorem State.setPort_tbSlew (p : Nat) (x : Port) : (s.setPort p x).tbSlew = s.tbSlew := rfl
@[simp] theorem State.setPort_tbHold (p : Nat) (x : Port) : (s.setPort p x).tbHold = s.tbHold := rfl
@[simp] theorem State.setPort_disc (p : Nat) (x : Port) : (s.setPort p x).disc = s.disc := rfl
@[simp] theorem State.setPort_out (p : Nat) (x : Port) : (s.setPort p x).out = s.out := rfl
@[simp] theorem State.setPort_links (p : Nat) (x : Port) : (s.setPort p x).links = s.links := rfl
@[simp] theorem State.setPort_lanes (p : Nat) (x : Port) : (s.setPort p x).lanes = s.lanes := rfl
@[simp] theorem State.setPort_records (p : Nat) (x : Port) : (s.setPort p x).records = s.records := rfl
@[simp] theorem State.setPort_discords (p : Nat) (x : Port) : (s.setPort p x).discords = s.discords := rfl
@[simp] theorem State.setPort_synced (p : Nat) (x : Port) : (s.setPort p x).synced = s.synced := rfl
@[simp] theorem State.setPort_noQuorum (p : Nat) (x : Port) : (s.setPort p x).noQuorum = s.noQuorum := rfl
@[simp] theorem State.setPort_recsOut (p : Nat) (x : Port) : (s.setPort p x).recsOut = s.recsOut := rfl
@[simp] theorem State.setPort_slotsOut (p : Nat) (x : Port) : (s.setPort p x).slotsOut = s.slotsOut := rfl
@[simp] theorem State.setPort_ahead (p : Nat) (x : Port) : (s.setPort p x).ahead = s.ahead := rfl
@[simp] theorem State.setPort_advances (p : Nat) (x : Port) : (s.setPort p x).advances = s.advances := rfl
@[simp] theorem State.setPort_retention (p : Nat) (x : Port) : (s.setPort p x).retention = s.retention := rfl
@[simp] theorem State.setPort_execs (p : Nat) (x : Port) : (s.setPort p x).execs = s.execs := rfl
@[simp] theorem State.setPort_order (p : Nat) (x : Port) : (s.setPort p x).order = s.order := rfl
@[simp] theorem State.setPort_segs (p : Nat) (x : Port) : (s.setPort p x).segs = s.segs := rfl
@[simp] theorem State.setPort_locks (p : Nat) (x : Port) : (s.setPort p x).locks = s.locks := rfl
@[simp] theorem State.setPort_arbs (p : Nat) (x : Port) : (s.setPort p x).arbs = s.arbs := rfl
@[simp] theorem State.setPort_queues (p : Nat) (x : Port) : (s.setPort p x).queues = s.queues := rfl
@[simp] theorem State.setPort_qram (p : Nat) (x : Port) : (s.setPort p x).qram = s.qram := rfl
@[simp] theorem State.setPort_ledger (p : Nat) (x : Port) : (s.setPort p x).ledger = s.ledger := rfl
@[simp] theorem State.setPort_ledgerBad (p : Nat) (x : Port) : (s.setPort p x).ledgerBad = s.ledgerBad := rfl
@[simp] theorem State.setPort_images (p : Nat) (x : Port) : (s.setPort p x).images = s.images := rfl
@[simp] theorem State.setPort_span (p : Nat) (x : Port) : (s.setPort p x).span = s.span := rfl
@[simp] theorem State.setPort_bridgeWait (p : Nat) (x : Port) : (s.setPort p x).bridgeWait = s.bridgeWait := rfl
@[simp] theorem State.setPort_history (p : Nat) (x : Port) : (s.setPort p x).history = s.history := rfl
@[simp] theorem State.setPort_merges (p : Nat) (x : Port) : (s.setPort p x).merges = s.merges := rfl
@[simp] theorem State.setPort_heldNotices (p : Nat) (x : Port) : (s.setPort p x).heldNotices = s.heldNotices := rfl
@[simp] theorem State.setPort_tests (p : Nat) (x : Port) : (s.setPort p x).tests = s.tests := rfl
@[simp] theorem State.setPort_active (p : Nat) (x : Port) : (s.setPort p x).active = s.active := rfl
@[simp] theorem State.setPort_errAt (p : Nat) (x : Port) : (s.setPort p x).errAt = s.errAt := rfl
@[simp] theorem State.setPort_transients (p : Nat) (x : Port) : (s.setPort p x).transients = s.transients := rfl
@[simp] theorem State.setPort_replaced (p : Nat) (x : Port) : (s.setPort p x).replaced = s.replaced := rfl
@[simp] theorem State.setPort_spareUsed (p : Nat) (x : Port) : (s.setPort p x).spareUsed = s.spareUsed := rfl
@[simp] theorem State.setPort_compat (p : Nat) (x : Port) : (s.setPort p x).compat = s.compat := rfl
@[simp] theorem State.setPort_archs (p : Nat) (x : Port) : (s.setPort p x).archs = s.archs := rfl
@[simp] theorem State.setPort_busNs (p : Nat) (x : Port) : (s.setPort p x).busNs = s.busNs := rfl
@[simp] theorem State.setPort_imem (p : Nat) (x : Port) : (s.setPort p x).imem = s.imem := rfl
@[simp] theorem State.setPort_dmem (p : Nat) (x : Port) : (s.setPort p x).dmem = s.dmem := rfl
@[simp] theorem State.setPort_dmemBad (p : Nat) (x : Port) : (s.setPort p x).dmemBad = s.dmemBad := rfl
@[simp] theorem State.setPort_imemBad (p : Nat) (x : Port) : (s.setPort p x).imemBad = s.imemBad := rfl
@[simp] theorem State.setPort_trace (p : Nat) (x : Port) : (s.setPort p x).trace = s.trace := rfl
@[simp] theorem State.setPort_traceNum (p : Nat) (x : Port) : (s.setPort p x).traceNum = s.traceNum := rfl
@[simp] theorem State.setPort_tracePost (p : Nat) (x : Port) : (s.setPort p x).tracePost = s.tracePost := rfl
@[simp] theorem State.setPort_traceAt (p : Nat) (x : Port) : (s.setPort p x).traceAt = s.traceAt := rfl
@[simp] theorem State.setPort_restarts (p : Nat) (x : Port) : (s.setPort p x).restarts = s.restarts := rfl
@[simp] theorem State.setPort_commitRuns (p : Nat) (x : Port) : (s.setPort p x).commitRuns = s.commitRuns := rfl
@[simp] theorem State.setPort_migrating (p : Nat) (x : Port) : (s.setPort p x).migrating = s.migrating := rfl
@[simp] theorem State.setPort_heldTokens (p : Nat) (x : Port) : (s.setPort p x).heldTokens = s.heldTokens := rfl
@[simp] theorem State.setPort_courSlots (p : Nat) (x : Port) : (s.setPort p x).courSlots = s.courSlots := rfl
@[simp] theorem State.setPort_chains (p : Nat) (x : Port) : (s.setPort p x).chains = s.chains := rfl
@[simp] theorem State.setPort_sched (p : Nat) (x : Port) : (s.setPort p x).sched = s.sched := rfl
@[simp] theorem State.setPort_lastGasp (p : Nat) (x : Port) : (s.setPort p x).lastGasp = s.lastGasp := rfl
@[simp] theorem State.setPort_dirtySince (p : Nat) (x : Port) : (s.setPort p x).dirtySince = s.dirtySince := rfl
@[simp] theorem State.setPort_otp (p : Nat) (x : Port) : (s.setPort p x).otp = s.otp := rfl
@[simp] theorem State.setPort_lifecycle (p : Nat) (x : Port) : (s.setPort p x).lifecycle = s.lifecycle := rfl
@[simp] theorem State.setPort_fusing (p : Nat) (x : Port) : (s.setPort p x).fusing = s.fusing := rfl
@[simp] theorem State.setPort_flash (p : Nat) (x : Port) : (s.setPort p x).flash = s.flash := rfl
@[simp] theorem State.setPort_dirs (p : Nat) (x : Port) : (s.setPort p x).dirs = s.dirs := rfl
@[simp] theorem State.setPort_bootCmd (p : Nat) (x : Port) : (s.setPort p x).bootCmd = s.bootCmd := rfl
@[simp] theorem State.setPort_boot (p : Nat) (x : Port) : (s.setPort p x).boot = s.boot := rfl
@[simp] theorem State.setPort_tap (p : Nat) (x : Port) : (s.setPort p x).tap = s.tap := rfl
@[simp] theorem State.setPort_freezeHigh (p : Nat) (x : Port) : (s.setPort p x).freezeHigh = s.freezeHigh := rfl
@[simp] theorem State.setPort_xspiLow (p : Nat) (x : Port) : (s.setPort p x).xspiLow = s.xspiLow := rfl
@[simp] theorem State.setPort_pllSaid (p : Nat) (x : Port) : (s.setPort p x).pllSaid = s.pllSaid := rfl
@[simp] theorem State.setPort_nextFree (p : Nat) (x : Port) : (s.setPort p x).nextFree = s.nextFree := rfl
@[simp] theorem State.setPort_pending (p : Nat) (x : Port) : (s.setPort p x).pending = s.pending := rfl
@[simp] theorem State.setPort_word (p : Nat) (x : Port) (c : Nat) : (s.setPort p x).word c = s.word c := rfl
@[simp] theorem State.setPort_get (p : Nat) (x : Port) (c : FRef) : (s.setPort p x).get c = s.get c := rfl
@[simp] theorem State.setPort_on (p : Nat) (x : Port) (c : FRef) : (s.setPort p x).on c = s.on c := rfl
@[simp] theorem State.setPort_link (p : Nat) (x : Port) (k : Nat) : (s.setPort p x).link k = s.link k := rfl
@[simp] theorem State.setPort_seg (p : Nat) (x : Port) (k : Nat) : (s.setPort p x).seg k = s.seg k := rfl
@[simp] theorem State.setPort_arb (p : Nat) (x : Port) (k : Nat) : (s.setPort p x).arb k = s.arb k := rfl
@[simp] theorem State.setPort_queue (p : Nat) (x : Port) (k : Nat) : (s.setPort p x).queue k = s.queue k := rfl
@[simp] theorem State.setPort_arch (p : Nat) (x : Port) (k : Nat) : (s.setPort p x).arch k = s.arch k := rfl

/-! ## setLink -/

@[simp] theorem State.setLink_power (p : Nat) (x : Link) : (s.setLink p x).power = s.power := rfl
@[simp] theorem State.setLink_clk (p : Nat) (x : Link) : (s.setLink p x).clk = s.clk := rfl
@[simp] theorem State.setLink_member (p : Nat) (x : Link) : (s.setLink p x).member = s.member := rfl
@[simp] theorem State.setLink_side (p : Nat) (x : Link) : (s.setLink p x).side = s.side := rfl
@[simp] theorem State.setLink_supOut (p : Nat) (x : Link) : (s.setLink p x).supOut = s.supOut := rfl
@[simp] theorem State.setLink_regs (p : Nat) (x : Link) : (s.setLink p x).regs = s.regs := rfl
@[simp] theorem State.setLink_arbActive (p : Nat) (x : Link) : (s.setLink p x).arbActive = s.arbActive := rfl
@[simp] theorem State.setLink_latches (p : Nat) (x : Link) : (s.setLink p x).latches = s.latches := rfl
@[simp] theorem State.setLink_timers (p : Nat) (x : Link) : (s.setLink p x).timers = s.timers := rfl
@[simp] theorem State.setLink_tb (p : Nat) (x : Link) : (s.setLink p x).tb = s.tb := rfl
@[simp] theorem State.setLink_tbSlew (p : Nat) (x : Link) : (s.setLink p x).tbSlew = s.tbSlew := rfl
@[simp] theorem State.setLink_tbHold (p : Nat) (x : Link) : (s.setLink p x).tbHold = s.tbHold := rfl
@[simp] theorem State.setLink_disc (p : Nat) (x : Link) : (s.setLink p x).disc = s.disc := rfl
@[simp] theorem State.setLink_out (p : Nat) (x : Link) : (s.setLink p x).out = s.out := rfl
@[simp] theorem State.setLink_ports (p : Nat) (x : Link) : (s.setLink p x).ports = s.ports := rfl
@[simp] theorem State.setLink_lanes (p : Nat) (x : Link) : (s.setLink p x).lanes = s.lanes := rfl
@[simp] theorem State.setLink_records (p : Nat) (x : Link) : (s.setLink p x).records = s.records := rfl
@[simp] theorem State.setLink_discords (p : Nat) (x : Link) : (s.setLink p x).discords = s.discords := rfl
@[simp] theorem State.setLink_synced (p : Nat) (x : Link) : (s.setLink p x).synced = s.synced := rfl
@[simp] theorem State.setLink_noQuorum (p : Nat) (x : Link) : (s.setLink p x).noQuorum = s.noQuorum := rfl
@[simp] theorem State.setLink_recsOut (p : Nat) (x : Link) : (s.setLink p x).recsOut = s.recsOut := rfl
@[simp] theorem State.setLink_slotsOut (p : Nat) (x : Link) : (s.setLink p x).slotsOut = s.slotsOut := rfl
@[simp] theorem State.setLink_ahead (p : Nat) (x : Link) : (s.setLink p x).ahead = s.ahead := rfl
@[simp] theorem State.setLink_advances (p : Nat) (x : Link) : (s.setLink p x).advances = s.advances := rfl
@[simp] theorem State.setLink_retention (p : Nat) (x : Link) : (s.setLink p x).retention = s.retention := rfl
@[simp] theorem State.setLink_execs (p : Nat) (x : Link) : (s.setLink p x).execs = s.execs := rfl
@[simp] theorem State.setLink_order (p : Nat) (x : Link) : (s.setLink p x).order = s.order := rfl
@[simp] theorem State.setLink_segs (p : Nat) (x : Link) : (s.setLink p x).segs = s.segs := rfl
@[simp] theorem State.setLink_locks (p : Nat) (x : Link) : (s.setLink p x).locks = s.locks := rfl
@[simp] theorem State.setLink_arbs (p : Nat) (x : Link) : (s.setLink p x).arbs = s.arbs := rfl
@[simp] theorem State.setLink_queues (p : Nat) (x : Link) : (s.setLink p x).queues = s.queues := rfl
@[simp] theorem State.setLink_qram (p : Nat) (x : Link) : (s.setLink p x).qram = s.qram := rfl
@[simp] theorem State.setLink_ledger (p : Nat) (x : Link) : (s.setLink p x).ledger = s.ledger := rfl
@[simp] theorem State.setLink_ledgerBad (p : Nat) (x : Link) : (s.setLink p x).ledgerBad = s.ledgerBad := rfl
@[simp] theorem State.setLink_images (p : Nat) (x : Link) : (s.setLink p x).images = s.images := rfl
@[simp] theorem State.setLink_span (p : Nat) (x : Link) : (s.setLink p x).span = s.span := rfl
@[simp] theorem State.setLink_bridgeWait (p : Nat) (x : Link) : (s.setLink p x).bridgeWait = s.bridgeWait := rfl
@[simp] theorem State.setLink_history (p : Nat) (x : Link) : (s.setLink p x).history = s.history := rfl
@[simp] theorem State.setLink_merges (p : Nat) (x : Link) : (s.setLink p x).merges = s.merges := rfl
@[simp] theorem State.setLink_heldNotices (p : Nat) (x : Link) : (s.setLink p x).heldNotices = s.heldNotices := rfl
@[simp] theorem State.setLink_tests (p : Nat) (x : Link) : (s.setLink p x).tests = s.tests := rfl
@[simp] theorem State.setLink_active (p : Nat) (x : Link) : (s.setLink p x).active = s.active := rfl
@[simp] theorem State.setLink_errAt (p : Nat) (x : Link) : (s.setLink p x).errAt = s.errAt := rfl
@[simp] theorem State.setLink_transients (p : Nat) (x : Link) : (s.setLink p x).transients = s.transients := rfl
@[simp] theorem State.setLink_replaced (p : Nat) (x : Link) : (s.setLink p x).replaced = s.replaced := rfl
@[simp] theorem State.setLink_spareUsed (p : Nat) (x : Link) : (s.setLink p x).spareUsed = s.spareUsed := rfl
@[simp] theorem State.setLink_compat (p : Nat) (x : Link) : (s.setLink p x).compat = s.compat := rfl
@[simp] theorem State.setLink_archs (p : Nat) (x : Link) : (s.setLink p x).archs = s.archs := rfl
@[simp] theorem State.setLink_busNs (p : Nat) (x : Link) : (s.setLink p x).busNs = s.busNs := rfl
@[simp] theorem State.setLink_imem (p : Nat) (x : Link) : (s.setLink p x).imem = s.imem := rfl
@[simp] theorem State.setLink_dmem (p : Nat) (x : Link) : (s.setLink p x).dmem = s.dmem := rfl
@[simp] theorem State.setLink_dmemBad (p : Nat) (x : Link) : (s.setLink p x).dmemBad = s.dmemBad := rfl
@[simp] theorem State.setLink_imemBad (p : Nat) (x : Link) : (s.setLink p x).imemBad = s.imemBad := rfl
@[simp] theorem State.setLink_trace (p : Nat) (x : Link) : (s.setLink p x).trace = s.trace := rfl
@[simp] theorem State.setLink_traceNum (p : Nat) (x : Link) : (s.setLink p x).traceNum = s.traceNum := rfl
@[simp] theorem State.setLink_tracePost (p : Nat) (x : Link) : (s.setLink p x).tracePost = s.tracePost := rfl
@[simp] theorem State.setLink_traceAt (p : Nat) (x : Link) : (s.setLink p x).traceAt = s.traceAt := rfl
@[simp] theorem State.setLink_restarts (p : Nat) (x : Link) : (s.setLink p x).restarts = s.restarts := rfl
@[simp] theorem State.setLink_commitRuns (p : Nat) (x : Link) : (s.setLink p x).commitRuns = s.commitRuns := rfl
@[simp] theorem State.setLink_migrating (p : Nat) (x : Link) : (s.setLink p x).migrating = s.migrating := rfl
@[simp] theorem State.setLink_heldTokens (p : Nat) (x : Link) : (s.setLink p x).heldTokens = s.heldTokens := rfl
@[simp] theorem State.setLink_courSlots (p : Nat) (x : Link) : (s.setLink p x).courSlots = s.courSlots := rfl
@[simp] theorem State.setLink_chains (p : Nat) (x : Link) : (s.setLink p x).chains = s.chains := rfl
@[simp] theorem State.setLink_sched (p : Nat) (x : Link) : (s.setLink p x).sched = s.sched := rfl
@[simp] theorem State.setLink_lastGasp (p : Nat) (x : Link) : (s.setLink p x).lastGasp = s.lastGasp := rfl
@[simp] theorem State.setLink_dirtySince (p : Nat) (x : Link) : (s.setLink p x).dirtySince = s.dirtySince := rfl
@[simp] theorem State.setLink_otp (p : Nat) (x : Link) : (s.setLink p x).otp = s.otp := rfl
@[simp] theorem State.setLink_lifecycle (p : Nat) (x : Link) : (s.setLink p x).lifecycle = s.lifecycle := rfl
@[simp] theorem State.setLink_fusing (p : Nat) (x : Link) : (s.setLink p x).fusing = s.fusing := rfl
@[simp] theorem State.setLink_flash (p : Nat) (x : Link) : (s.setLink p x).flash = s.flash := rfl
@[simp] theorem State.setLink_dirs (p : Nat) (x : Link) : (s.setLink p x).dirs = s.dirs := rfl
@[simp] theorem State.setLink_bootCmd (p : Nat) (x : Link) : (s.setLink p x).bootCmd = s.bootCmd := rfl
@[simp] theorem State.setLink_boot (p : Nat) (x : Link) : (s.setLink p x).boot = s.boot := rfl
@[simp] theorem State.setLink_tap (p : Nat) (x : Link) : (s.setLink p x).tap = s.tap := rfl
@[simp] theorem State.setLink_freezeHigh (p : Nat) (x : Link) : (s.setLink p x).freezeHigh = s.freezeHigh := rfl
@[simp] theorem State.setLink_xspiLow (p : Nat) (x : Link) : (s.setLink p x).xspiLow = s.xspiLow := rfl
@[simp] theorem State.setLink_pllSaid (p : Nat) (x : Link) : (s.setLink p x).pllSaid = s.pllSaid := rfl
@[simp] theorem State.setLink_nextFree (p : Nat) (x : Link) : (s.setLink p x).nextFree = s.nextFree := rfl
@[simp] theorem State.setLink_pending (p : Nat) (x : Link) : (s.setLink p x).pending = s.pending := rfl
@[simp] theorem State.setLink_word (p : Nat) (x : Link) (c : Nat) : (s.setLink p x).word c = s.word c := rfl
@[simp] theorem State.setLink_get (p : Nat) (x : Link) (c : FRef) : (s.setLink p x).get c = s.get c := rfl
@[simp] theorem State.setLink_on (p : Nat) (x : Link) (c : FRef) : (s.setLink p x).on c = s.on c := rfl
@[simp] theorem State.setLink_port (p : Nat) (x : Link) (k : Nat) : (s.setLink p x).port k = s.port k := rfl
@[simp] theorem State.setLink_seg (p : Nat) (x : Link) (k : Nat) : (s.setLink p x).seg k = s.seg k := rfl
@[simp] theorem State.setLink_arb (p : Nat) (x : Link) (k : Nat) : (s.setLink p x).arb k = s.arb k := rfl
@[simp] theorem State.setLink_queue (p : Nat) (x : Link) (k : Nat) : (s.setLink p x).queue k = s.queue k := rfl
@[simp] theorem State.setLink_arch (p : Nat) (x : Link) (k : Nat) : (s.setLink p x).arch k = s.arch k := rfl

/-! ## setSeg -/

@[simp] theorem State.setSeg_power (g : Nat) (x : Seg) : (s.setSeg g x).power = s.power := rfl
@[simp] theorem State.setSeg_clk (g : Nat) (x : Seg) : (s.setSeg g x).clk = s.clk := rfl
@[simp] theorem State.setSeg_member (g : Nat) (x : Seg) : (s.setSeg g x).member = s.member := rfl
@[simp] theorem State.setSeg_side (g : Nat) (x : Seg) : (s.setSeg g x).side = s.side := rfl
@[simp] theorem State.setSeg_supOut (g : Nat) (x : Seg) : (s.setSeg g x).supOut = s.supOut := rfl
@[simp] theorem State.setSeg_regs (g : Nat) (x : Seg) : (s.setSeg g x).regs = s.regs := rfl
@[simp] theorem State.setSeg_arbActive (g : Nat) (x : Seg) : (s.setSeg g x).arbActive = s.arbActive := rfl
@[simp] theorem State.setSeg_latches (g : Nat) (x : Seg) : (s.setSeg g x).latches = s.latches := rfl
@[simp] theorem State.setSeg_timers (g : Nat) (x : Seg) : (s.setSeg g x).timers = s.timers := rfl
@[simp] theorem State.setSeg_tb (g : Nat) (x : Seg) : (s.setSeg g x).tb = s.tb := rfl
@[simp] theorem State.setSeg_tbSlew (g : Nat) (x : Seg) : (s.setSeg g x).tbSlew = s.tbSlew := rfl
@[simp] theorem State.setSeg_tbHold (g : Nat) (x : Seg) : (s.setSeg g x).tbHold = s.tbHold := rfl
@[simp] theorem State.setSeg_disc (g : Nat) (x : Seg) : (s.setSeg g x).disc = s.disc := rfl
@[simp] theorem State.setSeg_out (g : Nat) (x : Seg) : (s.setSeg g x).out = s.out := rfl
@[simp] theorem State.setSeg_ports (g : Nat) (x : Seg) : (s.setSeg g x).ports = s.ports := rfl
@[simp] theorem State.setSeg_links (g : Nat) (x : Seg) : (s.setSeg g x).links = s.links := rfl
@[simp] theorem State.setSeg_lanes (g : Nat) (x : Seg) : (s.setSeg g x).lanes = s.lanes := rfl
@[simp] theorem State.setSeg_records (g : Nat) (x : Seg) : (s.setSeg g x).records = s.records := rfl
@[simp] theorem State.setSeg_discords (g : Nat) (x : Seg) : (s.setSeg g x).discords = s.discords := rfl
@[simp] theorem State.setSeg_synced (g : Nat) (x : Seg) : (s.setSeg g x).synced = s.synced := rfl
@[simp] theorem State.setSeg_noQuorum (g : Nat) (x : Seg) : (s.setSeg g x).noQuorum = s.noQuorum := rfl
@[simp] theorem State.setSeg_recsOut (g : Nat) (x : Seg) : (s.setSeg g x).recsOut = s.recsOut := rfl
@[simp] theorem State.setSeg_slotsOut (g : Nat) (x : Seg) : (s.setSeg g x).slotsOut = s.slotsOut := rfl
@[simp] theorem State.setSeg_ahead (g : Nat) (x : Seg) : (s.setSeg g x).ahead = s.ahead := rfl
@[simp] theorem State.setSeg_advances (g : Nat) (x : Seg) : (s.setSeg g x).advances = s.advances := rfl
@[simp] theorem State.setSeg_retention (g : Nat) (x : Seg) : (s.setSeg g x).retention = s.retention := rfl
@[simp] theorem State.setSeg_execs (g : Nat) (x : Seg) : (s.setSeg g x).execs = s.execs := rfl
@[simp] theorem State.setSeg_order (g : Nat) (x : Seg) : (s.setSeg g x).order = s.order := rfl
@[simp] theorem State.setSeg_locks (g : Nat) (x : Seg) : (s.setSeg g x).locks = s.locks := rfl
@[simp] theorem State.setSeg_arbs (g : Nat) (x : Seg) : (s.setSeg g x).arbs = s.arbs := rfl
@[simp] theorem State.setSeg_queues (g : Nat) (x : Seg) : (s.setSeg g x).queues = s.queues := rfl
@[simp] theorem State.setSeg_qram (g : Nat) (x : Seg) : (s.setSeg g x).qram = s.qram := rfl
@[simp] theorem State.setSeg_ledger (g : Nat) (x : Seg) : (s.setSeg g x).ledger = s.ledger := rfl
@[simp] theorem State.setSeg_ledgerBad (g : Nat) (x : Seg) : (s.setSeg g x).ledgerBad = s.ledgerBad := rfl
@[simp] theorem State.setSeg_images (g : Nat) (x : Seg) : (s.setSeg g x).images = s.images := rfl
@[simp] theorem State.setSeg_span (g : Nat) (x : Seg) : (s.setSeg g x).span = s.span := rfl
@[simp] theorem State.setSeg_bridgeWait (g : Nat) (x : Seg) : (s.setSeg g x).bridgeWait = s.bridgeWait := rfl
@[simp] theorem State.setSeg_history (g : Nat) (x : Seg) : (s.setSeg g x).history = s.history := rfl
@[simp] theorem State.setSeg_merges (g : Nat) (x : Seg) : (s.setSeg g x).merges = s.merges := rfl
@[simp] theorem State.setSeg_heldNotices (g : Nat) (x : Seg) : (s.setSeg g x).heldNotices = s.heldNotices := rfl
@[simp] theorem State.setSeg_tests (g : Nat) (x : Seg) : (s.setSeg g x).tests = s.tests := rfl
@[simp] theorem State.setSeg_active (g : Nat) (x : Seg) : (s.setSeg g x).active = s.active := rfl
@[simp] theorem State.setSeg_errAt (g : Nat) (x : Seg) : (s.setSeg g x).errAt = s.errAt := rfl
@[simp] theorem State.setSeg_transients (g : Nat) (x : Seg) : (s.setSeg g x).transients = s.transients := rfl
@[simp] theorem State.setSeg_replaced (g : Nat) (x : Seg) : (s.setSeg g x).replaced = s.replaced := rfl
@[simp] theorem State.setSeg_spareUsed (g : Nat) (x : Seg) : (s.setSeg g x).spareUsed = s.spareUsed := rfl
@[simp] theorem State.setSeg_compat (g : Nat) (x : Seg) : (s.setSeg g x).compat = s.compat := rfl
@[simp] theorem State.setSeg_archs (g : Nat) (x : Seg) : (s.setSeg g x).archs = s.archs := rfl
@[simp] theorem State.setSeg_busNs (g : Nat) (x : Seg) : (s.setSeg g x).busNs = s.busNs := rfl
@[simp] theorem State.setSeg_imem (g : Nat) (x : Seg) : (s.setSeg g x).imem = s.imem := rfl
@[simp] theorem State.setSeg_dmem (g : Nat) (x : Seg) : (s.setSeg g x).dmem = s.dmem := rfl
@[simp] theorem State.setSeg_dmemBad (g : Nat) (x : Seg) : (s.setSeg g x).dmemBad = s.dmemBad := rfl
@[simp] theorem State.setSeg_imemBad (g : Nat) (x : Seg) : (s.setSeg g x).imemBad = s.imemBad := rfl
@[simp] theorem State.setSeg_trace (g : Nat) (x : Seg) : (s.setSeg g x).trace = s.trace := rfl
@[simp] theorem State.setSeg_traceNum (g : Nat) (x : Seg) : (s.setSeg g x).traceNum = s.traceNum := rfl
@[simp] theorem State.setSeg_tracePost (g : Nat) (x : Seg) : (s.setSeg g x).tracePost = s.tracePost := rfl
@[simp] theorem State.setSeg_traceAt (g : Nat) (x : Seg) : (s.setSeg g x).traceAt = s.traceAt := rfl
@[simp] theorem State.setSeg_restarts (g : Nat) (x : Seg) : (s.setSeg g x).restarts = s.restarts := rfl
@[simp] theorem State.setSeg_commitRuns (g : Nat) (x : Seg) : (s.setSeg g x).commitRuns = s.commitRuns := rfl
@[simp] theorem State.setSeg_migrating (g : Nat) (x : Seg) : (s.setSeg g x).migrating = s.migrating := rfl
@[simp] theorem State.setSeg_heldTokens (g : Nat) (x : Seg) : (s.setSeg g x).heldTokens = s.heldTokens := rfl
@[simp] theorem State.setSeg_courSlots (g : Nat) (x : Seg) : (s.setSeg g x).courSlots = s.courSlots := rfl
@[simp] theorem State.setSeg_chains (g : Nat) (x : Seg) : (s.setSeg g x).chains = s.chains := rfl
@[simp] theorem State.setSeg_sched (g : Nat) (x : Seg) : (s.setSeg g x).sched = s.sched := rfl
@[simp] theorem State.setSeg_lastGasp (g : Nat) (x : Seg) : (s.setSeg g x).lastGasp = s.lastGasp := rfl
@[simp] theorem State.setSeg_dirtySince (g : Nat) (x : Seg) : (s.setSeg g x).dirtySince = s.dirtySince := rfl
@[simp] theorem State.setSeg_otp (g : Nat) (x : Seg) : (s.setSeg g x).otp = s.otp := rfl
@[simp] theorem State.setSeg_lifecycle (g : Nat) (x : Seg) : (s.setSeg g x).lifecycle = s.lifecycle := rfl
@[simp] theorem State.setSeg_fusing (g : Nat) (x : Seg) : (s.setSeg g x).fusing = s.fusing := rfl
@[simp] theorem State.setSeg_flash (g : Nat) (x : Seg) : (s.setSeg g x).flash = s.flash := rfl
@[simp] theorem State.setSeg_dirs (g : Nat) (x : Seg) : (s.setSeg g x).dirs = s.dirs := rfl
@[simp] theorem State.setSeg_bootCmd (g : Nat) (x : Seg) : (s.setSeg g x).bootCmd = s.bootCmd := rfl
@[simp] theorem State.setSeg_boot (g : Nat) (x : Seg) : (s.setSeg g x).boot = s.boot := rfl
@[simp] theorem State.setSeg_tap (g : Nat) (x : Seg) : (s.setSeg g x).tap = s.tap := rfl
@[simp] theorem State.setSeg_freezeHigh (g : Nat) (x : Seg) : (s.setSeg g x).freezeHigh = s.freezeHigh := rfl
@[simp] theorem State.setSeg_xspiLow (g : Nat) (x : Seg) : (s.setSeg g x).xspiLow = s.xspiLow := rfl
@[simp] theorem State.setSeg_pllSaid (g : Nat) (x : Seg) : (s.setSeg g x).pllSaid = s.pllSaid := rfl
@[simp] theorem State.setSeg_nextFree (g : Nat) (x : Seg) : (s.setSeg g x).nextFree = s.nextFree := rfl
@[simp] theorem State.setSeg_pending (g : Nat) (x : Seg) : (s.setSeg g x).pending = s.pending := rfl
@[simp] theorem State.setSeg_word (g : Nat) (x : Seg) (c : Nat) : (s.setSeg g x).word c = s.word c := rfl
@[simp] theorem State.setSeg_get (g : Nat) (x : Seg) (c : FRef) : (s.setSeg g x).get c = s.get c := rfl
@[simp] theorem State.setSeg_on (g : Nat) (x : Seg) (c : FRef) : (s.setSeg g x).on c = s.on c := rfl
@[simp] theorem State.setSeg_port (g : Nat) (x : Seg) (k : Nat) : (s.setSeg g x).port k = s.port k := rfl
@[simp] theorem State.setSeg_link (g : Nat) (x : Seg) (k : Nat) : (s.setSeg g x).link k = s.link k := rfl
@[simp] theorem State.setSeg_arb (g : Nat) (x : Seg) (k : Nat) : (s.setSeg g x).arb k = s.arb k := rfl
@[simp] theorem State.setSeg_queue (g : Nat) (x : Seg) (k : Nat) : (s.setSeg g x).queue k = s.queue k := rfl
@[simp] theorem State.setSeg_arch (g : Nat) (x : Seg) (k : Nat) : (s.setSeg g x).arch k = s.arch k := rfl

/-! ## setArb -/

@[simp] theorem State.setArb_power (i : Nat) (x : Arb) : (s.setArb i x).power = s.power := rfl
@[simp] theorem State.setArb_clk (i : Nat) (x : Arb) : (s.setArb i x).clk = s.clk := rfl
@[simp] theorem State.setArb_member (i : Nat) (x : Arb) : (s.setArb i x).member = s.member := rfl
@[simp] theorem State.setArb_side (i : Nat) (x : Arb) : (s.setArb i x).side = s.side := rfl
@[simp] theorem State.setArb_supOut (i : Nat) (x : Arb) : (s.setArb i x).supOut = s.supOut := rfl
@[simp] theorem State.setArb_regs (i : Nat) (x : Arb) : (s.setArb i x).regs = s.regs := rfl
@[simp] theorem State.setArb_arbActive (i : Nat) (x : Arb) : (s.setArb i x).arbActive = s.arbActive := rfl
@[simp] theorem State.setArb_latches (i : Nat) (x : Arb) : (s.setArb i x).latches = s.latches := rfl
@[simp] theorem State.setArb_timers (i : Nat) (x : Arb) : (s.setArb i x).timers = s.timers := rfl
@[simp] theorem State.setArb_tb (i : Nat) (x : Arb) : (s.setArb i x).tb = s.tb := rfl
@[simp] theorem State.setArb_tbSlew (i : Nat) (x : Arb) : (s.setArb i x).tbSlew = s.tbSlew := rfl
@[simp] theorem State.setArb_tbHold (i : Nat) (x : Arb) : (s.setArb i x).tbHold = s.tbHold := rfl
@[simp] theorem State.setArb_disc (i : Nat) (x : Arb) : (s.setArb i x).disc = s.disc := rfl
@[simp] theorem State.setArb_out (i : Nat) (x : Arb) : (s.setArb i x).out = s.out := rfl
@[simp] theorem State.setArb_ports (i : Nat) (x : Arb) : (s.setArb i x).ports = s.ports := rfl
@[simp] theorem State.setArb_links (i : Nat) (x : Arb) : (s.setArb i x).links = s.links := rfl
@[simp] theorem State.setArb_lanes (i : Nat) (x : Arb) : (s.setArb i x).lanes = s.lanes := rfl
@[simp] theorem State.setArb_records (i : Nat) (x : Arb) : (s.setArb i x).records = s.records := rfl
@[simp] theorem State.setArb_discords (i : Nat) (x : Arb) : (s.setArb i x).discords = s.discords := rfl
@[simp] theorem State.setArb_synced (i : Nat) (x : Arb) : (s.setArb i x).synced = s.synced := rfl
@[simp] theorem State.setArb_noQuorum (i : Nat) (x : Arb) : (s.setArb i x).noQuorum = s.noQuorum := rfl
@[simp] theorem State.setArb_recsOut (i : Nat) (x : Arb) : (s.setArb i x).recsOut = s.recsOut := rfl
@[simp] theorem State.setArb_slotsOut (i : Nat) (x : Arb) : (s.setArb i x).slotsOut = s.slotsOut := rfl
@[simp] theorem State.setArb_ahead (i : Nat) (x : Arb) : (s.setArb i x).ahead = s.ahead := rfl
@[simp] theorem State.setArb_advances (i : Nat) (x : Arb) : (s.setArb i x).advances = s.advances := rfl
@[simp] theorem State.setArb_retention (i : Nat) (x : Arb) : (s.setArb i x).retention = s.retention := rfl
@[simp] theorem State.setArb_execs (i : Nat) (x : Arb) : (s.setArb i x).execs = s.execs := rfl
@[simp] theorem State.setArb_order (i : Nat) (x : Arb) : (s.setArb i x).order = s.order := rfl
@[simp] theorem State.setArb_segs (i : Nat) (x : Arb) : (s.setArb i x).segs = s.segs := rfl
@[simp] theorem State.setArb_locks (i : Nat) (x : Arb) : (s.setArb i x).locks = s.locks := rfl
@[simp] theorem State.setArb_queues (i : Nat) (x : Arb) : (s.setArb i x).queues = s.queues := rfl
@[simp] theorem State.setArb_qram (i : Nat) (x : Arb) : (s.setArb i x).qram = s.qram := rfl
@[simp] theorem State.setArb_ledger (i : Nat) (x : Arb) : (s.setArb i x).ledger = s.ledger := rfl
@[simp] theorem State.setArb_ledgerBad (i : Nat) (x : Arb) : (s.setArb i x).ledgerBad = s.ledgerBad := rfl
@[simp] theorem State.setArb_images (i : Nat) (x : Arb) : (s.setArb i x).images = s.images := rfl
@[simp] theorem State.setArb_span (i : Nat) (x : Arb) : (s.setArb i x).span = s.span := rfl
@[simp] theorem State.setArb_bridgeWait (i : Nat) (x : Arb) : (s.setArb i x).bridgeWait = s.bridgeWait := rfl
@[simp] theorem State.setArb_history (i : Nat) (x : Arb) : (s.setArb i x).history = s.history := rfl
@[simp] theorem State.setArb_merges (i : Nat) (x : Arb) : (s.setArb i x).merges = s.merges := rfl
@[simp] theorem State.setArb_heldNotices (i : Nat) (x : Arb) : (s.setArb i x).heldNotices = s.heldNotices := rfl
@[simp] theorem State.setArb_tests (i : Nat) (x : Arb) : (s.setArb i x).tests = s.tests := rfl
@[simp] theorem State.setArb_active (i : Nat) (x : Arb) : (s.setArb i x).active = s.active := rfl
@[simp] theorem State.setArb_errAt (i : Nat) (x : Arb) : (s.setArb i x).errAt = s.errAt := rfl
@[simp] theorem State.setArb_transients (i : Nat) (x : Arb) : (s.setArb i x).transients = s.transients := rfl
@[simp] theorem State.setArb_replaced (i : Nat) (x : Arb) : (s.setArb i x).replaced = s.replaced := rfl
@[simp] theorem State.setArb_spareUsed (i : Nat) (x : Arb) : (s.setArb i x).spareUsed = s.spareUsed := rfl
@[simp] theorem State.setArb_compat (i : Nat) (x : Arb) : (s.setArb i x).compat = s.compat := rfl
@[simp] theorem State.setArb_archs (i : Nat) (x : Arb) : (s.setArb i x).archs = s.archs := rfl
@[simp] theorem State.setArb_busNs (i : Nat) (x : Arb) : (s.setArb i x).busNs = s.busNs := rfl
@[simp] theorem State.setArb_imem (i : Nat) (x : Arb) : (s.setArb i x).imem = s.imem := rfl
@[simp] theorem State.setArb_dmem (i : Nat) (x : Arb) : (s.setArb i x).dmem = s.dmem := rfl
@[simp] theorem State.setArb_dmemBad (i : Nat) (x : Arb) : (s.setArb i x).dmemBad = s.dmemBad := rfl
@[simp] theorem State.setArb_imemBad (i : Nat) (x : Arb) : (s.setArb i x).imemBad = s.imemBad := rfl
@[simp] theorem State.setArb_trace (i : Nat) (x : Arb) : (s.setArb i x).trace = s.trace := rfl
@[simp] theorem State.setArb_traceNum (i : Nat) (x : Arb) : (s.setArb i x).traceNum = s.traceNum := rfl
@[simp] theorem State.setArb_tracePost (i : Nat) (x : Arb) : (s.setArb i x).tracePost = s.tracePost := rfl
@[simp] theorem State.setArb_traceAt (i : Nat) (x : Arb) : (s.setArb i x).traceAt = s.traceAt := rfl
@[simp] theorem State.setArb_restarts (i : Nat) (x : Arb) : (s.setArb i x).restarts = s.restarts := rfl
@[simp] theorem State.setArb_commitRuns (i : Nat) (x : Arb) : (s.setArb i x).commitRuns = s.commitRuns := rfl
@[simp] theorem State.setArb_migrating (i : Nat) (x : Arb) : (s.setArb i x).migrating = s.migrating := rfl
@[simp] theorem State.setArb_heldTokens (i : Nat) (x : Arb) : (s.setArb i x).heldTokens = s.heldTokens := rfl
@[simp] theorem State.setArb_courSlots (i : Nat) (x : Arb) : (s.setArb i x).courSlots = s.courSlots := rfl
@[simp] theorem State.setArb_chains (i : Nat) (x : Arb) : (s.setArb i x).chains = s.chains := rfl
@[simp] theorem State.setArb_sched (i : Nat) (x : Arb) : (s.setArb i x).sched = s.sched := rfl
@[simp] theorem State.setArb_lastGasp (i : Nat) (x : Arb) : (s.setArb i x).lastGasp = s.lastGasp := rfl
@[simp] theorem State.setArb_dirtySince (i : Nat) (x : Arb) : (s.setArb i x).dirtySince = s.dirtySince := rfl
@[simp] theorem State.setArb_otp (i : Nat) (x : Arb) : (s.setArb i x).otp = s.otp := rfl
@[simp] theorem State.setArb_lifecycle (i : Nat) (x : Arb) : (s.setArb i x).lifecycle = s.lifecycle := rfl
@[simp] theorem State.setArb_fusing (i : Nat) (x : Arb) : (s.setArb i x).fusing = s.fusing := rfl
@[simp] theorem State.setArb_flash (i : Nat) (x : Arb) : (s.setArb i x).flash = s.flash := rfl
@[simp] theorem State.setArb_dirs (i : Nat) (x : Arb) : (s.setArb i x).dirs = s.dirs := rfl
@[simp] theorem State.setArb_bootCmd (i : Nat) (x : Arb) : (s.setArb i x).bootCmd = s.bootCmd := rfl
@[simp] theorem State.setArb_boot (i : Nat) (x : Arb) : (s.setArb i x).boot = s.boot := rfl
@[simp] theorem State.setArb_tap (i : Nat) (x : Arb) : (s.setArb i x).tap = s.tap := rfl
@[simp] theorem State.setArb_freezeHigh (i : Nat) (x : Arb) : (s.setArb i x).freezeHigh = s.freezeHigh := rfl
@[simp] theorem State.setArb_xspiLow (i : Nat) (x : Arb) : (s.setArb i x).xspiLow = s.xspiLow := rfl
@[simp] theorem State.setArb_pllSaid (i : Nat) (x : Arb) : (s.setArb i x).pllSaid = s.pllSaid := rfl
@[simp] theorem State.setArb_nextFree (i : Nat) (x : Arb) : (s.setArb i x).nextFree = s.nextFree := rfl
@[simp] theorem State.setArb_pending (i : Nat) (x : Arb) : (s.setArb i x).pending = s.pending := rfl
@[simp] theorem State.setArb_word (i : Nat) (x : Arb) (c : Nat) : (s.setArb i x).word c = s.word c := rfl
@[simp] theorem State.setArb_get (i : Nat) (x : Arb) (c : FRef) : (s.setArb i x).get c = s.get c := rfl
@[simp] theorem State.setArb_on (i : Nat) (x : Arb) (c : FRef) : (s.setArb i x).on c = s.on c := rfl
@[simp] theorem State.setArb_port (i : Nat) (x : Arb) (k : Nat) : (s.setArb i x).port k = s.port k := rfl
@[simp] theorem State.setArb_link (i : Nat) (x : Arb) (k : Nat) : (s.setArb i x).link k = s.link k := rfl
@[simp] theorem State.setArb_seg (i : Nat) (x : Arb) (k : Nat) : (s.setArb i x).seg k = s.seg k := rfl
@[simp] theorem State.setArb_queue (i : Nat) (x : Arb) (k : Nat) : (s.setArb i x).queue k = s.queue k := rfl
@[simp] theorem State.setArb_arch (i : Nat) (x : Arb) (k : Nat) : (s.setArb i x).arch k = s.arch k := rfl

/-! ## setQueue -/

@[simp] theorem State.setQueue_power (q : Nat) (x : Queue) : (s.setQueue q x).power = s.power := rfl
@[simp] theorem State.setQueue_clk (q : Nat) (x : Queue) : (s.setQueue q x).clk = s.clk := rfl
@[simp] theorem State.setQueue_member (q : Nat) (x : Queue) : (s.setQueue q x).member = s.member := rfl
@[simp] theorem State.setQueue_side (q : Nat) (x : Queue) : (s.setQueue q x).side = s.side := rfl
@[simp] theorem State.setQueue_supOut (q : Nat) (x : Queue) : (s.setQueue q x).supOut = s.supOut := rfl
@[simp] theorem State.setQueue_regs (q : Nat) (x : Queue) : (s.setQueue q x).regs = s.regs := rfl
@[simp] theorem State.setQueue_arbActive (q : Nat) (x : Queue) : (s.setQueue q x).arbActive = s.arbActive := rfl
@[simp] theorem State.setQueue_latches (q : Nat) (x : Queue) : (s.setQueue q x).latches = s.latches := rfl
@[simp] theorem State.setQueue_timers (q : Nat) (x : Queue) : (s.setQueue q x).timers = s.timers := rfl
@[simp] theorem State.setQueue_tb (q : Nat) (x : Queue) : (s.setQueue q x).tb = s.tb := rfl
@[simp] theorem State.setQueue_tbSlew (q : Nat) (x : Queue) : (s.setQueue q x).tbSlew = s.tbSlew := rfl
@[simp] theorem State.setQueue_tbHold (q : Nat) (x : Queue) : (s.setQueue q x).tbHold = s.tbHold := rfl
@[simp] theorem State.setQueue_disc (q : Nat) (x : Queue) : (s.setQueue q x).disc = s.disc := rfl
@[simp] theorem State.setQueue_out (q : Nat) (x : Queue) : (s.setQueue q x).out = s.out := rfl
@[simp] theorem State.setQueue_ports (q : Nat) (x : Queue) : (s.setQueue q x).ports = s.ports := rfl
@[simp] theorem State.setQueue_links (q : Nat) (x : Queue) : (s.setQueue q x).links = s.links := rfl
@[simp] theorem State.setQueue_lanes (q : Nat) (x : Queue) : (s.setQueue q x).lanes = s.lanes := rfl
@[simp] theorem State.setQueue_records (q : Nat) (x : Queue) : (s.setQueue q x).records = s.records := rfl
@[simp] theorem State.setQueue_discords (q : Nat) (x : Queue) : (s.setQueue q x).discords = s.discords := rfl
@[simp] theorem State.setQueue_synced (q : Nat) (x : Queue) : (s.setQueue q x).synced = s.synced := rfl
@[simp] theorem State.setQueue_noQuorum (q : Nat) (x : Queue) : (s.setQueue q x).noQuorum = s.noQuorum := rfl
@[simp] theorem State.setQueue_recsOut (q : Nat) (x : Queue) : (s.setQueue q x).recsOut = s.recsOut := rfl
@[simp] theorem State.setQueue_slotsOut (q : Nat) (x : Queue) : (s.setQueue q x).slotsOut = s.slotsOut := rfl
@[simp] theorem State.setQueue_ahead (q : Nat) (x : Queue) : (s.setQueue q x).ahead = s.ahead := rfl
@[simp] theorem State.setQueue_advances (q : Nat) (x : Queue) : (s.setQueue q x).advances = s.advances := rfl
@[simp] theorem State.setQueue_retention (q : Nat) (x : Queue) : (s.setQueue q x).retention = s.retention := rfl
@[simp] theorem State.setQueue_execs (q : Nat) (x : Queue) : (s.setQueue q x).execs = s.execs := rfl
@[simp] theorem State.setQueue_order (q : Nat) (x : Queue) : (s.setQueue q x).order = s.order := rfl
@[simp] theorem State.setQueue_segs (q : Nat) (x : Queue) : (s.setQueue q x).segs = s.segs := rfl
@[simp] theorem State.setQueue_locks (q : Nat) (x : Queue) : (s.setQueue q x).locks = s.locks := rfl
@[simp] theorem State.setQueue_arbs (q : Nat) (x : Queue) : (s.setQueue q x).arbs = s.arbs := rfl
@[simp] theorem State.setQueue_qram (q : Nat) (x : Queue) : (s.setQueue q x).qram = s.qram := rfl
@[simp] theorem State.setQueue_ledger (q : Nat) (x : Queue) : (s.setQueue q x).ledger = s.ledger := rfl
@[simp] theorem State.setQueue_ledgerBad (q : Nat) (x : Queue) : (s.setQueue q x).ledgerBad = s.ledgerBad := rfl
@[simp] theorem State.setQueue_images (q : Nat) (x : Queue) : (s.setQueue q x).images = s.images := rfl
@[simp] theorem State.setQueue_span (q : Nat) (x : Queue) : (s.setQueue q x).span = s.span := rfl
@[simp] theorem State.setQueue_bridgeWait (q : Nat) (x : Queue) : (s.setQueue q x).bridgeWait = s.bridgeWait := rfl
@[simp] theorem State.setQueue_history (q : Nat) (x : Queue) : (s.setQueue q x).history = s.history := rfl
@[simp] theorem State.setQueue_merges (q : Nat) (x : Queue) : (s.setQueue q x).merges = s.merges := rfl
@[simp] theorem State.setQueue_heldNotices (q : Nat) (x : Queue) : (s.setQueue q x).heldNotices = s.heldNotices := rfl
@[simp] theorem State.setQueue_tests (q : Nat) (x : Queue) : (s.setQueue q x).tests = s.tests := rfl
@[simp] theorem State.setQueue_active (q : Nat) (x : Queue) : (s.setQueue q x).active = s.active := rfl
@[simp] theorem State.setQueue_errAt (q : Nat) (x : Queue) : (s.setQueue q x).errAt = s.errAt := rfl
@[simp] theorem State.setQueue_transients (q : Nat) (x : Queue) : (s.setQueue q x).transients = s.transients := rfl
@[simp] theorem State.setQueue_replaced (q : Nat) (x : Queue) : (s.setQueue q x).replaced = s.replaced := rfl
@[simp] theorem State.setQueue_spareUsed (q : Nat) (x : Queue) : (s.setQueue q x).spareUsed = s.spareUsed := rfl
@[simp] theorem State.setQueue_compat (q : Nat) (x : Queue) : (s.setQueue q x).compat = s.compat := rfl
@[simp] theorem State.setQueue_archs (q : Nat) (x : Queue) : (s.setQueue q x).archs = s.archs := rfl
@[simp] theorem State.setQueue_busNs (q : Nat) (x : Queue) : (s.setQueue q x).busNs = s.busNs := rfl
@[simp] theorem State.setQueue_imem (q : Nat) (x : Queue) : (s.setQueue q x).imem = s.imem := rfl
@[simp] theorem State.setQueue_dmem (q : Nat) (x : Queue) : (s.setQueue q x).dmem = s.dmem := rfl
@[simp] theorem State.setQueue_dmemBad (q : Nat) (x : Queue) : (s.setQueue q x).dmemBad = s.dmemBad := rfl
@[simp] theorem State.setQueue_imemBad (q : Nat) (x : Queue) : (s.setQueue q x).imemBad = s.imemBad := rfl
@[simp] theorem State.setQueue_trace (q : Nat) (x : Queue) : (s.setQueue q x).trace = s.trace := rfl
@[simp] theorem State.setQueue_traceNum (q : Nat) (x : Queue) : (s.setQueue q x).traceNum = s.traceNum := rfl
@[simp] theorem State.setQueue_tracePost (q : Nat) (x : Queue) : (s.setQueue q x).tracePost = s.tracePost := rfl
@[simp] theorem State.setQueue_traceAt (q : Nat) (x : Queue) : (s.setQueue q x).traceAt = s.traceAt := rfl
@[simp] theorem State.setQueue_restarts (q : Nat) (x : Queue) : (s.setQueue q x).restarts = s.restarts := rfl
@[simp] theorem State.setQueue_commitRuns (q : Nat) (x : Queue) : (s.setQueue q x).commitRuns = s.commitRuns := rfl
@[simp] theorem State.setQueue_migrating (q : Nat) (x : Queue) : (s.setQueue q x).migrating = s.migrating := rfl
@[simp] theorem State.setQueue_heldTokens (q : Nat) (x : Queue) : (s.setQueue q x).heldTokens = s.heldTokens := rfl
@[simp] theorem State.setQueue_courSlots (q : Nat) (x : Queue) : (s.setQueue q x).courSlots = s.courSlots := rfl
@[simp] theorem State.setQueue_chains (q : Nat) (x : Queue) : (s.setQueue q x).chains = s.chains := rfl
@[simp] theorem State.setQueue_sched (q : Nat) (x : Queue) : (s.setQueue q x).sched = s.sched := rfl
@[simp] theorem State.setQueue_lastGasp (q : Nat) (x : Queue) : (s.setQueue q x).lastGasp = s.lastGasp := rfl
@[simp] theorem State.setQueue_dirtySince (q : Nat) (x : Queue) : (s.setQueue q x).dirtySince = s.dirtySince := rfl
@[simp] theorem State.setQueue_otp (q : Nat) (x : Queue) : (s.setQueue q x).otp = s.otp := rfl
@[simp] theorem State.setQueue_lifecycle (q : Nat) (x : Queue) : (s.setQueue q x).lifecycle = s.lifecycle := rfl
@[simp] theorem State.setQueue_fusing (q : Nat) (x : Queue) : (s.setQueue q x).fusing = s.fusing := rfl
@[simp] theorem State.setQueue_flash (q : Nat) (x : Queue) : (s.setQueue q x).flash = s.flash := rfl
@[simp] theorem State.setQueue_dirs (q : Nat) (x : Queue) : (s.setQueue q x).dirs = s.dirs := rfl
@[simp] theorem State.setQueue_bootCmd (q : Nat) (x : Queue) : (s.setQueue q x).bootCmd = s.bootCmd := rfl
@[simp] theorem State.setQueue_boot (q : Nat) (x : Queue) : (s.setQueue q x).boot = s.boot := rfl
@[simp] theorem State.setQueue_tap (q : Nat) (x : Queue) : (s.setQueue q x).tap = s.tap := rfl
@[simp] theorem State.setQueue_freezeHigh (q : Nat) (x : Queue) : (s.setQueue q x).freezeHigh = s.freezeHigh := rfl
@[simp] theorem State.setQueue_xspiLow (q : Nat) (x : Queue) : (s.setQueue q x).xspiLow = s.xspiLow := rfl
@[simp] theorem State.setQueue_pllSaid (q : Nat) (x : Queue) : (s.setQueue q x).pllSaid = s.pllSaid := rfl
@[simp] theorem State.setQueue_nextFree (q : Nat) (x : Queue) : (s.setQueue q x).nextFree = s.nextFree := rfl
@[simp] theorem State.setQueue_pending (q : Nat) (x : Queue) : (s.setQueue q x).pending = s.pending := rfl
@[simp] theorem State.setQueue_word (q : Nat) (x : Queue) (c : Nat) : (s.setQueue q x).word c = s.word c := rfl
@[simp] theorem State.setQueue_get (q : Nat) (x : Queue) (c : FRef) : (s.setQueue q x).get c = s.get c := rfl
@[simp] theorem State.setQueue_on (q : Nat) (x : Queue) (c : FRef) : (s.setQueue q x).on c = s.on c := rfl
@[simp] theorem State.setQueue_port (q : Nat) (x : Queue) (k : Nat) : (s.setQueue q x).port k = s.port k := rfl
@[simp] theorem State.setQueue_link (q : Nat) (x : Queue) (k : Nat) : (s.setQueue q x).link k = s.link k := rfl
@[simp] theorem State.setQueue_seg (q : Nat) (x : Queue) (k : Nat) : (s.setQueue q x).seg k = s.seg k := rfl
@[simp] theorem State.setQueue_arb (q : Nat) (x : Queue) (k : Nat) : (s.setQueue q x).arb k = s.arb k := rfl
@[simp] theorem State.setQueue_arch (q : Nat) (x : Queue) (k : Nat) : (s.setQueue q x).arch k = s.arch k := rfl

/-! ## setArch -/

@[simp] theorem State.setArch_power (n : Nat) (x : Arch) : (s.setArch n x).power = s.power := rfl
@[simp] theorem State.setArch_clk (n : Nat) (x : Arch) : (s.setArch n x).clk = s.clk := rfl
@[simp] theorem State.setArch_member (n : Nat) (x : Arch) : (s.setArch n x).member = s.member := rfl
@[simp] theorem State.setArch_side (n : Nat) (x : Arch) : (s.setArch n x).side = s.side := rfl
@[simp] theorem State.setArch_supOut (n : Nat) (x : Arch) : (s.setArch n x).supOut = s.supOut := rfl
@[simp] theorem State.setArch_regs (n : Nat) (x : Arch) : (s.setArch n x).regs = s.regs := rfl
@[simp] theorem State.setArch_arbActive (n : Nat) (x : Arch) : (s.setArch n x).arbActive = s.arbActive := rfl
@[simp] theorem State.setArch_latches (n : Nat) (x : Arch) : (s.setArch n x).latches = s.latches := rfl
@[simp] theorem State.setArch_timers (n : Nat) (x : Arch) : (s.setArch n x).timers = s.timers := rfl
@[simp] theorem State.setArch_tb (n : Nat) (x : Arch) : (s.setArch n x).tb = s.tb := rfl
@[simp] theorem State.setArch_tbSlew (n : Nat) (x : Arch) : (s.setArch n x).tbSlew = s.tbSlew := rfl
@[simp] theorem State.setArch_tbHold (n : Nat) (x : Arch) : (s.setArch n x).tbHold = s.tbHold := rfl
@[simp] theorem State.setArch_disc (n : Nat) (x : Arch) : (s.setArch n x).disc = s.disc := rfl
@[simp] theorem State.setArch_out (n : Nat) (x : Arch) : (s.setArch n x).out = s.out := rfl
@[simp] theorem State.setArch_ports (n : Nat) (x : Arch) : (s.setArch n x).ports = s.ports := rfl
@[simp] theorem State.setArch_links (n : Nat) (x : Arch) : (s.setArch n x).links = s.links := rfl
@[simp] theorem State.setArch_lanes (n : Nat) (x : Arch) : (s.setArch n x).lanes = s.lanes := rfl
@[simp] theorem State.setArch_records (n : Nat) (x : Arch) : (s.setArch n x).records = s.records := rfl
@[simp] theorem State.setArch_discords (n : Nat) (x : Arch) : (s.setArch n x).discords = s.discords := rfl
@[simp] theorem State.setArch_synced (n : Nat) (x : Arch) : (s.setArch n x).synced = s.synced := rfl
@[simp] theorem State.setArch_noQuorum (n : Nat) (x : Arch) : (s.setArch n x).noQuorum = s.noQuorum := rfl
@[simp] theorem State.setArch_recsOut (n : Nat) (x : Arch) : (s.setArch n x).recsOut = s.recsOut := rfl
@[simp] theorem State.setArch_slotsOut (n : Nat) (x : Arch) : (s.setArch n x).slotsOut = s.slotsOut := rfl
@[simp] theorem State.setArch_ahead (n : Nat) (x : Arch) : (s.setArch n x).ahead = s.ahead := rfl
@[simp] theorem State.setArch_advances (n : Nat) (x : Arch) : (s.setArch n x).advances = s.advances := rfl
@[simp] theorem State.setArch_retention (n : Nat) (x : Arch) : (s.setArch n x).retention = s.retention := rfl
@[simp] theorem State.setArch_execs (n : Nat) (x : Arch) : (s.setArch n x).execs = s.execs := rfl
@[simp] theorem State.setArch_order (n : Nat) (x : Arch) : (s.setArch n x).order = s.order := rfl
@[simp] theorem State.setArch_segs (n : Nat) (x : Arch) : (s.setArch n x).segs = s.segs := rfl
@[simp] theorem State.setArch_locks (n : Nat) (x : Arch) : (s.setArch n x).locks = s.locks := rfl
@[simp] theorem State.setArch_arbs (n : Nat) (x : Arch) : (s.setArch n x).arbs = s.arbs := rfl
@[simp] theorem State.setArch_queues (n : Nat) (x : Arch) : (s.setArch n x).queues = s.queues := rfl
@[simp] theorem State.setArch_qram (n : Nat) (x : Arch) : (s.setArch n x).qram = s.qram := rfl
@[simp] theorem State.setArch_ledger (n : Nat) (x : Arch) : (s.setArch n x).ledger = s.ledger := rfl
@[simp] theorem State.setArch_ledgerBad (n : Nat) (x : Arch) : (s.setArch n x).ledgerBad = s.ledgerBad := rfl
@[simp] theorem State.setArch_images (n : Nat) (x : Arch) : (s.setArch n x).images = s.images := rfl
@[simp] theorem State.setArch_span (n : Nat) (x : Arch) : (s.setArch n x).span = s.span := rfl
@[simp] theorem State.setArch_bridgeWait (n : Nat) (x : Arch) : (s.setArch n x).bridgeWait = s.bridgeWait := rfl
@[simp] theorem State.setArch_history (n : Nat) (x : Arch) : (s.setArch n x).history = s.history := rfl
@[simp] theorem State.setArch_merges (n : Nat) (x : Arch) : (s.setArch n x).merges = s.merges := rfl
@[simp] theorem State.setArch_heldNotices (n : Nat) (x : Arch) : (s.setArch n x).heldNotices = s.heldNotices := rfl
@[simp] theorem State.setArch_tests (n : Nat) (x : Arch) : (s.setArch n x).tests = s.tests := rfl
@[simp] theorem State.setArch_active (n : Nat) (x : Arch) : (s.setArch n x).active = s.active := rfl
@[simp] theorem State.setArch_errAt (n : Nat) (x : Arch) : (s.setArch n x).errAt = s.errAt := rfl
@[simp] theorem State.setArch_transients (n : Nat) (x : Arch) : (s.setArch n x).transients = s.transients := rfl
@[simp] theorem State.setArch_replaced (n : Nat) (x : Arch) : (s.setArch n x).replaced = s.replaced := rfl
@[simp] theorem State.setArch_spareUsed (n : Nat) (x : Arch) : (s.setArch n x).spareUsed = s.spareUsed := rfl
@[simp] theorem State.setArch_compat (n : Nat) (x : Arch) : (s.setArch n x).compat = s.compat := rfl
@[simp] theorem State.setArch_busNs (n : Nat) (x : Arch) : (s.setArch n x).busNs = s.busNs := rfl
@[simp] theorem State.setArch_imem (n : Nat) (x : Arch) : (s.setArch n x).imem = s.imem := rfl
@[simp] theorem State.setArch_dmem (n : Nat) (x : Arch) : (s.setArch n x).dmem = s.dmem := rfl
@[simp] theorem State.setArch_dmemBad (n : Nat) (x : Arch) : (s.setArch n x).dmemBad = s.dmemBad := rfl
@[simp] theorem State.setArch_imemBad (n : Nat) (x : Arch) : (s.setArch n x).imemBad = s.imemBad := rfl
@[simp] theorem State.setArch_trace (n : Nat) (x : Arch) : (s.setArch n x).trace = s.trace := rfl
@[simp] theorem State.setArch_traceNum (n : Nat) (x : Arch) : (s.setArch n x).traceNum = s.traceNum := rfl
@[simp] theorem State.setArch_tracePost (n : Nat) (x : Arch) : (s.setArch n x).tracePost = s.tracePost := rfl
@[simp] theorem State.setArch_traceAt (n : Nat) (x : Arch) : (s.setArch n x).traceAt = s.traceAt := rfl
@[simp] theorem State.setArch_restarts (n : Nat) (x : Arch) : (s.setArch n x).restarts = s.restarts := rfl
@[simp] theorem State.setArch_commitRuns (n : Nat) (x : Arch) : (s.setArch n x).commitRuns = s.commitRuns := rfl
@[simp] theorem State.setArch_migrating (n : Nat) (x : Arch) : (s.setArch n x).migrating = s.migrating := rfl
@[simp] theorem State.setArch_heldTokens (n : Nat) (x : Arch) : (s.setArch n x).heldTokens = s.heldTokens := rfl
@[simp] theorem State.setArch_courSlots (n : Nat) (x : Arch) : (s.setArch n x).courSlots = s.courSlots := rfl
@[simp] theorem State.setArch_chains (n : Nat) (x : Arch) : (s.setArch n x).chains = s.chains := rfl
@[simp] theorem State.setArch_sched (n : Nat) (x : Arch) : (s.setArch n x).sched = s.sched := rfl
@[simp] theorem State.setArch_lastGasp (n : Nat) (x : Arch) : (s.setArch n x).lastGasp = s.lastGasp := rfl
@[simp] theorem State.setArch_dirtySince (n : Nat) (x : Arch) : (s.setArch n x).dirtySince = s.dirtySince := rfl
@[simp] theorem State.setArch_otp (n : Nat) (x : Arch) : (s.setArch n x).otp = s.otp := rfl
@[simp] theorem State.setArch_lifecycle (n : Nat) (x : Arch) : (s.setArch n x).lifecycle = s.lifecycle := rfl
@[simp] theorem State.setArch_fusing (n : Nat) (x : Arch) : (s.setArch n x).fusing = s.fusing := rfl
@[simp] theorem State.setArch_flash (n : Nat) (x : Arch) : (s.setArch n x).flash = s.flash := rfl
@[simp] theorem State.setArch_dirs (n : Nat) (x : Arch) : (s.setArch n x).dirs = s.dirs := rfl
@[simp] theorem State.setArch_bootCmd (n : Nat) (x : Arch) : (s.setArch n x).bootCmd = s.bootCmd := rfl
@[simp] theorem State.setArch_boot (n : Nat) (x : Arch) : (s.setArch n x).boot = s.boot := rfl
@[simp] theorem State.setArch_tap (n : Nat) (x : Arch) : (s.setArch n x).tap = s.tap := rfl
@[simp] theorem State.setArch_freezeHigh (n : Nat) (x : Arch) : (s.setArch n x).freezeHigh = s.freezeHigh := rfl
@[simp] theorem State.setArch_xspiLow (n : Nat) (x : Arch) : (s.setArch n x).xspiLow = s.xspiLow := rfl
@[simp] theorem State.setArch_pllSaid (n : Nat) (x : Arch) : (s.setArch n x).pllSaid = s.pllSaid := rfl
@[simp] theorem State.setArch_nextFree (n : Nat) (x : Arch) : (s.setArch n x).nextFree = s.nextFree := rfl
@[simp] theorem State.setArch_pending (n : Nat) (x : Arch) : (s.setArch n x).pending = s.pending := rfl
@[simp] theorem State.setArch_word (n : Nat) (x : Arch) (c : Nat) : (s.setArch n x).word c = s.word c := rfl
@[simp] theorem State.setArch_get (n : Nat) (x : Arch) (c : FRef) : (s.setArch n x).get c = s.get c := rfl
@[simp] theorem State.setArch_on (n : Nat) (x : Arch) (c : FRef) : (s.setArch n x).on c = s.on c := rfl
@[simp] theorem State.setArch_port (n : Nat) (x : Arch) (k : Nat) : (s.setArch n x).port k = s.port k := rfl
@[simp] theorem State.setArch_link (n : Nat) (x : Arch) (k : Nat) : (s.setArch n x).link k = s.link k := rfl
@[simp] theorem State.setArch_seg (n : Nat) (x : Arch) (k : Nat) : (s.setArch n x).seg k = s.seg k := rfl
@[simp] theorem State.setArch_arb (n : Nat) (x : Arch) (k : Nat) : (s.setArch n x).arb k = s.arb k := rfl
@[simp] theorem State.setArch_queue (n : Nat) (x : Arch) (k : Nat) : (s.setArch n x).queue k = s.queue k := rfl

/-! ## disarm -/

@[simp] theorem State.disarm_power (t : Timer) : (s.disarm t).power = s.power := rfl
@[simp] theorem State.disarm_clk (t : Timer) : (s.disarm t).clk = s.clk := rfl
@[simp] theorem State.disarm_member (t : Timer) : (s.disarm t).member = s.member := rfl
@[simp] theorem State.disarm_side (t : Timer) : (s.disarm t).side = s.side := rfl
@[simp] theorem State.disarm_supOut (t : Timer) : (s.disarm t).supOut = s.supOut := rfl
@[simp] theorem State.disarm_regs (t : Timer) : (s.disarm t).regs = s.regs := rfl
@[simp] theorem State.disarm_arbActive (t : Timer) : (s.disarm t).arbActive = s.arbActive := rfl
@[simp] theorem State.disarm_latches (t : Timer) : (s.disarm t).latches = s.latches := rfl
@[simp] theorem State.disarm_tb (t : Timer) : (s.disarm t).tb = s.tb := rfl
@[simp] theorem State.disarm_tbSlew (t : Timer) : (s.disarm t).tbSlew = s.tbSlew := rfl
@[simp] theorem State.disarm_tbHold (t : Timer) : (s.disarm t).tbHold = s.tbHold := rfl
@[simp] theorem State.disarm_disc (t : Timer) : (s.disarm t).disc = s.disc := rfl
@[simp] theorem State.disarm_out (t : Timer) : (s.disarm t).out = s.out := rfl
@[simp] theorem State.disarm_ports (t : Timer) : (s.disarm t).ports = s.ports := rfl
@[simp] theorem State.disarm_links (t : Timer) : (s.disarm t).links = s.links := rfl
@[simp] theorem State.disarm_lanes (t : Timer) : (s.disarm t).lanes = s.lanes := rfl
@[simp] theorem State.disarm_records (t : Timer) : (s.disarm t).records = s.records := rfl
@[simp] theorem State.disarm_discords (t : Timer) : (s.disarm t).discords = s.discords := rfl
@[simp] theorem State.disarm_synced (t : Timer) : (s.disarm t).synced = s.synced := rfl
@[simp] theorem State.disarm_noQuorum (t : Timer) : (s.disarm t).noQuorum = s.noQuorum := rfl
@[simp] theorem State.disarm_recsOut (t : Timer) : (s.disarm t).recsOut = s.recsOut := rfl
@[simp] theorem State.disarm_slotsOut (t : Timer) : (s.disarm t).slotsOut = s.slotsOut := rfl
@[simp] theorem State.disarm_ahead (t : Timer) : (s.disarm t).ahead = s.ahead := rfl
@[simp] theorem State.disarm_advances (t : Timer) : (s.disarm t).advances = s.advances := rfl
@[simp] theorem State.disarm_retention (t : Timer) : (s.disarm t).retention = s.retention := rfl
@[simp] theorem State.disarm_execs (t : Timer) : (s.disarm t).execs = s.execs := rfl
@[simp] theorem State.disarm_order (t : Timer) : (s.disarm t).order = s.order := rfl
@[simp] theorem State.disarm_segs (t : Timer) : (s.disarm t).segs = s.segs := rfl
@[simp] theorem State.disarm_locks (t : Timer) : (s.disarm t).locks = s.locks := rfl
@[simp] theorem State.disarm_arbs (t : Timer) : (s.disarm t).arbs = s.arbs := rfl
@[simp] theorem State.disarm_queues (t : Timer) : (s.disarm t).queues = s.queues := rfl
@[simp] theorem State.disarm_qram (t : Timer) : (s.disarm t).qram = s.qram := rfl
@[simp] theorem State.disarm_ledger (t : Timer) : (s.disarm t).ledger = s.ledger := rfl
@[simp] theorem State.disarm_ledgerBad (t : Timer) : (s.disarm t).ledgerBad = s.ledgerBad := rfl
@[simp] theorem State.disarm_images (t : Timer) : (s.disarm t).images = s.images := rfl
@[simp] theorem State.disarm_span (t : Timer) : (s.disarm t).span = s.span := rfl
@[simp] theorem State.disarm_bridgeWait (t : Timer) : (s.disarm t).bridgeWait = s.bridgeWait := rfl
@[simp] theorem State.disarm_history (t : Timer) : (s.disarm t).history = s.history := rfl
@[simp] theorem State.disarm_merges (t : Timer) : (s.disarm t).merges = s.merges := rfl
@[simp] theorem State.disarm_heldNotices (t : Timer) : (s.disarm t).heldNotices = s.heldNotices := rfl
@[simp] theorem State.disarm_tests (t : Timer) : (s.disarm t).tests = s.tests := rfl
@[simp] theorem State.disarm_active (t : Timer) : (s.disarm t).active = s.active := rfl
@[simp] theorem State.disarm_errAt (t : Timer) : (s.disarm t).errAt = s.errAt := rfl
@[simp] theorem State.disarm_transients (t : Timer) : (s.disarm t).transients = s.transients := rfl
@[simp] theorem State.disarm_replaced (t : Timer) : (s.disarm t).replaced = s.replaced := rfl
@[simp] theorem State.disarm_spareUsed (t : Timer) : (s.disarm t).spareUsed = s.spareUsed := rfl
@[simp] theorem State.disarm_compat (t : Timer) : (s.disarm t).compat = s.compat := rfl
@[simp] theorem State.disarm_archs (t : Timer) : (s.disarm t).archs = s.archs := rfl
@[simp] theorem State.disarm_busNs (t : Timer) : (s.disarm t).busNs = s.busNs := rfl
@[simp] theorem State.disarm_imem (t : Timer) : (s.disarm t).imem = s.imem := rfl
@[simp] theorem State.disarm_dmem (t : Timer) : (s.disarm t).dmem = s.dmem := rfl
@[simp] theorem State.disarm_dmemBad (t : Timer) : (s.disarm t).dmemBad = s.dmemBad := rfl
@[simp] theorem State.disarm_imemBad (t : Timer) : (s.disarm t).imemBad = s.imemBad := rfl
@[simp] theorem State.disarm_trace (t : Timer) : (s.disarm t).trace = s.trace := rfl
@[simp] theorem State.disarm_traceNum (t : Timer) : (s.disarm t).traceNum = s.traceNum := rfl
@[simp] theorem State.disarm_tracePost (t : Timer) : (s.disarm t).tracePost = s.tracePost := rfl
@[simp] theorem State.disarm_traceAt (t : Timer) : (s.disarm t).traceAt = s.traceAt := rfl
@[simp] theorem State.disarm_restarts (t : Timer) : (s.disarm t).restarts = s.restarts := rfl
@[simp] theorem State.disarm_commitRuns (t : Timer) : (s.disarm t).commitRuns = s.commitRuns := rfl
@[simp] theorem State.disarm_migrating (t : Timer) : (s.disarm t).migrating = s.migrating := rfl
@[simp] theorem State.disarm_heldTokens (t : Timer) : (s.disarm t).heldTokens = s.heldTokens := rfl
@[simp] theorem State.disarm_courSlots (t : Timer) : (s.disarm t).courSlots = s.courSlots := rfl
@[simp] theorem State.disarm_chains (t : Timer) : (s.disarm t).chains = s.chains := rfl
@[simp] theorem State.disarm_sched (t : Timer) : (s.disarm t).sched = s.sched := rfl
@[simp] theorem State.disarm_lastGasp (t : Timer) : (s.disarm t).lastGasp = s.lastGasp := rfl
@[simp] theorem State.disarm_dirtySince (t : Timer) : (s.disarm t).dirtySince = s.dirtySince := rfl
@[simp] theorem State.disarm_otp (t : Timer) : (s.disarm t).otp = s.otp := rfl
@[simp] theorem State.disarm_lifecycle (t : Timer) : (s.disarm t).lifecycle = s.lifecycle := rfl
@[simp] theorem State.disarm_fusing (t : Timer) : (s.disarm t).fusing = s.fusing := rfl
@[simp] theorem State.disarm_flash (t : Timer) : (s.disarm t).flash = s.flash := rfl
@[simp] theorem State.disarm_dirs (t : Timer) : (s.disarm t).dirs = s.dirs := rfl
@[simp] theorem State.disarm_bootCmd (t : Timer) : (s.disarm t).bootCmd = s.bootCmd := rfl
@[simp] theorem State.disarm_boot (t : Timer) : (s.disarm t).boot = s.boot := rfl
@[simp] theorem State.disarm_tap (t : Timer) : (s.disarm t).tap = s.tap := rfl
@[simp] theorem State.disarm_freezeHigh (t : Timer) : (s.disarm t).freezeHigh = s.freezeHigh := rfl
@[simp] theorem State.disarm_xspiLow (t : Timer) : (s.disarm t).xspiLow = s.xspiLow := rfl
@[simp] theorem State.disarm_pllSaid (t : Timer) : (s.disarm t).pllSaid = s.pllSaid := rfl
@[simp] theorem State.disarm_nextFree (t : Timer) : (s.disarm t).nextFree = s.nextFree := rfl
@[simp] theorem State.disarm_pending (t : Timer) : (s.disarm t).pending = s.pending := rfl
@[simp] theorem State.disarm_word (t : Timer) (c : Nat) : (s.disarm t).word c = s.word c := rfl
@[simp] theorem State.disarm_get (t : Timer) (c : FRef) : (s.disarm t).get c = s.get c := rfl
@[simp] theorem State.disarm_on (t : Timer) (c : FRef) : (s.disarm t).on c = s.on c := rfl
@[simp] theorem State.disarm_port (t : Timer) (k : Nat) : (s.disarm t).port k = s.port k := rfl
@[simp] theorem State.disarm_link (t : Timer) (k : Nat) : (s.disarm t).link k = s.link k := rfl
@[simp] theorem State.disarm_seg (t : Timer) (k : Nat) : (s.disarm t).seg k = s.seg k := rfl
@[simp] theorem State.disarm_arb (t : Timer) (k : Nat) : (s.disarm t).arb k = s.arb k := rfl
@[simp] theorem State.disarm_queue (t : Timer) (k : Nat) : (s.disarm t).queue k = s.queue k := rfl
@[simp] theorem State.disarm_arch (t : Timer) (k : Nat) : (s.disarm t).arch k = s.arch k := rfl

/-! ## arm -/

@[simp] theorem State.arm_power (t : Timer) (n : Nat) : (s.arm t n).power = s.power := rfl
@[simp] theorem State.arm_clk (t : Timer) (n : Nat) : (s.arm t n).clk = s.clk := rfl
@[simp] theorem State.arm_member (t : Timer) (n : Nat) : (s.arm t n).member = s.member := rfl
@[simp] theorem State.arm_side (t : Timer) (n : Nat) : (s.arm t n).side = s.side := rfl
@[simp] theorem State.arm_supOut (t : Timer) (n : Nat) : (s.arm t n).supOut = s.supOut := rfl
@[simp] theorem State.arm_regs (t : Timer) (n : Nat) : (s.arm t n).regs = s.regs := rfl
@[simp] theorem State.arm_arbActive (t : Timer) (n : Nat) : (s.arm t n).arbActive = s.arbActive := rfl
@[simp] theorem State.arm_latches (t : Timer) (n : Nat) : (s.arm t n).latches = s.latches := rfl
@[simp] theorem State.arm_tb (t : Timer) (n : Nat) : (s.arm t n).tb = s.tb := rfl
@[simp] theorem State.arm_tbSlew (t : Timer) (n : Nat) : (s.arm t n).tbSlew = s.tbSlew := rfl
@[simp] theorem State.arm_tbHold (t : Timer) (n : Nat) : (s.arm t n).tbHold = s.tbHold := rfl
@[simp] theorem State.arm_disc (t : Timer) (n : Nat) : (s.arm t n).disc = s.disc := rfl
@[simp] theorem State.arm_out (t : Timer) (n : Nat) : (s.arm t n).out = s.out := rfl
@[simp] theorem State.arm_ports (t : Timer) (n : Nat) : (s.arm t n).ports = s.ports := rfl
@[simp] theorem State.arm_links (t : Timer) (n : Nat) : (s.arm t n).links = s.links := rfl
@[simp] theorem State.arm_lanes (t : Timer) (n : Nat) : (s.arm t n).lanes = s.lanes := rfl
@[simp] theorem State.arm_records (t : Timer) (n : Nat) : (s.arm t n).records = s.records := rfl
@[simp] theorem State.arm_discords (t : Timer) (n : Nat) : (s.arm t n).discords = s.discords := rfl
@[simp] theorem State.arm_synced (t : Timer) (n : Nat) : (s.arm t n).synced = s.synced := rfl
@[simp] theorem State.arm_noQuorum (t : Timer) (n : Nat) : (s.arm t n).noQuorum = s.noQuorum := rfl
@[simp] theorem State.arm_recsOut (t : Timer) (n : Nat) : (s.arm t n).recsOut = s.recsOut := rfl
@[simp] theorem State.arm_slotsOut (t : Timer) (n : Nat) : (s.arm t n).slotsOut = s.slotsOut := rfl
@[simp] theorem State.arm_ahead (t : Timer) (n : Nat) : (s.arm t n).ahead = s.ahead := rfl
@[simp] theorem State.arm_advances (t : Timer) (n : Nat) : (s.arm t n).advances = s.advances := rfl
@[simp] theorem State.arm_retention (t : Timer) (n : Nat) : (s.arm t n).retention = s.retention := rfl
@[simp] theorem State.arm_execs (t : Timer) (n : Nat) : (s.arm t n).execs = s.execs := rfl
@[simp] theorem State.arm_order (t : Timer) (n : Nat) : (s.arm t n).order = s.order := rfl
@[simp] theorem State.arm_segs (t : Timer) (n : Nat) : (s.arm t n).segs = s.segs := rfl
@[simp] theorem State.arm_locks (t : Timer) (n : Nat) : (s.arm t n).locks = s.locks := rfl
@[simp] theorem State.arm_arbs (t : Timer) (n : Nat) : (s.arm t n).arbs = s.arbs := rfl
@[simp] theorem State.arm_queues (t : Timer) (n : Nat) : (s.arm t n).queues = s.queues := rfl
@[simp] theorem State.arm_qram (t : Timer) (n : Nat) : (s.arm t n).qram = s.qram := rfl
@[simp] theorem State.arm_ledger (t : Timer) (n : Nat) : (s.arm t n).ledger = s.ledger := rfl
@[simp] theorem State.arm_ledgerBad (t : Timer) (n : Nat) : (s.arm t n).ledgerBad = s.ledgerBad := rfl
@[simp] theorem State.arm_images (t : Timer) (n : Nat) : (s.arm t n).images = s.images := rfl
@[simp] theorem State.arm_span (t : Timer) (n : Nat) : (s.arm t n).span = s.span := rfl
@[simp] theorem State.arm_bridgeWait (t : Timer) (n : Nat) : (s.arm t n).bridgeWait = s.bridgeWait := rfl
@[simp] theorem State.arm_history (t : Timer) (n : Nat) : (s.arm t n).history = s.history := rfl
@[simp] theorem State.arm_merges (t : Timer) (n : Nat) : (s.arm t n).merges = s.merges := rfl
@[simp] theorem State.arm_heldNotices (t : Timer) (n : Nat) : (s.arm t n).heldNotices = s.heldNotices := rfl
@[simp] theorem State.arm_tests (t : Timer) (n : Nat) : (s.arm t n).tests = s.tests := rfl
@[simp] theorem State.arm_active (t : Timer) (n : Nat) : (s.arm t n).active = s.active := rfl
@[simp] theorem State.arm_errAt (t : Timer) (n : Nat) : (s.arm t n).errAt = s.errAt := rfl
@[simp] theorem State.arm_transients (t : Timer) (n : Nat) : (s.arm t n).transients = s.transients := rfl
@[simp] theorem State.arm_replaced (t : Timer) (n : Nat) : (s.arm t n).replaced = s.replaced := rfl
@[simp] theorem State.arm_spareUsed (t : Timer) (n : Nat) : (s.arm t n).spareUsed = s.spareUsed := rfl
@[simp] theorem State.arm_compat (t : Timer) (n : Nat) : (s.arm t n).compat = s.compat := rfl
@[simp] theorem State.arm_archs (t : Timer) (n : Nat) : (s.arm t n).archs = s.archs := rfl
@[simp] theorem State.arm_busNs (t : Timer) (n : Nat) : (s.arm t n).busNs = s.busNs := rfl
@[simp] theorem State.arm_imem (t : Timer) (n : Nat) : (s.arm t n).imem = s.imem := rfl
@[simp] theorem State.arm_dmem (t : Timer) (n : Nat) : (s.arm t n).dmem = s.dmem := rfl
@[simp] theorem State.arm_dmemBad (t : Timer) (n : Nat) : (s.arm t n).dmemBad = s.dmemBad := rfl
@[simp] theorem State.arm_imemBad (t : Timer) (n : Nat) : (s.arm t n).imemBad = s.imemBad := rfl
@[simp] theorem State.arm_trace (t : Timer) (n : Nat) : (s.arm t n).trace = s.trace := rfl
@[simp] theorem State.arm_traceNum (t : Timer) (n : Nat) : (s.arm t n).traceNum = s.traceNum := rfl
@[simp] theorem State.arm_tracePost (t : Timer) (n : Nat) : (s.arm t n).tracePost = s.tracePost := rfl
@[simp] theorem State.arm_traceAt (t : Timer) (n : Nat) : (s.arm t n).traceAt = s.traceAt := rfl
@[simp] theorem State.arm_restarts (t : Timer) (n : Nat) : (s.arm t n).restarts = s.restarts := rfl
@[simp] theorem State.arm_commitRuns (t : Timer) (n : Nat) : (s.arm t n).commitRuns = s.commitRuns := rfl
@[simp] theorem State.arm_migrating (t : Timer) (n : Nat) : (s.arm t n).migrating = s.migrating := rfl
@[simp] theorem State.arm_heldTokens (t : Timer) (n : Nat) : (s.arm t n).heldTokens = s.heldTokens := rfl
@[simp] theorem State.arm_courSlots (t : Timer) (n : Nat) : (s.arm t n).courSlots = s.courSlots := rfl
@[simp] theorem State.arm_chains (t : Timer) (n : Nat) : (s.arm t n).chains = s.chains := rfl
@[simp] theorem State.arm_sched (t : Timer) (n : Nat) : (s.arm t n).sched = s.sched := rfl
@[simp] theorem State.arm_lastGasp (t : Timer) (n : Nat) : (s.arm t n).lastGasp = s.lastGasp := rfl
@[simp] theorem State.arm_dirtySince (t : Timer) (n : Nat) : (s.arm t n).dirtySince = s.dirtySince := rfl
@[simp] theorem State.arm_otp (t : Timer) (n : Nat) : (s.arm t n).otp = s.otp := rfl
@[simp] theorem State.arm_lifecycle (t : Timer) (n : Nat) : (s.arm t n).lifecycle = s.lifecycle := rfl
@[simp] theorem State.arm_fusing (t : Timer) (n : Nat) : (s.arm t n).fusing = s.fusing := rfl
@[simp] theorem State.arm_flash (t : Timer) (n : Nat) : (s.arm t n).flash = s.flash := rfl
@[simp] theorem State.arm_dirs (t : Timer) (n : Nat) : (s.arm t n).dirs = s.dirs := rfl
@[simp] theorem State.arm_bootCmd (t : Timer) (n : Nat) : (s.arm t n).bootCmd = s.bootCmd := rfl
@[simp] theorem State.arm_boot (t : Timer) (n : Nat) : (s.arm t n).boot = s.boot := rfl
@[simp] theorem State.arm_tap (t : Timer) (n : Nat) : (s.arm t n).tap = s.tap := rfl
@[simp] theorem State.arm_freezeHigh (t : Timer) (n : Nat) : (s.arm t n).freezeHigh = s.freezeHigh := rfl
@[simp] theorem State.arm_xspiLow (t : Timer) (n : Nat) : (s.arm t n).xspiLow = s.xspiLow := rfl
@[simp] theorem State.arm_pllSaid (t : Timer) (n : Nat) : (s.arm t n).pllSaid = s.pllSaid := rfl
@[simp] theorem State.arm_nextFree (t : Timer) (n : Nat) : (s.arm t n).nextFree = s.nextFree := rfl
@[simp] theorem State.arm_pending (t : Timer) (n : Nat) : (s.arm t n).pending = s.pending := rfl
@[simp] theorem State.arm_word (t : Timer) (n : Nat) (c : Nat) : (s.arm t n).word c = s.word c := rfl
@[simp] theorem State.arm_get (t : Timer) (n : Nat) (c : FRef) : (s.arm t n).get c = s.get c := rfl
@[simp] theorem State.arm_on (t : Timer) (n : Nat) (c : FRef) : (s.arm t n).on c = s.on c := rfl
@[simp] theorem State.arm_port (t : Timer) (n : Nat) (k : Nat) : (s.arm t n).port k = s.port k := rfl
@[simp] theorem State.arm_link (t : Timer) (n : Nat) (k : Nat) : (s.arm t n).link k = s.link k := rfl
@[simp] theorem State.arm_seg (t : Timer) (n : Nat) (k : Nat) : (s.arm t n).seg k = s.seg k := rfl
@[simp] theorem State.arm_arb (t : Timer) (n : Nat) (k : Nat) : (s.arm t n).arb k = s.arb k := rfl
@[simp] theorem State.arm_queue (t : Timer) (n : Nat) (k : Nat) : (s.arm t n).queue k = s.queue k := rfl
@[simp] theorem State.arm_arch (t : Timer) (n : Nat) (k : Nat) : (s.arm t n).arch k = s.arch k := rfl

/-! ## Reads after writes -/

@[simp] theorem State.setPort_same (k : Nat) (x : Port) : (s.setPort k x).port k = x := mget_mput_same _ _ _ _
theorem State.setPort_other {k j : Nat} (x : Port) (h : j ≠ k) : (s.setPort k x).port j = s.port j := mget_mput_other _ _ _ h

@[simp] theorem State.setLink_same (k : Nat) (x : Link) : (s.setLink k x).link k = x := mget_mput_same _ _ _ _
theorem State.setLink_other {k j : Nat} (x : Link) (h : j ≠ k) : (s.setLink k x).link j = s.link j := mget_mput_other _ _ _ h

@[simp] theorem State.setSeg_same (k : Nat) (x : Seg) : (s.setSeg k x).seg k = x := mget_mput_same _ _ _ _
theorem State.setSeg_other {k j : Nat} (x : Seg) (h : j ≠ k) : (s.setSeg k x).seg j = s.seg j := mget_mput_other _ _ _ h

@[simp] theorem State.setArb_same (k : Nat) (x : Arb) : (s.setArb k x).arb k = x := mget_mput_same _ _ _ _
theorem State.setArb_other {k j : Nat} (x : Arb) (h : j ≠ k) : (s.setArb k x).arb j = s.arb j := mget_mput_other _ _ _ h

@[simp] theorem State.setQueue_same (k : Nat) (x : Queue) : (s.setQueue k x).queue k = x := mget_mput_same _ _ _ _
theorem State.setQueue_other {k j : Nat} (x : Queue) (h : j ≠ k) : (s.setQueue k x).queue j = s.queue j := mget_mput_other _ _ _ h

@[simp] theorem State.setArch_same (k : Nat) (x : Arch) : (s.setArch k x).arch k = x := mget_mput_same _ _ _ _
theorem State.setArch_other {k j : Nat} (x : Arch) (h : j ≠ k) : (s.setArch k x).arch j = s.arch j := mget_mput_other _ _ _ h

end Sys2Proof.Machine
end

