-- ==== Sys2Proof/Laws/Time.lean ====
section
/-! SUPPORT. What the passing of time leaves alone, and the instant at which an armed timer ends. -/

namespace Sys2Proof.Machine

/-- States with one register file read alike. -/
theorem word_of_regs {s t : State} (h : s.regs = t.regs) (a : Nat) : s.word a = t.word a := by
  unfold State.word; rw [h]

theorem get_of_regs {s t : State} (h : s.regs = t.regs) (f : FRef) : s.get f = t.get f := by
  unfold State.get; rw [word_of_regs h]

theorem on_of_regs {s t : State} (h : s.regs = t.regs) (f : FRef) : s.on f = t.on f := by
  unfold State.on; rw [get_of_regs h]

/-- Time passing changes the clock, the time base and the energy account alone. -/
theorem elapse_shape (s : State) (n : Nat) :
    ∃ c b l h d, s.elapse n = { s with clk := c, tb := b, tbSlew := l, tbHold := h, sched := d } := by
  unfold State.elapse State.tbRun
  dsimp only
  split <;> exact ⟨_, _, _, _, _, rfl⟩

@[simp] theorem elapse_power (s : State) (n : Nat) : (s.elapse n).power = s.power := by
  obtain ⟨_, _, _, _, _, h⟩ := elapse_shape s n; rw [h]
@[simp] theorem elapse_member (s : State) (n : Nat) : (s.elapse n).member = s.member := by
  obtain ⟨_, _, _, _, _, h⟩ := elapse_shape s n; rw [h]
@[simp] theorem elapse_side (s : State) (n : Nat) : (s.elapse n).side = s.side := by
  obtain ⟨_, _, _, _, _, h⟩ := elapse_shape s n; rw [h]
@[simp] theorem elapse_supOut (s : State) (n : Nat) : (s.elapse n).supOut = s.supOut := by
  obtain ⟨_, _, _, _, _, h⟩ := elapse_shape s n; rw [h]
@[simp] theorem elapse_regs (s : State) (n : Nat) : (s.elapse n).regs = s.regs := by
  obtain ⟨_, _, _, _, _, h⟩ := elapse_shape s n; rw [h]
@[simp] theorem elapse_arbActive (s : State) (n : Nat) : (s.elapse n).arbActive = s.arbActive := by
  obtain ⟨_, _, _, _, _, h⟩ := elapse_shape s n; rw [h]
@[simp] theorem elapse_latches (s : State) (n : Nat) : (s.elapse n).latches = s.latches := by
  obtain ⟨_, _, _, _, _, h⟩ := elapse_shape s n; rw [h]
@[simp] theorem elapse_timers (s : State) (n : Nat) : (s.elapse n).timers = s.timers := by
  obtain ⟨_, _, _, _, _, h⟩ := elapse_shape s n; rw [h]
@[simp] theorem elapse_disc (s : State) (n : Nat) : (s.elapse n).disc = s.disc := by
  obtain ⟨_, _, _, _, _, h⟩ := elapse_shape s n; rw [h]
@[simp] theorem elapse_out (s : State) (n : Nat) : (s.elapse n).out = s.out := by
  obtain ⟨_, _, _, _, _, h⟩ := elapse_shape s n; rw [h]
@[simp] theorem elapse_ports (s : State) (n : Nat) : (s.elapse n).ports = s.ports := by
  obtain ⟨_, _, _, _, _, h⟩ := elapse_shape s n; rw [h]
@[simp] theorem elapse_links (s : State) (n : Nat) : (s.elapse n).links = s.links := by
  obtain ⟨_, _, _, _, _, h⟩ := elapse_shape s n; rw [h]
@[simp] theorem elapse_records (s : State) (n : Nat) : (s.elapse n).records = s.records := by
  obtain ⟨_, _, _, _, _, h⟩ := elapse_shape s n; rw [h]
@[simp] theorem elapse_discords (s : State) (n : Nat) : (s.elapse n).discords = s.discords := by
  obtain ⟨_, _, _, _, _, h⟩ := elapse_shape s n; rw [h]
@[simp] theorem elapse_synced (s : State) (n : Nat) : (s.elapse n).synced = s.synced := by
  obtain ⟨_, _, _, _, _, h⟩ := elapse_shape s n; rw [h]
@[simp] theorem elapse_noQuorum (s : State) (n : Nat) : (s.elapse n).noQuorum = s.noQuorum := by
  obtain ⟨_, _, _, _, _, h⟩ := elapse_shape s n; rw [h]
@[simp] theorem elapse_recsOut (s : State) (n : Nat) : (s.elapse n).recsOut = s.recsOut := by
  obtain ⟨_, _, _, _, _, h⟩ := elapse_shape s n; rw [h]
@[simp] theorem elapse_slotsOut (s : State) (n : Nat) : (s.elapse n).slotsOut = s.slotsOut := by
  obtain ⟨_, _, _, _, _, h⟩ := elapse_shape s n; rw [h]
@[simp] theorem elapse_ahead (s : State) (n : Nat) : (s.elapse n).ahead = s.ahead := by
  obtain ⟨_, _, _, _, _, h⟩ := elapse_shape s n; rw [h]
@[simp] theorem elapse_advances (s : State) (n : Nat) : (s.elapse n).advances = s.advances := by
  obtain ⟨_, _, _, _, _, h⟩ := elapse_shape s n; rw [h]
@[simp] theorem elapse_retention (s : State) (n : Nat) : (s.elapse n).retention = s.retention := by
  obtain ⟨_, _, _, _, _, h⟩ := elapse_shape s n; rw [h]
@[simp] theorem elapse_execs (s : State) (n : Nat) : (s.elapse n).execs = s.execs := by
  obtain ⟨_, _, _, _, _, h⟩ := elapse_shape s n; rw [h]
@[simp] theorem elapse_order (s : State) (n : Nat) : (s.elapse n).order = s.order := by
  obtain ⟨_, _, _, _, _, h⟩ := elapse_shape s n; rw [h]
@[simp] theorem elapse_segs (s : State) (n : Nat) : (s.elapse n).segs = s.segs := by
  obtain ⟨_, _, _, _, _, h⟩ := elapse_shape s n; rw [h]
@[simp] theorem elapse_locks (s : State) (n : Nat) : (s.elapse n).locks = s.locks := by
  obtain ⟨_, _, _, _, _, h⟩ := elapse_shape s n; rw [h]
@[simp] theorem elapse_arbs (s : State) (n : Nat) : (s.elapse n).arbs = s.arbs := by
  obtain ⟨_, _, _, _, _, h⟩ := elapse_shape s n; rw [h]
@[simp] theorem elapse_queues (s : State) (n : Nat) : (s.elapse n).queues = s.queues := by
  obtain ⟨_, _, _, _, _, h⟩ := elapse_shape s n; rw [h]
@[simp] theorem elapse_qram (s : State) (n : Nat) : (s.elapse n).qram = s.qram := by
  obtain ⟨_, _, _, _, _, h⟩ := elapse_shape s n; rw [h]
@[simp] theorem elapse_ledger (s : State) (n : Nat) : (s.elapse n).ledger = s.ledger := by
  obtain ⟨_, _, _, _, _, h⟩ := elapse_shape s n; rw [h]
@[simp] theorem elapse_ledgerBad (s : State) (n : Nat) : (s.elapse n).ledgerBad = s.ledgerBad := by
  obtain ⟨_, _, _, _, _, h⟩ := elapse_shape s n; rw [h]
@[simp] theorem elapse_images (s : State) (n : Nat) : (s.elapse n).images = s.images := by
  obtain ⟨_, _, _, _, _, h⟩ := elapse_shape s n; rw [h]
@[simp] theorem elapse_span (s : State) (n : Nat) : (s.elapse n).span = s.span := by
  obtain ⟨_, _, _, _, _, h⟩ := elapse_shape s n; rw [h]
@[simp] theorem elapse_bridgeWait (s : State) (n : Nat) : (s.elapse n).bridgeWait = s.bridgeWait := by
  obtain ⟨_, _, _, _, _, h⟩ := elapse_shape s n; rw [h]
@[simp] theorem elapse_history (s : State) (n : Nat) : (s.elapse n).history = s.history := by
  obtain ⟨_, _, _, _, _, h⟩ := elapse_shape s n; rw [h]
@[simp] theorem elapse_merges (s : State) (n : Nat) : (s.elapse n).merges = s.merges := by
  obtain ⟨_, _, _, _, _, h⟩ := elapse_shape s n; rw [h]
@[simp] theorem elapse_heldNotices (s : State) (n : Nat) : (s.elapse n).heldNotices = s.heldNotices := by
  obtain ⟨_, _, _, _, _, h⟩ := elapse_shape s n; rw [h]
@[simp] theorem elapse_tests (s : State) (n : Nat) : (s.elapse n).tests = s.tests := by
  obtain ⟨_, _, _, _, _, h⟩ := elapse_shape s n; rw [h]
@[simp] theorem elapse_active (s : State) (n : Nat) : (s.elapse n).active = s.active := by
  obtain ⟨_, _, _, _, _, h⟩ := elapse_shape s n; rw [h]
@[simp] theorem elapse_transients (s : State) (n : Nat) : (s.elapse n).transients = s.transients := by
  obtain ⟨_, _, _, _, _, h⟩ := elapse_shape s n; rw [h]
@[simp] theorem elapse_replaced (s : State) (n : Nat) : (s.elapse n).replaced = s.replaced := by
  obtain ⟨_, _, _, _, _, h⟩ := elapse_shape s n; rw [h]
@[simp] theorem elapse_spareUsed (s : State) (n : Nat) : (s.elapse n).spareUsed = s.spareUsed := by
  obtain ⟨_, _, _, _, _, h⟩ := elapse_shape s n; rw [h]
@[simp] theorem elapse_compat (s : State) (n : Nat) : (s.elapse n).compat = s.compat := by
  obtain ⟨_, _, _, _, _, h⟩ := elapse_shape s n; rw [h]
@[simp] theorem elapse_archs (s : State) (n : Nat) : (s.elapse n).archs = s.archs := by
  obtain ⟨_, _, _, _, _, h⟩ := elapse_shape s n; rw [h]
@[simp] theorem elapse_busNs (s : State) (n : Nat) : (s.elapse n).busNs = s.busNs := by
  obtain ⟨_, _, _, _, _, h⟩ := elapse_shape s n; rw [h]
@[simp] theorem elapse_imem (s : State) (n : Nat) : (s.elapse n).imem = s.imem := by
  obtain ⟨_, _, _, _, _, h⟩ := elapse_shape s n; rw [h]
@[simp] theorem elapse_dmem (s : State) (n : Nat) : (s.elapse n).dmem = s.dmem := by
  obtain ⟨_, _, _, _, _, h⟩ := elapse_shape s n; rw [h]
@[simp] theorem elapse_dmemBad (s : State) (n : Nat) : (s.elapse n).dmemBad = s.dmemBad := by
  obtain ⟨_, _, _, _, _, h⟩ := elapse_shape s n; rw [h]
@[simp] theorem elapse_trace (s : State) (n : Nat) : (s.elapse n).trace = s.trace := by
  obtain ⟨_, _, _, _, _, h⟩ := elapse_shape s n; rw [h]
@[simp] theorem elapse_traceNum (s : State) (n : Nat) : (s.elapse n).traceNum = s.traceNum := by
  obtain ⟨_, _, _, _, _, h⟩ := elapse_shape s n; rw [h]
@[simp] theorem elapse_tracePost (s : State) (n : Nat) : (s.elapse n).tracePost = s.tracePost := by
  obtain ⟨_, _, _, _, _, h⟩ := elapse_shape s n; rw [h]
@[simp] theorem elapse_restarts (s : State) (n : Nat) : (s.elapse n).restarts = s.restarts := by
  obtain ⟨_, _, _, _, _, h⟩ := elapse_shape s n; rw [h]
@[simp] theorem elapse_commitRuns (s : State) (n : Nat) : (s.elapse n).commitRuns = s.commitRuns := by
  obtain ⟨_, _, _, _, _, h⟩ := elapse_shape s n; rw [h]
@[simp] theorem elapse_migrating (s : State) (n : Nat) : (s.elapse n).migrating = s.migrating := by
  obtain ⟨_, _, _, _, _, h⟩ := elapse_shape s n; rw [h]
@[simp] theorem elapse_courSlots (s : State) (n : Nat) : (s.elapse n).courSlots = s.courSlots := by
  obtain ⟨_, _, _, _, _, h⟩ := elapse_shape s n; rw [h]
@[simp] theorem elapse_chains (s : State) (n : Nat) : (s.elapse n).chains = s.chains := by
  obtain ⟨_, _, _, _, _, h⟩ := elapse_shape s n; rw [h]
@[simp] theorem elapse_lastGasp (s : State) (n : Nat) : (s.elapse n).lastGasp = s.lastGasp := by
  obtain ⟨_, _, _, _, _, h⟩ := elapse_shape s n; rw [h]
@[simp] theorem elapse_dirtySince (s : State) (n : Nat) : (s.elapse n).dirtySince = s.dirtySince := by
  obtain ⟨_, _, _, _, _, h⟩ := elapse_shape s n; rw [h]
@[simp] theorem elapse_otp (s : State) (n : Nat) : (s.elapse n).otp = s.otp := by
  obtain ⟨_, _, _, _, _, h⟩ := elapse_shape s n; rw [h]
@[simp] theorem elapse_lifecycle (s : State) (n : Nat) : (s.elapse n).lifecycle = s.lifecycle := by
  obtain ⟨_, _, _, _, _, h⟩ := elapse_shape s n; rw [h]
@[simp] theorem elapse_fusing (s : State) (n : Nat) : (s.elapse n).fusing = s.fusing := by
  obtain ⟨_, _, _, _, _, h⟩ := elapse_shape s n; rw [h]
@[simp] theorem elapse_flash (s : State) (n : Nat) : (s.elapse n).flash = s.flash := by
  obtain ⟨_, _, _, _, _, h⟩ := elapse_shape s n; rw [h]
@[simp] theorem elapse_dirs (s : State) (n : Nat) : (s.elapse n).dirs = s.dirs := by
  obtain ⟨_, _, _, _, _, h⟩ := elapse_shape s n; rw [h]
@[simp] theorem elapse_bootCmd (s : State) (n : Nat) : (s.elapse n).bootCmd = s.bootCmd := by
  obtain ⟨_, _, _, _, _, h⟩ := elapse_shape s n; rw [h]
@[simp] theorem elapse_boot (s : State) (n : Nat) : (s.elapse n).boot = s.boot := by
  obtain ⟨_, _, _, _, _, h⟩ := elapse_shape s n; rw [h]
@[simp] theorem elapse_tap (s : State) (n : Nat) : (s.elapse n).tap = s.tap := by
  obtain ⟨_, _, _, _, _, h⟩ := elapse_shape s n; rw [h]
@[simp] theorem elapse_freezeHigh (s : State) (n : Nat) : (s.elapse n).freezeHigh = s.freezeHigh := by
  obtain ⟨_, _, _, _, _, h⟩ := elapse_shape s n; rw [h]
@[simp] theorem elapse_xspiLow (s : State) (n : Nat) : (s.elapse n).xspiLow = s.xspiLow := by
  obtain ⟨_, _, _, _, _, h⟩ := elapse_shape s n; rw [h]
@[simp] theorem elapse_pllSaid (s : State) (n : Nat) : (s.elapse n).pllSaid = s.pllSaid := by
  obtain ⟨_, _, _, _, _, h⟩ := elapse_shape s n; rw [h]
@[simp] theorem elapse_nextFree (s : State) (n : Nat) : (s.elapse n).nextFree = s.nextFree := by
  obtain ⟨_, _, _, _, _, h⟩ := elapse_shape s n; rw [h]
@[simp] theorem elapse_lanes (s : State) (n : Nat) : (s.elapse n).lanes = s.lanes := by
  obtain ⟨_, _, _, _, _, h⟩ := elapse_shape s n; rw [h]
@[simp] theorem elapse_errAt (s : State) (n : Nat) : (s.elapse n).errAt = s.errAt := by
  obtain ⟨_, _, _, _, _, h⟩ := elapse_shape s n; rw [h]
@[simp] theorem elapse_imemBad (s : State) (n : Nat) : (s.elapse n).imemBad = s.imemBad := by
  obtain ⟨_, _, _, _, _, h⟩ := elapse_shape s n; rw [h]
@[simp] theorem elapse_traceAt (s : State) (n : Nat) : (s.elapse n).traceAt = s.traceAt := by
  obtain ⟨_, _, _, _, _, h⟩ := elapse_shape s n; rw [h]
@[simp] theorem elapse_heldTokens (s : State) (n : Nat) : (s.elapse n).heldTokens = s.heldTokens := by
  obtain ⟨_, _, _, _, _, h⟩ := elapse_shape s n; rw [h]
@[simp] theorem elapse_pending (s : State) (n : Nat) : (s.elapse n).pending = s.pending := by
  obtain ⟨_, _, _, _, _, h⟩ := elapse_shape s n; rw [h]

@[simp] theorem elapse_clk (s : State) (n : Nat) : (s.elapse n).clk = s.clk + n := by
  unfold State.elapse; rfl
@[simp] theorem elapse_word (s : State) (n a : Nat) : (s.elapse n).word a = s.word a := word_of_regs (elapse_regs s n) a
@[simp] theorem elapse_get (s : State) (n : Nat) (f : FRef) : (s.elapse n).get f = s.get f :=
  get_of_regs (elapse_regs s n) f
@[simp] theorem elapse_on (s : State) (n : Nat) (f : FRef) : (s.elapse n).on f = s.on f :=
  on_of_regs (elapse_regs s n) f
@[simp] theorem elapse_port (s : State) (n p : Nat) : (s.elapse n).port p = s.port p := by
  unfold State.port; rw [elapse_ports]
@[simp] theorem elapse_link (s : State) (n p : Nat) : (s.elapse n).link p = s.link p := by
  unfold State.link; rw [elapse_links]
@[simp] theorem elapse_seg (s : State) (n g : Nat) : (s.elapse n).seg g = s.seg g := by
  unfold State.seg; rw [elapse_segs]
@[simp] theorem elapse_arb (s : State) (n a : Nat) : (s.elapse n).arb a = s.arb a := by
  unfold State.arb; rw [elapse_arbs]
@[simp] theorem elapse_queue (s : State) (n q : Nat) : (s.elapse n).queue q = s.queue q := by
  unfold State.queue; rw [elapse_queues]
@[simp] theorem elapse_arch (s : State) (n c : Nat) : (s.elapse n).arch c = s.arch c := by
  unfold State.arch; rw [elapse_archs]

theorem untilTb_regs (k : Nat) (s : State) (t : Nat) : (State.untilTb k s t).regs = s.regs := by
  induction k generalizing s with
  | zero => rfl
  | succ k ih =>
    unfold State.untilTb
    split
    · rfl
    · rw [ih, elapse_regs]

/-- An armed timer that ends: time has passed to the instant it was due, or stands if that is past; the timer is off. -/
theorem expire_some {s u : State} {t : Timer} (h : s.expire t = some u) :
    ∃ d, s.dueAt t = some d ∧ u = (s.elapse (d - s.clk)).disarm t := by
  unfold State.expire at h
  split at h
  · cases h
  · next d hd => exact ⟨d, hd, by cases h; rfl⟩

theorem expire_regs {s u : State} {t : Timer} (h : s.expire t = some u) : u.regs = s.regs := by
  obtain ⟨d, _, rfl⟩ := expire_some h
  rw [State.disarm_regs, elapse_regs]

theorem expire_get {s u : State} {t : Timer} (h : s.expire t = some u) (f : FRef) : u.get f = s.get f :=
  get_of_regs (expire_regs h) f

end Sys2Proof.Machine
end

