-- ==== Sys2Proof/Laws/Events.lean ====
section
/-! SUPPORT. All that raising an event can do (R417 to R422): it changes the registers of the event, host port, courier,
context, queue and trace blocks, the queues and their RAM, the pending messages, contexts that wait, records and timers, and
nothing else. -/

namespace Sys2Proof.Machine

/-- The register blocks whose registers raising an event can change: EVT, HP, COUR, CTX, QUE and DBG. -/
def evBlock (b : Nat) : Bool := b == 3 || b == 4 || b == 12 || b == 13 || b == 14 || b == 21

/-- `t` is `s` after events were raised. -/
def EvOnly (s t : State) : Prop :=
  (∃ rg po qu qr ar re hi me tr tn tp ta ti od bw cs,
    t = { s with regs := rg, ports := po, queues := qu, qram := qr, archs := ar, retention := re, history := hi,
                 merges := me, trace := tr, traceNum := tn, tracePost := tp, traceAt := ta, timers := ti, order := od,
                 bridgeWait := bw, courSlots := cs }) ∧
    ∀ a, evBlock (a / 0x10000) = false → t.word a = s.word a

theorem EvOnly.refl (s : State) : EvOnly s s := ⟨⟨_, _, _, _, _, _, _, _, _, _, _, _, _, _, _, _, rfl⟩, fun _ _ => rfl⟩

theorem EvOnly.trans {s t u : State} (h : EvOnly s t) (k : EvOnly t u) : EvOnly s u := by
  obtain ⟨⟨_, _, _, _, _, _, _, _, _, _, _, _, _, _, _, _, rfl⟩, h⟩ := h
  obtain ⟨⟨_, _, _, _, _, _, _, _, _, _, _, _, _, _, _, _, rfl⟩, k⟩ := k
  exact ⟨⟨_, _, _, _, _, _, _, _, _, _, _, _, _, _, _, _, rfl⟩, fun a ha => (k a ha).trans (h a ha)⟩

/-- An update of a field that raising may change, which leaves the registers alone. -/
theorem EvOnly.of_regs {s t : State} (h : ∃ po qu qr ar re hi me tr tn tp ta ti od bw cs,
    t = { s with ports := po, queues := qu, qram := qr, archs := ar, retention := re, history := hi,
                 merges := me, trace := tr, traceNum := tn, tracePost := tp, traceAt := ta, timers := ti, order := od,
                 bridgeWait := bw, courSlots := cs }) :
    EvOnly s t := by
  obtain ⟨_, _, _, _, _, _, _, _, _, _, _, _, _, _, _, rfl⟩ := h
  exact ⟨⟨_, _, _, _, _, _, _, _, _, _, _, _, _, _, _, _, rfl⟩, fun _ _ => rfl⟩

theorem EvOnly.put (s : State) (f : FRef) (v : Nat) (h : evBlock (f.reg / 0x10000) = true) : EvOnly s (s.put f v) :=
  ⟨⟨_, _, _, _, _, _, _, _, _, _, _, _, _, _, _, _, rfl⟩, fun a ha => word_setWord_other s _ (by
    intro e; rw [e, h] at ha; cases ha)⟩

theorem EvOnly.bumpBy (s : State) (f : FRef) (k : Nat) (h : evBlock (f.reg / 0x10000) = true) :
    EvOnly s (s.bumpBy f k) := EvOnly.put s f _ h

theorem EvOnly.setQueue (s : State) (q : Nat) (x : Queue) : EvOnly s (s.setQueue q x) :=
  .of_regs ⟨_, _, _, _, _, _, _, _, _, _, _, _, _, _, _, rfl⟩
theorem EvOnly.setPort (s : State) (p : Nat) (x : Port) : EvOnly s (s.setPort p x) :=
  .of_regs ⟨_, _, _, _, _, _, _, _, _, _, _, _, _, _, _, rfl⟩
theorem EvOnly.setArch (s : State) (n : Nat) (x : Arch) : EvOnly s (s.setArch n x) :=
  .of_regs ⟨_, _, _, _, _, _, _, _, _, _, _, _, _, _, _, rfl⟩
theorem EvOnly.arm (s : State) (t : Timer) (n : Nat) : EvOnly s (s.arm t n) :=
  .of_regs ⟨_, _, _, _, _, _, _, _, _, _, _, _, _, _, _, rfl⟩
theorem EvOnly.disarm (s : State) (t : Timer) : EvOnly s (s.disarm t) :=
  .of_regs ⟨_, _, _, _, _, _, _, _, _, _, _, _, _, _, _, rfl⟩

/-- What is folded over a list of steps that raise events. -/
theorem EvOnly.foldl {α : Type} (f : State → α → State) (h : ∀ s x, EvOnly s (f s x)) (l : List α) (s : State) :
    EvOnly s (l.foldl f s) := by
  induction l generalizing s with
  | nil => exact .refl s
  | cons x t ih => exact (h s x).trans (ih _)

theorem EvOnly.power {s t : State} (h : EvOnly s t) : t.power = s.power := by
  obtain ⟨⟨_, _, _, _, _, _, _, _, _, _, _, _, _, _, _, _, rfl⟩, _⟩ := h; rfl
theorem EvOnly.member {s t : State} (h : EvOnly s t) : t.member = s.member := by
  obtain ⟨⟨_, _, _, _, _, _, _, _, _, _, _, _, _, _, _, _, rfl⟩, _⟩ := h; rfl
theorem EvOnly.clk {s t : State} (h : EvOnly s t) : t.clk = s.clk := by
  obtain ⟨⟨_, _, _, _, _, _, _, _, _, _, _, _, _, _, _, _, rfl⟩, _⟩ := h; rfl
theorem EvOnly.execs {s t : State} (h : EvOnly s t) : t.execs = s.execs := by
  obtain ⟨⟨_, _, _, _, _, _, _, _, _, _, _, _, _, _, _, _, rfl⟩, _⟩ := h; rfl
theorem EvOnly.segs {s t : State} (h : EvOnly s t) : t.segs = s.segs := by
  obtain ⟨⟨_, _, _, _, _, _, _, _, _, _, _, _, _, _, _, _, rfl⟩, _⟩ := h; rfl
theorem EvOnly.links {s t : State} (h : EvOnly s t) : t.links = s.links := by
  obtain ⟨⟨_, _, _, _, _, _, _, _, _, _, _, _, _, _, _, _, rfl⟩, _⟩ := h; rfl
theorem EvOnly.records {s t : State} (h : EvOnly s t) : t.records = s.records := by
  obtain ⟨⟨_, _, _, _, _, _, _, _, _, _, _, _, _, _, _, _, rfl⟩, _⟩ := h; rfl
theorem EvOnly.locks {s t : State} (h : EvOnly s t) : t.locks = s.locks := by
  obtain ⟨⟨_, _, _, _, _, _, _, _, _, _, _, _, _, _, _, _, rfl⟩, _⟩ := h; rfl
theorem EvOnly.out {s t : State} (h : EvOnly s t) : t.out = s.out := by
  obtain ⟨⟨_, _, _, _, _, _, _, _, _, _, _, _, _, _, _, _, rfl⟩, _⟩ := h; rfl
theorem EvOnly.span {s t : State} (h : EvOnly s t) : t.span = s.span := by
  obtain ⟨⟨_, _, _, _, _, _, _, _, _, _, _, _, _, _, _, _, rfl⟩, _⟩ := h; rfl
theorem EvOnly.chains {s t : State} (h : EvOnly s t) : t.chains = s.chains := by
  obtain ⟨⟨_, _, _, _, _, _, _, _, _, _, _, _, _, _, _, _, rfl⟩, _⟩ := h; rfl
theorem EvOnly.sched {s t : State} (h : EvOnly s t) : t.sched = s.sched := by
  obtain ⟨⟨_, _, _, _, _, _, _, _, _, _, _, _, _, _, _, _, rfl⟩, _⟩ := h; rfl
theorem EvOnly.nextFree {s t : State} (h : EvOnly s t) : t.nextFree = s.nextFree := by
  obtain ⟨⟨_, _, _, _, _, _, _, _, _, _, _, _, _, _, _, _, rfl⟩, _⟩ := h; rfl
theorem EvOnly.tests {s t : State} (h : EvOnly s t) : t.tests = s.tests := by
  obtain ⟨⟨_, _, _, _, _, _, _, _, _, _, _, _, _, _, _, _, rfl⟩, _⟩ := h; rfl
theorem EvOnly.seg {s t : State} (h : EvOnly s t) (g : Nat) : t.seg g = s.seg g := by
  unfold State.seg; rw [h.segs]
theorem EvOnly.link {s t : State} (h : EvOnly s t) (p : Nat) : t.link p = s.link p := by
  unfold State.link; rw [h.links]
theorem EvOnly.get {s t : State} (h : EvOnly s t) (f : FRef) (hb : evBlock (f.reg / 0x10000) = false) :
    t.get f = s.get f := by
  unfold State.get; rw [h.2 _ hb]
theorem EvOnly.on {s t : State} (h : EvOnly s t) (f : FRef) (hb : evBlock (f.reg / 0x10000) = false) :
    t.on f = s.on f := by
  unfold State.on; rw [h.get f hb]

/-! ## One more update -/

theorem EvOnly.then_put {s t : State} (h : EvOnly s t) {f : FRef} {v : Nat} (hb : evBlock (f.reg / 0x10000) = true) :
    EvOnly s (t.put f v) := h.trans (.put t f v hb)
theorem EvOnly.then_bump {s t : State} (h : EvOnly s t) {f : FRef} (hb : evBlock (f.reg / 0x10000) = true) :
    EvOnly s (t.bump f) := h.trans (.put t f _ hb)
theorem EvOnly.then_bumpBy {s t : State} (h : EvOnly s t) {f : FRef} {k : Nat}
    (hb : evBlock (f.reg / 0x10000) = true) : EvOnly s (t.bumpBy f k) := h.trans (.put t f _ hb)
theorem EvOnly.then_incr {s t : State} (h : EvOnly s t) {f : FRef} (hb : evBlock (f.reg / 0x10000) = true) :
    EvOnly s (t.incr f) := h.trans (.put t f _ hb)
theorem EvOnly.then_setQueue {s t : State} (h : EvOnly s t) {q : Nat} {x : Queue} : EvOnly s (t.setQueue q x) :=
  h.trans (.setQueue t q x)
theorem EvOnly.then_setPort {s t : State} (h : EvOnly s t) {q : Nat} {x : Port} : EvOnly s (t.setPort q x) :=
  h.trans (.setPort t q x)
theorem EvOnly.then_setArch {s t : State} (h : EvOnly s t) {q : Nat} {x : Arch} : EvOnly s (t.setArch q x) :=
  h.trans (.setArch t q x)
theorem EvOnly.then_arm {s t : State} (h : EvOnly s t) {m : Timer} {n : Nat} : EvOnly s (t.arm m n) :=
  h.trans (.arm t m n)
theorem EvOnly.then_disarm {s t : State} (h : EvOnly s t) {m : Timer} : EvOnly s (t.disarm m) :=
  h.trans (.disarm t m)
theorem EvOnly.then_upd {s t : State} (h : EvOnly s t) {qr re hi me tr tn tp ta od bw cs} :
    EvOnly s { t with qram := qr, retention := re, history := hi, merges := me, trace := tr, traceNum := tn,
                      tracePost := tp, traceAt := ta, order := od, bridgeWait := bw, courSlots := cs } :=
  h.trans (.of_regs ⟨_, _, _, _, _, _, _, _, _, _, _, _, _, _, _, rfl⟩)

/-! ## The operations -/

theorem EvOnly.ite {s a b : State} {c : Prop} [Decidable c] (ha : EvOnly s a) (hb : EvOnly s b) :
    EvOnly s (if c then a else b) := by
  split
  · exact ha
  · exact hb

theorem traceWrite_only (s : State) (e : List Word) : EvOnly s (s.traceWrite e) := by
  have tail (t : State) : EvOnly t (match t.tracePost with
      | none => t
      | some k =>
        if k ≤ 1 then { t.put DBG_TRC_STAT_STOPPED 1 with tracePost := none }
        else { t with tracePost := some (k - 1) }) := by
    split
    · exact .refl t
    · exact .ite (.then_upd (.put t _ _ (by decide))) (.then_upd (.refl t))
  have post (t : State) (c : Bool) : EvOnly t (if c then t.put DBG_TRC_STAT_STOPPED 1 else t) :=
    .ite (.put t _ _ (by decide)) (.refl t)
  have wrap (c : Bool) : EvOnly s (if c then s.put DBG_TRC_STAT_WRAPPED 1 else s) :=
    .ite (.put s _ _ (by decide)) (.refl s)
  unfold State.traceWrite
  exact EvOnly.trans (EvOnly.trans (.then_put (.then_upd (wrap _)) (by decide)) (post _ _)) (tail _)

theorem traceRec_only (s : State) (k p : Nat) (b : List Word) (d : Word) : EvOnly s (s.traceRec k p b d) :=
  .ite (.refl s) (.ite (.bumpBy s _ _ (by decide)) (traceWrite_only s _))

theorem traceTrigger_only (s : State) (e : Nat) : EvOnly s (s.traceTrigger e) :=
  .ite (.ite (.put s _ _ (by decide)) (.then_upd (.refl s))) (.refl s)

theorem block_ctx {n o : Nat} (hn : n < 256) (ho : o < 0x100) : evBlock ((0xc0000 + o + 0x100 * n) / 0x10000) = true := by
  rw [show (0xc0000 + o + 0x100 * n) / 0x10000 = 12 by omega]; rfl

theorem charge_only (s : State) (n k : Nat) (hn : n < 256) : EvOnly s (s.charge_ n k) :=
  .then_upd (.bumpBy s _ _ (block_ctx (o := 0x78) hn (by omega)))

theorem makeReady_only (s : State) (n : Nat) (hn : n < 256) : EvOnly s (s.makeReady n) :=
  .then_upd (.then_put (.setArch s _ _) (block_ctx (o := 4) hn (by omega)))

theorem block_cour {c : Nat} (hc : c < 16) : evBlock ((COUR_STAT_BUSY c).reg / 0x10000) = true := by
  show evBlock ((0xd4004 + 0x40 * c) / 0x10000) = true
  rw [show (0xd4004 + 0x40 * c) / 0x10000 = 13 by omega]; rfl

theorem unbind_only (s : State) (n r : Nat) (hn : n < 256) : EvOnly s (s.unbind n r) := by
  unfold State.unbind
  dsimp only
  have hb : evBlock (CTX_STAT n / 0x10000) = true := block_ctx (o := 4) hn (by omega)
  refine .then_put (.then_put (.then_put ?_ (block_cour (get_lt _ (CTX_STAT_COURIER n)))) hb) hb
  split
  · exact .refl s
  · exact (EvOnly.setArch s _ _).trans (charge_only _ _ _ hn)

theorem settleWait_only (s : State) (n : Nat) (hn : n < 256) : EvOnly s (s.settleWait n) := by
  unfold State.settleWait
  split
  · exact .refl s
  · exact .ite (.refl s) (unbind_only s n 3 hn)

theorem endWait_only (s : State) (n : Nat) (b : Bool) (hn : n < 256) : EvOnly s (s.endWait n b) := by
  have h0 := settleWait_only s n hn
  unfold State.endWait
  dsimp only
  split
  · exact .then_put ((EvOnly.then_setArch h0).trans (charge_only _ _ _ hn)) (block_ctx (o := 4) hn (by omega))
  · exact .ite (.ite ((EvOnly.then_setArch h0).trans (makeReady_only _ _ hn)) h0) (.then_setArch h0)

theorem wakeOnEvent_only (s : State) (e : Nat) : EvOnly s (s.wakeOnEvent e) := by
  unfold State.wakeOnEvent
  refine EvOnly.foldl _ (fun t x => ?_) _ _
  split
  · next h => exact endWait_only t _ _ (by simp only [Bool.and_eq_true, decide_eq_true_eq] at h; exact h.1)
  · exact .refl t

theorem pendMsg_only (s : State) (p : Nat) (m : Msg) (hp : p < 4) : EvOnly s (s.pendMsg p m).1 := by
  have hb : evBlock ((HP_MSG_DROP_DROPPED p).reg / 0x10000) = true := by
    show evBlock ((0x40018 + 0x4000 * p) / 0x10000) = true
    rw [show (0x40018 + 0x4000 * p) / 0x10000 = 4 by omega]; rfl
  unfold State.pendMsg
  dsimp only
  split
  · exact .refl s
  · split
    · exact .setPort s _ _
    · exact EvOnly.then_bump (.setPort s _ _) hb

theorem msgPorts_lt (s : State) (n p : Nat) (h : p ∈ s.msgPorts n) : p < 4 := by
  unfold State.msgPorts at h
  split at h
  · have := List.mem_range.1 (List.mem_filter.1 h).1; omega
  · rw [List.mem_singleton.1 h]; exact get_lt s (CTX_VOTE_OWNER n)

theorem releaseMsg_only (s : State) (n e q k o : Nat) (hn : n < 256) : EvOnly s (s.releaseMsg n e q k o).1 := by
  have hb : evBlock ((CTX_SEQ_UP_SEQ n).reg / 0x10000) = true := block_ctx (o := 0x14) hn (by omega)
  have key : ∀ (m : Msg) (l : List Nat) (r : State × List Nat), (∀ p ∈ l, p < 4) → EvOnly s r.1 →
      EvOnly s (l.foldl (fun r p => let t := r.1.pendMsg p m; (t.1, if t.2 then r.2 ++ [p] else r.2)) r).1 := by
    intro m l
    induction l with
    | nil => intro r _ h; exact h
    | cons p t ih =>
      intro r hl h
      exact ih _ (fun x hx => hl x (List.mem_cons_of_mem _ hx))
        (h.trans (pendMsg_only r.1 p m (hl p List.mem_cons_self)))
  unfold State.releaseMsg
  refine key _ _ _ (fun p h => msgPorts_lt _ n p h) ?_
  exact EvOnly.then_upd (EvOnly.put s _ _ hb)

theorem block_que {q o : Nat} (hq : q < 160) (ho : o < 0x20) : evBlock ((0xe0000 + o + 0x20 * q) / 0x10000) = true := by
  rw [show (0xe0000 + o + 0x20 * q) / 0x10000 = 14 by omega]; rfl

theorem ringStore_only (s : State) (q k : Nat) (w : Word) : EvOnly s (s.ringStore q k w) := by
  unfold State.ringStore
  dsimp only
  split
  · exact EvOnly.then_upd (.refl s)
  · exact .refl s

theorem advance_only (s : State) (q k : Nat) : EvOnly s (s.advance q k) := .setQueue s _ _

theorem closePacket_only (s : State) (q : Nat) (b : Bool) (hq : q < 160) : EvOnly s (s.closePacket q b) := by
  have hb : evBlock ((QUE_LOSS_TRUNC q).reg / 0x10000) = true := block_que (o := 0x10) hq (by omega)
  unfold State.closePacket
  dsimp only
  split
  · exact .refl s
  · split
    · exact EvOnly.then_bump (EvOnly.then_disarm (EvOnly.then_setQueue (ringStore_only s _ _ _))) hb
    · exact EvOnly.then_disarm (EvOnly.then_setQueue (ringStore_only s _ _ _))

theorem closeTruncated_only (s : State) (q : Nat) (hq : q < 160) : EvOnly s (s.closeTruncated q) := by
  unfold State.closeTruncated
  split
  · exact .refl s
  · exact EvOnly.then_setQueue (closePacket_only s q true hq)

theorem putWord_only (s : State) (q n c : Nat) (w : Word) (hq : q < 160) : EvOnly s (s.putWord q n c w).st := by
  have hb : evBlock ((QUE_LOSS_LOST q).reg / 0x10000) = true := block_que (o := 0x10) hq (by omega)
  have ite_st {c : Prop} [Decidable c] {x y : PutResult} (hx : EvOnly s x.st) (hy : EvOnly s y.st) :
      EvOnly s (if c then x else y).st := by split <;> assumption
  have open_ (t : State) : EvOnly t ((((t.ringStore q 0 w).setQueue q { (t.ringStore q 0 w).queue q with
      packets := ((t.ringStore q 0 w).queue q).packets.map (fun p =>
        if p.isOpen then { p with words := p.words ++ [⟨w, .ok⟩], count := p.count + 1 } else p) }).advance q 1)) :=
    (EvOnly.then_setQueue (ringStore_only t _ _ _)).trans (advance_only _ _ _)
  unfold State.putWord
  refine ite_st (.put s _ _ hb) (ite_st (closeTruncated_only s q hq) ?_)
  have h0 (x : Queue) (k : Nat) : EvOnly s ((s.bumpBy (QUE_LOSS_LOST q) k).setQueue q x) :=
    EvOnly.then_setQueue (.bumpBy s _ _ hb)
  refine ite_st ((h0 _ _).trans (closeTruncated_only _ q hq)) (ite_st ((h0 _ _).trans (open_ _)) ?_)
  exact .then_arm ((EvOnly.then_setQueue (((h0 _ _).trans (advance_only _ _ _)).trans (ringStore_only _ _ _ _))).trans
    (advance_only _ _ _))

theorem putWords_only (s : State) (q n c : Nat) (ws : List Word) (hq : q < 160) : EvOnly s (s.putWords q n c ws).1 := by
  induction ws generalizing s with
  | nil => exact .refl s
  | cons w t ih => exact (putWord_only s q n c w hq).trans (ih _)

theorem noteLoss_only (s : State) (q : Nat) (b : Bool) : EvOnly s (s.noteLoss q b).1 := by
  unfold State.noteLoss
  dsimp only
  split
  · exact .setQueue s _ _
  · exact .refl s

theorem putEvent_only (s : State) (e q : Nat) (ws : List Word) (hq : q < 160) : EvOnly s (s.putEvent e q ws).1 := by
  have h := ((putWords_only s q 0 3 ws hq).trans (closePacket_only _ q false hq)).then_bump
    (f := EVT_CNT_RECORDS) (by decide)
  unfold State.putEvent
  dsimp only
  split
  · exact (h.trans (noteLoss_only _ _ _)).trans (releaseMsg_only _ 0 _ _ _ _ (by omega))
  · exact h.trans (noteLoss_only _ _ _)

theorem writeEvent_only (s : State) (r : EvRec) : EvOnly s (s.writeEvent r).1 := by
  have hq : 128 + s.get (EVT_CFG_EQ r.event) < 160 := by
    have : s.get (EVT_CFG_EQ r.event) < 2 ^ 4 := get_lt s (EVT_CFG_EQ r.event)
    omega
  unfold State.writeEvent
  split
  · exact .refl s
  · dsimp only
    split
    · exact putEvent_only s _ _ _ hq
    · exact .then_upd (.refl s)

theorem setPend_only (s : State) (e : Nat) (he : e < 512) : EvOnly s (s.setPend e) := by
  have hb : evBlock ((EVT_PEND_PEND (e / 32)).reg / 0x10000) = true := by
    show evBlock ((0x30800 + 0x4 * (e / 32)) / 0x10000) = true
    rw [show (0x30800 + 0x4 * (e / 32)) / 0x10000 = 3 by omega]; rfl
  unfold State.setPend
  dsimp only
  split
  · exact .refl s
  · exact .put s _ _ hb

theorem eventExists_lt {m : Member} {e : Nat} (h : eventExists m e = true) : e < 512 := by
  by_cases h' : e < 256
  · omega
  · unfold eventExists at h
    simpa only [show ¬ e < 15 by omega, show ¬ e < 20 by omega, show ¬ e < 22 by omega, show ¬ e < 24 by omega,
      show ¬ e < 70 by omega, show ¬ e < 80 by omega, show ¬ e < 90 by omega, show ¬ e < 95 by omega,
      show ¬ e < 100 by omega, show ¬ e < 105 by omega, show ¬ e < 114 by omega, show ¬ e < 128 by omega,
      show ¬ e < 192 by omega, h', if_false, decide_eq_true_eq] using h

theorem raiseN_only (k : Nat) (s : State) (e c d : Nat) : EvOnly s (State.raiseN k s e c d) := by
  induction k generalizing s e c d with
  | zero => exact .refl s
  | succ k ih =>
    unfold State.raiseN
    split
    · exact .refl s
    · next he =>
      have he : e < 512 := eventExists_lt (by simpa using he)
      dsimp only
      have h1 := ((setPend_only s e he).trans (wakeOnEvent_only _ e)).then_incr (f := DBG_HIST_PTR_NEXT) (by decide)
      split
      · refine EvOnly.then_upd (EvOnly.then_bump ?_ (by decide))
        refine EvOnly.trans (EvOnly.trans (EvOnly.then_upd h1) (traceRec_only _ _ _ _ _)) (traceTrigger_only _ _)
      · refine EvOnly.trans ?_ (EvOnly.foldl _ (fun (t : State) (x : Nat × Nat) => ih t x.1 0 x.2) _ _)
        refine EvOnly.trans ?_ (writeEvent_only _ _)
        split
        · exact .then_upd (.then_arm (.trans (.trans (.then_upd h1) (traceRec_only _ _ _ _ _)) (traceTrigger_only _ _)))
        · exact .trans (.trans (.then_upd h1) (traceRec_only _ _ _ _ _)) (traceTrigger_only _ _)

/-- All that raising an event can do. -/
theorem raise_only (s : State) (e c d : Nat) : EvOnly s (s.raise e c d) := raiseN_only 4 s e c d

theorem raiseDrops_only (s : State) (ps : List Nat) : EvOnly s (s.raiseDrops ps) :=
  EvOnly.foldl _ (fun t _ => raise_only t _ _ _) _ _

theorem raiseLoss_only (s : State) (q : Nat) (b : Bool) : EvOnly s (s.raiseLoss q b) := by
  unfold State.raiseLoss
  dsimp only
  split
  · exact (noteLoss_only s q b).trans (raise_only _ _ _ _)
  · exact noteLoss_only s q b

end Sys2Proof.Machine
end

