-- ==== Sys2Proof/Laws/Exec.lean ====
section
/-! SUPPORT. The meaning that each command is dispatched to, and what a command that acts only while the device runs does. -/

namespace Sys2Proof.Machine

/-- A command that acts while the device runs acts. -/
theorem act_run {s : State} (h : s.power = .run) (f : State → State) : s.act f = .next (f s) := by
  simp [State.act, h]

/-- A command that acts while the device runs leaves a device that is held or frozen as it is. -/
theorem act_idle {s : State} (h : s.power ≠ .run) (f : State → State) : s.act f = .next s := by
  simp [State.act, h]

theorem exec_mwr (p : Fin 5) (h : Hdr) (d : List Byte) (bad : Bool) (s : State) : exec (.mwr p h d bad) s = execMwr p h d bad s := rfl
theorem exec_npw (p : Fin 5) (h : Hdr) (d : List Byte) (bad : Bool) (s : State) : exec (.npw p h d bad) s = execNpw p h d bad s := rfl
theorem exec_mrd (p : Fin 5) (h : Hdr) (bad : Bool) (s : State) : exec (.mrd p h bad) s = execMrd p h bad s := rfl
theorem exec_atm (p : Fin 5) (h : Hdr) (d : List Byte) (bad : Bool) (s : State) : exec (.atm p h d bad) s = execAtm p h d bad s := rfl
theorem exec_seqQuery (p : Fin 5) (h : Hdr) (s : State) : exec (.seqQuery p h) s = execSeqQuery p h s := rfl
theorem exec_seqSync (p : Fin 5) (h : Hdr) (s : State) : exec (.seqSync p h) s = execSeqSync p h s := rfl
theorem exec_rpl (p : Fin 5) (h : Hdr) (s : State) : exec (.rpl p h) s = execRpl p h s := rfl
theorem exec_nop (p : Fin 5) (h : Hdr) (s : State) : exec (.nop p h) s = execNop p h s := rfl
theorem exec_cpl (p : Fin 5) (h : Hdr) (s : State) : exec (.cpl p h) s = execCpl p h s := rfl
theorem exec_cpld (p : Fin 5) (h : Hdr) (d : List Byte) (s : State) : exec (.cpld p h d) s = execCpld p h d s := rfl
theorem exec_voteWindowClose (rpl : Bool) (n : BitVec 8) (seq : BitVec 16) (bad : Bool) (s : State) : exec (.voteWindowClose rpl n seq bad) s = execVoteWindowClose rpl n seq bad s := rfl
theorem exec_recStallEnd (p : Fin 3) (s : State) : exec (.recStallEnd p) s = execRecStallEnd p s := rfl
theorem exec_executionEnd (via : Option (Fin 2)) (n : BitVec 8) (seq : BitVec 16) (s : State) : exec (.executionEnd via n seq) s = execExecutionEnd via n seq s := rfl
theorem exec_pendingMessageSend (p : Fin 3) (s : State) : exec (.pendingMessageSend p) s = execPendingMessageSend p s := rfl
theorem exec_noticeRelease (n : BitVec 8) (s : State) : exec (.noticeRelease n) s = execNoticeRelease n s := rfl
theorem exec_hpCtlEn (b : By) (p : Fin 3) (v : Word) (s : State) : exec (.hpCtlEn b p v) s = execHpCtlEn b p v s := rfl
theorem exec_portEnterOn (p : Fin 5) (s : State) : exec (.portEnterOn p) s = execPortEnterOn p s := rfl
theorem exec_portDrainEnd (p : Fin 5) (s : State) : exec (.portDrainEnd p) s = execPortDrainEnd p s := rfl
theorem exec_losAssert (k : Fin 10) (s : State) : exec (.losAssert k) s = execLosAssert k s := rfl
theorem exec_losDeassert (k : Fin 10) (s : State) : exec (.losDeassert k) s = execLosDeassert k s := rfl
theorem exec_losLinkDown (k : Fin 10) (s : State) : exec (.losLinkDown k) s = execLosLinkDown k s := rfl
theorem exec_lolAssert (k : Fin 10) (s : State) : exec (.lolAssert k) s = execLolAssert k s := rfl
theorem exec_lolDeassert (k : Fin 10) (s : State) : exec (.lolDeassert k) s = execLolDeassert k s := rfl
theorem exec_trainQuietEnd (p : Fin 5) (s : State) : exec (.trainQuietEnd p) s = execTrainQuietEnd p s := rfl
theorem exec_trainPresenceEnd (p : Fin 5) (s : State) : exec (.trainPresenceEnd p) s = execTrainPresenceEnd p s := rfl
theorem exec_trainPhaseEnd (p : Fin 5) (s : State) : exec (.trainPhaseEnd p) s = execTrainPhaseEnd p s := rfl
theorem exec_trainAlignEnd (p : Fin 5) (slips0 slips1 : BitVec 5) (h0 h1 w0 w1 : List (BitVec 64)) (s : State) : exec (.trainAlignEnd p slips0 slips1 h0 h1 w0 w1) s = execTrainAlignEnd p slips0 slips1 h0 h1 w0 w1 s := rfl
theorem exec_trainEqualiseEnd (p : Fin 5) (e0 e1 : SweepEnd) (s : State) : exec (.trainEqualiseEnd p e0 e1) s = execTrainEqualiseEnd p e0 e1 s := rfl
theorem exec_trainDeskewEnd (p : Fin 5) (d0 d1 : BitVec 64) (late : Nat) (s : State) : exec (.trainDeskewEnd p d0 d1 late) s = execTrainDeskewEnd p d0 d1 late s := rfl
theorem exec_trainHandshakeEnd (x : PortWords) (s : State) : exec (.trainHandshakeEnd x) s = execTrainHandshakeEnd x s := rfl
theorem exec_trainStepTimeout (p : Fin 5) (x : LaneWords) (s : State) : exec (.trainStepTimeout p x) s = execTrainStepTimeout p x s := rfl
theorem exec_trainRetry (p : Fin 5) (s : State) : exec (.trainRetry p) s = execTrainRetry p s := rfl
theorem exec_bitslip (b : By) (k : Fin 10) (s : State) : exec (.bitslip b k) s = execBitslip b k s := rfl
theorem exec_flit (p : Fin 5) (x : LaneWords) (s : State) : exec (.flit p x) s = execFlit p x s := rfl
theorem exec_nak (p : Fin 5) (v : BitVec 8) (s : State) : exec (.nak p v) s = execNak p v s := rfl
theorem exec_replayTimeout (p : Fin 5) (s : State) : exec (.replayTimeout p) s = execReplayTimeout p s := rfl
theorem exec_retrainBlock (p : Fin 5) (s : State) : exec (.retrainBlock p) s = execRetrainBlock p s := rfl
theorem exec_eidleBlock (p : Fin 5) (s : State) : exec (.eidleBlock p) s = execEidleBlock p s := rfl
theorem exec_wakeBurst (p : Fin 5) (w0 w1 : List (BitVec 64)) (s : State) : exec (.wakeBurst p w0 w1) s = execWakeBurst p w0 w1 s := rfl
theorem exec_txEidleEntry (p : Fin 5) (s : State) : exec (.txEidleEntry p) s = execTxEidleEntry p s := rfl
theorem exec_retrainPrbsEnd (p : Fin 5) (u0 u1 w0 w1 v0 v1 : List (BitVec 64)) (s : State) : exec (.retrainPrbsEnd p u0 u1 w0 w1 v0 v1) s = execRetrainPrbsEnd p u0 u1 w0 w1 v0 v1 s := rfl
theorem exec_retrainRealignEnd (p : Fin 5) (slips0 slips1 : BitVec 5) (w0 w1 : List (BitVec 64)) (s : State) : exec (.retrainRealignEnd p slips0 slips1 w0 w1) s = execRetrainRealignEnd p slips0 slips1 w0 w1 s := rfl
theorem exec_retrainResume (p : Fin 5) (d0 d1 : BitVec 64) (x : LaneWords) (s : State) : exec (.retrainResume p d0 d1 x) s = execRetrainResume p d0 d1 x s := rfl
theorem exec_retrainLimit (p : Fin 5) (s : State) : exec (.retrainLimit p) s = execRetrainLimit p s := rfl
theorem exec_retrain (b : By) (p : Fin 5) (s : State) : exec (.retrain b p) s = execRetrain b p s := rfl
theorem exec_eidle (b : By) (p : Fin 5) (s : State) : exec (.eidle b p) s = execEidle b p s := rfl
theorem exec_wake (b : By) (p : Fin 5) (s : State) : exec (.wake b p) s = execWake b p s := rfl
theorem exec_injectOne (b : By) (k : Fin 10) (s : State) : exec (.injectOne b k) s = execInjectOne b k s := rfl
theorem exec_injectBurst (b : By) (k : Fin 10) (s : State) : exec (.injectBurst b k) s = execInjectBurst b k s := rfl
theorem exec_prbsClear (b : By) (k : Fin 10) (s : State) : exec (.prbsClear b k) s = execPrbsClear b k s := rfl
theorem exec_lnCtlMode (b : By) (k : Fin 10) (m : BitVec 2) (s : State) : exec (.lnCtlMode b k m) s = execLnCtlMode b k m s := rfl
theorem exec_suspectExpiry (c : Fin 3) (s : State) : exec (.suspectExpiry c) s = execSuspectExpiry c s := rfl
theorem exec_rejoinTimeout (c : Fin 3) (s : State) : exec (.rejoinTimeout c) s = execRejoinTimeout c s := rfl
theorem exec_rejoinCopyTimeout (n : BitVec 8) (seq : BitVec 16) (c : Fin 3) (s : State) : exec (.rejoinCopyTimeout n seq c) s = execRejoinCopyTimeout n seq c s := rfl
theorem exec_exclude (b : By) (c : Fin 3) (s : State) : exec (.exclude b c) s = execExclude b c s := rfl
theorem exec_rejoin (b : By) (c : Fin 3) (s : State) : exec (.rejoin b c) s = execRejoin b c s := rfl
theorem exec_highClr (b : By) (s : State) : exec (.highClr b) s = execHighClr b s := rfl
theorem exec_ctxUnfence (b : By) (n : BitVec 8) (id : BitVec 8) (s : State) : exec (.ctxUnfence b n id) s = execCtxUnfence b n id s := rfl
theorem exec_lockTimeout (l : LockName) (s : State) : exec (.lockTimeout l) s = execLockTimeout l s := rfl
theorem exec_semWaitTimeout (order : Nat) (s : State) : exec (.semWaitTimeout order) s = execSemWaitTimeout order s := rfl
theorem exec_semaphoreGrant (n : Fin 64) (s : State) : exec (.semaphoreGrant n) s = execSemaphoreGrant n s := rfl
theorem exec_compatInqRead (n : BitVec 8) (s : State) : exec (.compatInqRead n) s = execCompatInqRead n s := rfl
theorem exec_wordAvailable (n : BitVec 8) (s : State) : exec (.wordAvailable n) s = execWordAvailable n s := rfl
theorem exec_compatOutqWrite (n : BitVec 8) (v : Word) (s : State) : exec (.compatOutqWrite n v) s = execCompatOutqWrite n v s := rfl
theorem exec_stallTimeout (n : BitVec 8) (s : State) : exec (.stallTimeout n) s = execStallTimeout n s := rfl
theorem exec_arbitration (a : Fin 10) (reqs : List (BitVec 5 × BitVec 8)) (s : State) : exec (.arbitration a reqs) s = execArbitration a reqs s := rfl
theorem exec_backoffEnd (a : Fin 10) (who : BitVec 8) (s : State) : exec (.backoffEnd a who) s = execBackoffEnd a who s := rfl
theorem exec_overhold (g : Fin 4) (s : State) : exec (.overhold g) s = execOverhold g s := rfl
theorem exec_arbCommit (b : By) (inst : BitVec 10) (s : State) : exec (.arbCommit b inst) s = execArbCommit b inst s := rfl
theorem exec_responseCack (g : Fin 4) (ns : Nat) (d : Word) (x : OtherLines) (s : State) : exec (.responseCack g ns d x) s = execResponseCack g ns d x s := rfl
theorem exec_responseCerr (g : Fin 4) (ns : Nat) (s : State) : exec (.responseCerr g ns) s = execResponseCerr g ns s := rfl
theorem exec_responseCrty (g : Fin 4) (x : RetrySample) (s : State) : exec (.responseCrty g x) s = execResponseCrty g x s := rfl
theorem exec_lateRsp (x : LineSeen) (s : State) : exec (.lateRsp x) s = execLateRsp x s := rfl
theorem exec_beatTimeout (g : Fin 4) (s : State) : exec (.beatTimeout g) s = execBeatTimeout g s := rfl
theorem exec_retryDelayEnd (g : Fin 4) (order : Nat) (s : State) : exec (.retryDelayEnd g order) s = execRetryDelayEnd g order s := rfl
theorem exec_rspStuck (g : Fin 4) (s : State) : exec (.rspStuck g) s = execRspStuck g s := rfl
theorem exec_rspStuckClear (g : Fin 4) (s : State) : exec (.rspStuckClear g) s = execRspStuckClear g s := rfl
theorem exec_keeperPulseDue (g : Fin 4) (s : State) : exec (.keeperPulseDue g) s = execKeeperPulseDue g s := rfl
theorem exec_keepCut (g : Fin 4) (s : State) : exec (.keepCut g) s = execKeepCut g s := rfl
theorem exec_keeperPulseSeen (g : Fin 4) (side : Bool) (count : BitVec 7) (s : State) : exec (.keeperPulseSeen g side count) s = execKeeperPulseSeen g side count s := rfl
theorem exec_casNFall (g : Fin 4) (s : State) : exec (.casNFall g) s = execCasNFall g s := rfl
theorem exec_cintAssert (g : Fin 4) (l : Fin 4) (s : State) : exec (.cintAssert g l) s = execCintAssert g l s := rfl
theorem exec_cintRelease (g : Fin 4) (l : Fin 4) (s : State) : exec (.cintRelease g l) s = execCintRelease g l s := rfl
theorem exec_cintRearm (g : Fin 4) (l : Fin 4) (s : State) : exec (.cintRearm g l) s = execCintRearm g l s := rfl
theorem exec_arm (b : By) (g : Fin 4) (lines : BitVec 4) (s : State) : exec (.arm b g lines) s = execArm b g lines s := rfl
theorem exec_pollTimeout (g : Fin 4) (s : State) : exec (.pollTimeout g) s = execPollTimeout g s := rfl
theorem exec_cbrRequest (g : Fin 4) (s : State) : exec (.cbrRequest g) s = execCbrRequest g s := rfl
theorem exec_lmAcceptance (g : Fin 4) (spc : Fin 3) (addr : BitVec 24) (s : State) : exec (.lmAcceptance g spc addr) s = execLmAcceptance g spc addr s := rfl
theorem exec_grantLost (g : Fin 4) (s : State) : exec (.grantLost g) s = execGrantLost g s := rfl
theorem exec_lmWatchdog (g : Fin 4) (s : State) : exec (.lmWatchdog g) s = execLmWatchdog g s := rfl
theorem exec_lmTenureEnd (g : Fin 4) (s : State) : exec (.lmTenureEnd g) s = execLmTenureEnd g s := rfl
theorem exec_inboundWrite (g : Fin 4) (bytes : List (BitVec 24 × Byte)) (s : State) : exec (.inboundWrite g bytes) s = execInboundWrite g bytes s := rfl
theorem exec_inboundRead (g : Fin 4) (addrs : List (BitVec 24)) (s : State) : exec (.inboundRead g addrs) s = execInboundRead g addrs s := rfl
theorem exec_inbRetry (g : Fin 4) (s : State) : exec (.inbRetry g) s = execInbRetry g s := rfl
theorem exec_inboundFetchEnd (g : Fin 4) (id : Nat) (s : State) : exec (.inboundFetchEnd g id) s = execInboundFetchEnd g id s := rfl
theorem exec_prefetchHoldEnd (g : Fin 4) (id : Nat) (s : State) : exec (.prefetchHoldEnd g id) s = execPrefetchHoldEnd g id s := rfl
theorem exec_inboundDrain (g : Fin 4) (s : State) : exec (.inboundDrain g) s = execInboundDrain g s := rfl
theorem exec_segCtlEn (b : By) (g : Fin 4) (v : Word) (s : State) : exec (.segCtlEn b g v) s = execSegCtlEn b g v s := rfl
theorem exec_ownershipTake (g : Fin 4) (s : State) : exec (.ownershipTake g) s = execOwnershipTake g s := rfl
theorem exec_busRelease (g : Fin 4) (s : State) : exec (.busRelease g) s = execBusRelease g s := rfl
theorem exec_segDrainEnd (g : Fin 4) (s : State) : exec (.segDrainEnd g) s = execSegDrainEnd g s := rfl
theorem exec_cardReset (b : By) (g : Fin 4) (s : State) : exec (.cardReset b g) s = execCardReset b g s := rfl
theorem exec_cardResetEnd (g : Fin 4) (s : State) : exec (.cardResetEnd g) s = execCardResetEnd g s := rfl
theorem exec_scrubRead (found : Ecc) (s : State) : exec (.scrubRead found) s = execScrubRead found s := rfl
theorem exec_legBoundary (s : State) : exec (.legBoundary) s = execLegBoundary s := rfl
theorem exec_carryEnd (img : BitVec 8) (s : State) : exec (.carryEnd img) s = execCarryEnd img s := rfl
theorem exec_imgCfgWrite (b : By) (img : BitVec 8) (r : Fin 3) (v : Word) (s : State) : exec (.imgCfgWrite b img r v) s = execImgCfgWrite b img r v s := rfl
theorem exec_mirroredLine (q : Fin 2) (line : BitVec 20) (bad : BitVec 8) (d : List Byte) (s : State) : exec (.mirroredLine q line bad d) s = execMirroredLine q line bad d s := rfl
theorem exec_commitRecord (q : Fin 2) (img : BitVec 8) (gen flags time : Word) (s : State) : exec (.commitRecord q img gen flags time) s = execCommitRecord q img gen flags time s := rfl
theorem exec_resync (q : Fin 2) (img : BitVec 8) (s : State) : exec (.resync q img) s = execResync q img s := rfl
theorem exec_ctxCtlEn (b : By) (n : BitVec 8) (v : Word) (s : State) : exec (.ctxCtlEn b n v) s = execCtxCtlEn b n v s := rfl
theorem exec_ctxDrainEnd (n : BitVec 8) (s : State) : exec (.ctxDrainEnd n) s = execCtxDrainEnd n s := rfl
theorem exec_kick (b : By) (n : BitVec 8) (s : State) : exec (.kick b n) s = execKick b n s := rfl
theorem exec_ctxResume (b : By) (n : BitVec 8) (s : State) : exec (.ctxResume b n) s = execCtxResume b n s := rfl
theorem exec_workItemDispatch (k : Fin 16) (s : State) : exec (.workItemDispatch k) s = execWorkItemDispatch k s := rfl
theorem exec_threadBind (c : Fin 16) (s : State) : exec (.threadBind c) s = execThreadBind c s := rfl
theorem exec_overdraft (n : BitVec 8) (s : State) : exec (.overdraft n) s = execOverdraft n s := rfl
theorem exec_waitTimeout (n : BitVec 8) (s : State) : exec (.waitTimeout n) s = execWaitTimeout n s := rfl
theorem exec_courCtlEn (b : By) (c : Fin 16) (v : Word) (s : State) : exec (.courCtlEn b c v) s = execCourCtlEn b c v s := rfl
theorem exec_lockstepMismatch (x : CourStop) (s : State) : exec (.lockstepMismatch x) s = execLockstepMismatch x s := rfl
theorem exec_migrationEnd (c : Fin 16) (s : State) : exec (.migrationEnd c) s = execMigrationEnd c s := rfl
theorem exec_courierTestEnd (c : Fin 16) (pass : Bool) (s : State) : exec (.courierTestEnd c pass) s = execCourierTestEnd c pass s := rfl
theorem exec_add (n : Fin 256) (s : State) : exec (.add n) s = execAdd n s := rfl
theorem exec_sub (n : Fin 256) (s : State) : exec (.sub n) s = execSub n s := rfl
theorem exec_and (n : Fin 256) (s : State) : exec (.and n) s = execAnd n s := rfl
theorem exec_or (n : Fin 256) (s : State) : exec (.or n) s = execOr n s := rfl
theorem exec_xor (n : Fin 256) (s : State) : exec (.xor n) s = execXor n s := rfl
theorem exec_shl (n : Fin 256) (s : State) : exec (.shl n) s = execShl n s := rfl
theorem exec_shr (n : Fin 256) (s : State) : exec (.shr n) s = execShr n s := rfl
theorem exec_sra (n : Fin 256) (s : State) : exec (.sra n) s = execSra n s := rfl
theorem exec_ror (n : Fin 256) (s : State) : exec (.ror n) s = execRor n s := rfl
theorem exec_mul (n : Fin 256) (s : State) : exec (.mul n) s = execMul n s := rfl
theorem exec_cmp (n : Fin 256) (s : State) : exec (.cmp n) s = execCmp n s := rfl
theorem exec_swap16 (n : Fin 256) (s : State) : exec (.swap16 n) s = execSwap16 n s := rfl
theorem exec_swap32 (n : Fin 256) (s : State) : exec (.swap32 n) s = execSwap32 n s := rfl
theorem exec_crc32c (n : Fin 256) (s : State) : exec (.crc32c n) s = execCrc32c n s := rfl
theorem exec_jr (n : Fin 256) (s : State) : exec (.jr n) s = execJr n s := rfl
theorem exec_jalr (n : Fin 256) (s : State) : exec (.jalr n) s = execJalr n s := rfl
theorem exec_addi (n : Fin 256) (s : State) : exec (.addi n) s = execAddi n s := rfl
theorem exec_andi (n : Fin 256) (s : State) : exec (.andi n) s = execAndi n s := rfl
theorem exec_ori (n : Fin 256) (s : State) : exec (.ori n) s = execOri n s := rfl
theorem exec_xori (n : Fin 256) (s : State) : exec (.xori n) s = execXori n s := rfl
theorem exec_lui (n : Fin 256) (s : State) : exec (.lui n) s = execLui n s := rfl
theorem exec_cmpi (n : Fin 256) (s : State) : exec (.cmpi n) s = execCmpi n s := rfl
theorem exec_shi (n : Fin 256) (s : State) : exec (.shi n) s = execShi n s := rfl
theorem exec_bfx (n : Fin 256) (s : State) : exec (.bfx n) s = execBfx n s := rfl
theorem exec_bfi (n : Fin 256) (s : State) : exec (.bfi n) s = execBfi n s := rfl
theorem exec_ldw (n : Fin 256) (found : Found) (s : State) : exec (.ldw n found) s = execLdw n found s := rfl
theorem exec_ldh (n : Fin 256) (found : Found) (s : State) : exec (.ldh n found) s = execLdh n found s := rfl
theorem exec_ldb (n : Fin 256) (found : Found) (s : State) : exec (.ldb n found) s = execLdb n found s := rfl
theorem exec_stw (n : Fin 256) (s : State) : exec (.stw n) s = execStw n s := rfl
theorem exec_sth (n : Fin 256) (s : State) : exec (.sth n) s = execSth n s := rfl
theorem exec_stb (n : Fin 256) (s : State) : exec (.stb n) s = execStb n s := rfl
theorem exec_ldd (n : Fin 256) (found : Found) (s : State) : exec (.ldd n found) s = execLdd n found s := rfl
theorem exec_std (n : Fin 256) (s : State) : exec (.std n) s = execStd n s := rfl
theorem exec_ldl (n : Fin 256) (x : LoadGrant) (s : State) : exec (.ldl n x) s = execLdl n x s := rfl
theorem exec_stl (x : StoreGrant) (s : State) : exec (.stl x) s = execStl x s := rfl
theorem exec_b (n : Fin 256) (s : State) : exec (.b n) s = execB n s := rfl
theorem exec_bl (n : Fin 256) (s : State) : exec (.bl n) s = execBl n s := rfl
theorem exec_mvd (n : Fin 256) (s : State) : exec (.mvd n) s = execMvd n s := rfl
theorem exec_mfd (n : Fin 256) (s : State) : exec (.mfd n) s = execMfd n s := rfl
theorem exec_cyr (n : Fin 256) (s : State) : exec (.cyr n) s = execCyr n s := rfl
theorem exec_cyw (n : Fin 256) (s : State) : exec (.cyw n) s = execCyw n s := rfl
theorem exec_cywn (n : Fin 256) (s : State) : exec (.cywn n) s = execCywn n s := rfl
theorem exec_cyl (n : Fin 256) (s : State) : exec (.cyl n) s = execCyl n s := rfl
theorem exec_poll (n : Fin 256) (s : State) : exec (.poll n) s = execPoll n s := rfl
theorem exec_trd (n : Fin 256) (s : State) : exec (.trd n) s = execTrd n s := rfl
theorem exec_wait (n : Fin 256) (s : State) : exec (.wait n) s = execWait n s := rfl
theorem exec_msg (n : Fin 256) (s : State) : exec (.msg n) s = execMsg n s := rfl
theorem exec_qput (n : Fin 256) (s : State) : exec (.qput n) s = execQput n s := rfl
theorem exec_qget (n : Fin 256) (s : State) : exec (.qget n) s = execQget n s := rfl
theorem exec_evt (n : Fin 256) (s : State) : exec (.evt n) s = execEvt n s := rfl
theorem exec_time (n : Fin 256) (s : State) : exec (.time n) s = execTime n s := rfl
theorem exec_budget (n : Fin 256) (s : State) : exec (.budget n) s = execBudget n s := rfl
theorem exec_yield (n : Fin 256) (s : State) : exec (.yield n) s = execYield n s := rfl
theorem exec_trap (n : Fin 256) (s : State) : exec (.trap n) s = execTrap n s := rfl
theorem exec_rett (n : Fin 256) (s : State) : exec (.rett n) s = execRett n s := rfl
theorem exec_sysr (n : Fin 256) (s : State) : exec (.sysr n) s = execSysr n s := rfl
theorem exec_stgTimWrite (b : By) (v : Word) (s : State) : exec (.stgTimWrite b v) s = execStgTimWrite b v s := rfl
theorem exec_stgOfsWrite (b : By) (v : Word) (s : State) : exec (.stgOfsWrite b v) s = execStgOfsWrite b v s := rfl
theorem exec_peakClr (b : By) (s : State) : exec (.peakClr b) s = execPeakClr b s := rfl
theorem exec_holdupSenseSample (code : BitVec 10) (s : State) : exec (.holdupSenseSample code) s = execHoldupSenseSample code s := rfl
theorem exec_vinSenseSample (code : BitVec 10) (s : State) : exec (.vinSenseSample code) s = execVinSenseSample code s := rfl
theorem exec_dieSensorSample (code : BitVec 10) (s : State) : exec (.dieSensorSample code) s = execDieSensorSample code s := rfl
theorem exec_holdupExit (s : State) : exec (.holdupExit) s = execHoldupExit s := rfl
theorem exec_lastgasp (b : By) (s : State) : exec (.lastgasp b) s = execLastgasp b s := rfl
theorem exec_extremeClr (b : By) (s : State) : exec (.extremeClr b) s = execExtremeClr b s := rfl
theorem exec_queReset (b : By) (q : Fin 160) (s : State) : exec (.queReset b q) s = execQueReset b q s := rfl
theorem exec_quePush (b : By) (q : Fin 160) (v : Word) (s : State) : exec (.quePush b q v) s = execQuePush b q v s := rfl
theorem exec_quePop (n : BitVec 8) (q : Fin 160) (len : Nat) (found : List Ecc) (s : State) : exec (.quePop n q len found) s = execQuePop n q len found s := rfl
theorem exec_queCfgWrite (b : By) (q : Fin 160) (rbase : Bool) (v : Word) (s : State) : exec (.queCfgWrite b q rbase v) s = execQueCfgWrite b q rbase v s := rfl
theorem exec_openTmo (q : Fin 160) (s : State) : exec (.openTmo q) s = execOpenTmo q s := rfl
theorem exec_positionMismatch (q : Fin 160) (s : State) : exec (.positionMismatch q) s = execPositionMismatch q s := rfl
theorem exec_chainTestEnd (q : Fin 160) (pass : Bool) (s : State) : exec (.chainTestEnd q pass) s = execChainTestEnd q pass s := rfl
theorem exec_intItemEnqueue (g : Fin 4) (s : State) : exec (.intItemEnqueue g) s = execIntItemEnqueue g s := rfl
theorem exec_bridgeRecordEnqueue (q : Fin 160) (s : State) : exec (.bridgeRecordEnqueue q) s = execBridgeRecordEnqueue q s := rfl
theorem exec_spnCtlEn (b : By) (v : Word) (s : State) : exec (.spnCtlEn b v) s = execSpnCtlEn b v s := rfl
theorem exec_heartbeatSend (q : Fin 2) (s : State) : exec (.heartbeatSend q) s = execHeartbeatSend q s := rfl
theorem exec_heartbeat (q : Fin 2) (w : Word) (count : Word) (time : BitVec 64) (s : State) : exec (.heartbeat q w count time) s = execHeartbeat q w count time s := rfl
theorem exec_portSilent (q : Fin 2) (s : State) : exec (.portSilent q) s = execPortSilent q s := rfl
theorem exec_hbMiss (q : Fin 2) (s : State) : exec (.hbMiss q) s = execHbMiss q s := rfl
theorem exec_takeover (g : Fin 4) (s : State) : exec (.takeover g) s = execTakeover g s := rfl
theorem exec_coldStartOwner (g : Fin 4) (s : State) : exec (.coldStartOwner g) s = execColdStartOwner g s := rfl
theorem exec_handover (b : By) (segs : BitVec 4) (s : State) : exec (.handover b segs) s = execHandover b segs s := rfl
theorem exec_handoverRelease (g : Fin 4) (s : State) : exec (.handoverRelease g) s = execHandoverRelease g s := rfl
theorem exec_handoverPacket (q : Fin 2) (g : Fin 4) (s : State) : exec (.handoverPacket q g) s = execHandoverPacket q g s := rfl
theorem exec_handoverFail (g : Fin 4) (s : State) : exec (.handoverFail g) s = execHandoverFail g s := rfl
theorem exec_journal (q : Fin 2) (d : List Byte) (s : State) : exec (.journal q d) s = execJournal q d s := rfl
theorem exec_journalAcked (g : Fin 4) (jseq : BitVec 16) (s : State) : exec (.journalAcked g jseq) s = execJournalAcked g jseq s := rfl
theorem exec_retire (q : Fin 2) (first : BitVec 16) (g : Fin 4) (count : BitVec 8) (s : State) : exec (.retire q first g count) s = execRetire q first g count s := rfl
theorem exec_opcCtlEn (b : By) (k : Fin 4) (v : Word) (s : State) : exec (.opcCtlEn b k v) s = execOpcCtlEn b k v s := rfl
theorem exec_chainEnterOn (k : Fin 4) (s : State) : exec (.chainEnterOn k) s = execChainEnterOn k s := rfl
theorem exec_frameStart (k : Fin 4) (s : State) : exec (.frameStart k) s = execFrameStart k s := rfl
theorem exec_upRecord (k : Fin 4) (d : List Byte) (s : State) : exec (.upRecord k d) s = execUpRecord k d s := rfl
theorem exec_frameEnd (k : Fin 4) (s : State) : exec (.frameEnd k) s = execFrameEnd k s := rfl
theorem exec_frameTmo (k : Fin 4) (s : State) : exec (.frameTmo k) s = execFrameTmo k s := rfl
theorem exec_opcResume (b : By) (k : Fin 4) (mask : BitVec 8) (s : State) : exec (.opcResume b k mask) s = execOpcResume b k mask s := rfl
theorem exec_opcChaWrite (b : By) (k : Fin 4) (o : Fin 8) (c : Fin 16) (v : Word) (s : State) : exec (.opcChaWrite b k o c v) s = execOpcChaWrite b k o c v s := rfl
theorem exec_opcChbWrite (b : By) (k : Fin 4) (o : Fin 8) (c : Fin 16) (v : Word) (s : State) : exec (.opcChbWrite b k o c v) s = execOpcChbWrite b k o c v s := rfl
theorem exec_opcCfgWrite (b : By) (k : Fin 4) (v : Word) (s : State) : exec (.opcCfgWrite b k v) s = execOpcCfgWrite b k v s := rfl
theorem exec_faultTestStart (item : Fin 32) (bad : BitVec 4) (s : State) : exec (.faultTestStart item bad) s = execFaultTestStart item bad s := rfl
theorem exec_rowCopyEnd (q : Bool) (u : Fin 32) (s : State) : exec (.rowCopyEnd q u) s = execRowCopyEnd q u s := rfl
theorem exec_rowMarchEnd (q : Bool) (u : Fin 32) (pass : Bool) (s : State) : exec (.rowMarchEnd q u pass) s = execRowMarchEnd q u pass s := rfl
theorem exec_rowRestoreEnd (q : Bool) (u : Fin 32) (s : State) : exec (.rowRestoreEnd q u) s = execRowRestoreEnd q u s := rfl
theorem exec_innkeeperFault (s : State) : exec (.innkeeperFault) s = execInnkeeperFault s := rfl
theorem exec_fltLaneReturn (b : By) (mask : BitVec 10) (s : State) : exec (.fltLaneReturn b mask) s = execFltLaneReturn b mask s := rfl
theorem exec_eventRateEnd (e : BitVec 8) (s : State) : exec (.eventRateEnd e) s = execEventRateEnd e s := rfl
theorem exec_evtPendClear (b : By) (j : Fin 16) (mask : Word) (s : State) : exec (.evtPendClear b j mask) s = execEvtPendClear b j mask s := rfl
theorem exec_registerWrite (b : By) (a : BitVec 26) (v : Word) (s : State) : exec (.registerWrite b a v) s = execRegisterWrite b a v s := rfl
theorem exec_rcRead (n : BitVec 8) (a : BitVec 26) (s : State) : exec (.rcRead n a) s = execRcRead n a s := rfl
theorem exec_counterPairRead (n : BitVec 8) (a : BitVec 26) (s : State) : exec (.counterPairRead n a) s = execCounterPairRead n a s := rfl
theorem exec_slowAccessEnd (d : Fin 3) (s : State) : exec (.slowAccessEnd d) s = execSlowAccessEnd d s := rfl
theorem exec_cfgUnlock (b : By) (key : Word) (s : State) : exec (.cfgUnlock b key) s = execCfgUnlock b key s := rfl
theorem exec_guardRelock (s : State) : exec (.guardRelock) s = execGuardRelock s := rfl
theorem exec_cfgCommit (b : By) (s : State) : exec (.cfgCommit b) s = execCfgCommit b s := rfl
theorem exec_checkPassStart (s : State) : exec (.checkPassStart) s = execCheckPassStart s := rfl
theorem exec_checkPassEnd (s : State) : exec (.checkPassEnd) s = execCheckPassEnd s := rfl
theorem exec_commitPassEnd (s : State) : exec (.commitPassEnd) s = execCommitPassEnd s := rfl
theorem exec_dirtyTimeout (s : State) : exec (.dirtyTimeout) s = execDirtyTimeout s := rfl
theorem exec_erase (b : By) (slot : Fin 2) (s : State) : exec (.erase b slot) s = execErase b slot s := rfl
theorem exec_program (b : By) (slot : Fin 2) (s : State) : exec (.program b slot) s = execProgram b slot s := rfl
theorem exec_verify (b : By) (slot : Fin 2) (s : State) : exec (.verify b slot) s = execVerify b slot s := rfl
theorem exec_armTrial (b : By) (slot : Fin 2) (s : State) : exec (.armTrial b slot) s = execArmTrial b slot s := rfl
theorem exec_writeSettings (b : By) (s : State) : exec (.writeSettings b) s = execWriteSettings b s := rfl
theorem exec_restart (b : By) (force : Bool) (s : State) : exec (.restart b force) s = execRestart b force s := rfl
theorem exec_reject (b : By) (force : Bool) (s : State) : exec (.reject b force) s = execReject b force s := rfl
theorem exec_bootCmdEnd (flashBad : Bool) (s : State) : exec (.bootCmdEnd flashBad) s = execBootCmdEnd flashBad s := rfl
theorem exec_confirm (b : By) (s : State) : exec (.confirm b) s = execConfirm b s := rfl
theorem exec_lifecycleToField (b : By) (s : State) : exec (.lifecycleToField b) s = execLifecycleToField b s := rfl
theorem exec_keyHash (b : By) (s : State) : exec (.keyHash b) s = execKeyHash b s := rfl
theorem exec_dbgHash (b : By) (s : State) : exec (.dbgHash b) s = execDbgHash b s := rfl
theorem exec_load (b : By) (s : State) : exec (.load b) s = execLoad b s := rfl
theorem exec_extest (cells : List Bool) (s : State) : exec (.extest cells) s = execExtest cells s := rfl
theorem exec_samplePreload (cells : List Bool) (s : State) : exec (.samplePreload cells) s = execSamplePreload cells s := rfl
theorem exec_idcode (s : State) : exec (.idcode) s = execIdcode s := rfl
theorem exec_freeze (s : State) : exec (.freeze) s = execFreeze s := rfl
theorem exec_frzRead (a : BitVec 26) (s : State) : exec (.frzRead a) s = execFrzRead a s := rfl
theorem exec_traceRead (entry : BitVec 16) (w : Fin 8) (s : State) : exec (.traceRead entry w) s = execTraceRead entry w s := rfl
theorem exec_frzScan (s : State) : exec (.frzScan) s = execFrzScan s := rfl
theorem exec_dbgAuth (key sig : List Byte) (s : State) : exec (.dbgAuth key sig) s = execDbgAuth key sig s := rfl
theorem exec_dbgAccess (n : BitVec 8) (a : BitVec 26) (w : Bool) (v : Word) (s : State) : exec (.dbgAccess n a w v) s = execDbgAccess n a w v s := rfl
theorem exec_dbgRelock (s : State) : exec (.dbgRelock) s = execDbgRelock s := rfl
theorem exec_lcReturn (s : State) : exec (.lcReturn) s = execLcReturn s := rfl
theorem exec_bypass (s : State) : exec (.bypass) s = execBypass s := rfl
theorem exec_freezeNFall (s : State) : exec (.freezeNFall) s = execFreezeNFall s := rfl
theorem exec_glitch (k : Fin 3) (s : State) : exec (.glitch k) s = execGlitch k s := rfl
theorem exec_powerOn (s : State) : exec (.powerOn) s = execPowerOn s := rfl
theorem exec_resetPin (s : State) : exec (.resetPin) s = execResetPin s := rfl
theorem exec_resetEnd (side freezeN : Bool) (s : State) : exec (.resetEnd side freezeN) s = execResetEnd side freezeN s := rfl
theorem exec_xspiResetEnd (s : State) : exec (.xspiResetEnd) s = execXspiResetEnd s := rfl
theorem exec_supplyOutOfRange (sup : Fin 10) (s : State) : exec (.supplyOutOfRange sup) s = execSupplyOutOfRange sup s := rfl
theorem exec_supplyInRange (sup : Fin 10) (s : State) : exec (.supplyInRange sup) s = execSupplyInRange sup s := rfl
theorem exec_pllWarn (s : State) : exec (.pllWarn) s = execPllWarn s := rfl
theorem exec_tsyncEdge (s : State) : exec (.tsyncEdge) s = execTsyncEdge s := rfl
theorem exec_tsyncMiss (s : State) : exec (.tsyncMiss) s = execTsyncMiss s := rfl
theorem exec_timeBaseHoldEnd (s : State) : exec (.timeBaseHoldEnd) s = execTimeBaseHoldEnd s := rfl
theorem exec_set (b : By) (s : State) : exec (.set b) s = execSet b s := rfl
theorem exec_setNow (b : By) (s : State) : exec (.setNow b) s = execSetNow b s := rfl
theorem exec_responseRelease (g : Fin 4) (s : State) : exec (.responseRelease g) s = execResponseRelease g s := rfl
theorem exec_cbrRelease (g : Fin 4) (s : State) : exec (.cbrRelease g) s = execCbrRelease g s := rfl
theorem exec_leaseExpiry (g : Fin 4) (s : State) : exec (.leaseExpiry g) s = execLeaseExpiry g s := rfl
theorem exec_slotTestEnd (recFails : Bool) (slotsFail : Nat) (s : State) : exec (.slotTestEnd recFails slotsFail) s = execSlotTestEnd recFails slotsFail s := rfl
theorem exec_startComplete (good : BitVec 16) (failA failB : Bool) (s : State) : exec (.startComplete good failA failB) s = execStartComplete good failA failB s := rfl
theorem exec_startFailReset (good : BitVec 16) (failA failB : Bool) (s : State) : exec (.startFailReset good failA failB) s = execStartFailReset good failA failB s := rfl
theorem exec_segmentWaitTimeout (g : Fin 4) (order : Nat) (s : State) : exec (.segmentWaitTimeout g order) s = execSegmentWaitTimeout g order s := rfl
theorem exec_trstNLow (s : State) : exec (.trstNLow) s = execTrstNLow s := rfl
theorem exec_fuseWriteEnd (n : Fin 4) (s : State) : exec (.fuseWriteEnd n) s = execFuseWriteEnd n s := rfl
theorem exec_msgPacket (p : Fin 5) (h : Hdr) (d : List Byte) (s : State) : exec (.msgPacket p h d) s = execMsgPacket p h d s := rfl

end Sys2Proof.Machine
end

