-- ==== Sys2Proof/Laws/Headers.lean ====
section
/-! SUPPORT. What the fields of a header read after its TYPE or its bits [12:9] are replaced. -/

namespace Sys2Proof

variable (h : Hdr)

theorem Hdr.mk_w0 (a b c d : Word) : (Hdr.mk a b c d).w0 = a := rfl
theorem Hdr.mk_w1 (a b c d : Word) : (Hdr.mk a b c d).w1 = b := rfl
theorem Hdr.mk_w2 (a b c d : Word) : (Hdr.mk a b c d).w2 = c := rfl
theorem Hdr.mk_w3 (a b c d : Word) : (Hdr.mk a b c d).w3 = d := rfl

theorem Hdr.withType_eq (t : Nat) : h.withType t = Hdr.mk (setBits h.w0 27 5 t) h.w1 h.w2 h.w3 := rfl
theorem Hdr.withOp_eq (o : Nat) : h.withOp o = Hdr.mk h.w0 (setBits h.w1 9 4 o) h.w2 h.w3 := rfl

theorem Hdr.withType_w0 (t : Nat) : (h.withType t).w0 = setBits h.w0 27 5 t :=
  (congrArg Hdr.w0 (h.withType_eq t)).trans (mk_w0 _ _ _ _)
@[simp] theorem Hdr.withType_w1 (t : Nat) : (h.withType t).w1 = h.w1 :=
  (congrArg Hdr.w1 (h.withType_eq t)).trans (mk_w1 _ _ _ _)
@[simp] theorem Hdr.withType_w2 (t : Nat) : (h.withType t).w2 = h.w2 :=
  (congrArg Hdr.w2 (h.withType_eq t)).trans (mk_w2 _ _ _ _)
@[simp] theorem Hdr.withType_w3 (t : Nat) : (h.withType t).w3 = h.w3 :=
  (congrArg Hdr.w3 (h.withType_eq t)).trans (mk_w3 _ _ _ _)

theorem Hdr.withType_low (t lo w : Nat) (hw : lo + w ≤ 27) : bits (h.withType t).w0 lo w = bits h.w0 lo w := by
  rw [h.withType_w0]
  exact bits_setBits_other _ _ _ _ _ _ (by omega) (by omega)

@[simp] theorem Hdr.withType_type (t : Nat) : (h.withType t).type = t % 32 := by
  unfold Hdr.type
  rw [h.withType_w0]
  exact bits_setBits_same _ _ _ _ (by omega)

@[simp] theorem Hdr.withType_vc (t : Nat) : (h.withType t).vc = h.vc := h.withType_low t 25 2 (by omega)
@[simp] theorem Hdr.withType_ctx (t : Nat) : (h.withType t).ctx = h.ctx := h.withType_low t 16 8 (by omega)
@[simp] theorem Hdr.withType_seq (t : Nat) : (h.withType t).seq = h.seq := h.withType_low t 0 16 (by omega)
@[simp] theorem Hdr.withType_voted (t : Nat) : (h.withType t).voted = h.voted := by
  simp only [Hdr.voted, h.withType_low t 24 1 (by omega)]
@[simp] theorem Hdr.withType_tag (t : Nat) : (h.withType t).tag = h.tag := by simp only [Hdr.tag, withType_w1]
@[simp] theorem Hdr.withType_len (t : Nat) : (h.withType t).len = h.len := by simp only [Hdr.len, withType_w1]
@[simp] theorem Hdr.withType_op (t : Nat) : (h.withType t).op = h.op := by simp only [Hdr.op, withType_w1]
@[simp] theorem Hdr.withType_fence (t : Nat) : (h.withType t).fence = h.fence := by simp only [Hdr.fence, withType_w1]
@[simp] theorem Hdr.withType_addr (t : Nat) : (h.withType t).addr = h.addr := by
  simp only [Hdr.addr, withType_w1, withType_w2]
@[simp] theorem Hdr.withType_origin (t : Nat) : (h.withType t).origin = h.origin := by simp only [Hdr.origin, withType_w3]
@[simp] theorem Hdr.withType_event (t : Nat) : (h.withType t).event = h.event := by simp only [Hdr.event, withType_w3]

theorem Hdr.withOp_w1 (o : Nat) : (h.withOp o).w1 = setBits h.w1 9 4 o :=
  (congrArg Hdr.w1 (h.withOp_eq o)).trans (mk_w1 _ _ _ _)

theorem Hdr.withOp_bits (o lo w : Nat) (hw : lo + w ≤ 9 ∨ 13 ≤ lo) : bits (h.withOp o).w1 lo w = bits h.w1 lo w := by
  rw [h.withOp_w1]
  exact bits_setBits_other _ _ _ _ _ _ (by omega) (by omega)

@[simp] theorem Hdr.withOp_w0 (o : Nat) : (h.withOp o).w0 = h.w0 :=
  (congrArg Hdr.w0 (h.withOp_eq o)).trans (mk_w0 _ _ _ _)
@[simp] theorem Hdr.withOp_w2 (o : Nat) : (h.withOp o).w2 = h.w2 :=
  (congrArg Hdr.w2 (h.withOp_eq o)).trans (mk_w2 _ _ _ _)
@[simp] theorem Hdr.withOp_w3 (o : Nat) : (h.withOp o).w3 = h.w3 :=
  (congrArg Hdr.w3 (h.withOp_eq o)).trans (mk_w3 _ _ _ _)
@[simp] theorem Hdr.withOp_op (o : Nat) : (h.withOp o).op = o % 16 := by
  unfold Hdr.op
  rw [h.withOp_w1]
  exact bits_setBits_same _ _ _ _ (by omega)
@[simp] theorem Hdr.withOp_ctx (o : Nat) : (h.withOp o).ctx = h.ctx := by simp only [Hdr.ctx, withOp_w0]
@[simp] theorem Hdr.withOp_vc (o : Nat) : (h.withOp o).vc = h.vc := by simp only [Hdr.vc, withOp_w0]
@[simp] theorem Hdr.withOp_voted (o : Nat) : (h.withOp o).voted = h.voted := by simp only [Hdr.voted, withOp_w0]
@[simp] theorem Hdr.withOp_seq (o : Nat) : (h.withOp o).seq = h.seq := by simp only [Hdr.seq, withOp_w0]
@[simp] theorem Hdr.withOp_tag (o : Nat) : (h.withOp o).tag = h.tag := h.withOp_bits o 22 10 (by omega)
@[simp] theorem Hdr.withOp_len (o : Nat) : (h.withOp o).len = h.len := h.withOp_bits o 13 9 (by omega)
@[simp] theorem Hdr.withOp_origin (o : Nat) : (h.withOp o).origin = h.origin := by simp only [Hdr.origin, withOp_w3]

/-! ## The header built from its fields -/

section built
variable (type vc ctx seq tag len op addr origin event : Nat) (voted : Bool)

theorem mkHdr_w0 : (mkHdr type vc voted ctx seq tag len op addr origin event).w0 =
    BitVec.ofNat 32 (type % 32 * 2 ^ 27 + vc % 4 * 2 ^ 25 + ofBool voted * 2 ^ 24 + ctx % 256 * 2 ^ 16 + seq % 65536) := rfl

theorem mkHdr_w1 : (mkHdr type vc voted ctx seq tag len op addr origin event).w1 =
    BitVec.ofNat 32 (tag % 1024 * 2 ^ 22 + len % 512 * 2 ^ 13 + op % 16 * 2 ^ 9 + addr / 2 ^ 32 % 256) := rfl

theorem mkHdr_w2 : (mkHdr type vc voted ctx seq tag len op addr origin event).w2 = BitVec.ofNat 32 addr := rfl

@[simp] theorem mkHdr_type : (mkHdr type vc voted ctx seq tag len op addr origin event).type = type % 32 := by
  unfold Hdr.type bits natBits
  rw [mkHdr_w0, BitVec.toNat_ofNat]
  cases voted <;> simp only [ofBool, if_true, Bool.false_eq_true, if_false] <;> omega

@[simp] theorem mkHdr_vc : (mkHdr type vc voted ctx seq tag len op addr origin event).vc = vc % 4 := by
  unfold Hdr.vc bits natBits
  rw [mkHdr_w0, BitVec.toNat_ofNat]
  cases voted <;> simp only [ofBool, if_true, Bool.false_eq_true, if_false] <;> omega

@[simp] theorem mkHdr_voted : (mkHdr type vc voted ctx seq tag len op addr origin event).voted = voted := by
  unfold Hdr.voted bits natBits
  rw [mkHdr_w0, BitVec.toNat_ofNat]
  cases voted <;> simp only [ofBool, if_true, Bool.false_eq_true, if_false, beq_eq_false_iff_ne, beq_iff_eq, ne_eq] <;> omega

@[simp] theorem mkHdr_ctx : (mkHdr type vc voted ctx seq tag len op addr origin event).ctx = ctx % 256 := by
  unfold Hdr.ctx bits natBits
  rw [mkHdr_w0, BitVec.toNat_ofNat]
  cases voted <;> simp only [ofBool, if_true, Bool.false_eq_true, if_false] <;> omega

@[simp] theorem mkHdr_len : (mkHdr type vc voted ctx seq tag len op addr origin event).len = len % 512 := by
  unfold Hdr.len bits natBits
  rw [mkHdr_w1, BitVec.toNat_ofNat]
  omega

@[simp] theorem mkHdr_addr : (mkHdr type vc voted ctx seq tag len op addr origin event).addr = addr % 2 ^ 40 := by
  unfold Hdr.addr bits natBits
  rw [mkHdr_w1, mkHdr_w2, BitVec.toNat_ofNat, BitVec.toNat_ofNat]
  omega

end built

end Sys2Proof
end

