-- ==== Sys2Proof/Laws/SpanPackets.lean ====
section
/-! SUPPORT. Control packets of the partner's Span unit: their headers, and where a packet that is taken goes. -/

namespace Sys2Proof.Machine

/-- The fields of a control packet's header. -/
theorem spanCtl_h (q a : Nat) (d : List Byte) (ha : a < 2 ^ 40) : (spanCtl q a d).h.type = tMWR ∧ (spanCtl q a d).h.ctx = 0 ∧
    (spanCtl q a d).h.voted = false ∧ (spanCtl q a d).h.addr = a := by
  unfold spanCtl
  refine ⟨?_, ?_, ?_, ?_⟩
  · show (mkHdr _ _ _ _ _ _ _ _ _ _ _).type = _; rw [mkHdr_type]; decide
  · show (mkHdr _ _ _ _ _ _ _ _ _ _ _).ctx = _; rw [mkHdr_ctx]
  · show (mkHdr _ _ _ _ _ _ _ _ _ _ _).voted = _; rw [mkHdr_voted]
  · show (mkHdr _ _ _ _ _ _ _ _ _ _ _).addr = _; rw [mkHdr_addr, Nat.mod_eq_of_lt ha]

/-- A packet that arrives without an error shows no cause of a protocol error and has room in the receive buffer (R48,
R59). -/
theorem takes_fine (s : State) (p : Nat) (k : Pkt) (h : s.takes p k = true) :
    s.hasPort p = true ∧ s.linkUp p = true ∧ s.packetCause p k = none ∧
      (3 ≤ p ∨ s.on (HP_CTL_ORIGIN_CHK p) = false ∨ k.h.origin = p) ∧ s.hasRoom p k = true := by
  simp only [State.takes, pktAgrees, Bool.and_eq_true, Bool.or_eq_true, Bool.not_eq_true', decide_eq_true_eq, bne_iff_ne,
    beq_iff_eq] at h
  obtain ⟨⟨⟨⟨⟨⟨⟨h1, h2⟩, h3⟩, h4⟩, h5⟩, h6⟩, h7⟩, h8⟩ := h
  obtain ⟨⟨⟨⟨⟨a1, a2⟩, a3⟩, a4⟩, a5⟩, a6⟩ := h3
  refine ⟨h1, h2, ?_, by rcases h7 with (h7 | h7) | h7 <;> simp [h7], h8⟩
  have b2 : (usesLen k.h.type && decide (255 < k.h.len)) = false := by
    rcases a2 with a2 | a2
    · simp [a2]
    · simp; intro _; omega
  have b4 : (nonPosted k.h.type && decide (tagRange p ≤ k.h.tag)) = false := by
    rcases h6 with h6 | h6
    · simp [h6]
    · simp; intro _; omega
  have b5 : (nonPosted k.h.type && (s.port p).tags.contains k.h.tag) = false := by
    rcases h6 with h6 | h6
    · simp [h6]
    · rw [h6.2]; simp
  have b6 : (k.h.type == tATM && (atomicSize k.h.op k.h.len k.h.addr).isNone) = false := by
    rcases a4 with a4 | a4
    · simp [a4]
    · cases hx : atomicSize k.h.op k.h.len k.h.addr <;> simp_all
  have b7 : (isAccess k.h.type && decide (4096 < k.h.addr % 4096 + k.h.len + 1)) = false := by
    rcases a5 with a5 | a5
    · simp [a5]
    · simp; intro _; omega
  have b8 : (k.h.type == tMSG || (decide (p < 3) && (k.h.type == tCPL || k.h.type == tCPLD))) = false := by
    rcases h5 with h5 | h5
    · simp [h4]; intro _; omega
    · simp [h4, h5.1, h5.2]
  have b9 : (k.h.type == tSEQ && decide (1 < k.h.op)) = false := by
    rcases a6 with a6 | a6
    · simp [a6]
    · simp; intro _; omega
  unfold State.packetCause
  simp only [a1, a3, b2, b4, b5, b6, b7, b8, b9, bne_self_eq_false, Bool.false_eq_true, if_false]

/-- A control packet that is taken: the partner has been heard, the trace has it, and the Span unit handles it (R354,
R372, R486). -/
theorem takePacket_spanCtl (s : State) (q : Nat) (a : Nat) (d : List Byte) (bad : Nat) (ha : 0xFE00000000 ≤ a) (ha2 : a < 2 ^ 40)
    (h : s.takes (3 + q) (spanCtl q a d) = true) :
    s.takePacket (3 + q) (spanCtl q a d) false bad =
      ((s.heardOn (3 + q)).traceSpan (3 + q) (spanCtl q a d)).spanControl q (spanCtl q a d) bad := by
  obtain ⟨h1, h2, h3, _, h5⟩ := takes_fine s (3 + q) _ h
  have c3 : (s.heardOn (3 + q)).packetCause (3 + q) (spanCtl q a d) = none := by
    unfold State.heardOn; split <;> exact h3
  have c5 : (s.heardOn (3 + q)).hasRoom (3 + q) (spanCtl q a d) = true := by
    unfold State.heardOn; split <;> exact h5
  obtain ⟨t1, t2, t3, t4⟩ := spanCtl_h q a d ha2
  unfold State.takePacket
  have n1 : ¬ tMWR = tNOP := by decide
  have n2 : ¬ (tMWR = tCPL ∨ tMWR = tCPLD) := by decide
  simp only [h1, h2, c3, c5, t1, n1, n2, Bool.not_true, Bool.or_self, Bool.false_eq_true, if_false, show ¬ (3 + q < 3) by omega,
    decide_false, Bool.false_and, Nat.add_sub_cancel_left]
  rw [if_pos]
  simp [isSpanControl, t1, t2, t3, t4, ha]

/-- What the Span unit makes of a control packet, by its address. -/
theorem spanControl_spanCtl (s : State) (q a : Nat) (d : List Byte) (bad : Nat) (ha2 : a < 2 ^ 40) :
    s.spanControl q (spanCtl q a d) bad =
      let w (i : Nat) : Nat := leNat ((d.drop (4 * i)).take 4)
      if a = 0xFF00000001 then s.heartbeatIn q d
      else if a = 0xFF00000002 then s.handoverIn q (natBits (w 0) 0 2)
      else if a = 0xFF00000003 then s.journalIn q d
      else if a = 0xFF00000004 then
        s.retireIn q (natBits (w 0) 0 16) (natBits (w 0) 16 2) (natBits (w 0) 24 8)
      else if s.portState (3 + q) ≠ 2 then s
      else
        let s := s.spanTook q d.length
        if a = 0xFF00000005 then s.commitRecord (w 0 % 256) (w 1) (w 2) (w 3)
        else if a = 0xFF00000006 then s.resyncAsked (w 0 % 256)
        else if 0xFE00000000 ≤ a ∧ a < 0xFF00000000 then s.mirroredLine (a - 0xFE00000000) d bad
        else s := by
  unfold State.spanControl
  simp only [(spanCtl_h q a d ha2).2.2.2]
  rfl

end Sys2Proof.Machine
end

