-- ==== Sys2Proof/Laws/Writes.lean ====
section
/-! SUPPORT. When a command acts, and what a register write does before its own effect: the new word is stored, and of
everything else only the guard and the configuration check may change. -/

namespace Sys2Proof.Machine

theorem actDrain_run {s : State} (h : s.power = .run) (f : State → State) : s.actDrain f = .next ((f s).drain) := by
  simp [State.actDrain, act_run h]

theorem actPort_run {s : State} (h : s.power = .run) {p : Nat} (hp : s.hasPort p = true) (f : State → State) :
    s.actPort p f = .next (f s) := by
  simp [State.actPort, act_run h, hp]

theorem actSeg_run {s : State} (h : s.power = .run) {g : Nat} (hg : s.hasSeg g = true) (f : State → State) :
    s.actSeg g f = .next ((f s).drain) := by
  simp [State.actSeg, actDrain_run h, hg]

theorem actCour_run {s : State} (h : s.power = .run) {c : Nat} (hc : c < s.member.couriers) (f : State → State) :
    s.actCour c f = .next (f s) := by
  simp [State.actCour, act_run h, hc]

theorem actChain_run {s : State} (h : s.power = .run) {k : Nat} (hk : k < s.member.chains) (f : State → State) :
    s.actChain k f = .next (f s) := by
  simp [State.actChain, act_run h, hk]

theorem actSpan_run {s : State} (h : s.power = .run) {q : Nat} (hq : q < s.member.spans) (f : State → State) :
    s.actSpan q f = .next ((f s).drain) := by
  simp [State.actSpan, actDrain_run h, hq]

/-- A write that reaches its register stores its word and has the register's own effect; its completion is shown. -/
theorem doWrite_reaches {s : State} {b : By} {a : Nat} {v : Word} (h : s.reaches b a v = true) :
    s.doWrite b a v =
      (((s.admitted b a).written (s.stored b a v) b false a v).1).emit
        (.done b.ctx.toNat a ((s.admitted b a).written (s.stored b a v) b false a v).2) := by
  simp only [State.reaches, Bool.and_eq_true, beq_iff_eq, Bool.not_eq_true', Option.isSome_iff_exists] at h
  obtain ⟨⟨⟨⟨⟨h1, h2⟩, ⟨r, h3⟩⟩, h4⟩, h6⟩, h5⟩ := h
  unfold State.doWrite
  simp only [h1, h2, if_true]
  unfold State.writeReg
  have hf : fieldsOf a = r.fields := by simp [fieldsOf, h3]
  have hc : ¬ ((0xc0000 ≤ a ∧ a < 0xc0100) ∨ s.member.noSource a) := by simpa [h6] using h4
  simp only [h3, if_neg hc]
  have hg : (r.fields.any (·.guarded) && !isInn b && !s.ownsGuard b.ctx.toNat &&
      guardTouched r.fields (s.word a) (s.adjust a (s.word a) (fieldsNext r.fields (s.word a) v)) v) = false := by
    simpa [State.guards, hf, State.newWord] using h5
  simp only [State.stored, State.admitted, hf, State.newWord]
  cases hw : b.who <;> simp only [isInn, hw] at hg ⊢ <;> simp only [hg, Bool.false_eq_true, if_false]

/-- A write of one field is a write of the register's word with its plainly writable fields as they stand. -/
theorem doPut_eq (s : State) (b : By) (f : FRef) (x : Nat) : s.doPut b f x = s.doWrite b f.reg (s.putWordOf f x) := rfl

/-- The field of the word written by a field write is the value given. -/
theorem putWordOf_bits (s : State) (f : FRef) (x : Nat) (h : f.lo + f.w ≤ 32) (hx : x < 2 ^ f.w) :
    bits (s.putWordOf f x) f.lo f.w = x := by
  rw [State.putWordOf, bits_setBits_same _ _ _ _ h, Nat.mod_eq_of_lt hx]

/-- A field that is not plainly writable is zero in the word that a write of another field gives. -/
theorem plainWord_zero (s : State) (a : Nat) (r : RRow) (hr : regRow a = some r) (g : FRow) (hg : g ∈ r.fields)
    (hp : g.isRw = false) (hd : ∀ f ∈ r.fields, f = g ∨ f.lo + f.w ≤ g.lo ∨ g.lo + g.w ≤ f.lo)
    (h32 : ∀ f ∈ r.fields, f.lo + f.w ≤ 32) : bits (s.plainWord a) g.lo g.w = 0 := by
  have key : ∀ (fs : List FRow) (w : Word), (∀ f ∈ fs, f = g ∨ f.lo + f.w ≤ g.lo ∨ g.lo + g.w ≤ f.lo) →
      (∀ f ∈ fs, f.lo + f.w ≤ 32) → (g ∈ fs ∨ bits w g.lo g.w = 0) →
      bits (fs.foldl (fun w f => if !f.isRw then setBits w f.lo f.w 0 else w) w) g.lo g.w = 0 := by
    intro fs
    induction fs with
    | nil => intro w _ _ h; rcases h with h | h; simp at h; exact h
    | cons f t ih =>
      intro w hd h32 h
      simp only [List.foldl_cons]
      apply ih _ (fun x hx => hd x (List.mem_cons_of_mem _ hx)) (fun x hx => h32 x (List.mem_cons_of_mem _ hx))
      rcases hd f (List.mem_cons_self) with e | e
      · right
        subst e
        simp only [hp, Bool.not_false, if_true]
        rw [bits_setBits_same _ _ _ _ (h32 f List.mem_cons_self), Nat.zero_mod]
      · rcases h with h | h
        · rcases List.mem_cons.1 h with h | h
          · right
            subst h
            simp only [hp, Bool.not_false, if_true]
            rw [bits_setBits_same _ _ _ _ (h32 _ List.mem_cons_self), Nat.zero_mod]
          · exact .inl h
        · right
          split
          · rw [bits_setBits_other _ _ _ _ _ _ (h32 f List.mem_cons_self) (by omega)]; exact h
          · exact h
  unfold State.plainWord
  simp only [hr]
  exact key r.fields _ hd h32 (.inl hg)

/-- Whether the fields of a register lie in its 32 bits and share none. -/
def tidy (fs : List FRow) : Bool :=
  fs.all (fun f => decide (f.lo + f.w ≤ 32)) &&
    fs.all (fun f => fs.all (fun g => f == g || decide (f.lo + f.w ≤ g.lo) || decide (g.lo + g.w ≤ f.lo)))

theorem tidy_apart {fs : List FRow} (h : tidy fs = true) {f g : FRow} (hf : f ∈ fs) (hg : g ∈ fs) :
    f = g ∨ f.lo + f.w ≤ g.lo ∨ g.lo + g.w ≤ f.lo := by
  simp only [tidy, Bool.and_eq_true, List.all_eq_true, Bool.or_eq_true, beq_iff_eq, decide_eq_true_eq] at h
  have := h.2 f hf g hg
  exact or_assoc.1 this

theorem tidy_fits {fs : List FRow} (h : tidy fs = true) {f : FRow} (hf : f ∈ fs) : f.lo + f.w ≤ 32 := by
  simp only [tidy, Bool.and_eq_true, List.all_eq_true, decide_eq_true_eq] at h
  exact h.1 f hf

/-- Whether the register at an address has a field at `lo` of `w` bits, not plainly writable, apart from its others. -/
def commandField (a lo w : Nat) : Bool :=
  tidy (fieldsOf a) && (fieldsOf a).any (fun g => g.lo == lo && g.w == w && !g.isRw)

/-- In the word that a write of one field gives, another field that is not plainly writable is zero. -/
theorem putWordOf_zero (s : State) (f : FRef) (x lo w c : Nat) (hrow : regRow f.reg = regRow c)
    (hc : commandField c lo w = true) (hf : f.lo + f.w ≤ 32) (ha : lo + w ≤ f.lo ∨ f.lo + f.w ≤ lo) :
    bits (s.putWordOf f x) lo w = 0 := by
  simp only [commandField, Bool.and_eq_true, List.any_eq_true, beq_iff_eq, Bool.not_eq_true'] at hc
  obtain ⟨ht, g, hg, ⟨hlo, hw⟩, hrw⟩ := hc
  subst hlo; subst hw
  rw [State.putWordOf, bits_setBits_other _ _ _ _ _ _ hf ha]
  cases hr : regRow c with
  | none => simp [fieldsOf, hr] at hg
  | some r =>
    have hfs : fieldsOf c = r.fields := by simp [fieldsOf, hr]
    rw [hfs] at hg ht
    exact plainWord_zero s f.reg r (hrow.trans hr) g hg hrw (fun y hy => tidy_apart ht hy hg) (fun y hy => tidy_fits ht hy)

/-- What a write makes of each field of a register whose fields share no bit. -/
theorem fieldsNext_bits (fs : List FRow) (old v : Word) (ht : tidy fs = true) (hn : fs.Nodup) (g : FRow) (hg : g ∈ fs) :
    bits (fieldsNext fs old v) g.lo g.w =
      g.next (bits old g.lo g.w) (bits v g.lo g.w) (bits v (g.lo + 16) g.w) % 2 ^ g.w := by
  have away : ∀ (l : List FRow) (w : Word), (∀ f ∈ l, f.lo + f.w ≤ 32 ∧ (f.lo + f.w ≤ g.lo ∨ g.lo + g.w ≤ f.lo)) →
      bits (l.foldl (fun w f => setBits w f.lo f.w
        (f.next (bits old f.lo f.w) (bits v f.lo f.w) (bits v (f.lo + 16) f.w))) w) g.lo g.w = bits w g.lo g.w := by
    intro l
    induction l with
    | nil => intro w _; rfl
    | cons f t ih =>
      intro w h
      obtain ⟨h1, h2⟩ := h f List.mem_cons_self
      rw [List.foldl_cons, ih _ (fun x hx => h x (List.mem_cons_of_mem _ hx)), bits_setBits_other _ _ _ _ _ _ h1 (by omega)]
  obtain ⟨l₁, l₂, rfl⟩ := List.append_of_mem hg
  unfold fieldsNext
  rw [List.foldl_append, List.foldl_cons, away, bits_setBits_same _ _ _ _ (tidy_fits ht hg)]
  intro f hf
  have hm : f ∈ l₁ ++ g :: l₂ := by simp [hf]
  refine ⟨tidy_fits ht hm, ?_⟩
  rcases tidy_apart ht hm hg with e | e
  · subst e
    exact absurd hf ((List.nodup_cons.1 (List.nodup_append.1 hn).2.1).1)
  · exact e

/-! ## What the storing of a word leaves alone -/

/-- The block of the configuration check, and a set of registers beside it, are all that changes among the registers;
of the rest of the state, only the timers and the account of the check. -/
def OnlyCfg (a : Nat) (s t : State) : Prop :=
  (∃ rg tm ds rs, t = { s with regs := rg, timers := tm, dirtySince := ds, restarts := rs }) ∧
    ∀ c, c ≠ a → c / 0x10000 ≠ 2 → t.word c = s.word c

theorem OnlyCfg.refl (a : Nat) (s : State) : OnlyCfg a s s := ⟨⟨s.regs, s.timers, s.dirtySince, s.restarts, rfl⟩, fun _ _ _ => rfl⟩

theorem OnlyCfg.trans {a : Nat} {s t u : State} (h : OnlyCfg a s t) (k : OnlyCfg a t u) : OnlyCfg a s u := by
  obtain ⟨⟨_, _, _, _, rfl⟩, h⟩ := h
  obtain ⟨⟨_, _, _, _, rfl⟩, k⟩ := k
  exact ⟨⟨_, _, _, _, rfl⟩, fun c h1 h2 => (k c h1 h2).trans (h c h1 h2)⟩

theorem OnlyCfg.setWord (a : Nat) (s : State) (w : Word) : OnlyCfg a s (s.setWord a w) :=
  ⟨⟨_, _, _, _, rfl⟩, fun _ h _ => word_setWord_other s w h⟩

theorem OnlyCfg.put (a : Nat) (s : State) (f : FRef) (v : Nat) (h : f.reg / 0x10000 = 2) : OnlyCfg a s (s.put f v) :=
  ⟨⟨_, _, _, _, rfl⟩, fun _ _ h2 => word_setWord_other s _ (fun e => h2 (e ▸ h))⟩

theorem OnlyCfg.disarm (a : Nat) (s : State) (t : Timer) : OnlyCfg a s (s.disarm t) :=
  ⟨⟨_, _, _, _, rfl⟩, fun _ _ _ => rfl⟩

theorem OnlyCfg.arm (a : Nat) (s : State) (t : Timer) (n : Nat) : OnlyCfg a s (s.arm t n) :=
  ⟨⟨_, _, _, _, rfl⟩, fun _ _ _ => rfl⟩

theorem lockGuard_only (a : Nat) (s : State) : OnlyCfg a s s.lockGuard :=
  (OnlyCfg.put a s _ _ (by decide)).trans (OnlyCfg.disarm a _ _)

theorem restartPass_only (a : Nat) (s : State) : OnlyCfg a s s.restartPass := by
  unfold State.restartPass
  split
  · have h : OnlyCfg a s { s.bump CFG_CNT0_RESTARTS with restarts := s.restarts + 1 } :=
      ⟨⟨_, _, _, _, rfl⟩, fun c _ h2 => word_setWord_other s _ (fun e => h2 (by rw [e]; decide))⟩
    dsimp only
    split
    · exact h.trans (OnlyCfg.put a _ _ _ (by decide))
    · exact h
  · exact OnlyCfg.refl a s

theorem watchDirty_only (a : Nat) (s : State) : OnlyCfg a s s.watchDirty := by
  unfold State.watchDirty
  dsimp only
  split
  · exact OnlyCfg.arm a s _ _
  · exact OnlyCfg.disarm a s _

theorem coveredWrite_only (a : Nat) (s : State) : OnlyCfg a s s.coveredWrite := by
  unfold State.coveredWrite
  dsimp only
  refine (restartPass_only a s).trans ?_
  split
  · exact OnlyCfg.refl a _
  · have h : OnlyCfg a s.restartPass { s.restartPass.put CFG_STAT_DIRTY 1 with dirtySince := s.restartPass.clk } :=
      ⟨⟨_, _, _, _, rfl⟩, fun c _ h2 => word_setWord_other _ _ (fun e => h2 (by rw [e]; decide))⟩
    exact h.trans (watchDirty_only a _)

theorem admitted_only (s : State) (b : By) (a c : Nat) : OnlyCfg c s (s.admitted b a) := by
  unfold State.admitted
  split
  · exact lockGuard_only c s
  · exact OnlyCfg.refl c s

/-- A write's own word apart, the storing of a word changes only the guard and the configuration check. -/
theorem stored_only (s : State) (b : By) (a : Nat) (v : Word) : OnlyCfg a s (s.stored b a v) := by
  unfold State.stored
  dsimp only
  refine (admitted_only s b a a).trans ((OnlyCfg.setWord a _ (s.newWord a v)).trans ?_)
  split
  · exact coveredWrite_only a _
  · exact OnlyCfg.refl a _

/-- A field of another register reads as before. -/
theorem stored_get (s : State) (b : By) (a : Nat) (v : Word) (f : FRef) (h : f.reg ≠ a) (h2 : f.reg / 0x10000 ≠ 2) :
    (s.stored b a v).get f = s.get f := by
  unfold State.get
  rw [(stored_only s b a v).2 f.reg h h2]

/-- The register written outside the block of the configuration check holds its new word. -/
theorem stored_word (s : State) (b : By) (a : Nat) (v : Word) (h2 : a / 0x10000 ≠ 2) :
    (s.stored b a v).word a = s.newWord a v := by
  unfold State.stored
  dsimp only
  split
  · rw [(coveredWrite_only (a + 1) _).2 a (by omega) h2, word_setWord_same]
  · rw [word_setWord_same]

/-! ## What a write does beyond its word, by block -/

section blocks
variable (old s : State) (b : By) (p : Bool) (a : Nat) (v : Word)

theorem written_crp (h : a / 0x10000 = 1) : State.written old s b p a v = (old.crpWritten s a v, stSC) := by
  unfold State.written; simp only [h]
theorem written_evt (h : a / 0x10000 = 3) : State.written old s b p a v = (s, stSC) := by
  unfold State.written; simp only [h]
theorem written_lane (h : a / 0x10000 = 5) : State.written old s b p a v = (old.laneWritten s a v, stSC) := by
  unfold State.written; simp only [h]
theorem written_acc (h : a / 0x10000 = 6) : State.written old s b p a v = s.accWritten b a v := by
  unfold State.written; simp only [h]
theorem written_stg (h : a / 0x10000 = 13) : State.written old s b p a v = (old.stgWritten s a v, stSC) := by
  unfold State.written; simp only [h]
theorem written_que (h : a / 0x10000 = 14) : State.written old s b p a v = old.queWritten s a v := by
  unfold State.written; simp only [h]
theorem written_arb (h : a / 0x10000 = 15) : State.written old s b p a v = (s.arbWritten a v, stSC) := by
  unfold State.written; simp only [h]
theorem written_spn (h : a / 0x10000 = 16) : State.written old s b p a v = (s.spnWritten a v, stSC) := by
  unfold State.written; simp only [h]
theorem written_opc (h : a / 0x10000 = 17) : State.written old s b p a v = (s.opcWritten a, stSC) := by
  unfold State.written; simp only [h]
theorem written_boot (h : a / 0x10000 = 19) : State.written old s b p a v = s.bootWritten b p a v := by
  unfold State.written; simp only [h]
theorem written_sec (h : a / 0x10000 = 20) : State.written old s b p a v = s.secWritten b a v := by
  unfold State.written; simp only [h]

end blocks

end Sys2Proof.Machine
end

