-- ==== Sys2Proof/WellFormed.lean ====
section
/-! DEFINITION. Which commands the outside of the device or its own units can form: lengths, ranges and address
alignment of the operands that their types leave open. The meanings are total and do not rest on it. -/

namespace Sys2Proof

/-- The data of a packet: at most the 256 bytes that LEN can name (R29). -/
def dataOk (d : List Byte) : Bool := decide (d.length ≤ 256)

/-- The address of a register's word (R430). -/
def regAddrOk (a : BitVec 26) : Bool := decide (a.toNat < 0x170000) && decide (a.toNat % 4 = 0)

/-- Inbound bytes or addresses of one cycle: some, at most one burst of 16 beats of 4 bytes, none twice (R194, R195). -/
def inboundOk (as : List (BitVec 24)) : Bool := !as.isEmpty && decide (as.length ≤ 64) && decide as.Nodup

/-- Whether a command is well formed. -/
def Instr.wf (i : Instr) : Bool :=
  match i with
  | .mwr _ _ d _ => dataOk d
  | .npw _ _ d _ => dataOk d
  | .atm _ _ d _ => dataOk d
  | .cpld _ _ d => dataOk d
  | .msgPacket _ _ d => dataOk d
  | .flit _ x => decide (x.w0.length = 4) && decide (x.w1.length = 4)
  | .wakeBurst _ w0 w1 => decide (w0.length = 4) && decide (w1.length = 4)
  | .lnCtlMode _ _ m => decide (m.toNat ≤ 2)
  | .arbitration _ reqs => decide (reqs.map (·.1)).Nodup
  | .inboundWrite _ bytes => inboundOk (bytes.map (·.1))
  | .inboundRead _ addrs => inboundOk addrs
  | .mirroredLine _ _ _ d => decide (d.length = 64)
  | .journal _ d => decide (16 < d.length) && dataOk d
  | .quePop _ _ len _ => decide (len % 8 = 0) && decide (8 ≤ len) && decide (len ≤ 256)
  | .upRecord _ d => decide (12 ≤ d.length) && decide (d.length ≤ 23)
  | .registerWrite _ a _ => regAddrOk a
  | .rcRead _ a => regAddrOk a
  | .counterPairRead _ a => regAddrOk a
  | .dbgAuth key sig => decide (key.length = 96) && decide (sig.length = 96)
  | _ => true

end Sys2Proof
end

