-- ==== Sys2Proof/Tests/Slice0.lean ====
section
/-! SUPPORT. Tests: an ill-formed command for each check of WellFormed, single steps on small states, and for every
statement with hypotheses a state that meets them. -/

namespace Sys2Proof.Tests

open Sys2Proof Sys2Proof.Machine Sys2Proof.Claims

-- The tests are checked one after the other: in parallel their evaluations each hold a thread and its memory.
set_option Elab.async false

/-! ## Ill-formed commands -/

/-- A header of zeros. -/
def hdr0 : Hdr := ⟨0, 0, 0, 0⟩

/-- The Innkeeper on context 0. -/
def inn : By := ⟨0, .innkeeper⟩

/-- A voted request of context 1. -/
def vote1 : By := ⟨1, .voted⟩

/-- A number of bytes. -/
def zerosOf (n : Nat) : List Byte := List.replicate n 0

theorem test_wf_mwr_data : (Instr.mwr 0 hdr0 (zerosOf 257) false).wf = false := by decide +kernel
theorem test_wf_npw_data : (Instr.npw 0 hdr0 (zerosOf 257) false).wf = false := by decide +kernel
theorem test_wf_atm_data : (Instr.atm 0 hdr0 (zerosOf 257) false).wf = false := by decide +kernel
theorem test_wf_cpld_data : (Instr.cpld 0 hdr0 (zerosOf 257)).wf = false := by decide +kernel
theorem test_wf_msg_data : (Instr.msgPacket 0 hdr0 (zerosOf 257)).wf = false := by decide +kernel
theorem test_wf_flit_short : (Instr.flit 0 ⟨[0, 0, 0], [0, 0, 0, 0]⟩).wf = false := by decide
theorem test_wf_flit_lane1 : (Instr.flit 0 ⟨[0, 0, 0, 0], [0, 0, 0, 0, 0]⟩).wf = false := by decide
theorem test_wf_wake_short : (Instr.wakeBurst 0 [0, 0, 0] [0, 0, 0, 0]).wf = false := by decide
theorem test_wf_lane_mode : (Instr.lnCtlMode inn 0 3).wf = false := by decide
theorem test_wf_arbitration_twice : (Instr.arbitration 0 [(1, 2), (1, 3)]).wf = false := by decide
theorem test_wf_inbound_empty : (Instr.inboundWrite 0 []).wf = false := by decide
theorem test_wf_inbound_twice : (Instr.inboundRead 0 [4, 4]).wf = false := by decide
theorem test_wf_mirrored_short : (Instr.mirroredLine 0 0 0 (zerosOf 63)).wf = false := by decide
theorem test_wf_journal_short : (Instr.journal 0 (zerosOf 16)).wf = false := by decide
theorem test_wf_pop_length : (Instr.quePop 1 0 12 []).wf = false := by decide
theorem test_wf_pop_zero : (Instr.quePop 1 0 0 []).wf = false := by decide
theorem test_wf_up_record_short : (Instr.upRecord 0 (zerosOf 11)).wf = false := by decide
theorem test_wf_up_record_long : (Instr.upRecord 0 (zerosOf 24)).wf = false := by decide
theorem test_wf_write_misaligned : (Instr.registerWrite vote1 2 0).wf = false := by decide
theorem test_wf_read_outside : (Instr.rcRead 1 0x170000).wf = false := by decide
theorem test_wf_pair_misaligned : (Instr.counterPairRead 1 1).wf = false := by decide
theorem test_wf_auth_lengths : (Instr.dbgAuth (zerosOf 96) (zerosOf 95)).wf = false := by decide

/-! ## States that meet the hypotheses of the statements

One theorem for each clause of a statement, named after it: the state and operands that it writes out meet all of the
clause's hypotheses together; what a hypothesis binds is looked at under `any`. -/

/-- A device that runs, with the fields listed as they are. -/
def running (fs : List (FRef × Nat)) : State :=
  fs.foldl (fun s f => s.put f.1 f.2) { State.reset with power := .run }

/-- The same with a timer due in 1 ns. -/
def dueIn (t : Timer) (fs : List (FRef × Nat)) : State := (running fs).arm t 1

/-- A device that runs with context 1 SINGLE on channel A, ON, and host port H0 ON. -/
def hostState : State :=
  (running [(CTX_VOTE_MODE 1, 1), (CTX_STAT_STATE 1, 2), (HP_STAT_STATE 0, 2), (LL_STAT_LINK_UP 0, 1)]).setPort 0
    { Port.idle with granted := true, grant := ⟨128, 128, 128, 128⟩ }

/-- A device that runs with context 1 ON and span port S0 ON. -/
def spanState : State :=
  (running [(CTX_STAT_STATE 1, 2), (SPN_PORT_STATE 0, 2), (LL_STAT_LINK_UP 3, 1)]).setPort 3
    { Port.idle with granted := true, grant := ⟨128, 128, 128, 128⟩ }

/-- The header of a request of context 1 with SEQ 1 and tag 0. -/
def hdr1 (vc len : Nat) : Hdr := mkHdr 0 vc false 1 1 0 len 0 0 0 0

/-- A write that `mayWrite` lets through reaches its register, so that the witnesses for it serve both. -/
theorem reaches_of_mayWrite (s : State) (b : By) (a : Nat) (v : Word) (h : mayWrite s b a v = true) :
    s.reaches b a v = true := by
  unfold mayWrite at h
  unfold State.reaches State.guards
  simp only [Bool.and_eq_true, Bool.or_eq_true] at h ⊢
  obtain ⟨⟨⟨⟨⟨h1, h2⟩, h3⟩, h4⟩, h5⟩, h6⟩ := h
  refine ⟨⟨⟨⟨⟨h2, h3⟩, h1⟩, h4⟩, h5⟩, ?_⟩
  rcases h6 with (h6 | h6) | h6
  · have : (fieldsOf a).any (·.guarded) = false := by simpa using h6
    rw [this]; rfl
  · rw [h6]; simp
  · rw [h6]; simp

theorem witness_singleRequestsAccepted :
    singleRequest hostState 0 (packet tMWR (hdr1 0 0) (zerosOf 1)) = true ∧
    singleRequest hostState 0 (packet tNPW (hdr1 1 255) (zerosOf 256)) = true ∧
    singleRequest hostState 0 (packet tMRD (hdr1 1 255) []) = true ∧
    singleRequest hostState 0 (packet tATM ((hdr1 1 3).withOp 1) (zerosOf 4)) = true := by decide +kernel

theorem witness_spanRequestsAccepted :
    spanRequest spanState 3 (packet tMWR (hdr1 0 0) (zerosOf 1)) = true ∧
    spanRequest spanState 3 (packet tNPW (hdr1 1 255) (zerosOf 256)) = true ∧
    spanRequest spanState 3 (packet tMRD (hdr1 1 255) []) = true ∧
    spanRequest spanState 3 (packet tATM ((hdr1 1 3).withOp 1) (zerosOf 4)) = true := by decide +kernel

theorem witness_seqQueryAnswered :
    serviceRequest hostState 0 (packet tSEQ ((hdr1 1 0).withOp 0) []) = true := by decide +kernel

theorem witness_seqSyncTaken :
    let s := ((hostState.put (CTX_VOTE_MODE 1) 0).put (ACC_CH_STAT_STATE 0) 3)
    serviceRequest s 0 (packet tSEQ ((hdr1 1 0).withOp 1) []) = true ∧ s.isVoted 1 = true ∧ s.ctxState 1 = 2 ∧
      s.chState 0 = 3 := by decide +kernel

theorem witness_rplReplayed :
    serviceRequest hostState 0 (packet tRPL (hdr1 1 0) []) = true ∧ hostState.openFor true 1 1 = none ∧
      hostState.ctxState 1 = 2 ∧ (packet tRPL (hdr1 1 0) []).h.voted = false := by decide +kernel

theorem witness_nopGrantsCredits :
    let s (n : Nat) := hostState.setPort 0 { Port.idle with tx := ⟨n, 0, 0, n⟩ }
    ∀ n ∈ [4095 - 255, 4095 - 254], (s n).power = .run ∧ (s n).hasPort 0 = true ∧ (s n).linkUp 0 = true ∧
      (⟨0, 0, 0xFF0000FF, 0⟩ : Hdr).vc = 0 ∧
      creditsAfter (s n) 0 ⟨0, 0, 0xFF0000FF, 0⟩ = ⟨n + 255, 0, 0, n + 255⟩ := by decide +kernel

/-- An accepted read of 8 bytes that was forwarded on span port S0 under tag 0. -/
def away : Exec := { (default : Exec) with pkt := packet tMRD (hdr1 1 7) [], stage := .forwarded 0 0 }

theorem witness_completionsTaken :
    let s := { spanState with execs := [away] }
    s.power = .run ∧ s.takes 3 (packet tCPL (hdr1 2 0) []) = true ∧
      s.takes 3 (packet tCPLD (hdr1 2 7) (zerosOf 8)) = true ∧
      s.takes 3 (packet tCPLD ((hdr1 2 7).withOp 3) (zerosOf 8)) = true ∧
      s.execs.find? (fun e => e.stage == .forwarded 0 0) = some away ∧ owedBytes away = 8 ∧
      (packet tCPLD (hdr1 2 7) (zerosOf 8)).h.op = stSC ∧
      (packet tCPLD ((hdr1 2 7).withOp 3) (zerosOf 8)).h.op ≠ stSC := by decide +kernel

theorem witness_msgRefused :
    hostState.power = .run ∧ hostState.hasPort 0 = true ∧ hostState.linkUp 0 = true ∧
      (packet tMSG (hdr1 0 255) (zerosOf 256)).h.vc = 0 ∧
      (zerosOf 256).length = (packet tMSG (hdr1 0 255) (zerosOf 256)).h.len + 1 := by decide +kernel

/-- A vote record of SEQ 1 of context 1, or of an RPL. -/
def record1 (rpl : Bool) : Record := { (default : Record) with rpl := rpl, ctx := 1, seq := 1 }

theorem witness_voteWindowCloses :
    let s := { dueIn (.vote false 1 1) [] with records := [record1 false] }
    s.power = .run ∧ (s.expire (.vote false 1 1)).any (fun u => u.openFor false 1 1 == some (record1 false) &&
      ((u.recBad (record1 false)).openFor false 1 1).isSome) = true := by decide +kernel

theorem witness_stallEnds :
    let k := packet tMWR (hdr1 0 0) (zerosOf 1)
    let y : StalledCopy := ⟨k, 0, true⟩
    let s := (hostState.put (CTX_VOTE_MODE 1) 0).setPort 0
      { Port.idle with granted := true, grant := ⟨128, 128, 128, 128⟩, stalled := [y] }
    s.power = .run ∧ (s.port 0).stalled[0]? = some y ∧
      (match tried s 0 0 y with | .left _ => true | .waits _ => false) = true := by decide +kernel

theorem witness_executionEnds :
    let s := { hostState with execs := [{ away with stage := .finished }] }
    s.power = .run ∧ (s.execs.find? (fun e => e.stage == .finished && e.ctx == 1 && e.pkt.h.seq == 1 &&
      e.viaSpan == (none : Option (Fin 2)).map (·.val))).isSome = true := by decide +kernel

theorem witness_messageSent :
    let m : Msg := ⟨1, 1, false, 8, 0, 0, 0, 0, 0⟩
    let s := hostState.setPort 0 { Port.idle with tx := ⟨16, 16, 0, 0⟩, msgs := [.msg m] }
    s.power = .run ∧ (s.port 0).msgs = [.msg m] ∧ (s.port 0).tx.covers (pktCost (msgPkt m)) = true ∧
      s.linkUp 0 = true ∧ (s.arbitrate 7 [if replayed [] m then 2 else 1]
        [⟨if replayed [] m then 2 else 1, if replayed [] m then 2 else 1, s.noteOf m.ctx, 0, m.ctx⟩]).2.isSome = true := by
  decide +kernel

theorem witness_heldNoticeReleased :
    let s := { running [] with heldNotices := [⟨1, 0, 8, []⟩] }
    s.power = .run ∧ s.heldNotices.filter (fun y => y.ctx == 1) = [⟨1, 0, 8, []⟩] ∧ s.marksDone [] = true := by
  decide +kernel

theorem witness_hostPortEnabled : mayWrite (running []) vote1 (HP_CTL 0) 1 = true := by decide +kernel

theorem witness_portEntersOn :
    let s := (running [(HP_STAT_STATE 2, 1), (SPN_PORT_STATE 0, 1), (LL_STAT_LINK_UP 2, 1), (LL_STAT_LINK_UP 3, 1)])
    let s := (s.setPort 2 { Port.idle with granted := true, tx := ⟨16, 16, 0, 0⟩ }).setPort 3
      { Port.idle with granted := true, tx := ⟨1, 1, 1, 1⟩ }
    ∀ p ∈ [2, 3], s.power = .run ∧ s.hasPort p = true ∧ s.portState p = 1 ∧ s.linkUp p = true ∧
      (s.port p).granted = true ∧ s.creditsHeld p = true := by decide +kernel

theorem witness_portDrains :
    let s (fs : List (FRef × Nat)) := running ((HP_STAT_STATE 0, 3) :: fs)
    let u (fs : List (FRef × Nat)) := ((s fs).setPortState 0 0).put FLT_LANE_RETIRED
      (without (without ((s fs).get FLT_LANE_RETIRED) 0) 1)
    let up := (s [(LL_STAT_LINK_UP 0, 1)]).setLink 0 { Link.idle with phase := .up }
    (s []).power = .run ∧ (s []).hasPort 0 = true ∧ (s []).portState 0 = 3 ∧ (s []).portOwes 0 = false ∧
      (s [(HP_STAT_RESTART_PENDING 0, 1)]).on (portRestartRef 0) = true ∧ (s []).on (portRestartRef 0) = false ∧
      (u []).carries 0 = false ∧ up.portState 0 = 3 ∧ up.portOwes 0 = false ∧ up.on (portRestartRef 0) = false ∧
      (up.setPortState 0 0).carries 0 = true ∧ (up.setPortState 0 0).on (LN_STAT_EIDLE_TX 0) = false := by
  decide +kernel

theorem witness_suspectLapses :
    let s := running [(ACC_CH_STAT_STATE 0, 1)]
    s.power = .run ∧ s.chState 0 = 1 ∧ (s.discordSecond 0).recentDiscords 0 = 0 := by decide +kernel

theorem witness_rejoinFails :
    (dueIn (.rejoin 0) [(ACC_CH_STAT_STATE 0, 3)]).power = .run ∧
    ((dueIn (.rejoin 0) [(ACC_CH_STAT_STATE 0, 3)]).expire (.rejoin 0)).any (fun u => u.chState 0 == 3) = true ∧
    ((dueIn (.rejoinCopy 1 1 0) [(ACC_CH_STAT_STATE 0, 3)]).expire (.rejoinCopy 1 1 0)).any
      (fun u => u.chState 0 == 3) = true := by decide +kernel

theorem witness_channelCommands :
    let s := running [(ACC_CH_STAT_STATE 0, 2), (ACC_STAT_FORMED, 1), (HP_STAT_STATE 0, 2)]
    s.power = .run ∧ votedOrInn vote1 = true ∧
      mayWrite s vote1 (ACC_CH_CMD 0) (one s (ACC_CH_CMD_EXCLUDE 0)) = true ∧
      mayWrite s vote1 (ACC_CH_CMD 0) (one s (ACC_CH_CMD_REJOIN 0)) = true ∧ s.chState 0 = 2 ∧
      s.on ACC_STAT_FORMED = true ∧ s.portState 0 = 2 := by decide +kernel

theorem witness_highCleared :
    mayWrite (running []) vote1 ACC_REC (one (running []) ACC_REC_HIGH_CLR) = true := by decide +kernel

theorem witness_unfenced :
    let s := running [(CTX_FENCE_FENCED 2, 1), (CTX_FENCE_FENCE_ID 2, 255)]
    s.power = .run ∧ vote1.ctx ≠ 2 ∧ votedOrInn vote1 = true ∧
      mayWrite s vote1 (CTX_UNFENCE 2) (s.putWordOf (CTX_UNFENCE_FENCE_ID 2) 255) = true ∧
      s.get (CTX_FENCE_FENCE_ID 2) = 255 ∧ s.on (CTX_FENCE_FENCED 2) = true := by decide +kernel

/-! ### Lanes and links -/

/-- A device that runs with the lanes of port `p` in a phase and the fields listed as they are. -/
def linked (p : Nat) (f : LinkPhase) (fs : List (FRef × Nat)) : State := (running fs).setPhase p f

theorem witness_losAsserted :
    let s := running [(LL_STAT_LINK_UP 4, 1), (LN_STAT_EIDLE_RX 9, 0), (LN_STAT_LOS 9, 0)]
    s.power = .run ∧ s.hasPort (lanePort 9) = true ∧ s.on (LN_STAT_LOS 9) = false ∧ s.on (LN_STAT_EIDLE_RX 9) = false ∧
      s.linkUp (lanePort 9) = true := by decide +kernel

theorem witness_losDeasserted : (running []).power = .run ∧ (running []).hasPort (lanePort 9) = true := by decide +kernel

theorem witness_losTakesLinkDown :
    let s := dueIn (.losDown 9) [(LL_STAT_LINK_UP 4, 1), (LN_STAT_EIDLE_RX 9, 0)]
    s.power = .run ∧ s.hasPort (lanePort 9) = true ∧ (s.expire (.losDown 9)).isSome = true ∧
      s.linkUp (lanePort 9) = true ∧ s.on (LN_STAT_EIDLE_RX 9) = false := by decide +kernel

theorem witness_lolFollowed :
    ∀ v ∈ [0, 1], let s := running [(LL_STAT_LINK_UP 4, v), (LN_STAT_LOL 9, 0)]
      s.power = .run ∧ s.hasPort (lanePort 9) = true ∧ s.on (LN_STAT_LOL 9) = false ∧
        s.linkUp (lanePort 9) = (v == 1) := by decide +kernel

theorem witness_firstStepsEnd :
    let q := (linked 0 .quiet []).arm (.train 0) 1
    let s := linked 4 .presence [(LN_STAT_LOS 8, 0), (LN_STAT_LOS 9, 0)]
    let t := linked 4 .phase [(LN_STAT_LOL 8, 0), (LN_STAT_LOL 9, 0)]
    q.power = .run ∧ q.hasPort 0 = true ∧ q.phase 0 = .quiet ∧ (q.expire (.train 0)).isSome = true ∧
      s.power = .run ∧ s.hasPort 4 = true ∧ s.phase 4 = .presence ∧ s.lanesAre 4 LN_STAT_LOS 0 = true ∧
      t.power = .run ∧ t.phase 4 = .phase ∧ t.lanesAre 4 LN_STAT_LOL 0 = true := by decide +kernel

/-- `n` words of TS1 (kind 1) or TS2 (kind 2) on lane `i` of a port. -/
def tsWords (i kind n : Nat) : List (BitVec 64) := List.replicate n (tsWord i kind false 0)

theorem witness_lastStepsEnd :
    let s (f : LinkPhase) := linked 4 f []
    (s .align).power = .run ∧ (s .align).hasPort 4 = true ∧ (s .align).inPrbs 4 = false ∧ (s .align).phase 4 = .align ∧
      (((s .align).settled 8 31 [0, tp1Word] (tsWords 0 1 4)).settled 9 0 (tsWords 1 1 4) []).lanesMatch 4 = true ∧
      (s .equalise).phase 4 = .equalise ∧ (s .equalise).inPrbs 4 = false ∧ (1 : BitVec 16) ≠ 0 ∧
      ((s .equalise).searchedBoth 4 0 0 (tsWords 0 1 4) (tsWords 1 1 4)).lanesMatch 4 = true ∧
      (s .deskew).phase 4 = .deskew ∧ (s .deskew).inPrbs 4 = false ∧
      ((s .deskew).deskewFinds 4 (tsWord 0 1 false 255) (tsWord 1 1 false 0) 1).isSome = true ∧
      (s .handshake).phase 4 = .handshake ∧ (s .handshake).inPrbs 4 = false ∧
      (s .handshake).shaken 8 (tsWords 0 2 8) = true ∧ (s .handshake).shaken 9 (tsWords 1 2 8) = true := by
  decide +kernel

theorem witness_trainingFailsAndRetries :
    let s := (linked 0 .handshake []).arm (.train 0) 1
    let t := (linked 0 .failed [(HP_STAT_STATE 0, 1)]).arm (.train 0) 1
    let u := (linked 0 .failed []).arm (.train 0) 1
    let w := [tsWord 0 2 true 0]
    s.power = .run ∧ s.hasPort 0 = true ∧ (s.expire (.train 0)).isSome = true ∧
      stepCause (s.phase 0) (s.precodeDiffers 0 w || s.precodeDiffers 1 []) = some 7 ∧
      stepCause (s.phase 0) (s.precodeDiffers 0 [] || s.precodeDiffers 1 []) = some 6 ∧
      t.power = .run ∧ (t.expire (.train 0)).isSome = true ∧ t.phase 0 = .failed ∧ t.portState 0 = 1 ∧
      u.power = .run ∧ (u.expire (.train 0)).isSome = true ∧ u.phase 0 = .failed ∧ u.portState 0 ≠ 1 := by decide +kernel

theorem witness_flitTaken :
    let s := linked 0 .up [(LL_SEQ_RX_LAST 0, 255)]
    let bs := flitBytes 0 0 (zerosOf 58)
    let a := flitPosition s 0 (laneWords bs 0) (laneWords bs 1)
    let b := a.1.takeAck 0 0
    let c := ((b.put (LL_SEQ_RX_LAST 0) 0).disarm (.nak 0)).wakeTx 0
    s.power = .run ∧ s.hasPort 0 = true ∧ s.carries 0 = true ∧ s.on (LN_STAT_EIDLE_RX 0) = false ∧ s.inPrbs 0 = false ∧
      (zerosOf 58).length = 58 ∧ a.2 = bs ∧ (0#8).toNat = (b.get (LL_SEQ_RX_LAST 0) + 1) % 256 ∧
      (parsePkts 16 ((c.link 0).rxBytes ++ zerosOf 58)).bad = none := by decide +kernel

theorem witness_flitsReplayed :
    let l : Link := { Link.idle with phase := .up, replay := [⟨5, zerosOf 58, []⟩, ⟨6, zerosOf 58, []⟩] }
    let s := ((running [(LL_SEQ_TX_ACKED 0, 4)]).setLink 0 l).arm (.replay 0) 1
    s.power = .run ∧ s.hasPort 0 = true ∧ s.carries 0 = true ∧ (s.link 0).replay ≠ [] ∧
      (4#8).toNat = s.get (LL_SEQ_TX_ACKED 0) ∧ (5#8).toNat ≠ s.get (LL_SEQ_TX_ACKED 0) ∧
      afterFseq (5#8).toNat (s.link 0).replay = some [⟨6, zerosOf 58, []⟩] ∧ (s.expire (.replay 0)).isSome = true := by
  decide +kernel

theorem witness_retrainBlockTaken :
    let s (n : Nat) := (running []).setLink 0 { Link.idle with phase := .up, retrains := List.replicate n 0 }
    (s 7).power = .run ∧ (s 7).hasPort 0 = true ∧ (s 7).carries 0 = true ∧ (recentRetrains (s 7) 0).length < 8 ∧
      (s 8).power = .run ∧ (s 8).carries 0 = true ∧ 8 ≤ (recentRetrains (s 8) 0).length := by decide +kernel

theorem witness_farIdleFollowed :
    let s := linked 4 .up [(LN_STAT_EIDLE_RX 8, 1)]
    let t := s.rxAwake 4
    s.power = .run ∧ s.hasPort 4 = true ∧ s.carries 4 = true ∧ s.on (LN_STAT_EIDLE_RX 8) = true ∧
      2 ≤ t.matching 8 (tsWords 0 1 2) ∧ 2 ≤ t.matching 9 (tsWords 1 1 2) ∧ t.matching 9 (tsWords 1 1 1) < 2 := by
  decide +kernel

theorem witness_txIdleEntered :
    ∀ v ∈ [0, 2], let s := linked 0 .up [(LL_CMD_EIDLE 0, 1), (LN_STAT_EIDLE_TX 0, 0), (HP_STAT_STATE 0, v)]
      let t := ((s.controlOut 0 2 0).putLanes 0 LN_STAT_EIDLE_TX 1).put (LL_CMD_EIDLE 0) 0
      s.power = .run ∧ s.hasPort 0 = true ∧ s.carries 0 = true ∧ s.on (LL_CMD_EIDLE 0) = true ∧
        (s.link 0).replay = [] ∧ (s.link 0).txq = [] ∧ s.on (LN_STAT_EIDLE_TX 0) = false ∧ t.portState 0 = v := by
  decide +kernel

theorem witness_retrainPhasesEnd :
    let s (f : LinkPhase) := (linked 4 f []).arm (.rtPhase 4) 1
    let w := (prbsWords 2 4 (prbsSeed 2)).1
    (∀ f ∈ [LinkPhase.rtPrbs, .rtRealign, .rtHandshake], (s f).power = .run ∧ (s f).hasPort 4 = true ∧
      (s f).inPrbs 4 = false ∧ (s f).phase 4 = f ∧ ((s f).expire (.rtPhase 4)).isSome = true) ∧
      (checkers (s .rtPrbs) 4 w w 0).lock = true ∧ (checkers (s .rtPrbs) 4 w w 1).lock = true ∧
      ((s .rtRealign).searchedBoth 4 0 31 (tsWords 0 1 4) (tsWords 1 1 4)).lanesMatch 4 = true ∧
      ((s .rtHandshake).deskewFinds 4 (tsWord 0 2 false 0) (tsWord 1 2 false 1) 0).isSome = true ∧
      (s .rtHandshake).shaken 8 (tsWords 0 2 8) = true ∧ (s .rtHandshake).shaken 9 (tsWords 1 2 8) = true := by
  decide +kernel

theorem witness_bitslipMoves :
    let s := linked 0 .align []
    let t := running [(LN_CTL_MODE 9, 2)]
    s.power = .run ∧ mayWrite s vote1 (LN_ALIGN 1) (one s (LN_ALIGN_BITSLIP 1)) = true ∧
      trains (s.phase (lanePort 1)) = true ∧ t.power = .run ∧
      mayWrite t vote1 (LN_ALIGN 9) (one t (LN_ALIGN_BITSLIP 9)) = true ∧ t.get (LN_CTL_MODE 9) = 2 := by decide +kernel

theorem witness_linkCommands :
    let s := running []
    s.power = .run ∧ mayWrite s vote1 (LL_CMD 4) (one s (LL_CMD_RETRAIN 4)) = true ∧
      mayWrite s vote1 (LL_CMD 4) (one s (LL_CMD_EIDLE 4)) = true ∧
      mayWrite s vote1 (LL_CMD 4) (one s (LL_CMD_WAKE 4)) = true := by decide +kernel

theorem witness_injectionsAndClears :
    let s := running []
    s.power = .run ∧ mayWrite s vote1 (LN_INJ 9) (one s (LN_INJ_INJECT_ONE 9)) = true ∧
      mayWrite s vote1 (LN_INJ 9) (one s (LN_INJ_INJECT_BURST 9)) = true ∧
      mayWrite s vote1 (LN_PRBS 9) (one s (LN_PRBS_CLEAR 9)) = true := by decide +kernel

theorem witness_modeWritten :
    let s := running []
    s.power = .run ∧ mayWrite s inn (LN_CTL 9) (s.putWordOf (LN_CTL_MODE 9) 1) = true ∧ s.get (LN_CTL_MODE 9) ≠ 1 ∧
      mayWrite s inn (LN_CTL 9) (s.putWordOf (LN_CTL_MODE 9) 2) = true := by decide +kernel

/-! ### Segments -/

/-- A device that runs and owns segment `g`, with the fields listed as they are and the given controller. -/
def owner (g : Nat) (x : Seg) (fs : List (FRef × Nat)) : State :=
  (running ([(SEG_STAT_STATE g, 2), (SEG_STAT_ROLE g, 2)] ++ fs)).setSeg g x

/-- A job of order 7 with one beat of one byte, a write or a read. -/
def job7 (write : Bool) : Job :=
  { (default : Job) with owner := .token 1 0, ctx := 1, write := write, width := 1, beats := [⟨0, [(0, 0)]⟩], len := 1,
                         order := 7 }

/-- A segment on whose bus such a job moves its beat. -/
def busy7 (j : Job) : Seg := { Seg.idle with cycle := .job 7 0 0 0 1 0 false false true, jobs := [j] }

theorem witness_writeBeatMoves :
    let s := owner 3 (busy7 (job7 true)) [(SEG_TMO_TMO 3, 400)]
    s.power = .run ∧ s.hasSeg 3 = true ∧ (s.onBus 3).any (fun b => (s.respAt 3 b 0).isSome && b.job.poll == none &&
      b.job.write && b.job.beats == [⟨0, [(0, 0)]⟩]) = true := by decide +kernel

theorem witness_readBeatMoves :
    let s := owner 3 (busy7 (job7 false)) [(SEG_TMO_TMO 3, 400)]
    s.power = .run ∧ s.hasSeg 3 = true ∧ (s.onBus 3).any (fun b => (s.respAt 3 b 0).any (fun t =>
      ((responded s 3 0 t b).landBeat b.job [(0, 0)]).2 == none) && b.job.poll == none && !b.job.write &&
        b.job.beats == [⟨0, [(0, 0)]⟩]) = true := by decide +kernel

theorem witness_cyclesFail :
    let s := owner 0 (busy7 (job7 true)) [(SEG_TMO_TMO 0, 400)]
    let t := owner 0 (busy7 { job7 false with poll := some 3 }) []
    s.power = .run ∧ s.hasSeg 0 = true ∧
      (s.onBus 0).any (fun b => (s.respAt 0 b 0).isSome && b.job.poll == none) = true ∧
      t.power = .run ∧ (t.onBus 0).any (fun b => b.job.poll.isSome) = true := by decide +kernel

theorem witness_retryTaken :
    let s := owner 0 (busy7 (job7 true)) [(SEG_TMO_TMO 0, 400)]
    let t (d : Nat) := owner 0 (busy7 { job7 true with retryMax := 1 }) [(SEG_TMO_TMO 0, 400), (SEG_RETRY_DELAY 0, d)]
    s.power = .run ∧ s.hasSeg 0 = true ∧ (s.onBus 0).any (fun b => (s.respAt 0 b 0).isSome &&
        decide (b.job.retryMax < b.job.retries + 1)) = true ∧
      ∀ d ∈ [0, 1], (t d).power = .run ∧ ((t d).onBus 0).any (fun b => ((t d).respAt 0 b 0).any (fun i =>
        decide (b.job.retries + 1 ≤ b.job.retryMax) && !b.job.cylReads &&
          (let r := ((responded (t d) 0 0 i b).bump (SEG_ERR_CNT1_RETRY 0)).closeCycle 0 b.retried i 2 b.job.place.2
           r.1.job 0 r.2.order == some r.2 && r.1.get (SEG_RETRY_DELAY 0) == d))) = true := by decide +kernel

theorem witness_retryDelayEnds :
    let s := (owner 0 { Seg.idle with jobs := [{ job7 true with wait := .retryDelay }] } []).arm (.retry 0 7) 1
    s.power = .run ∧ s.hasSeg 0 = true ∧
      (s.expire (.retry 0 7)).any (fun u => u.job 0 7 == some { job7 true with wait := .retryDelay }) = true := by
  decide +kernel

theorem witness_responsesReleased :
    let s := owner 0 { Seg.idle with cycle := .release 20 false true } []
    let t := owner 0 { Seg.idle with rspLow := true } [(SEG_STAT_RSP_STUCK 0, 1)]
    s.power = .run ∧ s.hasSeg 0 = true ∧ ((linesHigh s 0).seg 0).cycle = .release 20 false true ∧ t.power = .run ∧
      t.hasSeg 0 = true ∧ (t.seg 0).cycle.isRelease = false ∧ (t.seg 0).rspLow = true ∧
      t.on (SEG_STAT_RSP_STUCK 0) = true := by decide +kernel

theorem witness_strayResponses :
    let s := owner 3 Seg.idle []
    let t := (owner 3 { Seg.idle with rspLow := true } []).arm (.rspLow 3) 1
    s.power = .run ∧ s.hasSeg 3 = true ∧ s.pulseOpen 3 0 = false ∧ t.power = .run ∧ t.hasSeg 3 = true ∧
      (t.expire (.rspLow 3)).isSome = true := by decide +kernel

theorem witness_segmentWaitEnds :
    ∀ j ∈ [job7 true, { job7 true with busNs := 1 }], let s := (running []).setSeg 0 { Seg.idle with jobs := [j] }
      s.power = .run ∧ s.hasSeg 0 = true ∧ s.job 0 7 = some j ∧ s.segIssues 0 = false ∧ (s.seg 0).busy ≠ some 7 ∧
        j.begun = decide (j.busNs = 1) := by decide +kernel

theorem witness_keeperDue :
    let s := (owner 0 Seg.idle []).arm (.keep 0) 1
    let t := dueIn (.keep 0) []
    s.power = .run ∧ s.hasSeg 0 = true ∧ (s.expire (.keep 0)).any (fun u => u.owns 0) = true ∧
      t.power = .run ∧ (t.expire (.keep 0)).any (fun u => !u.owns 0) = true := by decide +kernel

theorem witness_keeperCuts :
    let s := (owner 0 (busy7 (job7 true)) []).arm (.keepCut 0) 1
    let t := (owner 0 { Seg.idle with tenure := some ⟨1, 0, none⟩ } []).arm (.keepCut 0) 1
    let m := (owner 0 { Seg.idle with cycle := .lmTenure 0 0 0 0 false } []).arm (.keepCut 0) 1
    s.power = .run ∧ s.hasSeg 0 = true ∧ (s.expire (.keepCut 0)).any (fun u => (u.onBus 0).isSome) = true ∧
      t.power = .run ∧ (t.expire (.keepCut 0)).any (fun u => (u.onBus 0).isNone && (u.seg 0).tenure.isSome) = true ∧
      m.power = .run ∧ (m.expire (.keepCut 0)).any (fun u => (u.onBus 0).isNone && (u.seg 0).tenure.isNone &&
        (u.seg 0).cycle == .lmTenure 0 0 0 0 false) = true := by
  decide +kernel

theorem witness_keeperSeenShown :
    let u (s : State) := ((((s.keeperGap 0).casFall 0 true).put (SEG_KEEP_STAT_COUNT 0) 127).put (SEG_KEEP_STAT_SIDE 0)
      1).put (SEG_KEEP_STAT_SEEN 0) 1
    let o := owner 0 Seg.idle []
    let s := running [(SEG_STAT_STATE 0, 2), (SEG_STAT_ROLE 0, 1)]
    let t := dueIn (.cold 0) [(SEG_STAT_STATE 0, 1)]
    o.power = .run ∧ o.hasSeg 0 = true ∧ o.get (SEG_STAT_ROLE 0) = 2 ∧ s.power = .run ∧ s.get (SEG_STAT_ROLE 0) ≠ 2 ∧
      (u s).segState 0 ≠ 1 ∧ t.power = .run ∧ t.get (SEG_STAT_ROLE 0) ≠ 2 ∧ (u t).segState 0 = 1 ∧
      ((u t).dueAt (.cold 0)).isSome = true ∧ (u t).paired = false ∧ true ≠ (u t).side := by decide +kernel

theorem witness_casFallTaken :
    let s := owner 0 Seg.idle []
    s.power = .run ∧ s.hasSeg 0 = true ∧ s.dueAt (.cold 0) = none ∧ s.get (SEG_STAT_ROLE 0) ≠ 1 := by decide +kernel

theorem witness_interruptLines :
    let s := (owner 3 Seg.idle []).arm (.cintRearm 3 3) 1
    s.power = .run ∧ s.hasSeg 3 = true ∧ (s.expire (.cintRearm 3 3)).isSome = true := by decide +kernel

theorem witness_linesArmed :
    mayWrite (running []) inn (SEG_CMD 3) ((running []).putWordOf (SEG_CMD_ARM 3) 15) = true := by decide +kernel

theorem witness_requestLine :
    let s (js : List Job) := owner 0 { Seg.idle with jobs := js } [(SEG_STAT_CBR 0, 1), (SEG_CTL_LM_CTX 0, 1)]
    (s []).power = .run ∧ (s []).hasSeg 0 = true ∧ (s []).on (SEG_STAT_CBR 0) = true ∧
      ((s []).seg 0).ctxs.contains ((s []).get (SEG_CTL_LM_CTX 0)) = false ∧ (s [job7 true]).on (SEG_STAT_CBR 0) = true ∧
      ((s [job7 true]).seg 0).ctxs.contains ((s [job7 true]).get (SEG_CTL_LM_CTX 0)) = true := by decide +kernel

theorem witness_masterAccepts :
    let s := owner 0 { Seg.idle with cycle := .lmGrant 0 } []
    s.power = .run ∧ s.hasSeg 0 = true ∧ (s.seg 0).cycle = .lmGrant 0 := by decide +kernel

theorem witness_grantWithdrawn :
    let s := (owner 0 { Seg.idle with cycle := .lmGrant 0 } []).arm (.grant 0) 1
    s.power = .run ∧ s.hasSeg 0 = true ∧ (s.expire (.grant 0)).isSome = true := by decide +kernel

/-- A segment that a legacy master holds at space 0, address 0, with its first inbound area enabled. -/
def mastered (x : Seg) (fs : List (FRef × Nat)) : State :=
  owner 0 { x with cycle := .lmTenure 0 0 0 0 false } ([(SEG_INB_CFG_EN 0 0, 1), (SEG_INB_CFG_LOG2 0 0, 12)] ++ fs)

theorem witness_tenureWatched :
    let s := (mastered Seg.idle []).arm (.tenure 0) 1
    s.power = .run ∧ s.hasSeg 0 = true ∧
      (s.expire (.tenure 0)).any (fun u => (u.seg 0).cycle == .lmTenure 0 0 0 0 false) = true := by decide +kernel

theorem witness_tenureEnds :
    (mastered Seg.idle []).power = .run ∧ (mastered Seg.idle []).hasSeg 0 = true ∧
      ((mastered Seg.idle []).seg 0).cycle = .lmTenure 0 0 0 0 false := by decide +kernel

theorem witness_inboundWrites :
    let s (n v : Nat) :=
      mastered { Seg.idle with inb := List.replicate n ⟨0, 0, false, []⟩ } [(SEG_INB_CFG_NOWRITE 0 0, v)]
    (s 15 0).power = .run ∧ (s 15 0).hasSeg 0 = true ∧ (s 15 0).inbTarget 0 0 [0] true = some (some (0, false)) ∧
      ((s 15 0).seg 0).inb.length < 16 ∧ (s 16 0).inbTarget 0 0 [0] true = some (some (0, false)) ∧
      16 ≤ ((s 16 0).seg 0).inb.length ∧ (s 0 1).inbTarget 0 0 [0] true = some none := by decide +kernel

theorem witness_inboundReads :
    let s (ps : List Prefetch) := mastered { Seg.idle with prefetch := ps } []
    let p : Prefetch := ⟨0, 0, [0], [0], true, false⟩
    (s [p]).power = .run ∧ (s [p]).hasSeg 0 = true ∧ (s [p]).inbTarget 0 0 [0] false = some (some (0, false)) ∧
      ((s [p]).seg 0).prefetch.find? (fun p => p.addr == 0 && p.lanes == [0]) = some p ∧ p.ready = true ∧
      (s []).inbTarget 0 0 [0] false = some (some (0, false)) ∧
      ((s []).seg 0).prefetch.find? (fun p => p.addr == 0 && p.lanes == [0]) = none ∧
      ((s []).seg 0).prefetch.length < 4 := by decide +kernel

theorem witness_inboundRetried :
    let s := (mastered Seg.idle []).arm (.inb 0) 1
    s.power = .run ∧ s.hasSeg 0 = true ∧ (s.expire (.inb 0)).isSome = true := by decide +kernel

theorem witness_fetchesEnd :
    let p : Prefetch := ⟨0, 0, [0], [], false, false⟩
    let s := (mastered { Seg.idle with prefetch := [p] } []).arm (.prefetch 0 0) 1
    s.power = .run ∧ s.hasSeg 0 = true ∧
      (s.seg 0).prefetch.find? (fun p => p.id == 0 && !p.ready && !p.partner) = some p ∧
      s.inbArea 0 p.addr = some 0 ∧ (s.expire (.prefetch 0 0)).isSome = true := by decide +kernel

theorem witness_inboundDrains :
    let e : InbEntry := ⟨0, 0, false, [(0, 1)]⟩
    let s := mastered { Seg.idle with inb := [e] } []
    let r := (s.setSeg 0 { s.seg 0 with inb := [], drained := ((s.seg 0).drained + 1) % 65536 }).ledgerWrite 2
      (s.get (SEG_CTL_LM_CTX 0)) e.bytes
    s.power = .run ∧ s.hasSeg 0 = true ∧ (s.seg 0).inb = [e] ∧ e.partner = false ∧ r.2 ≠ .forward ∧
      ((inboundStored r.1 (s.get (SEG_CTL_LM_CTX 0)) e r.2).seg 0).inbWait = .none := by decide +kernel

theorem witness_segmentEnabled : mayWrite (running []) inn (SEG_CTL 3) 1 = true := by decide +kernel

theorem witness_segmentTaken :
    let s := (running [(SEG_STAT_STATE 0, 2), (SEG_STAT_ROLE 0, 1)]).setSeg 0 { Seg.idle with takePending := true }
    s.power = .run ∧ s.hasSeg 0 = true ∧ (s.seg 0).takePending = true ∧ s.get (SEG_STAT_ROLE 0) ≠ 2 ∧ s.segState 0 = 2 ∧
      s.on (SEG_STAT_RSP_STUCK 0) = false ∧ (s.seg 0).cycle = .idle ∧ mget (owning s 0).span.taking 0 0 = 0 := by
  decide +kernel

theorem witness_busReleased :
    ∀ v ∈ [2, 3], let s := (owner 0 { Seg.idle with releasing := true } [(SEG_STAT_STATE 0, v)])
      s.power = .run ∧ s.hasSeg 0 = true ∧ (s.seg 0).releasing = true ∧ (s.seg 0).cycle = .idle ∧
        s.span.handover.contains 0 = false ∧ s.segState 0 = v := by decide +kernel

theorem witness_segmentDrained :
    ∀ v ∈ [0, 1], let s := running [(SEG_STAT_STATE 0, 3), (SEG_STAT_ROLE 0, 1), (SEG_STAT_RESTART_PENDING 0, v)]
      s.power = .run ∧ s.hasSeg 0 = true ∧ s.segState 0 = 3 ∧ s.get (SEG_STAT_ROLE 0) ≠ 2 ∧ (s.seg 0).cycle = .idle ∧
        (s.seg 0).jobs = [] ∧ (s.seg 0).tenure = none ∧ (s.seg 0).releasing = false ∧
        (s.setSegRole 0 0).get (SEG_STAT_RESTART_PENDING 0) = v := by decide +kernel

theorem witness_cardsReset :
    let s := owner 3 Seg.idle []
    let t := (owner 3 Seg.idle [(SEG_STAT_CRST_ACTIVE 3, 1)]).arm (.cardReset 3) 1
    s.power = .run ∧ mayWrite s inn (SEG_CMD 3) (one s (SEG_CMD_CARD_RESET 3)) = true ∧
      s.on (SEG_STAT_CRST_ACTIVE 3) = false ∧ s.owns 3 = true ∧ t.power = .run ∧ t.hasSeg 3 = true ∧
      (t.expire (.cardReset 3)).any (fun u => u.on (SEG_STAT_CRST_ACTIVE 3)) = true := by decide +kernel

/-! ### Locks, arbiters, the Ledger and images -/

theorem witness_locksTimeOut :
    (dueIn (.lock (.native 3)) []).power = .run ∧
    ((dueIn (.lock (.native 3)) []).expire (.lock (.native 3))).isSome = true ∧
    ((dueIn (.lock (.sem 63)) []).expire (.lock (.sem 63))).isSome = true := by decide +kernel

/-- A job of order 7 of an accepted request that waits for semaphore 63. -/
def waiter : Job := { job7 true with owner := .host 7, wait := .semaphore, lock := some (.sem 63) }

theorem witness_semaphoreWaitEnds :
    ∀ j ∈ [waiter, { waiter with role := .acquire }], let s := (owner 0 { Seg.idle with jobs := [j] } []).arm (.semWait 7) 1
      s.power = .run ∧ (s.expire (.semWait 7)).any (fun u =>
        u.allJobs.find? (fun x => x.2.order == 7 && x.2.wait == .semaphore) == some (0, j)) = true ∧
        j.lock = some (.sem 63) := by decide +kernel

theorem witness_semaphoreGranted :
    let s := { owner 0 { Seg.idle with jobs := [waiter] } [] with execs := [{ away with order := 7, stage := .segment }] }
    s.power = .run ∧ s.lockHeld (.sem 63) = none ∧ s.semWaiter (.sem 63) = some (0, waiter) ∧
      waiter.owner = .host 7 ∧ (s.execOf 7).isSome = true := by decide +kernel

theorem witness_compatibilityPortsUsed :
    let s := running [(CTX_VOTE_MODE 255, 1), (CTX_STAT_STATE 255, 2)]
    s.power = .run ∧ s.isVoted 255 = false ∧ s.ctxState 255 = 2 ∧ s.on (CTX_FENCE_FENCED 255) = false := by
  decide +kernel

theorem witness_stallsEnd :
    let e : Exec := { away with stage := .compatWait }
    let p : QPacket := ⟨1, 0, false, [⟨5, .ok⟩], 1, true, .ok, false⟩
    let s := ({ running [] with execs := [e] }).setQueue 0 { Queue.empty with packets := [p] }
    let t := ({ running [] with execs := [e] }).arm (.compat 1) 1
    s.power = .run ∧ s.execs.find? (fun e => e.stage == .compatWait && e.is tMRD && e.ctx == 1) = some e ∧
      s.inqBusy e = false ∧ (s.takeFrom (s.get WIN_COMPAT_INQ) 1 true).2.isSome = true ∧ t.power = .run ∧
      (t.expire (.compat 1)).any (fun u =>
        u.execs.find? (fun e => e.stage == .compatWait && e.ctx == 1) == some e) = true := by decide +kernel

theorem witness_arbitrationGrants :
    let s := running []
    let r : List (BitVec 5 × BitVec 8) := [(16, 1)]
    let t := owner 3 { Seg.idle with jobs := [job7 true] } [(CTX_BUD_BUS_BUDGET 1 3, 1)]
    let u := owner 3 Seg.idle [(SEG_STAT_CBR 3, 1), (SEG_CTL_LM_EN 3, 1)]
    let g (v : State) := (v.lmCheck 3).busFree 3
    let grant (v : State) := (g v).arbitrate 4 (((g v).seg 3).ctxs ++
      (if (g v).on (SEG_STAT_CBR 3) then [(g v).get (SEG_CTL_LM_CTX 3)] else [])) ((g v).segOffers 3)
    s.power = .run ∧ (s.arbitrate 0 (r.map (·.1.toNat)) (ledgerCands s r)).2.isSome = true ∧
      (∀ v ∈ [t, u], v.power = .run ∧ v.hasSeg 3 = true ∧ v.segIssues 3 = true ∧ (v.seg 3).cycle = .idle ∧
        v.on (SEG_STAT_CRST_ACTIVE 3) = false ∧ (v.nextJobs 3).all (fun j => !v.busSpent j.ctx 3) = true) ∧
      (grant t).2.any (fun c => c.1.src != 2 && (grant t).1.job 3 c.1.order == some (job7 true)) = true ∧
      (grant u).2.any (fun c => c.1.src == 2) = true := by decide +kernel

theorem witness_backoffEnds :
    (dueIn (.backoff 9 255) []).power = .run ∧ ((dueIn (.backoff 9 255) []).expire (.backoff 9 255)).isSome = true := by
  decide +kernel

theorem witness_overheldGrants :
    let s (x : Seg) := let t := owner 0 x []
      { t with arbActive := mput t.arbActive (ARB_CFG_MAX_HOLD 1).reg 0xFFFFFFFF#32 (resetWord (ARB_CFG_MAX_HOLD 1).reg) }
    let a := s (busy7 (job7 true))
    let b := s { Seg.idle with tenure := some ⟨1, 0, none⟩ }
    a.power = .run ∧ a.hasSeg 0 = true ∧ a.arbGet (ARB_CFG_MAX_HOLD (1 + 0)) ≠ 0 ∧ (a.seg 0).overheld = false ∧
      (a.holder 0).any (fun h => !h.2.2.2) = true ∧ b.arbGet (ARB_CFG_MAX_HOLD (1 + 0)) ≠ 0 ∧
      (b.holder 0).any (fun h => h.2.2.2) = true := by decide +kernel

theorem witness_settingsCommitted :
    let s := owner 0 (busy7 (job7 true)) []
    ∀ i ∈ [1, 9], s.power = .run ∧ s.member.present (ARB_CFG i) = true ∧
      mayWrite s inn ARB_COMMIT (s.putWordOf ARB_COMMIT_INST (2 ^ i)) = true ∧ (s.seg (1 - 1)).cycle ≠ .idle := by
  decide +kernel

theorem witness_scrubberReads :
    let s := dueIn .scrub [(LDG_CTL_SCRUB_EN, 1)]
    s.power = .run ∧ (s.expire .scrub).any (fun u => [Ecc.ok, .ce, .ue].all (fun e =>
      eccWorse (mget u.ledgerBad (u.get LDG_SCRUB_POS) .ok) e == e)) = true := by decide +kernel

theorem witness_boundaryTaken :
    let s := running []
    let t := { s with sched := { s.sched with past := 9000000, legClk := 0 }, tb := 9000000 * 2 ^ 24, clk := 9000000 }
    s.power = .run ∧ s.nextBoundary.2 = false ∧ t.power = .run ∧ t.nextBoundary.2 = true := by decide +kernel

theorem witness_carryEnds :
    let s := running [(IMG_STAT_CARRYING 63, 1)]
    s.power = .run ∧ s.on (IMG_STAT_CARRYING 63) = true := by decide +kernel

theorem witness_imageRegistersWritten :
    let s (v : Nat) := running [(IMG_CFG_EN 0, v)]
    (s 1).power = .run ∧ mayWrite (s 1) inn (IMG_BASE 0) 0 = true ∧ (s 1).on (IMG_CFG_EN 0) = true ∧
      mayWrite (s 1) inn (IMG_SIZE 0) 0 = true ∧ mayWrite (s 0) inn (IMG_BASE 0) 0 = true ∧
      mayWrite (s 0) inn (IMG_SIZE 0) 0 = true ∧ (s 0).on (IMG_CFG_EN 0) = false ∧
      mayWrite (s 1) inn (IMG_CFG 0) 0 = true ∧
      ((s 1).stored inn (IMG_CFG 0) 0).on (IMG_CFG_EN 0) ≠ (s 1).on (IMG_CFG_EN 0) ∧
      mayWrite (s 0) inn (IMG_CFG 0) 0 = true ∧
      ((s 0).stored inn (IMG_CFG 0) 0).on (IMG_CFG_EN 0) = (s 0).on (IMG_CFG_EN 0) := by decide +kernel

theorem witness_mirrorTaken :
    controlTaken spanState 0 (spanCtl 0 (0xFE00000000 + 64 * (2 ^ 20 - 1)) (zerosOf 64)) = true ∧
    controlTaken spanState 0 (spanCtl 0 0xFF00000005 (leBytes 4 63 ++ leBytes 4 1 ++ leBytes 4 0 ++ leBytes 4 0)) = true ∧
    controlTaken spanState 0 (spanCtl 0 0xFF00000006 (leBytes 4 63)) = true := by decide +kernel

/-! ### Contexts, couriers, the stage plan -/

theorem witness_contextEnabled :
    let s (st : Nat) := running [(CTX_STAT_STATE 255, st)]
    let u (st : Nat) (v : Word) := (s st).stored inn (CTX_CTL 255) v
    mayWrite (s 0) inn (CTX_CTL 255) 1 = true ∧ (u 0 1).ctxState 255 = 0 ∧ (u 0 1).on (CTX_CTL_EN 255) = true ∧
      mayWrite (s 1) inn (CTX_CTL 255) 0 = true ∧ (u 1 0).ctxState 255 = 1 ∧ (u 1 0).on (CTX_CTL_EN 255) = false ∧
      mayWrite (s 2) inn (CTX_CTL 255) 0 = true ∧ (u 2 0).ctxState 255 = 2 ∧ (u 2 0).on (CTX_CTL_EN 255) = false ∧
      mayWrite (s 3) inn (CTX_CTL 255) 1 = true ∧ (u 3 1).ctxState 255 = 3 := by decide +kernel

theorem witness_contextDrained :
    ∀ v ∈ [0, 1], let s := running [(CTX_STAT_STATE 255, 3), (CTX_STAT_RESTART_PENDING 255, v)]
      s.power = .run ∧ s.ctxState 255 = 3 ∧ s.ctxBusy 255 = false ∧ s.get (CTX_STAT_RESTART_PENDING 255) = v := by
  decide +kernel

theorem witness_contextCommands :
    let s := running [(CTX_STAT_RUN 255, 5)]
    s.power = .run ∧ mayWrite s inn (CTX_CMD 255) (one s (CTX_CMD_KICK 255)) = true ∧
      mayWrite s inn (CTX_CMD 255) (one s (CTX_CMD_RESUME 255)) = true ∧ s.run 255 = 5 := by decide +kernel

/-- A device that runs with context 1 ON with a program, fed from work queue 0, whose slot budget is 16. -/
def program1 (fs : List (FRef × Nat)) : State :=
  running ([(CTX_STAT_STATE 1, 2), (CTX_CTL_PROG_EN 1, 1), (CTX_QUE_WQ_EN 1, 1), (CTX_BUD_SLOT_SLOTS 1, 16),
    (COUR_STAT_STATE 0, 2), (COUR_STAT_ROLE 0, 0), (CTX_STAT_COURIER 1, 0), (CTX_STAT_COURIER 2, 0), (CTX_CTL_NOTE 1, 0)] ++ fs)

theorem witness_workItemsDispatched :
    let s (w : Word) := (program1 []).setQueue 144 { Queue.empty with items := [⟨w, false, false, .ok⟩] }
    let i (w : Word) : WorkItem := ⟨w, false, false, .ok⟩
    (s 1).power = .run ∧ ((s 1).queue (144 + 0)).items = [i 1] ∧
      ((s 1).queue (144 + 0)).testing = false ∧ ((s 1).queue (144 + 0)).retired = false ∧
      (s 1).fedBy (bits (i 1).seen 0 8) 0 = true ∧ ((s 1).arch (bits (i 1).seen 0 8)).item = none ∧
      (s 2).fedBy (bits (i 2).seen 0 8) 0 = false := by decide +kernel

theorem witness_threadsBound :
    let s := program1 [(CTX_STAT_RUN 1, 1)]
    let t (r : Nat) := ((program1 [(CTX_STAT_RUN 1, 1), (COUR_STAT_BUSY 0, 15), (CTX_STAT_RUN 2, r),
      (CTX_STAT_STATE 2, 2), (CTX_CTL_PROG_EN 2, 1), (CTX_BUD_SLOT_SLOTS 2, 16)])).setArch 2
        { Arch.fresh with boundCls := 2, waitFor := .time, due := some 1000, waitSince := some 0 }
    (∀ u ∈ [s, t 2, t 3], u.power = .run ∧ 0 < u.member.couriers ∧ u.courRuns 0 = true ∧
      (u.settleCour 0).nextReady 0 = some 1) ∧
      ((s.settleCour 0).freeThread 0).isSome = true ∧
      ∀ r ∈ [2, 3], ((t r).settleCour 0).freeThread 0 = none ∧ ((t r).settleCour 0).noteOf 1 = 0 ∧
        ((t r).settleCour 0).victim 0 = some 2 ∧ ((t r).settleCour 0).run 2 = r := by decide +kernel

theorem witness_overdraftSuspends :
    let s := program1 [(CTX_STAT_RUN 1, 2), (CTX_CHG_SLOTS 1, 16)]
    s.power = .run ∧ s.run 1 = 2 ∧ s.slotBudget 1 ≤ s.get (CTX_CHG_SLOTS 1) := by decide +kernel

theorem witness_waitsTimeOut :
    ∀ f ∈ [WaitFor.time, .event 5], let s := (program1 []).setArch 1 { Arch.fresh with waitFor := f, due := some 1 }
      s.power = .run ∧ (s.arch 1).due = some 1 ∧ (s.arch 1).waitFor = f := by decide +kernel

theorem witness_courierEnabled :
    let s (st : Nat) := running [(COUR_STAT_STATE 15, st)]
    let u (st : Nat) (v : Word) := (s st).stored inn (COUR_CTL 15) v
    mayWrite (s 2) inn (COUR_CTL 15) 0 = true ∧ (u 2 0).get (COUR_STAT_STATE 15) = 2 ∧
      (u 2 0).on (COUR_CTL_EN 15) = false ∧ mayWrite (s 1) inn (COUR_CTL 15) 0 = true ∧
      (u 1 0).get (COUR_STAT_STATE 15) = 1 ∧ (u 1 0).on (COUR_CTL_EN 15) = false ∧
      mayWrite (s 0) inn (COUR_CTL 15) 1 = true ∧
      (u 0 1).get (COUR_STAT_STATE 15) = 0 ∧ (u 0 1).on (COUR_CTL_EN 15) = true ∧
      (u 0 1).replaced.contains (.courier 15) = false ∧ mayWrite (s 3) inn (COUR_CTL 15) 1 = true ∧
      (u 3 1).get (COUR_STAT_STATE 15) = 3 := by decide +kernel

theorem witness_mismatchRetires :
    let s (r : Nat) := running [(COUR_STAT_STATE 15, 2), (COUR_STAT_ROLE 15, 0), (COUR_STAT_STATE 14, 2), (COUR_STAT_ROLE 14, r)]
    (∀ r ∈ [0, 1], (s r).power = .run ∧ 15 < (s r).member.couriers ∧ (s r).get (COUR_STAT_STATE 15) = 2) ∧
      (s 1).spareCour.isSome = true ∧ (s 0).spareCour = none ∧ (s 0).get (COUR_STAT_ROLE 15) = 0 := by decide +kernel

theorem witness_migrationEnds :
    ∀ v ∈ [0, 1], let s := { running [(COUR_STAT_RESTART_PENDING 0, v)] with migrating := [(0, 15, 0)] }
      let t := State.heldApplied
        { s with migrating := s.migrating.filter (fun (m : Nat × Nat × Nat) => m.1 != 0) } 15
      s.power = .run ∧ 0 < s.member.couriers ∧ s.migrating.find? (fun m => m.1 == 0) = some (0, 15, 0) ∧
        ((t.heldBy 15).foldl (fun s n => if s.run n = 6 then s.makeReady n else s) t).get
          (COUR_STAT_RESTART_PENDING 0) = v := by decide +kernel

theorem witness_courierTestEnds :
    let a : ActiveTest := ⟨⟨.courier 0, 0⟩, 0, .marching⟩
    let s := { running [(COUR_STAT_ROLE 0, 3), (COUR_STAT_STATE 0, 1), (FLT_CFG_REPEAT, 2)] with active := [a] }
    let t := { s with active := s.active.filter (fun (a : ActiveTest) => !(a.test.res == Resource.courier 0)) }
    s.power = .run ∧ s.get (COUR_STAT_ROLE 0) = 3 ∧ s.get (COUR_STAT_STATE 0) = 1 ∧
      s.active.find? (fun a => a.test.res == Resource.courier 0) = some a ∧
      (t.classify (.courier 0) a.test.detail true).2 = false ∧ (t.classify (.courier 0) a.test.detail false).2 = true := by
  decide +kernel

theorem witness_stageRegisters :
    let s := running []
    s.power = .run ∧ mayWrite s inn STG_TIM 0 = true ∧ mayWrite s inn STG_OFS 0 = true ∧
      mayWrite s inn STG_CMD (one s STG_CMD_PEAK_CLR) = true := by decide +kernel

theorem witness_energyCommands :
    let s := running []
    s.power = .run ∧ mayWrite s inn NRG_CMD (one s NRG_CMD_LASTGASP) = true ∧
      mayWrite s inn NRG_CMD (one s NRG_CMD_EXTREME_CLR) = true := by decide +kernel

theorem witness_holdupSenseTaken :
    let s := running [(NRG_HU_ENTER, 600), (NRG_LG_LG, 500), (NRG_HU_COUNT, 1)]
    s.power = .run ∧ s.get NRG_HU_ENTER < (1023#10).toNat ∧ s.get NRG_LG_LG < (1023#10).toNat ∧
      s.get NRG_HU_COUNT ≠ 0 := by decide +kernel

theorem witness_holdupEntered :
    let s := running [(NRG_HU_ENTER, 600), (NRG_LG_LG, 500), (NRG_HU_COUNT, 1)]
    s.power = .run ∧ s.get NRG_HU_ENTER ≠ 0 ∧ (600#10).toNat ≤ s.get NRG_HU_ENTER ∧ s.get NRG_LG_LG < (600#10).toNat ∧
      s.get NRG_HU_COUNT ≠ 0 ∧ s.get NRG_HU_COUNT ≤ s.sched.huRun + 1 ∧ s.on NRG_STAT_HU = false := by decide +kernel

theorem witness_vinSenseTaken :
    let s := running [(NRG_VIN_LOW, 600), (NRG_HU_COUNT, 1)]
    s.power = .run ∧ s.get NRG_VIN_LOW < (601#10).toNat ∧ s.get NRG_HU_COUNT ≠ 0 := by decide +kernel

theorem witness_dieSensorTaken : ∃ t, exec (.dieSensorSample 1023) (running []) = .next t := ⟨_, rfl⟩

theorem witness_dieSensorAnswers : (running []).power = .run ∧ { running [] with power := .frozen }.power = .frozen := by
  decide +kernel

theorem witness_holdupEnds :
    (dueIn .huExit []).power = .run ∧ ((dueIn .huExit []).expire .huExit).isSome = true := by decide +kernel

/-! ### Queues and the Span -/

/-- A closed packet of context 1 with one word. -/
def packet1 : QPacket := ⟨1, 0, false, [⟨5, .ok⟩], 1, true, .ok, false⟩

theorem witness_queueRegisters :
    let s := running []
    s.power = .run ∧ mayWrite s inn (QUE_CMD 159) (one s (QUE_CMD_RESET 159)) = true ∧
      mayWrite s inn (QUE_PUSH 159) 1 = true ∧ isWorkQueue 159 = true ∧
      (((s.stored inn (QUE_PUSH 159) 1).zero (QUE_PUSH_ITEM 159)).pushItem 159 1).isSome = true ∧
      mayWrite s inn (QUE_CFG 159) 0 = true ∧ mayWrite s inn (QUE_RBASE 159) 0 = true := by decide +kernel

theorem witness_queuesPopped :
    8 % 8 = 0 ∧ 256 % 8 = 0 ∧ (running []).power = .run ∧ 260 % 8 ≠ 0 ∧ 4 < 8 ∧ 256 < 264 := by decide +kernel

theorem witness_openPacketsTimeOut :
    (dueIn (.openPkt 159) []).power = .run ∧ ((dueIn (.openPkt 159) []).expire (.openPkt 159)).isSome = true := by
  decide +kernel

theorem witness_queueFaultsTested :
    let s := { running [(FLT_CFG_REPEAT, 2)] with active := [⟨⟨.chain 5, 0⟩, 0, .marching⟩] }
    s.power = .run ∧ s.member = .ux4816 ∧ s.active.any (fun a => a.test.res == Resource.chain 5) = true ∧
      ((s.endTest (.chain 5)).classify (.chain 5) 0 true).2 = false ∧
      ((s.endTest (.chain 5)).classify (.chain 5) 0 false).2 = true := by decide +kernel

theorem witness_waitingItemsEnter :
    let s := (running []).setSeg 3 { Seg.idle with held := [0xF01#32] }
    let r : BridgeRecord := ⟨0, 1, 1, [1], true, none⟩
    let t := { running [] with bridgeWait := [r] }
    s.power = .run ∧ s.hasSeg 3 = true ∧ (s.seg 3).held = [0xF01#32] ∧
      (s.pushInterrupt (144 + s.get (SEG_INT_WQ (bits 0xF01#32 10 2) (bits 0xF01#32 8 2))) 0xF01#32).isSome = true ∧
      t.power = .run ∧ t.bridgeWait.find? (fun r => r.queue == 0) = some r ∧ t.mayPut 0 r.ctx r.src = true ∧
      (t.queue 0).openPacket = none := by decide +kernel

theorem witness_spanPortsEnabled : mayWrite (running []) inn SPN_CTL 3 = true := by decide +kernel

theorem witness_heartbeatSent :
    (dueIn (.beat 4) []).power = .run ∧ 1 < (dueIn (.beat 4) []).member.spans ∧
      ((dueIn (.beat 4) []).expire (.beat (3 + 1))).isSome = true := by decide +kernel

theorem witness_heartbeatTaken :
    controlTaken spanState 0 (spanCtl 0 0xFF00000001
      (leBytes 4 (0 : Word).toNat ++ leBytes 4 (0 : Word).toNat ++ leBytes 8 (0 : BitVec 64).toNat)) = true := by
  decide +kernel

theorem witness_heartbeatsMissed :
    (dueIn (.miss 4) []).power = .run ∧ 1 < (dueIn (.miss 4) []).member.spans ∧
      ((dueIn (.miss 4) []).expire (.miss (3 + 1))).isSome = true ∧
      ((dueIn (.silent 4) [(SPN_PORT_SILENT 1, 0)]).expire (.silent (3 + 1))).any (fun u => !u.on (SPN_PORT_SILENT 1)) = true := by
  decide +kernel

theorem witness_leaseEnds :
    (dueIn (.lease 3) []).power = .run ∧ (dueIn (.lease 3) []).hasSeg 3 = true ∧
      ((dueIn (.lease 3) []).expire (.lease 3)).isSome = true := by decide +kernel

theorem witness_ownershipClaimed :
    let s := { running [(SEG_STAT_STATE 0, 2), (SEG_STAT_ROLE 0, 1), (SPN_SEG_TAKE_EN 0, 1), (SPN_STAT_PAIR, 0)] with
      clk := 10000000000 }
    let t := dueIn (.cold 0) [(SEG_STAT_STATE 0, 1)]
    s.power = .run ∧ s.hasSeg 0 = true ∧ s.mayTake 0 = true ∧ (s.seg 0).takePending = false ∧ t.power = .run ∧
      (t.expire (.cold 0)).any (fun u => u.segState 0 == 1) = true := by decide +kernel

theorem witness_handoverGoes :
    let s := running []
    let t := { s with span := { s.span with handover := [3] } }
    s.power = .run ∧ mayWrite s inn SPN_CMD (s.putWordOf SPN_CMD_HANDOVER 15) = true ∧ t.power = .run ∧
      t.hasSeg 3 = true ∧ t.span.handover.contains 3 = true ∧ (t.seg 3).cycle = .idle := by decide +kernel

theorem witness_handoverEnds :
    let s := (spanState.put (SEG_STAT_STATE 3) 2).put (SEG_STAT_ROLE 3) 1
    let u := (spanHeard s 0 (spanCtl 0 0xFF00000002 (leBytes 4 3))).spanTook 0 4
    let t := dueIn (.handover 3) []
    controlTaken s 0 (spanCtl 0 0xFF00000002 (leBytes 4 3)) = true ∧ u.hasSeg 3 = true ∧ u.segState 3 = 2 ∧
      u.get (SEG_STAT_ROLE 3) = 1 ∧ mget u.span.taking 3 0 ≠ 1 ∧ t.power = .run ∧ t.hasSeg 3 = true ∧
      (t.expire (.handover 3)).isSome = true := by decide +kernel

/-- A JOURNAL packet's data for entry 7 of segment 0, a write of one byte. -/
def entry7 : List Byte := leBytes 4 7 ++ zerosOf 12 ++ zerosOf 1

theorem witness_journalTaken :
    let e := (journalEntry entry7).2
    let s (b : Bool) (n : Nat) : State := { spanState with side := b, span := { spanState.span with
      held := if n = 0 then [] else [(0, List.replicate n { e with jseq := n })] } }
    let u (b : Bool) (n : Nat) : State :=
      (spanHeard (s b n) 0 (spanCtl 0 0xFF00000003 entry7)).spanTook 0 entry7.length
    (∀ b ∈ [true, false], ∀ n ∈ [7, 255, 256], controlTaken (s b n) 0 (spanCtl 0 0xFF00000003 entry7) = true) ∧
      (journalEntry entry7).1 = 0 ∧
      (mget (u true 7).span.held 0 []).any (fun x => x.jseq == e.jseq) = true ∧
      256 ≤ (mget (u true 256).span.held 0 []).length ∧
      (mget (u true 255).span.held 0 []).any (fun x => x.jseq == e.jseq) = false ∧
      (mget (u true 255).span.held 0 []).length < 256 ∧ (u true 255).get (SEG_STAT_ROLE 0) ≠ 2 ∧
      e.rxSide = (u false 255).side ∧ e.rxSide ≠ (u true 255).side := by decide +kernel

theorem witness_journalAcknowledged :
    let e : JEntry := { (journalEntry entry7).2 with acked := false }
    let s : State := { running [] with span := { (running []).span with sent := [(3, [e])] } }
    s.power = .run ∧ s.hasSeg 3 = true ∧ (s.sentOf 3).find? (fun e => e.jseq == 7 && !e.acked) = some e := by
  decide +kernel

theorem witness_journalRetired :
    let d := leBytes 4 ((65535 : BitVec 16).toNat + 3 * 2 ^ 16 + (255 : BitVec 8).toNat * 2 ^ 24)
    ∀ r ∈ [1, 2], let s := spanState.put (SEG_STAT_ROLE 3) r
      controlTaken s 0 (spanCtl 0 0xFF00000004 d) = true ∧
        ((spanHeard s 0 (spanCtl 0 0xFF00000004 d)).spanTook 0 4).get (SEG_STAT_ROLE 3) = r := by
  decide +kernel

/-! ### Chains, faults and events -/

theorem witness_chainEnabled :
    let s (st : Nat) := running [(OPC_STAT_STATE 3, st)]
    let u (st : Nat) (v : Word) := (s st).stored inn (OPC_CTL 3) v
    (s 0).power = .run ∧ mayWrite (s 0) inn (OPC_CTL 3) 1 = true ∧ (u 0 1).chainState 3 = 0 ∧
      (u 0 1).on (OPC_CTL_EN 3) = true ∧ mayWrite (s 2) inn (OPC_CTL 3) 0 = true ∧ (u 2 0).chainState 3 = 2 ∧
      (u 2 0).on (OPC_CTL_EN 3) = false ∧ mayWrite (s 3) inn (OPC_CTL 3) 1 = true ∧ (u 3 1).chainState 3 = 3 := by
  decide +kernel

theorem witness_chainEntersOn :
    (dueIn (.chainStart 3) []).power = .run ∧ 3 < (dueIn (.chainStart 3) []).member.chains ∧
      ((dueIn (.chainStart 3) []).expire (.chainStart 3)).isSome = true := by decide +kernel

theorem witness_framesStart :
    let s := dueIn (.frame 3) [(OPC_STAT_STATE 3, 2)]
    s.power = .run ∧ 3 < s.member.chains ∧ (s.expire (.frame 3)).any (fun u => u.chainState 3 == 2) = true := by
  decide +kernel

/-- An up record of Outpost 0 in the frame with FSEQ 0, with nothing in it. -/
def upRecord0 : List Byte := zerosOf 10 ++ crcBytes (zerosOf 10)

theorem witness_upRecordsTaken :
    let s := (running [(OPC_CFG_COUNT 3, 8)]).setChain 3 { Chain.fresh with busy := true }
    s.power = .run ∧ 3 < s.member.chains ∧ (s.chain 3).busy = true ∧ (s.chain 3).pos < s.outposts 3 ∧
      recordGood (s.chain 3).pos (s.chain 3).cur upRecord0 = true ∧
      recordGood (s.chain 3).pos (s.chain 3).cur (zerosOf 12) = false := by decide +kernel

theorem witness_framesEnd :
    let s (st : Nat) (x : Chain) : State := ((running [(OPC_STAT_STATE 3, st)]).setChain 3 x).arm (.frameTmo 3) 1
    let v (s : State) : State := ((s.setChain 3 { s.chain 3 with busy := false, slot := none }).disarm
      (.frameTmo 3)).bumpBy (OPC_CNT0_REC_BAD 3) (s.outposts 3 - (s.chain 3).pos)
    let w (s : State) : State := (List.range (s.outposts 3)).foldl (fun s o => s.missedRecord 3 o) (v s)
    let a := s 2 { Chain.fresh with busy := true }
    let b := s 3 { Chain.fresh with busy := true }
    let c := s 3 { Chain.fresh with busy := true, last := true, drain := 2 }
    let d := s 3 { Chain.fresh with busy := true, last := true, drain := 1 }
    (∀ x ∈ [a, b, c, d], x.power = .run ∧ 3 < x.member.chains ∧ (x.chain 3).busy = true ∧ (x.chain 3).slot = none) ∧
      (w a).chainState 3 = 2 ∧ (w b).chainState 3 ≠ 2 ∧ (w c).chainState 3 ≠ 2 ∧
      1 < (((w c).edgePacket 3).chain 3).drain ∧ (w d).chainState 3 ≠ 2 ∧
      (((w d).edgePacket 3).chain 3).drain ≤ 1 ∧ (a.expire (.frameTmo 3)).isSome = true := by decide +kernel

theorem witness_chainRegisters :
    let s := running []
    s.power = .run ∧ mayWrite s inn (OPC_CHA 3 7 15) 0 = true ∧ mayWrite s inn (OPC_CHB 3 7 15) 0 = true ∧
      mayWrite s inn (OPC_CFG 3) 0 = true ∧ mayWrite s inn (OPC_CMD 3) (s.putWordOf (OPC_CMD_RESUME 3) 255) = true := by
  decide +kernel

theorem witness_testsStart :
    let s (r : Resource) (en : Nat) : State := { running [(FLT_CFG_TEST_EN, en)] with tests := [⟨r, 0⟩] }
    let u (r : Resource) : State := { s r 1 with tests := (s r 1).tests.eraseIdx 0 }
    (∀ en ∈ [0, 1], (s (.courier 0) en).power = .run ∧ (s (.courier 0) en).tests[0]? = some ⟨.courier 0, 0⟩ ∧
      (s (.courier 0) en).active = [] ∧ (s (.courier 0) en).on FLT_CFG_TEST_EN = (en == 1)) ∧
      Resource.isRow (.courier 0) = false ∧ Resource.isRow (.ledgerRow 0 0) = true ∧
      ((u (.ledgerRow 0 0)).takeSpare (.ledgerRow 0 0) 0).2.isSome = true ∧
      (State.takeSpare { u (.ledgerRow 0 0) with spareUsed := [(spareUnit (.ledgerRow 0 0), 15)] } (.ledgerRow 0 0) 15).2
        = none := by decide +kernel

theorem witness_rowTestsGo :
    ∀ st ∈ [RowStep.copying, .marching, .restoring], let a : ActiveTest := ⟨⟨.ledgerRow 0 5, 0⟩, 1, st⟩
      let s := { running [(FLT_CFG_REPEAT, 2)] with active := [a] }
      s.power = .run ∧ s.rowTest false 0 = some a ∧ s.repeats a.test.res = false := by decide +kernel

theorem witness_slotTestsEnd :
    let a : ActiveTest := ⟨⟨.slot 3 4, 0⟩, 0, .marching⟩
    let s := { running [] with active := [a] }
    s.power = .run ∧ s.active.find? (·.test.res.isSlot) = some a ∧ a.test.res = .slot 3 4 := by decide +kernel

theorem witness_faultCommands :
    let s := running []
    s.power = .run ∧ mayWrite s inn FLT_LANE (s.putWordOf FLT_LANE_RETIRED 1023) = true := by decide +kernel

theorem witness_ratesEnd :
    let s (m en rate : Nat) := { dueIn (.rate 255) [(EVT_CFG_EN 255, en), (EVT_CFG_RATE 255, rate)] with
      merges := [{ (default : Merge) with event := 255, merged := m }] }
    ∀ x ∈ [(0, 1, 1), (3, 0, 1), (3, 1, 0), (3, 1, 1)], let s := s x.1 x.2.1 x.2.2
      s.power = .run ∧ (s.expire (.rate 255)).any (fun u =>
        (u.merges.find? (fun m => m.event == 255)).any (fun m => m.merged == x.1) &&
          (u.on (EVT_CFG_EN 255) == (x.2.1 == 1)) && (u.on (EVT_CFG_RATE 255) == (x.2.2 == 1))) = true := by
  decide +kernel

theorem witness_pendingCleared :
    (running []).power = .run ∧ mayWrite (running []) inn (EVT_PEND 15) 0xFFFFFFFF = true := by decide +kernel

/-! ### Register space, the guard, boot -/

theorem witness_registersWritten :
    (running []).power = .run ∧ (0x40000#26).toNat % 4 = 0 ∧ mayWrite (running []) inn (0x40000#26).toNat 1 = true ∧
      selOf (0x161000#26).toNat = .gasp 0 ∧ (0x40001#26).toNat % 4 ≠ 0 ∧ selOf (0x40001#26).toNat = .reg 0x40000 := by
  decide +kernel

theorem witness_clearedByReading :
    let s := running [(HP_ERR_CNT_PROTOCOL 0, 5)]
    s.power = .run ∧ selOf (HP_ERR_CNT 0) = .reg (HP_ERR_CNT 0) ∧ s.member.present (HP_ERR_CNT 0) = true ∧ hasRc (HP_ERR_CNT 0) = true ∧
      pairHigh (HP_ERR_CNT 0) = none ∧ mfind s.latches (HP_ERR_CNT 0) = none := by decide +kernel

theorem witness_counterPairsRead :
    let s := { running [] with latches := [(GLB_TIME_HI, (1, 7))] }
    s.power = .run ∧ selOf GLB_TIME_LO = .reg GLB_TIME_LO ∧ s.member.present GLB_TIME_LO = true ∧
      pairHigh GLB_TIME_LO = some GLB_TIME_HI ∧ selOf GLB_TIME_HI = .reg GLB_TIME_HI ∧
      s.member.present GLB_TIME_HI = true ∧ isPairHigh GLB_TIME_HI = true ∧
      mfind s.latches GLB_TIME_HI = some (1, 7) := by decide +kernel

theorem witness_slowAccessesEnd :
    let e : Exec := { away with stage := .slow 2 0 }
    (running []).power = .run ∧ State.slowHead { running [] with execs := [e] } 2 = some e := by decide +kernel

theorem witness_guardUnlocked :
    let s := running []
    s.power = .run ∧ mayWrite s vote1 CFG_UNLOCK (s.putWordOf CFG_UNLOCK_KEY (0xA5C3#32).toNat) = true ∧
      mayWrite s vote1 CFG_UNLOCK (s.putWordOf CFG_UNLOCK_KEY (0xA5C2#32).toNat) = true ∧
      ((dueIn .guard []).expire .guard).isSome = true := by decide +kernel

theorem witness_passesStart :
    let s := running []
    s.power = .run ∧ mayWrite s inn CFG_COMMIT (one s CFG_COMMIT_COMMIT) = true ∧
      ((dueIn .pass [(CFG_STAT_SWEEPING, 0)]).expire .pass).any (fun u => !u.on CFG_STAT_SWEEPING) = true ∧
      ((dueIn .pass [(CFG_STAT_SWEEPING, 1)]).expire .pass).any (fun u => u.on CFG_STAT_SWEEPING) = true := by
  decide +kernel

theorem witness_checkPassEnds :
    let s := running [(CFG_STAT_SWEEPING, 1), (CFG_STAT_REF_VALID, 0)]
    s.power = .run ∧ s.on CFG_STAT_SWEEPING = true ∧ s.commitRuns = false ∧ s.on CFG_STAT_REF_VALID = false := by
  decide +kernel

theorem witness_commitPassEnds :
    let s := { running [(CFG_STAT_SWEEPING, 1)] with commitRuns := true }
    let t := dueIn .dirty [(CFG_STAT_DIRTY, 1)]
    s.power = .run ∧ s.on CFG_STAT_SWEEPING = true ∧ s.commitRuns = true ∧ t.power = .run ∧
      (t.expire .dirty).any (fun u => u.on CFG_STAT_DIRTY) = true := by decide +kernel

theorem witness_bootCommandsTaken :
    let s := running []
    s.power = .run ∧ votedOrInn inn = true ∧ s.on BOOT_STAT_BUSY = false ∧
      mayWrite s inn BOOT_CMD (bootWord 1 1 false) = true ∧ mayWrite s inn BOOT_CMD (bootWord 2 0 false) = true ∧
      mayWrite s inn BOOT_CMD (bootWord 3 1 false) = true ∧ mayWrite s inn BOOT_CMD (bootWord 4 0 false) = true ∧
      mayWrite s inn BOOT_CMD (bootWord 5 0 false) = true ∧ mayWrite s inn BOOT_CMD (bootWord 6 0 true) = true ∧
      mayWrite s inn BOOT_CMD (bootWord 7 0 false) = true := by decide +kernel

theorem witness_eraseBegins :
    let s := running []
    let t := { running [] with boot := ⟨true, []⟩ }
    s.runsSlot 1 = false ∧ s.on BOOT_STAT_TRIAL = false ∧ t.runsSlot 0 = true := by decide +kernel

theorem witness_bootCommandsEnd :
    ∀ op ∈ [2, 3, 4], State.bootCmd { running [] with bootCmd := some ⟨op, 1, 0, 0, []⟩ } = some ⟨op, 1, 0, 0, []⟩ := by
  decide +kernel

/-- A directory whose active slot is 0. -/
def directory0 : Directory := ⟨0, none, 0, 0, 0, 0, 0, 0, 0, none⟩

theorem witness_trialConfirmed :
    let s := { running [(BOOT_STAT_TRIAL, 1), (BOOT_STAT_PHASE, 4)] with dirs := ⟨some ⟨1, directory0⟩, none⟩ }
    s.power = .run ∧ votedOrInn vote1 = true ∧ mayWrite s vote1 BOOT_CONFIRM (one s BOOT_CONFIRM_CONFIRM) = true ∧
      s.dir = some directory0 ∧ s.on BOOT_STAT_TRIAL = true ∧ s.get BOOT_STAT_PHASE = 4 := by decide +kernel

/-- A start from the directory fails to read both slots: the last clause of `startsComplete`. -/
theorem witness_startsComplete_none :
    let s := { running [] with dirs := ⟨some ⟨1, directory0⟩, none⟩ }
    s.power = .run ∧ s.on GLB_STAT_READY = false ∧ s.xspiWait.startShow.dir = some directory0 ∧
      (s.xspiWait.startShow.startLoad directory0 (fun _ => true) 0).2.isNone = true := by decide +kernel

/-- A checked image that needs settings or not, with a stage plan that holds no entry or is not one. -/
def image0 (needs plan : Byte) : Image0 :=
  ⟨zerosOf 14 ++ [needs] ++ zerosOf (0x64 - 15) ++ [16] ++ zerosOf 27, [plan] ++ zerosOf 15⟩

/-- An image found brings the device up, into maintenance for want of settings, or fails at its plan: the other clauses
of `startsComplete`, and `startsFail`. Whether the image in a slot passes its signature the spec leaves to ECDSA, which
the model leaves open. -/
theorem witness_startsComplete_found :
    let up (i : Image0) := (running []).bringUp 0 i 0 false 0xFFFF
    (match up (image0 0 1) with | .ready _ _ => true | _ => false) = true ∧
      (match up (image0 1 1) with | .maint _ _ => true | _ => false) = true ∧
      (match up (image0 0 0) with | .fails _ => true | _ => false) = true := by decide +kernel

/-! ### Fuses, the TAP, debug -/

/-- A device that runs in MANUFACTURE with its hashes and its vault as given. -/
def fused (h v : Option (List Byte)) : State := { running [] with otp := ⟨0, h, h, v, 0, 0⟩ }

theorem witness_fuseWritesBegin :
    let s := fused (some []) (some [])
    s.power = .run ∧ s.lifecycle = 0 ∧ mayWrite s inn SEC_LC_CMD (one s SEC_LC_CMD_TO) = true ∧
      votedOrInn inn = true ∧ s.otp.keyHash.isSome = true ∧ s.otp.vault.isSome = true ∧
      mayWrite s inn SEC_FUSE_CMD (one s SEC_FUSE_CMD_KEY_HASH) = true ∧
      mayWrite s inn SEC_FUSE_CMD (one s SEC_FUSE_CMD_DBG_HASH) = true ∧
      mayWrite s inn SEC_VAULT_CMD (one s SEC_VAULT_CMD_LOAD) = true := by decide +kernel

theorem witness_fuseWritesRefused :
    let s := { running [] with lifecycle := 1 }
    s.power = .run ∧ s.lifecycle ≠ 0 ∧ mayWrite s inn SEC_LC_CMD (one s SEC_LC_CMD_TO) = true ∧
      mayWrite s inn SEC_FUSE_CMD (one s SEC_FUSE_CMD_KEY_HASH) = true ∧
      mayWrite s inn SEC_FUSE_CMD (one s SEC_FUSE_CMD_DBG_HASH) = true ∧
      mayWrite s inn SEC_VAULT_CMD (one s SEC_VAULT_CMD_LOAD) = true := by decide +kernel

theorem witness_fuseWritesEnd :
    ∀ h ∈ [none, some []], ∀ n ∈ [0, 1, 2, 3], let s := { fused h none with fusing := [n] }
      s.power = .run ∧ s.fusing.contains n = true ∧ s.otp.keyHash = h ∧ s.otp.dbgHash = h := by decide +kernel

/-- A frozen device whose first Ledger word cannot be corrected. -/
def frozen1 : State := { running [] with power := .frozen, ledgerBad := [(0, .ue)] }

theorem witness_freezeReadOut :
    frozen1.power = .frozen ∧ (frozen1.frozenWord ((0#26).toNat / 4 * 4)).any (·.isSome) = true ∧
      frozen1.frozenWord ((0x3900000#26).toNat / 4 * 4) = none ∧
      frozen1.frozenWord ((0x1000000#26).toNat / 4 * 4) = some none := by decide +kernel

theorem witness_freezeReadOutRefused : (running []).power ≠ .frozen := by decide +kernel

theorem witness_frozenByTap : (running []).power = .run := by decide +kernel

theorem witness_debugAuthenticated :
    let s := { running [] with tap := { Tap.fresh with challenge := zerosOf 32, blocked := 1 } }
    let t := { s with clk := 1, otp := { s.otp with dbgHash := none } }
    s.power = .run ∧ s.tap.challenge ≠ [] ∧ s.clk < s.tap.blocked ∧ t.power = .run ∧ t.tap.challenge ≠ [] ∧
      t.tap.blocked ≤ t.clk ∧ t.authOk [] [] = false := by decide +kernel

/-- A key whose hash is fused and a signature that the check of R482 takes open the session: whether a signature is
taken the spec leaves to ECDSA, which the model leaves open. -/
theorem witness_debugAuthenticated_opens (s : State) (key sig : List Byte)
    (h : Config.ecdsaP384 key (Config.sha384 s.signedData) sig = true) :
    State.authOk { s with otp := { s.otp with dbgHash := some (Config.sha384 key) } } key sig = true := by
  simp only [State.authOk, beq_self_eq_true, Bool.true_and]
  exact h

theorem witness_debugServes :
    let s := running [(CTX_STAT_STATE 255, 2)]
    s.power = .run ∧ s.debugOpen = true ∧ s.ctxState 255 = 2 ∧ s.on (CTX_FENCE_FENCED 255) = false ∧
      s.ctxState 254 < 2 := by decide +kernel

theorem witness_partReturned :
    let s := { running [(SEC_DBG_UNLOCKED, 1)] with lifecycle := 1 }
    s.power = .run ∧ s.lifecycle = 1 ∧ s.on SEC_DBG_UNLOCKED = true := by decide +kernel

/-! ### Resets and the time base -/

theorem witness_pinResets :
    (running []).power ≠ .held ∧ (running []).power = .run ∧ frozen1.power ≠ .held ∧ frozen1.power = .frozen := by
  decide +kernel

theorem witness_resetEnds :
    State.reset.power = .held ∧ State.reset.supOut = 0 ∧ State.supOut { State.reset with supOut := 512 } ≠ 0 := by
  decide +kernel

theorem witness_flashReleased : (dueIn .xspi []).power = .run ∧ ((dueIn .xspi []).expire .xspi).isSome = true := by
  decide +kernel

theorem witness_suppliesWatched :
    let s := { running [] with supOut := 2 ^ 7 + 2 ^ 9 }
    s.power = .run ∧ bitAt s.supOut 7 = true ∧ bitAt s.supOut 9 = true := by decide +kernel

theorem witness_pllWarned :
    let s (c : Nat) := { running [] with clk := c, pllSaid := some 0 }
    (s 1000000).power = .run ∧ (s 1000000).pllSaid = some 0 ∧ 0 + 1000000 ≤ (s 1000000).clk ∧
      (s 999999).clk < 0 + 1000000 := by decide +kernel

/-- A device that runs, whose time base is at `ns`, with a TSYNC period of 1 ms and a step threshold of 1 µs. -/
def timed (ns : Nat) (fs : List (FRef × Nat)) : State :=
  { running ([(CRP_TSYNC_PERIOD, 1), (CRP_TB_TH_STEP_TH, 1)] ++ fs) with tb := ns * 2 ^ 24 }

theorem witness_edgesCorrect :
    (timed 1001000 []).get CRP_TSYNC_PERIOD ≠ 0 ∧
    (edgeError (timed 1001000 [])).natAbs ≤ (timed 1001000 []).get CRP_TB_TH_STEP_TH * 1000 ∧
    ((timed 998999 []).get CRP_TB_TH_STEP_TH * 1000 : Int) < -edgeError (timed 998999 []) ∧
    ((timed 1001001 []).get CRP_TB_TH_STEP_TH * 1000 : Int) < edgeError (timed 1001001 []) := by decide +kernel

theorem witness_edgesTaken :
    let s (c v ns : Nat) : State := { timed ns [(CRP_TB_CTL_SRC, 1), (CRP_TB_CMD_SET, v), (CTX_STAT_STATE 255, 2)] with
      clk := c, disc := ⟨some 0, 0, false⟩ }
    (s 500000 0 0).power = .run ∧ (s 500000 0 0).get CRP_TB_CTL_SRC = 1 ∧ (s 500000 0 0).disc.lastEdge = some 0 ∧
      (s 500000 0 0).tsyncNs ≤ 2 * ((s 500000 0 0).clk - 0) ∧ (s 500000 0 0).on CRP_TB_CMD_SET = false ∧
      (s 500000 1 0).on CRP_TB_CMD_SET = true ∧ (s 500000 1 0).now ≤ (s 500000 1 0).setValue ∧
      (s 500000 1 5).setValue < (s 500000 1 5).now ∧ (s 500000 1 5).anyOn = true ∧
      2 * ((s 499999 0 0).clk - 0) < (s 499999 0 0).tsyncNs ∧ (timed 0 [(CRP_TB_CTL_SRC, 0)]).get CRP_TB_CTL_SRC ≠ 1 ∧
      ((dueIn .tsync []).expire .tsync).isSome = true := by decide +kernel

theorem witness_timeBaseSet :
    let s (v : Nat) := timed 0 [(CRP_TB_CTL_SRC, v)]
    (s 0).power = .run ∧ mayWrite (s 1) inn CRP_TB_CMD (one (s 1) CRP_TB_CMD_SET) = true ∧
      (s 1).get CRP_TB_CTL_SRC = 1 ∧ mayWrite (s 0) inn CRP_TB_CMD (one (s 0) CRP_TB_CMD_SET) = true ∧
      (s 0).get CRP_TB_CTL_SRC ≠ 1 ∧ mayWrite (s 0) inn CRP_TB_CMD (one (s 0) CRP_TB_CMD_SET_NOW) = true := by
  decide +kernel

theorem witness_setApplied :
    (timed 0 []).now ≤ (timed 0 []).setValue ∧
    (timed 5 [(CTX_STAT_STATE 255, 2)]).setValue < (timed 5 [(CTX_STAT_STATE 255, 2)]).now ∧
    (timed 5 [(CTX_STAT_STATE 255, 2)]).anyOn = true := by decide +kernel

/-! ### Courier instructions -/

/-- The word with the given OPCODE, rd, ra and bits [15:0]. -/
def word (op rd ra x : Nat) : Word := BitVec.ofNat 32 (op * 2 ^ 26 + rd * 2 ^ 21 + ra * 2 ^ 16 + x)

/-- A device that runs in which context 1, with a data area of 256 bytes and the registers `a`, issues `w`. -/
def ready (w : Word) (a : Arch) (fs : List (FRef × Nat)) : State :=
  { (program1 ([(CTX_STAT_RUN 1, 2), (CTX_PLACE_DSIZE 1, 1)] ++ fs)).setArch 1 a with
    imem := writeMem [] 0 (4 * a.pc) (leBytes 4 w.toNat) }

/-- The registers of R237 with a value in w31. -/
def regs31 (v : Word) : Arch := Arch.fresh.setReg 31 v

theorem witness_addSubCompare :
    issuingAlu (ready (word 0 31 31 0xF800) (regs31 1) []) 1 (word 0 31 31 0xF800) 0x00 ∧
    issuingAlu (ready (word 0 0 0 0xF801) (regs31 1) []) 1 (word 0 0 0 0xF801) 0x01 ∧
    issuingAlu (ready (word 0 0 31 0x000A) (regs31 1) []) 1 (word 0 0 31 0x000A) 0x0A ∧
    bits (word 0 0 31 0x000A) 21 5 = 0 := by unfold issuingAlu issuing; decide +kernel

theorem witness_logicShiftMultiply :
    issuingAlu (ready (word 0 31 31 0x0002) Arch.fresh []) 1 (word 0 31 31 0x0002) 0x02 ∧
    issuingAlu (ready (word 0 31 31 0x0003) Arch.fresh []) 1 (word 0 31 31 0x0003) 0x03 ∧
    issuingAlu (ready (word 0 31 31 0x0004) Arch.fresh []) 1 (word 0 31 31 0x0004) 0x04 ∧
    issuingAlu (ready (word 0 31 31 0xF805) (regs31 31) []) 1 (word 0 31 31 0xF805) 0x05 ∧
    issuingAlu (ready (word 0 31 31 0xF806) (regs31 31) []) 1 (word 0 31 31 0xF806) 0x06 ∧
    issuingAlu (ready (word 0 31 31 0xF807) (regs31 31) []) 1 (word 0 31 31 0xF807) 0x07 ∧
    issuingAlu (ready (word 0 31 31 0xF808) (regs31 31) []) 1 (word 0 31 31 0xF808) 0x08 ∧
    issuingAlu (ready (word 0 31 31 0xF809) (regs31 31) []) 1 (word 0 31 31 0xF809) 0x09 := by
  unfold issuingAlu issuing; decide +kernel

theorem witness_bytesSwapped :
    let s (x : Nat) := ready (word 0 31 31 x) (regs31 0x01020304) []
    bits (word 0 31 31 0x10) 11 5 = 0 ∧ issuingAlu (s 0x10) 1 (word 0 31 31 0x10) 0x10 ∧
    bits (0x02010403 : Word) 0 8 = bits (ra (s 0x10) 1 (word 0 31 31 0x10)) 8 8 ∧
    bits (0x02010403 : Word) 8 8 = bits (ra (s 0x10) 1 (word 0 31 31 0x10)) 0 8 ∧
    bits (0x02010403 : Word) 16 8 = bits (ra (s 0x10) 1 (word 0 31 31 0x10)) 24 8 ∧
    bits (0x02010403 : Word) 24 8 = bits (ra (s 0x10) 1 (word 0 31 31 0x10)) 16 8 ∧
    bits (word 0 31 31 0x11) 11 5 = 0 ∧ issuingAlu (s 0x11) 1 (word 0 31 31 0x11) 0x11 ∧
    bits (0x04030201 : Word) 0 8 = bits (ra (s 0x11) 1 (word 0 31 31 0x11)) 24 8 ∧
    bits (0x04030201 : Word) 8 8 = bits (ra (s 0x11) 1 (word 0 31 31 0x11)) 16 8 ∧
    bits (0x04030201 : Word) 16 8 = bits (ra (s 0x11) 1 (word 0 31 31 0x11)) 8 8 ∧
    bits (0x04030201 : Word) 24 8 = bits (ra (s 0x11) 1 (word 0 31 31 0x11)) 0 8 := by
  unfold issuingAlu issuing; decide +kernel

theorem witness_crcStepped :
    issuing (ready (word 0 31 31 0x12) Arch.fresh []) 1 (word 0 31 31 0x12) 0x00 ∧
    issuing (ready (word 0 31 31 0x92) Arch.fresh []) 1 (word 0 31 31 0x92) 0x00 ∧
    bits (word 0 31 31 0x92) 0 6 = 0x12 ∧ bits (word 0 31 31 0x92) 11 5 = 0 ∧ bits (word 0 31 31 0x12) 6 5 = 0 ∧
    bits (word 0 31 31 0x52) 6 5 = 1 ∧ bits (word 0 31 31 0x92) 6 5 = 2 := by unfold issuing; decide +kernel

theorem witness_registerJumps :
    let s (d x : Nat) (v : Word) := ready (word 0 d 31 x) (regs31 v) []
    bits (word 0 0 31 0x20) 11 5 = 0 ∧ bits (word 0 31 31 0x21) 11 5 = 0 ∧ bits (word 0 0 31 0x20) 21 5 = 0 ∧
    issuingAlu (s 0 0x20 16383) 1 (word 0 0 31 0x20) 0x20 ∧
    (ra (s 0 0x20 16383) 1 (word 0 0 31 0x20)).toNat = 16383 ∧
    issuingAlu (s 0 0x20 16384) 1 (word 0 0 31 0x20) 0x20 ∧
    (ra (s 0 0x20 16384) 1 (word 0 0 31 0x20)).toNat = 16384 ∧
    issuingAlu (s 31 0x21 16383) 1 (word 0 31 31 0x21) 0x21 ∧
    (ra (s 31 0x21 16383) 1 (word 0 31 31 0x21)).toNat = 16383 ∧
    issuingAlu (s 31 0x21 16384) 1 (word 0 31 31 0x21) 0x21 ∧
    (ra (s 31 0x21 16384) 1 (word 0 31 31 0x21)).toNat = 16384 := by unfold issuingAlu issuing; decide +kernel

theorem witness_aluReserved :
    issuing (ready (word 0 0 0 0x60) Arch.fresh []) 1 (word 0 0 0 0x60) 0x00 ∧ bits (word 0 0 0 0x60) 0 6 = 0x20 ∧
    bits (word 0 0 0 0x60) 6 5 ≠ 0 ∧ issuing (ready (word 0 0 0 0xD2) Arch.fresh []) 1 (word 0 0 0 0xD2) 0x00 ∧
    bits (word 0 0 0 0xD2) 0 6 = 0x12 ∧ bits (word 0 0 0 0xD2) 6 5 > 2 ∧
    issuing (ready (word 0 1 0 0x0A) Arch.fresh []) 1 (word 0 1 0 0x0A) 0x00 ∧ bits (word 0 1 0 0x0A) 21 5 ≠ 0 ∧
    issuing (ready (word 0 0 0 0x821) Arch.fresh []) 1 (word 0 0 0 0x821) 0x00 ∧ bits (word 0 0 0 0x821) 0 6 = 0x21 ∧
    bits (word 0 0 0 0x821) 11 5 ≠ 0 := by unfold issuing; decide +kernel

theorem witness_immediates :
    issuing (ready (word 1 31 31 0x8000) Arch.fresh []) 1 (word 1 31 31 0x8000) 0x01 ∧
    issuing (ready (word 6 0 31 0x8000) Arch.fresh []) 1 (word 6 0 31 0x8000) 0x06 ∧
    bits (word 6 0 31 0x8000) 21 5 = 0 ∧
    issuing (ready (word 2 31 31 0x8000) Arch.fresh []) 1 (word 2 31 31 0x8000) 0x02 ∧
    issuing (ready (word 3 31 31 0x8000) Arch.fresh []) 1 (word 3 31 31 0x8000) 0x03 ∧
    issuing (ready (word 4 31 31 0x8000) Arch.fresh []) 1 (word 4 31 31 0x8000) 0x04 ∧
    issuing (ready (word 5 31 0 0x8000) Arch.fresh []) 1 (word 5 31 0 0x8000) 0x05 ∧
    bits (word 5 31 0 0x8000) 16 5 = 0 := by unfold issuing; decide +kernel

theorem witness_shiftImmediate :
    issuing (ready (word 7 31 31 0x7F) Arch.fresh []) 1 (word 7 31 31 0x7F) 0x07 ∧ bits (word 7 31 31 0x7F) 7 9 = 0 := by
  unfold issuing; decide +kernel

theorem witness_bitFields :
    let s (op x : Nat) := ready (word op 31 31 x) (regs31 0x80000000) []
    31 = bits (word 8 31 31 0x1F) 0 5 ∧ 1 = bits (word 8 31 31 0x1F) 5 5 + 1 ∧
    issuing (s 8 0x1F) 1 (word 8 31 31 0x1F) 0x08 ∧ bits (word 8 31 31 0x1F) 10 6 = 0 ∧
    (∀ i < 32, (1 : Word).getLsbD i =
      (decide (i < 1) && (ra (s 8 0x1F) 1 (word 8 31 31 0x1F)).getLsbD (31 + i))) ∧
    issuing (s 8 0x41F) 1 (word 8 31 31 0x41F) 0x08 ∧ bits (word 8 31 31 0x41F) 10 6 = 1 ∧
    (∀ i < 32, (0xFFFFFFFF : Word).getLsbD i =
      (ra (s 8 0x41F) 1 (word 8 31 31 0x41F)).getLsbD (if i < 1 then 31 + i else 31 + 1 - 1)) ∧
    issuing (s 9 0x3E0) 1 (word 9 31 31 0x3E0) 0x09 ∧ bits (word 9 31 31 0x3E0) 0 5 = 0 ∧
    bits (word 9 31 31 0x3E0) 5 5 + 1 = 32 ∧
    (∀ i < 32, (0x80000000 : Word).getLsbD i =
      if 0 ≤ i ∧ i < 0 + 32 then (ra (s 9 0x3E0) 1 (word 9 31 31 0x3E0)).getLsbD (i - 0)
        else (rd (s 9 0x3E0) 1 (word 9 31 31 0x3E0)).getLsbD i) := by unfold issuing; decide +kernel

theorem witness_immediatesReserved :
    issuing (ready (word 5 0 1 0) Arch.fresh []) 1 (word 5 0 1 0) 0x05 ∧ bits (word 5 0 1 0) 16 5 ≠ 0 ∧
    issuing (ready (word 6 1 0 0) Arch.fresh []) 1 (word 6 1 0 0) 0x06 ∧ bits (word 6 1 0 0) 21 5 ≠ 0 ∧
    issuing (ready (word 7 0 0 0x80) Arch.fresh []) 1 (word 7 0 0 0x80) 0x07 ∧ bits (word 7 0 0 0x80) 7 9 ≠ 0 ∧
    issuing (ready (word 8 0 0 0x3F) Arch.fresh []) 1 (word 8 0 0 0x3F) 0x08 ∧
    32 < bits (word 8 0 0 0x3F) 0 5 + (bits (word 8 0 0 0x3F) 5 5 + 1) ∧
    issuing (ready (word 9 0 0 0x400) Arch.fresh []) 1 (word 9 0 0 0x400) 0x09 ∧
    bits (word 9 0 0 0x400) 10 6 ≠ 0 := by unfold issuing; decide +kernel

theorem witness_descriptorWords :
    issuing (ready (word 0x26 31 28 3) Arch.fresh []) 1 (word 0x26 31 28 3) 0x26 ∧
    issuing (ready (word 0x27 31 28 3) Arch.fresh []) 1 (word 0x27 31 28 3) 0x27 ∧
    bits (word 0x26 31 28 3) 18 3 = 7 ∧ bits (word 0x26 31 28 3) 0 2 = 3 ∧ bits (word 0x26 31 28 3) 15 3 = 0 ∧
    bits (word 0x26 31 28 3) 2 13 = 0 ∧ bits (word 0x27 31 28 3) 18 3 = 7 ∧ bits (word 0x27 31 28 3) 15 3 = 0 ∧
    7 < ((ready (word 0x26 31 28 3) Arch.fresh []).arch 1).d.length := by unfold issuing; decide +kernel

theorem witness_descriptorReserved :
    issuing (ready (word 0x26 0 1 0) Arch.fresh []) 1 (word 0x26 0 1 0) 0x26 ∧ bits (word 0x26 0 1 0) 15 3 ≠ 0 ∧
    issuing (ready (word 0x27 0 0 4) Arch.fresh []) 1 (word 0x27 0 0 4) 0x27 ∧ bits (word 0x27 0 0 4) 2 13 ≠ 0 := by
  unfold issuing; decide +kernel

/-- The registers of R237 with every token in a state. -/
def tokens (st : Nat) : Arch := { Arch.fresh with t := List.replicate 8 ⟨st, 0, 0, 0, 0⟩ }

theorem witness_tokenRead :
    let w (x : Nat) := word 0x25 31 3 (0x8000 + x)
    (∀ st ∈ [0, 1, 2], issuing (ready (w 0) (tokens st) []) 1 (w 0) 0x25 ∧
      issuing (ready (w 1) (tokens st) []) 1 (w 1) 0x25 ∧ issuing (ready (w 2) (tokens st) []) 1 (w 2) 0x25 ∧
      ((tokens st).t.getD 7 ⟨0, 0, 0, 0, 0⟩).state = st) ∧
    ∀ x ∈ [0, 1, 2], bits (w x) 18 3 = 0 ∧ bits (w x) 15 3 = 7 ∧ bits (w x) 2 13 = 0 ∧ bits (w x) 0 2 = x ∧
      (let s := (ready (w x) (tokens 1) []).setSeg 0 { Seg.idle with jobs := [{ job7 true with owner := .token 1 7 }] }
       issuing s 1 (w x) 0x25 ∧ ((((List.range 4).map (fun g => (s.seg g).jobs)).flatten).find? (fun j =>
         j.owner == .token 1 (bits (w x) 15 3))).isSome = true) := by
  unfold issuing; decide +kernel

theorem witness_branches :
    let w (op k x : Nat) : Word := BitVec.ofNat 32 (op * 2 ^ 26 + k * 2 ^ 22 + x)
    let s (op k x : Nat) := ready (w op k x) Arch.fresh []
    issuing (s 0x18 0 0) 1 (w 0x18 0 0) 0x18 ∧ issuing (s 0x19 0 0) 1 (w 0x19 0 0) 0x19 ∧
    condition ((s 0x18 0 0).arch 1) (bits (w 0x18 0 0) 22 4) = false ∧
    (∀ x ∈ [16383, 16384, 0xFFFFF], bits (w 0x18 14 x) 20 2 = 0 ∧ bits (w 0x18 14 x) 22 4 < 15) ∧
    issuing (s 0x18 14 16383) 1 (w 0x18 14 16383) 0x18 ∧ issuing (s 0x19 14 16383) 1 (w 0x19 14 16383) 0x19 ∧
    condition ((s 0x18 14 16383).arch 1) 14 = true ∧ target (s 0x18 14 16383) 1 (w 0x18 14 16383) = 16383 ∧
    issuing (s 0x18 14 16384) 1 (w 0x18 14 16384) 0x18 ∧ target (s 0x18 14 16384) 1 (w 0x18 14 16384) = 16384 ∧
    issuing (s 0x19 14 0xFFFFF) 1 (w 0x19 14 0xFFFFF) 0x19 ∧
    target (s 0x19 14 0xFFFFF) 1 (w 0x19 14 0xFFFFF) = -1 := by unfold issuing; decide +kernel

theorem witness_branchesReserved :
    let w (op : Nat) : Word := BitVec.ofNat 32 (op * 2 ^ 26 + 15 * 2 ^ 22)
    issuing (ready (w 0x18) Arch.fresh []) 1 (w 0x18) 0x18 ∧ issuing (ready (w 0x19) Arch.fresh []) 1 (w 0x19) 0x19 ∧
    bits (w 0x18) 22 4 = 15 ∧ bits (w 0x19) 22 4 = 15 := by unfold issuing; decide +kernel

/-- An instruction behind the last word of the instruction memory: `goesOn` has it trap. -/
theorem witness_fallsThrough :
    issuing (ready (word 0 0 0 0) { Arch.fresh with pc := 16383 } []) 1 (word 0 0 0 0) 0x00 := by
  unfold issuing; decide +kernel

/-- The state of a load or store with OPCODE `op` whose offset is `v`. -/
def memState (op rd : Nat) (v : Word) : State := ready (word op rd 31 0) (regs31 v) []

/-- The hypotheses of a load's or store's clauses: the last place in range, past the area, out of alignment. -/
def memCases (op rd k al : Nat) : Prop :=
  issuing (memState op rd (BitVec.ofNat 32 (256 - k))) 1 (word op rd 31 0) op ∧
  (bits (word op rd 31 0) 24 2 = 0 ∨ k < 16) ∧
  256 - k = memAt (memState op rd (BitVec.ofNat 32 (256 - k))) 1 (word op rd 31 0) ∧
  (256 - k) + k ≤ (memState op rd 0).dataSize 1 ∧ (256 - k) % al = 0 ∧
  (∀ j < k, (memState op rd 0).dmemEcc ((memState op rd 0).dataAt 1 (256 - k) + j) ≠ .ue) ∧
  issuing (memState op rd 256) 1 (word op rd 31 0) op ∧ 256 = memAt (memState op rd 256) 1 (word op rd 31 0) ∧
  (memState op rd 256).dataSize 1 < 256 + k ∧
  (1 < al → issuing (memState op rd 1) 1 (word op rd 31 0) op ∧ 1 + k ≤ (memState op rd 1).dataSize 1 ∧ 1 % al ≠ 0)

theorem witness_dataLoaded : memCases 0x0A 7 4 4 ∧ memCases 0x0B 7 2 2 ∧ memCases 0x0C 7 1 1 ∧ memCases 0x12 7 16 8 := by
  refine ⟨?_, ?_, ?_, ?_⟩ <;> (unfold memCases issuing; decide +kernel)

theorem witness_dataStored : memCases 0x0D 7 4 4 ∧ memCases 0x0E 7 2 2 ∧ memCases 0x0F 7 1 1 ∧ memCases 0x13 7 16 8 := by
  refine ⟨?_, ?_, ?_, ?_⟩ <;> (unfold memCases issuing; decide +kernel)

theorem witness_dataReserved :
    issuing (ready (word 0x12 8 0 0) Arch.fresh []) 1 (word 0x12 8 0 0) 0x12 ∧ bits (word 0x12 8 0 0) 24 2 ≠ 0 ∧
    issuing (ready (word 0x13 8 0 0) Arch.fresh []) 1 (word 0x13 8 0 0) 0x13 ∧ bits (word 0x13 8 0 0) 24 2 ≠ 0 := by
  unfold issuing; decide +kernel

theorem witness_ledgerLoaded :
    (∀ v ∈ [0x7FFFFC, 0x7FFFFD, 0x800000], issuing (memState 0x10 31 (BitVec.ofNat 32 v)) 1 (word 0x10 31 31 0) 0x10 ∧
      v = memAt (memState 0x10 31 (BitVec.ofNat 32 v)) 1 (word 0x10 31 31 0)) ∧
      (memState 0x10 31 0).member.ledgerBytes = 0x800000 ∧ 15 = ([60#11].map (fun b => (b.toNat + 3) / 4)).sum ∧
      (15 = 0 ∨ 15 < slotsLeft (memState 0x10 31 0) 1) ∧ 16 = ([61#11].map (fun b => (b.toNat + 3) / 4)).sum ∧
      ¬ (16 = 0 ∨ 16 < slotsLeft (memState 0x10 31 0) 1) ∧
      (ldlRead (memState 0x10 31 0x7FFFFC) 1 15 0x7FFFFC .ok).2.2 = false ∧
      (ldlRead (memState 0x10 31 0x7FFFFC) 1 15 0x7FFFFC .ue).2.2 = true := by
  unfold issuing; decide +kernel

theorem witness_ledgerStored :
    (∀ v ∈ [0x7FFFFC, 0x7FFFFD, 0x800000], issuing (memState 0x11 31 (BitVec.ofNat 32 v)) 1 (word 0x11 31 31 0) 0x11 ∧
      v = memAt (memState 0x11 31 (BitVec.ofNat 32 v)) 1 (word 0x11 31 31 0)) ∧
      (15 = 0 ∨ 15 < slotsLeft (memState 0x11 31 0) 1) ∧ ¬ (16 = 0 ∨ 16 < slotsLeft (memState 0x11 31 0) 1) ∧
      (stlWrite (memState 0x11 31 0x7FFFFC) 1 15 0x7FFFFC 0).2 = .ok := by
  unfold issuing; decide +kernel

/-- A device in which context 1 stores to the Ledger at `o`, where an output image whose home is segment 0 of the other
device stands at 0 with 64 bytes to a buffer. -/
def imaged (o pair own : Nat) : State :=
  let s := ready (word 0x11 31 31 0) (regs31 (BitVec.ofNat 32 o))
    [(IMG_CFG_EN 0, 1), (IMG_SIZE_LINES 0, 1), (IMG_CFG_DIR 0, 1), (IMG_CFG_HOME 0, 0), (SPN_STAT_PAIR, pair)]
  { s with span := { s.span with own := own } }

theorem witness_ledgerStored_elsewhere :
    issuing (imaged 64 2 1) 1 (word 0x11 31 31 0) 0x11 ∧ (stlWrite (imaged 64 2 1) 1 0 64 0).2 = .forward ∧
      issuing (imaged 64 2 0) 1 (word 0x11 31 31 0) 0x11 ∧ (stlWrite (imaged 64 2 0) 1 0 64 0).2 = .un ∧
      issuing (imaged 0 2 1) 1 (word 0x11 31 31 0) 0x11 ∧ (stlWrite (imaged 0 2 1) 1 0 0 0).2 = .refused ∧
      (stlWrite { memState 0x11 31 0 with ledgerBad := [(0, .ue)] } 1 0 0 0).2 = .te := by
  unfold issuing; decide +kernel

/-- The word of a bus cycle instruction on descriptor d7 and token t7. -/
def busWord (op rd : Nat) : Word := word op rd 31 0x8000

/-- The registers of R237 with a descriptor in d7 and the tokens in a state. -/
def described (x st : Nat) : Arch := { tokens st with d := List.replicate 8 (BitVec.ofNat 128 x) }

/-- A descriptor of 4 bytes at the last address of segment 3 with the longest timeout, with LOC and BUF as given. -/
def descriptor (loc buf : Nat) : Nat := 0xFFFFFC + 3 * 2 ^ 32 + 400 * 2 ^ 40 + loc * 2 ^ 50 + buf * 2 ^ 64 + 3 * 2 ^ 87

/-- The descriptor of a POLL of line 3 of segment 3. -/
def pollDescriptor : Nat := 3 + 3 * 2 ^ 24 + 3 * 2 ^ 32 + 400 * 2 ^ 40

/-- The fields of a device that owns segment 3. -/
def owns3 : List (FRef × Nat) := [(SEG_STAT_STATE 3, 2), (SEG_STAT_ROLE 3, 2)]

theorem witness_cyclesRead :
    let s (op x : Nat) := ready (busWord op 0) (described x 0) owns3
    bits (busWord 0x20 0) 0 15 = 0 ∧ bits (busWord 0x20 0) 18 3 = 7 ∧ bits (busWord 0x20 0) 21 5 = 0 ∧
    issuing (s 0x20 (descriptor 2 0x7FFFFC)) 1 (busWord 0x20 0) 0x20 ∧
    ((s 0x20 (descriptor 2 0x7FFFFC)).arch 1).d.getD 7 0 = BitVec.ofNat 128 (descriptor 2 0x7FFFFC) ∧
    tokenFree (s 0x20 (descriptor 2 0x7FFFFC)) 1 (busWord 0x20 0) ∧ (s 0x20 0).owns 3 = true ∧
    descLegal (s 0x20 0) (descOf (BitVec.ofNat 128 (descriptor 2 0x7FFFFC))) ∧
    bufferFits (s 0x20 0) 1 (descOf (BitVec.ofNat 128 (descriptor 2 0x7FFFFC))) ∧
    (descOf (BitVec.ofNat 128 (descriptor 2 0x7FFFFC))).seg = 3 := by
  unfold issuing tokenFree descLegal bufferFits; decide +kernel

theorem witness_cyclesRead_locked_and_poll :
    let s (op x : Nat) := ready (busWord op 0) (described x 2) owns3
    issuing (s 0x23 (descriptor 0 0)) 1 (busWord 0x23 0) 0x23 ∧
    descLegal (s 0x23 0) (descOf (BitVec.ofNat 128 (descriptor 0 0))) ∧
    (descOf (BitVec.ofNat 128 (descriptor 0 0))).loc = 0 ∧ (descOf (BitVec.ofNat 128 (descriptor 0 0))).burst = false ∧
    (descOf (BitVec.ofNat 128 (descriptor 0 0))).seg = 3 ∧ tokenFree (s 0x23 0) 1 (busWord 0x23 0) ∧
    issuing (s 0x24 pollDescriptor) 1 (busWord 0x24 0) 0x24 ∧
    descOf (BitVec.ofNat 128 pollDescriptor) = ⟨3, 3, 0, false, 0, 3, 0, 400, 0, 0, 0, 0, false⟩ ∧
    tokenFree (s 0x24 pollDescriptor) 1 (busWord 0x24 0) ∧ (s 0x24 0).owns 3 = true ∧ (s 0x24 0).hasSeg 3 = true := by
  unfold issuing tokenFree descLegal; decide +kernel

theorem witness_cyclesWritten :
    let s (op x : Nat) := ready (busWord op 31) (described x 0) owns3
    issuing (s 0x22 (descriptor 1 252)) 1 (busWord 0x22 31) 0x22 ∧
    issuing (s 0x21 (descriptor 0 0)) 1 (busWord 0x21 31) 0x21 ∧
    descLegal (s 0x22 0) (descOf (BitVec.ofNat 128 (descriptor 1 252))) ∧
    bufferFits (s 0x22 0) 1 (descOf (BitVec.ofNat 128 (descriptor 1 252))) ∧
    bufferFits (s 0x21 0) 1 (descOf (BitVec.ofNat 128 (descriptor 0 0))) ∧
    tokenFree (s 0x22 0) 1 (busWord 0x22 31) ∧
    sourced (s 0x22 0) 1 (busWord 0x22 31) (descOf (BitVec.ofNat 128 (descriptor 1 252))) (zerosOf 4) ∧
    sourced (s 0x21 0) 1 (busWord 0x21 31) (descOf (BitVec.ofNat 128 (descriptor 0 0))) (zerosOf 4) := by
  refine ⟨?_, ?_, ?_, ?_, ?_, ?_, .inr ?_, .inl ?_⟩ <;>
    (try unfold issuing) <;> (try unfold tokenFree) <;> (try unfold descLegal) <;> (try unfold bufferFits) <;>
    decide +kernel

theorem witness_cyclesAway :
    let s (op : Nat) := ready (busWord op 0) (described (descriptor 0 0) 0) []
    issuing (s 0x20) 1 (busWord 0x20 0) 0x20 ∧ issuing (s 0x21) 1 (busWord 0x21 0) 0x21 ∧
    issuing (s 0x22) 1 (busWord 0x22 0) 0x22 ∧ issuing (s 0x23) 1 (busWord 0x23 0) 0x23 ∧ (s 0x20).owns 3 = false ∧
    tokenFree (s 0x20) 1 (busWord 0x20 0) ∧ descLegal (s 0x20) (descOf (BitVec.ofNat 128 (descriptor 0 0))) := by
  unfold issuing tokenFree descLegal; decide +kernel

theorem witness_pollAway :
    let s := ready (busWord 0x24 0) (described pollDescriptor 0) []
    issuing s 1 (busWord 0x24 0) 0x24 ∧ bits (busWord 0x24 0) 0 15 = 0 ∧ bits (busWord 0x24 0) 21 5 = 0 ∧
    descOf ((s.arch 1).d.getD (bits (busWord 0x24 0) 18 3) 0) = ⟨3, 3, 0, false, 0, 3, 0, 400, 0, 0, 0, 0, false⟩ ∧
    tokenFree s 1 (busWord 0x24 0) ∧ s.owns 3 = false ∧ s.hasSeg 3 = true := by
  unfold issuing tokenFree; decide +kernel

theorem witness_cyclesTrapped_buffers :
    let s (x : Nat) := ready (busWord 0x20 0) (described x 0) owns3
    let d (x : Nat) := descOf (BitVec.ofNat 128 x)
    issuing (s pollDescriptor) 1 (busWord 0x20 0) 0x20 ∧ ¬ descLegal (s pollDescriptor) (d pollDescriptor) ∧
    issuing (s (descriptor 1 253)) 1 (busWord 0x20 0) 0x20 ∧ descLegal (s (descriptor 1 253)) (d (descriptor 1 253)) ∧
    (s (descriptor 1 253)).dataSize 1 < (d (descriptor 1 253)).buf + (d (descriptor 1 253)).len + 1 := by
  refine ⟨?_, ?_, ?_, ?_, ?_⟩ <;> (try unfold issuing) <;> (try unfold descLegal) <;> decide +kernel

theorem witness_cyclesTrapped_ledger :
    let s (x : Nat) := ready (busWord 0x20 0) (described x 0) owns3
    let d (x : Nat) := descOf (BitVec.ofNat 128 x)
    issuing (s (descriptor 2 0x7FFFFD)) 1 (busWord 0x20 0) 0x20 ∧
    descLegal (s (descriptor 2 0x7FFFFD)) (d (descriptor 2 0x7FFFFD)) ∧
    (s (descriptor 2 0x7FFFFD)).member.ledgerBytes <
      (d (descriptor 2 0x7FFFFD)).buf + (d (descriptor 2 0x7FFFFD)).len + 1 := by
  refine ⟨?_, ?_, ?_⟩ <;> (try unfold issuing) <;> (try unfold descLegal) <;> decide +kernel

theorem witness_cyclesTrapped_tokens :
    let s (st : Nat) := ready (busWord 0x20 0) (described (descriptor 0 0) st) owns3
    issuing (s 1) 1 (busWord 0x20 0) 0x20 ∧ ((s 1).token 1 (bits (busWord 0x20 0) 15 3)).state = 1 ∧
    128 ≤ ((s 0).put COUR_TAGS_IN_USE 128).get COUR_TAGS_IN_USE ∧
    issuing ((s 0).put COUR_TAGS_IN_USE 128) 1 (busWord 0x20 0) 0x20 := by
  refine ⟨?_, ?_, ?_, ?_⟩ <;> (try unfold issuing) <;> decide +kernel

theorem witness_cyclesTrapped_written :
    issuing (ready (busWord 0x22 31) (described pollDescriptor 0) owns3) 1 (busWord 0x22 31) 0x22 := by
  unfold issuing; decide +kernel

/-- A WAIT with the given rd and bits [15:0]. -/
def waitWord (rd x : Nat) : Word := word 0x28 rd 0 x

theorem witness_waitMet :
    let t : Arch := { tokens 1 with t := List.replicate 7 ⟨1, 0, 0, 0, 0⟩ ++ [⟨2, 0, 0, 0, 0⟩] }
    issuing (ready (waitWord 0 0x80) t []) 1 (waitWord 0 0x80) 0x28 ∧ bitAt (bits (waitWord 0 0x80) 0 9) 7 = true ∧
    ((ready (waitWord 0 0x80) t []).token 1 7).state ≠ 1 ∧ bits (waitWord 0 0x80) 12 1 = 0 ∧
    issuing (ready (waitWord 0 0x10FF) (tokens 0) []) 1 (waitWord 0 0x10FF) 0x28 ∧ bits (waitWord 0 0x10FF) 12 1 = 1 ∧
    bits (waitWord 0 0x10FF) 13 2 = 0 ∧ bits (waitWord 0 0x10FF) 0 9 = 255 ∧
    (∀ i < 8, bitAt (bits (waitWord 0 0x10FF) 0 9) i = true →
      ((ready (waitWord 0 0x10FF) (tokens 0) []).token 1 i).state ≠ 1) := by unfold issuing; decide +kernel

theorem witness_waitZero :
    let s (x : Nat) := ready (waitWord 31 x) ((tokens 1).setReg 31 0) []
    issuing (s 0x4000) 1 (waitWord 31 0x4000) 0x28 ∧ (rd (s 0x4000) 1 (waitWord 31 0x4000)).toNat = 0 ∧
    bits (waitWord 31 0x4000) 13 2 = 2 ∧ bits (waitWord 31 0x4000) 12 1 = 0 ∧ bits (waitWord 31 0x4000) 0 9 = 0 ∧
    issuing (s 0xFF) 1 (waitWord 31 0xFF) 0x28 ∧ bits (waitWord 31 0xFF) 21 5 ≠ 0 ∧ bits (waitWord 31 0xFF) 13 2 = 0 ∧
    bits (waitWord 31 0xFF) 0 9 = 255 ∧ (∀ i < 8, ((s 0xFF).token 1 i).state = 1) ∧
    issuing (s 0x21FF) 1 (waitWord 31 0x21FF) 0x28 ∧ bits (waitWord 31 0x21FF) 13 2 = 1 ∧
    bits (waitWord 31 0x21FF) 12 1 = 0 := by unfold issuing; decide +kernel

theorem witness_waitBegins :
    let s (r x : Nat) := ready (waitWord r x) ((tokens 1).setReg 31 1) []
    (∀ r ∈ [0, 31], ∀ x ∈ [0xFF, 0x10FF, 0x21FF], issuing (s r x) 1 (waitWord r x) 0x28 ∧ bits (waitWord r x) 18 3 = 0 ∧
      bits (waitWord r x) 15 3 = 0 ∧ bits (waitWord r x) 9 3 = 0 ∧ bits (waitWord r x) 21 5 = r) ∧
    (∀ r ∈ [0, 31], ∀ x ∈ [0xFF, 0x10FF], bits (waitWord r x) 13 2 = 0 ∧ bits (waitWord r x) 0 9 = 255 ∧
      ∀ i < 8, ((s r x).token 1 i).state = 1) ∧
    (∀ r ∈ [0, 31], bits (waitWord r 0x21FF) 13 2 = 1 ∧ bits (waitWord r 0x21FF) 12 1 = 0) ∧
    issuing (s 31 0x4000) 1 (waitWord 31 0x4000) 0x28 ∧ bits (waitWord 31 0x4000) 13 2 = 2 ∧
    (rd (s 31 0x4000) 1 (waitWord 31 0x4000)).toNat = 1 := by unfold issuing; decide +kernel

theorem witness_waitLeaves :
    let s (c : Nat) := { (program1 []).setArch 1 { Arch.fresh with waitSince := some 0 } with clk := c }
    ((s 15).arch 1).waitSince = some 0 ∧ 1 + ((s 15).clk - 0 + 4) / 5 ≤ 4 ∧ 4 < 1 + ((s 16).clk - 0 + 4) / 5 := by
  decide +kernel

theorem witness_yields :
    let s (b : Bool) := ready (word 0x2F 0 0 0) { Arch.fresh with wake := b } []
    issuing (s true) 1 (word 0x2F 0 0 0) 0x2F ∧ issuing (s false) 1 (word 0x2F 0 0 0) 0x2F ∧
    (∀ q ∈ (s true).packetQueues 1, (s true).hasOpen 1 q = false) ∧ bits (word 0x2F 0 0 0) 21 5 = 0 ∧
    bits (word 0x2F 0 0 0) 0 21 = 0 := by unfold issuing; decide +kernel

theorem witness_eventsRaised :
    issuing (ready (word 0x2C 31 0 7) Arch.fresh []) 1 (word 0x2C 31 0 7) 0x2C ∧ bits (word 0x2C 31 0 7) 3 18 = 0 := by
  unfold issuing; decide +kernel

theorem witness_systemRead :
    issuing (ready (word 0x2D 30 0 0) Arch.fresh []) 1 (word 0x2D 30 0 0) 0x2D ∧ bits (word 0x2D 30 0 0) 21 5 % 2 = 0 ∧
    issuing (ready (word 0x2E 31 0 0) Arch.fresh []) 1 (word 0x2E 31 0 0) 0x2E ∧
    issuing (ready (word 0x2E 31 0 4) Arch.fresh []) 1 (word 0x2E 31 0 4) 0x2E ∧ bits (word 0x2E 31 0 4) 0 15 = 3 + 1 ∧
    (∀ k ∈ [0, 1, 2, 3, 4, 5], issuing (ready (word 0x32 31 0 k) Arch.fresh []) 1 (word 0x32 31 0 k) 0x32 ∧
      bits (word 0x32 31 0 k) 0 15 = k ∧ bits (word 0x32 31 0 k) 15 6 = 0) := by unfold issuing; decide +kernel

theorem witness_trapsAndReturns :
    let a (b : Bool) : Arch := { Arch.fresh with inTrap := b, trapPc := 16382 }
    issuing (ready (word 0x30 0 0 0xFFFF) Arch.fresh []) 1 (word 0x30 0 0 0xFFFF) 0x30 ∧
    bits (word 0x30 0 0 0xFFFF) 16 10 = 0 ∧
    issuing (ready (word 0x31 0 0 1) (a true) []) 1 (word 0x31 0 0 1) 0x31 ∧ bits (word 0x31 0 0 1) 1 25 = 0 ∧
    ((ready (word 0x31 0 0 1) (a true) []).arch 1).inTrap = true ∧
    ((ready (word 0x31 0 0 1) (a true) []).arch 1).trapPc + bits (word 0x31 0 0 1) 0 1 = 16383 ∧
    issuing (ready (word 0x31 0 0 1) (a false) []) 1 (word 0x31 0 0 1) 0x31 ∧
    ((ready (word 0x31 0 0 1) (a false) []).arch 1).inTrap = false := by unfold issuing; decide +kernel

/-- A packet of a context's program that is open, with the given words and count. -/
def opened (n : Nat) (ws : List QWord) (k : Nat) : Queue :=
  { Queue.empty with packets := [⟨n, 0, false, ws, k, true, .ok, true⟩] }

theorem witness_messagesReleased :
    let w := word 0x29 0 0 0
    let s (x : Queue) := (ready w Arch.fresh []).setQueue 0 x
    bits w 0 26 = 0 ∧ (s Queue.empty).get (CTX_QUE_NQ 1) = 0 ∧ issuing (s (opened 1 [] 0)) 1 w 0x29 ∧
    (s (opened 1 [] 0)).hasOpen 1 0 = true ∧ issuing (s Queue.empty) 1 w 0x29 ∧ (s Queue.empty).hasOpen 1 0 = false ∧
    (s Queue.empty).mayPut 0 1 0 = true ∧ issuing (s (opened 2 [] 0)) 1 w 0x29 ∧
    (s (opened 2 [] 0)).hasOpen 1 0 = false ∧ (s (opened 2 [] 0)).mayPut 0 1 0 = false := by
  unfold issuing; decide +kernel

theorem witness_wordsPut :
    let w (k : Nat) := word 0x2A 31 0 k
    let s := (ready (w 0) Arch.fresh []).setQueue 0 (opened 1 [] 1022)
    let t := ready (w 1) Arch.fresh []
    let u := ready (w 2) Arch.fresh [(CTX_QUE_AUX_EN 1, 0)]
    let v := ready (w 1) Arch.fresh [(CTX_QUE_WQ_EN 1, 0)]
    (∀ k ∈ [0, 1, 2], bits (w k) 0 2 = k ∧ bits (w k) 15 6 = 0 ∧ bits (w k) 3 12 = 0 ∧ bits (w k) 2 1 = 0) ∧
    issuing s 1 (w 0) 0x2A ∧ setQueueOf s 1 0 0 ∧ isWorkQueue 0 = false ∧ s.hasOpen 1 0 = true ∧
    (s.queue 0).testing = false ∧ (s.queue 0).retired = false ∧ (s.queue 0).openPacket.all (·.count < 1023) = true ∧
    ((s.queue 0).packets.map QPacket.size).sum + 1 ≤ s.queueCap 0 ∧ issuing t 1 (w 1) 0x2A ∧ setQueueOf t 1 1 144 ∧
    isWorkQueue 144 = true ∧ (t.queue 144).testing = false ∧ (t.queue 144).retired = false ∧ t.credits 144 ≠ 0 ∧
    issuing u 1 (w 2) 0x2A ∧ u.on (CTX_QUE_AUX_EN 1) = false ∧ issuing v 1 (w 1) 0x2A ∧
    v.on (CTX_QUE_WQ_EN 1) = false := by unfold issuing setQueueOf; decide +kernel

theorem witness_wordsGot :
    let w (k : Nat) := word 0x2B 31 0 k
    let s := ready (w 1) { Arch.fresh with item := some 1 } []
    let t := ready (w 1) Arch.fresh []
    let u := ready (w 2) Arch.fresh [(CTX_QUE_AUX_EN 1, 0)]
    (∀ k ∈ [0, 1, 2], bits (w k) 0 2 = k ∧ bits (w k) 15 6 = 0 ∧ bits (w k) 2 13 = 0) ∧
    issuing s 1 (w 1) 0x2B ∧ s.on (CTX_QUE_WQ_EN 1) = true ∧ (s.arch 1).item = some 1 ∧ (s.arch 1).itemLine = false ∧
    issuing t 1 (w 1) 0x2B ∧ (t.arch 1).item = none ∧ issuing (ready (w 0) Arch.fresh []) 1 (w 0) 0x2B ∧
    issuing u 1 (w 2) 0x2B ∧ u.on (CTX_QUE_AUX_EN 1) = false := by unfold issuing; decide +kernel

/-! ### Steps, packets, registers, locks, queues, traps -/

theorem witness_stepRunsFront : State.pending { State.reset with pending := [.powerOn, .idcode] } = .powerOn :: [.idcode] := by
  decide

theorem witness_idleTicks :
    State.reset.pending = [] ∧ State.reset.power ≠ .run ∧ (running []).pending = [] ∧ (running []).power = .run ∧
    (running []).tbHold = 0 ∧ (running []).tbSlew = 0 ∧ (running []).on CRP_REF_SSC = false ∧
    (running []).get CRP_TB_RATE_RATE = 0 ∧ (running []).clk % 10 = 0 ∧
    ∀ k < 10, (running []).get (LN_CTL_MODE k) ≠ 1 := by decide +kernel

theorem witness_idleTicks_links (p : Nat) : ((running []).link p).phase ≠ .up := by
  have h : (running []).links = [] := by decide +kernel
  simp [State.link, h, mget, mfind, Link.idle]

theorem witness_heldIgnores :
    State.reset.power ≠ .run ∧ ¬ reachesAlways .innkeeperFault ∧ frozen1.power = .frozen ∧ ¬ converts .innkeeperFault := by
  refine ⟨by decide, ?_, by decide +kernel, ?_⟩
  · simp [reachesAlways]
  · simp [converts]

theorem witness_frozenKept :
    frozen1.power = .frozen ∧ (∀ i ∈ frozen1.pending, ¬ endsFreeze i) ∧ ∃ t, step frozen1 = .next t := by
  have h : frozen1.pending = [] := by decide +kernel
  exact ⟨by decide +kernel, by simp [h], _, rfl⟩

theorem witness_headerLaidOut :
    tMSG < 2 ^ 5 ∧ 3 < 2 ^ 2 ∧ 255 < 2 ^ 8 ∧ 65535 < 2 ^ 16 ∧ 1023 < 2 ^ 10 ∧ 511 < 2 ^ 9 ∧ 15 < 2 ^ 4 ∧
      0xFFFFFFFFFF < 2 ^ 40 := by decide

theorem witness_packetsCrossLinks :
    let ks := [packet tMWR (hdr1 0 255) (zerosOf 256), packet tSEQ (hdr1 1 0) []]
    (∀ k ∈ ks, isType k.h.type = true ∧ k.data.length = if hasData k.h.type then k.h.len + 1 else 0) ∧
      (ks.map pktBytes).flatten.length ≤ 55 * 6 := by decide +kernel

theorem witness_fieldsWritten :
    (fieldsOf (HP_ERR_CNT 0)).any (·.acc == .rc) = true ∧ (fieldsOf (LN_PRBS 9)).any (·.acc == .wo) = true ∧
    (fieldsOf (HP_CTL 0)).any (·.acc == .rw) = true ∧ (fieldsOf (HP_STAT 0)).any (·.acc == .ro) = true ∧
    (fieldsOf CRP_SUP_LOW).any (·.acc == .w1c) = true ∧ (fieldsOf CFG_COMMIT).any (·.acc == .w1s) = true ∧
    (fieldsOf 0x24).any (·.acc == .rwm) = true := by decide +kernel

theorem witness_guardRefuses :
    (running []).guards vote1 (WIN_BASE 63) 0x200000 = true ∧ (running []).member.noSource (WIN_BASE 63) = false ∧
      ¬ (0xc0000 ≤ WIN_BASE 63 ∧ WIN_BASE 63 < 0xc0100) := by
  decide +kernel

theorem witness_guardPasses :
    let s := running [(CFG_STAT_UNLOCKED, 1), (CFG_STAT_UNLOCK_CTX, 1)]
    WIN_BASE 63 / 0x10000 = 7 ∧ (regRow (WIN_BASE 63)).isSome = true ∧ s.guards vote1 (WIN_BASE 63) 0 = false ∧
    s.ownsGuard vote1.ctx.toNat = true ∧ (fieldsOf (WIN_BASE 63)).any (·.guarded) = true ∧
    (running []).guards inn (WIN_BASE 63) 0 = false ∧
    (running []).guards vote1 (WIN_BASE 63) ((running []).word (WIN_BASE 63)) = false ∧
    (running []).ownsGuard vote1.ctx.toNat = false := by decide +kernel

theorem witness_absentSources : Member.ux4804.noSource (EVT_CFG 15) = true := by decide +kernel

/-- A lock of context 1 that is held. -/
def held1 (l : LockName) : HeldLock := ⟨l, 1, false, false, 63, 0⟩

theorem witness_locksExclude (l : LockName) :
    oneHolder { running [] with locks := [held1 l] } ∧
      State.lockHeld { running [] with locks := [held1 l] } l = some (held1 l) := by
  refine ⟨fun k => List.length_filter_le _ _, ?_⟩
  simp [State.lockHeld, held1]

theorem witness_holderUntouched (l : LockName) : (held1 l).ctx ≠ 2 := by simp [held1]

theorem witness_packetOpened :
    let s := running []
    (s.queue 159).openPacket = none ∧ (s.queue 159).retired = false ∧ (zerosOf 30).length < 1023 ∧
      ((s.queue 159).packets.map QPacket.size).sum + (zerosOf 30).length + 2 ≤ s.queueCap 159 := by decide +kernel

theorem witness_packetClosed :
    let s := (running []).setQueue 159 (opened 1 [⟨5, .ok⟩] 1)
    (s.queue 159).packets = [] ++ [⟨1, 0, false, [⟨5, .ok⟩], 1, true, .ok, true⟩] := by decide +kernel

theorem witness_packetTaken :
    let e : QPacket := ⟨1, 0, false, [], 0, true, .ok, false⟩
    packet1.words = [5].map (fun w => ⟨w, .ok⟩) ∧ packet1.lenLeft = true ∧ packet1.isOpen = false ∧ [5].length < 2 ∧
      packet1.count ≤ 1023 ∧ packet1.ctx < 256 ∧ packet1.src < 16 ∧ e.words = [].map (fun w => ⟨w, .ok⟩) ∧
      e.isOpen = false ∧ e.lenEcc = .ok := by decide +kernel

theorem witness_trapHandled :
    ∀ v ∈ [0, 1], let s := program1 [(CTX_PROG_TRAP_EN 1, 1), (CTX_TRAP0_VALID 1, v)]
      s.on (CTX_PROG_TRAP_EN 1) = true ∧ (s.arch 1).inTrap = false ∧ (s.arch 1).pc < 16384 ∧
        s.get (CTX_TRAP0_VALID 1) = v := by decide +kernel

theorem witness_wordRegisters : Arch.fresh.w.length = 32 ∧ 31 < 32 := by decide


/-! ### Pins and lanes -/

theorem witness_transceiversSet :
    let s (x : Seg) := { owner 0 x [] with clk := 1000 }
    let b := busy7 (job7 true)
    let c := busy7 (job7 false)
    (running []).hasSeg 0 = true ∧ State.reset.power ≠ .run ∧ bitAt (State.supOut { running [] with supOut := 1 }) 0 = true ∧
      (running []).segState 0 = 0 ∧ bitAt (running []).supOut 0 = false ∧
      (running [(SEG_STAT_STATE 0, 1)]).segState 0 ≠ 0 ∧ (running [(SEG_STAT_STATE 0, 1)]).get (SEG_STAT_ROLE 0) ≠ 2 ∧
      (s Seg.idle).segState 0 ≠ 0 ∧ (s Seg.idle).get (SEG_STAT_ROLE 0) = 2 ∧ ((s Seg.idle).seg 0).cycle = .idle ∧
      ((s b).onBus 0).any (fun b => b.job.write) = true ∧
      ((s c).onBus 0).any (fun b => !b.job.write && decide (b.beatAt + (s c).pulseAt 0 b ≤ (s c).clk)) = true ∧
      ((s { Seg.idle with cycle := .lmGrant 1000 }).seg 0).cycle = .lmGrant 1000 ∧
      ((s { Seg.idle with cycle := .lmTenure 0 0 0 0 true }).seg 0).cycle = .lmTenure 0 0 0 0 true := by decide +kernel

theorem witness_controlBalls : State.reset.power = .held ∧ (running []).power ≠ .held := by decide +kernel

theorem witness_chainLines : 3 < (running []).member.chains := by decide +kernel

theorem witness_lanesCarry :
    3 < 4 ∧ (∀ l ∈ [0, 3, 2, 1], l < 4) ∧ (zerosOf 64).length = 64 := by decide +kernel

end Sys2Proof.Tests
end

/-! PROOFS. Courier instructions on registers, branches, and loads and stores of data memory (R257 to R269): what an
issued instruction does for each answer that its body can give, the values that it computes, and data memory. -/

namespace Sys2Proof.Claims

open Sys2Proof.Machine

/-! ## The issue of an instruction (R260 to R262) -/

/-- Context `n` issues the word `w`, and it is the instruction `op`. -/
def issuesOp (s : State) (n : Fin 256) (w : Word) (op : Op) : Prop :=
  s.canIssue n.val = true ∧ (s.arch n.val).pc < 16384 ∧ s.imemEcc (s.courOf n.val) (s.arch n.val).pc ≠ .ue ∧
    s.imemWord (s.arch n.val).pc = w ∧ opOf w = some op

theorem issuing.asOp {s : State} {n : Fin 256} {w : Word} {code : Nat} {op : Op} (h : issuing s n w code)
    (hop : bits w 26 6 = code → opOf w = some op) : issuesOp s n w op := by
  obtain ⟨hcan, hpc, hecc, hword, hcode⟩ := h
  exact ⟨hcan, hpc, hecc, hword, hop hcode⟩

/-- A word with another opcode than 0x00 is the instruction that its opcode alone names (R259). -/
theorem opOf_row {w : Word} {code : Nat} {op : Op} (hz : code ≠ 0)
    (ho : opOf (BitVec.ofNat 32 (code * 2 ^ 26)) = some op) (h : bits w 26 6 = code) : opOf w = some op := by
  have hlt : code < 2 ^ 6 := h ▸ bits_lt w 26 6
  have hcode : bits (BitVec.ofNat 32 (code * 2 ^ 26)) 26 6 = code := by
    simp only [bits, natBits, BitVec.toNat_ofNat]
    omega
  rw [← ho, opOf, opOf, hcode, h]
  split
  · contradiction
  all_goals rfl

theorem issuing.asRow {s : State} {n : Fin 256} {w : Word} {code : Nat} {op : Op} (h : issuing s n w code)
    (ho : opOf (BitVec.ofNat 32 (code * 2 ^ 26)) = some op) (hz : code ≠ 0 := by decide) : issuesOp s n w op :=
  h.asOp (opOf_row hz ho)

/-- A word of opcode 0x00 is the instruction of the ALU group that its FUNC names (R264). -/
theorem opOf_alu {w : Word} {func : Nat} {op : Op} (hf : bits w 0 6 = func) (ho : aluOp func = some op)
    (h : bits w 26 6 = 0x00) : opOf w = some op := by
  simp [opOf, h, hf, ho]

theorem issuingAlu.asFunc {s : State} {n : Fin 256} {w : Word} {func : Nat} {op : Op} (h : issuingAlu s n w func)
    (ho : aluOp func = some op) : issuesOp s n w op :=
  h.1.asOp (opOf_alu h.2.1 ho)

theorem auxZero_iff {w : Word} : auxZero w = true ↔ bits w 6 5 = 0 := by
  simp [auxZero, fAux]

theorem issuingAlu.auxZero {s : State} {n : Fin 256} {w : Word} {func : Nat} (h : issuingAlu s n w func) :
    auxZero w = true :=
  auxZero_iff.2 h.2.2

/-- `u` is `s` but for the registers of context `n`, which are `a`. -/
def archOnly (s u : State) (n : Fin 256) (a : Arch) : Prop :=
  u = { s with archs := u.archs } ∧ u.arch n.val = a ∧ ∀ m : Nat, m ≠ n.val → u.arch m = s.arch m

theorem archOnly_refl (s : State) (n : Fin 256) : archOnly s s n (s.arch n.val) :=
  ⟨rfl, rfl, fun _ _ => rfl⟩

theorem archOnly_setArch (s : State) (n : Fin 256) (a : Arch) : archOnly s (s.setArch n.val a) n a :=
  ⟨rfl, State.setArch_same .., fun _ h => State.setArch_other _ _ h⟩

@[simp] theorem charge_arch (s : State) (k slots m : Nat) : (s.charge_ k slots).arch m = s.arch m := rfl

/-- Slots charged and the PC moved behind a change of the registers of context `n`. -/
theorem becomes_of_archOnly {s u : State} {n : Fin 256} {a : Arch} (h : archOnly s u n a) (slots pc : Nat) :
    becomes s ((u.charge_ n.val slots).setArch n.val { a with pc := pc }) n slots { a with pc := pc } := by
  obtain ⟨hu, -, hother⟩ := h
  refine ⟨?_, State.setArch_same .., fun m hm => ?_⟩
  · rw [hu]; rfl
  · rw [State.setArch_other _ _ hm, charge_arch, hother m hm]

section issue

variable {s u : State} {n : Fin 256} {w : Word} {op : Op} {slots : Nat} {legal : Word → Bool}
  {body : State → Word → Res} {i : Instr} {a : Arch}

/-- An instruction that completes: its slots are charged behind its effect, and its context goes on at the next word. -/
theorem issue_next (hi : issuesOp s n w op) (hl : legal w = true) (hb : body s w = .next u) :
    s.issue n.val op slots legal body =
      goesOn s n ((u.charge_ n.val slots).setArch n.val { u.arch n.val with pc := (s.arch n.val).pc + 1 }) := by
  obtain ⟨hcan, hpc, hecc, rfl, hop⟩ := hi
  simp only [State.issue, hcan, if_true, if_neg (Nat.not_le.2 hpc), if_neg hecc, hop, hl, hb, State.goTo, charge_arch,
    goesOn]
  by_cases hlast : (s.arch n.val).pc = 16383
  · simp [hlast]
  · simp [hlast, show (s.arch n.val).pc + 1 < 16384 by omega]

/-- An instruction that goes on at an index within the instruction memory. -/
theorem issue_jump {p : Nat} (hi : issuesOp s n w op) (hl : legal w = true) (hb : body s w = .jump u p)
    (hp : p < 16384) : s.issue n.val op slots legal body =
      (u.charge_ n.val slots).setArch n.val { u.arch n.val with pc := p } := by
  obtain ⟨hcan, hpc, hecc, rfl, hop⟩ := hi
  simp [State.issue, hcan, Nat.not_le.2 hpc, hecc, hop, hl, hb, State.goTo, hp]

/-- An instruction that traps without effect. -/
theorem issue_trap {c x : Nat} (hi : issuesOp s n w op) (hl : legal w = true) (hb : body s w = .trap c x) :
    s.issue n.val op slots legal body = (s.charge_ n.val slots).trap n.val c x := by
  obtain ⟨hcan, hpc, hecc, rfl, hop⟩ := hi
  simp [State.issue, hcan, Nat.not_le.2 hpc, hecc, hop, hl, hb]

/-- An instruction that traps, and what the device found has its own effect behind the trap. -/
theorem issue_fail {c x : Nat} {f : State → State} (hi : issuesOp s n w op) (hl : legal w = true)
    (hb : body s w = .fail c x f) :
    s.issue n.val op slots legal body = f ((s.charge_ n.val slots).trap n.val c x) := by
  obtain ⟨hcan, hpc, hecc, rfl, hop⟩ := hi
  simp [State.issue, hcan, Nat.not_le.2 hpc, hecc, hop, hl, hb]

/-- A word that breaks a constraint of its row. -/
theorem issue_illegal (hi : issuesOp s n w op) (hl : legal w = false) :
    s.issue n.val op slots legal body = (s.charge_ n.val 1).trap n.val 1 w.toNat := by
  obtain ⟨hcan, hpc, hecc, rfl, hop⟩ := hi
  simp [State.issue, hcan, Nat.not_le.2 hpc, hecc, hop, hl]

theorem completes_of_next (he : exec i s = .next (s.issue n.val op slots legal body)) (hi : issuesOp s n w op)
    (hl : legal w = true) (hb : body s w = .next u) (hu : archOnly s u n a) : completes i s n slots a :=
  ⟨_, by rw [he, issue_next hi hl hb, hu.2.1], becomes_of_archOnly hu slots _⟩

/-- An instruction on the registers of its context completes with them as its function gives them. -/
theorem completes_of_onArch {f : Arch → Word → Arch}
    (he : exec i s = .next (s.issue n.val op slots legal (onArch n.val f))) (hi : issuesOp s n w op)
    (hl : legal w = true) (hf : f (s.arch n.val) w = a) : completes i s n slots a :=
  completes_of_next he hi hl rfl (hf ▸ archOnly_setArch s n _)

/-- Z and N of a result, as the statements name them (R263). -/
theorem setZN_eq (a : Arch) (r : Word) : a.setZN r = { a with z := decide (r = 0), n := r.msb } := by
  rw [BitVec.msb_eq_getLsbD_last]
  rfl

theorem resZN_eq_zn (s : State) (n : Fin 256) (f : Arch → Word → Word) (w : Word) :
    resZN f (s.arch n.val) w = zn s n w (f (s.arch n.val) w) := by
  simp only [resZN, zn, setZN_eq, fRd]

/-- An instruction that writes a result to rd with Z and N of it. -/
theorem completes_of_resZN {f : Arch → Word → Word} {r : Word}
    (he : exec i s = .next (s.issue n.val op slots legal (onArch n.val (resZN f)))) (hi : issuesOp s n w op)
    (hl : legal w = true) (hf : f (s.arch n.val) w = r) : completes i s n slots (zn s n w r) :=
  completes_of_onArch he hi hl (hf ▸ resZN_eq_zn s n f w)

theorem jumps_of_jump {p : Nat} (he : exec i s = .next (s.issue n.val op 1 legal body)) (hi : issuesOp s n w op)
    (hl : legal w = true) (hb : body s w = .jump u p) (hu : archOnly s u n a) (hp : p < 16384) : jumps i s n a p :=
  ⟨_, by rw [he, issue_jump hi hl hb hp, hu.2.1], becomes_of_archOnly hu 1 p⟩

theorem traps_of_trap {c x : Nat} (he : exec i s = .next (s.issue n.val op slots legal body)) (hi : issuesOp s n w op)
    (hl : legal w = true) (hb : body s w = .trap c x) : traps i s n slots c x := by
  rw [traps, he, issue_trap hi hl hb]

theorem traps_of_illegal (he : exec i s = .next (s.issue n.val op slots legal body)) (hi : issuesOp s n w op)
    (hl : legal w = false) : traps i s n 1 1 w.toNat := by
  rw [traps, he, issue_illegal hi hl]

/-- A taken branch to a target within the instruction memory (R266). -/
theorem jumps_of_takeBranch {t : Int} (he : exec i s = .next (s.issue n.val op 1 legal body)) (hi : issuesOp s n w op)
    (hl : legal w = true) (hb : body s w = takeBranch u t) (hu : archOnly s u n a) (h0 : 0 ≤ t) (h1 : t < 16384) :
    jumps i s n a t.toNat :=
  jumps_of_jump he hi hl (hb.trans (if_pos ⟨h0, h1⟩)) hu (by omega)

/-- A taken branch to a target outside the instruction memory (R266). -/
theorem traps_of_takeBranch {t : Int} (he : exec i s = .next (s.issue n.val op slots legal body))
    (hi : issuesOp s n w op) (hl : legal w = true) (hb : body s w = takeBranch u t) (ht : t < 0 ∨ 16384 ≤ t) :
    traps i s n slots 2 (t % 2 ^ 32).toNat :=
  traps_of_trap he hi hl (hb.trans (if_neg (by omega)))

end issue

/-! ## Flags and results (R263 to R267) -/

/-- A signed sum leaves the range of 32 bits exactly where the result differs from it (R263). -/
theorem setAdd_eq_sumFlags (a : Arch) (x y : Word) : a.setAdd x y = sumFlags a x y := by
  have hv : (decide (x.toInt + y.toInt < -(2 ^ 31)) || decide (2 ^ 31 ≤ x.toInt + y.toInt)) =
      decide (x.toInt + y.toInt ≠ (x + y).toInt) := by
    rw [← Bool.decide_or, BitVec.toInt_add, Int.bmod_def]
    refine decide_eq_decide.2 ?_
    have hx := BitVec.toInt_lt (x := x); have hx' := BitVec.le_toInt x
    have hy := BitVec.toInt_lt (x := y); have hy' := BitVec.le_toInt y
    split <;> omega
  simp only [Arch.setAdd, setZN_eq, sumFlags, hv]

theorem setSub_eq_diffFlags (a : Arch) (x y : Word) : a.setSub x y = diffFlags a x y := by
  have hv : (decide (x.toInt - y.toInt < -(2 ^ 31)) || decide (2 ^ 31 ≤ x.toInt - y.toInt)) =
      decide (x.toInt - y.toInt ≠ (x - y).toInt) := by
    rw [← Bool.decide_or, BitVec.toInt_sub, Int.bmod_def]
    refine decide_eq_decide.2 ?_
    have hx := BitVec.toInt_lt (x := x); have hx' := BitVec.le_toInt x
    have hy := BitVec.toInt_lt (x := y); have hy' := BitVec.le_toInt y
    split <;> omega
  simp only [Arch.setSub, setZN_eq, diffFlags, hv]

theorem mul_eq_ofNat (x y : Word) : x * y = BitVec.ofNat 32 (x.toNat * y.toNat) := by
  apply BitVec.eq_of_toNat_eq
  rw [BitVec.toNat_mul, BitVec.toNat_ofNat]

/-- A word is the number of its four bytes. -/
theorem word_eq_bytes (x : Word) :
    x = BitVec.ofNat 32 (bits x 24 8 * 2 ^ 24 + bits x 16 8 * 2 ^ 16 + bits x 8 8 * 2 ^ 8 + bits x 0 8) := by
  apply BitVec.eq_of_toNat_eq
  have hx := x.isLt
  simp only [BitVec.toNat_ofNat, bits, natBits]
  omega

theorem swapHalves_eq {x r : Word} (h0 : bits r 0 8 = bits x 8 8) (h1 : bits r 8 8 = bits x 0 8)
    (h2 : bits r 16 8 = bits x 24 8) (h3 : bits r 24 8 = bits x 16 8) : swapHalves x = r := by
  rw [word_eq_bytes r, h0, h1, h2, h3, swapHalves]

theorem swapBytes_eq {x r : Word} (h0 : bits r 0 8 = bits x 24 8) (h1 : bits r 8 8 = bits x 16 8)
    (h2 : bits r 16 8 = bits x 8 8) (h3 : bits r 24 8 = bits x 0 8) : swapBytes x = r := by
  rw [word_eq_bytes r, h0, h1, h2, h3, swapBytes]

/-- The bytes of a number, by their index. -/
theorem leBytes_eq_map (k v : Nat) : leBytes k v = (List.range k).map (fun i => BitVec.ofNat 8 (v / 256 ^ i)) := by
  induction k generalizing v with
  | zero => rfl
  | succ k ih =>
    have hbyte (i : Nat) : v / 256 / 256 ^ i = v / 256 ^ (i + 1) := by
      rw [Nat.div_div_eq_div_mul, Nat.pow_succ, Nat.mul_comm]
    simp only [leBytes, ih, hbyte, List.range_succ_eq_map, List.map_cons, List.map_map, Nat.pow_zero, Nat.div_one,
      Function.comp_def, Nat.succ_eq_add_one]

/-- Byte `i` of a word as its low byte. -/
theorem byte_setWidth (x : Word) (i : Nat) :
    (BitVec.ofNat 8 (x.toNat / 256 ^ i)).setWidth 32 = x >>> (8 * i) &&& 0xFF := by
  apply BitVec.eq_of_toNat_eq
  simp only [BitVec.toNat_setWidth, BitVec.toNat_ofNat, BitVec.toNat_and, BitVec.toNat_ushiftRight]
  rw [show (256 : Nat) ^ i = 2 ^ (8 * i) from (Nat.pow_mul 2 8 i).symm, ← Nat.shiftRight_eq_div_pow,
    show BitVec.toNat (0xFF : Word) = 2 ^ 8 - 1 from rfl, Nat.and_two_pow_sub_one_eq_mod]
  omega

theorem crc32cByte_eq_crcBits (c x : Word) (i : Nat) :
    crc32cByte c (BitVec.ofNat 8 (x.toNat / 256 ^ i)) =
      crcBit (crcBit (crcBit (crcBit (crcBit (crcBit (crcBit (crcBit (c ^^^ (x >>> (8 * i) &&& 0xFF))))))))) := by
  rw [crc32cByte, byte_setWidth]
  rfl

theorem crcStep_eq (s : State) (n : Fin 256) (w : Word) {k : Nat} (hk : 2 ^ bits w 6 5 = k) :
    crcStep (s.arch n.val) w = (List.range k).foldl (fun c i =>
      crcBit (crcBit (crcBit (crcBit (crcBit (crcBit (crcBit (crcBit (c ^^^ (ra s n w >>> (8 * i) &&& 0xFF))))))))))
        (rd s n w) := by
  subst hk
  simp only [← crc32cByte_eq_crcBits]
  rw [crcStep, leBytes_eq_map, List.foldl_map]
  rfl

/-! ## The ALU group (R264) -/

theorem addSubCompare_holds : addSubCompare := by
  intro s n w
  refine ⟨fun h => ?add, fun h => ?sub, fun h hrd => ?cmp⟩
  case add =>
    exact completes_of_onArch (exec_add n s) (h.asFunc rfl) h.auxZero
      (congrArg (Arch.setReg · _ _) (setAdd_eq_sumFlags ..))
  case sub =>
    exact completes_of_onArch (exec_sub n s) (h.asFunc rfl) h.auxZero
      (congrArg (Arch.setReg · _ _) (setSub_eq_diffFlags ..))
  case cmp =>
    exact completes_of_onArch (exec_cmp n s) (h.asFunc rfl) (by simp [h.auxZero, fRd, hrd]) (setSub_eq_diffFlags ..)

theorem logicShiftMultiply_holds : logicShiftMultiply := by
  intro s n w
  refine ⟨fun h => ?and, fun h => ?or, fun h => ?xor, fun h => ?shl, fun h => ?shr, fun h => ?sra, fun h => ?ror,
    fun h => ?mul⟩
  case and => exact completes_of_resZN (exec_and n s) (h.asFunc rfl) h.auxZero rfl
  case or => exact completes_of_resZN (exec_or n s) (h.asFunc rfl) h.auxZero rfl
  case xor => exact completes_of_resZN (exec_xor n s) (h.asFunc rfl) h.auxZero rfl
  case shl => exact completes_of_resZN (exec_shl n s) (h.asFunc rfl) h.auxZero rfl
  case shr => exact completes_of_resZN (exec_shr n s) (h.asFunc rfl) h.auxZero rfl
  case sra => exact completes_of_resZN (exec_sra n s) (h.asFunc rfl) h.auxZero rfl
  case ror => exact completes_of_resZN (exec_ror n s) (h.asFunc rfl) h.auxZero rfl
  case mul => exact completes_of_resZN (exec_mul n s) (h.asFunc rfl) h.auxZero (mul_eq_ofNat _ _)

theorem bytesSwapped_holds : bytesSwapped := by
  intro s n w r hrb
  refine ⟨fun h h0 h1 h2 h3 => ?swap16, fun h h0 h1 h2 h3 => ?swap32⟩
  case swap16 =>
    exact completes_of_resZN (exec_swap16 n s) (h.asFunc rfl) (by simp [h.auxZero, fRb, hrb])
      (swapHalves_eq h0 h1 h2 h3)
  case swap32 =>
    exact completes_of_resZN (exec_swap32 n s) (h.asFunc rfl) (by simp [h.auxZero, fRb, hrb])
      (swapBytes_eq h0 h1 h2 h3)

theorem crcStepped_holds : crcStepped := by
  intro s n w k h hfunc hrb hk
  have haux : bits w 6 5 < 3 ∧ 2 ^ bits w 6 5 = k := by
    rcases hk with ⟨ha, rfl⟩ | ⟨ha, rfl⟩ | ⟨ha, rfl⟩ <;> simp [ha]
  exact completes_of_resZN (exec_crc32c n s) (h.asOp (opOf_alu hfunc rfl)) (by simp [fRb, hrb, fAux, haux.1])
    (crcStep_eq s n w haux.2)

theorem crcCheckValue_holds : crcCheckValue := by
  unfold crcCheckValue
  decide +kernel

theorem registerJumps_holds : registerJumps := by
  intro s n w hrb
  have hmod : ((((ra s n w).toNat : Nat) : Int) % 2 ^ 32).toNat = (ra s n w).toNat := by
    have := (ra s n w).isLt
    omega
  refine ⟨fun h hrd hin => ?jr, fun h hrd hout => ?jrOut, fun h hin => ?jalr, fun h hout => ?jalrOut⟩
  case jr =>
    exact jumps_of_takeBranch (t := (ra s n w).toNat) (exec_jr n s) (h.asFunc rfl)
      (by simp [h.auxZero, fRd, hrd, fRb, hrb]) rfl (archOnly_refl s n) (by omega) (by omega)
  case jrOut =>
    have := traps_of_takeBranch (t := (ra s n w).toNat) (exec_jr n s) (h.asFunc rfl)
      (by simp [h.auxZero, fRd, hrd, fRb, hrb]) rfl (.inr (by omega))
    rwa [hmod] at this
  case jalr =>
    exact jumps_of_takeBranch (t := (ra s n w).toNat) (exec_jalr n s) (h.asFunc rfl) (by simp [h.auxZero, fRb, hrb])
      rfl (archOnly_setArch s n _) (by omega) (by omega)
  case jalrOut =>
    have := traps_of_takeBranch (t := (ra s n w).toNat) (exec_jalr n s) (h.asFunc rfl)
      (by simp [h.auxZero, fRb, hrb]) rfl (.inr (by omega))
    rwa [hmod] at this

/-- A word of the ALU group whose row asks a field to be zero that is not. -/
theorem traps_of_aluField {s : State} {n : Fin 256} {w : Word} {i : Instr} {op : Op} {func lo width slots : Nat}
    {legal : Word → Bool} {body : State → Word → Res} (h : issuing s n w 0x00)
    (he : exec i s = .next (s.issue n.val op slots legal body)) (ho : aluOp func = some op)
    (hl : legal w = true → bits w lo width = 0) (hf : bits w 0 6 = func) (hne : bits w lo width ≠ 0) :
    traps i s n 1 1 w.toNat :=
  traps_of_illegal he (h.asOp (opOf_alu hf ho)) (Bool.eq_false_iff.2 fun e => hne (hl e))

theorem aluReserved_holds : aluReserved := by
  intro s n w h
  simp only [aluRows, List.forall_mem_cons, List.not_mem_nil, false_imp_iff, implies_true, and_true]
  refine ⟨?aux, fun hf haux => ?crcAux, ?rdZero, ?rbZero⟩
  case aux =>
    have plain : auxZero w = true → bits w 6 5 = 0 := auxZero_iff.1
    have more (b : Bool) : (auxZero w && b) = true → bits w 6 5 = 0 := fun e => plain (Bool.and_eq_true_iff.1 e).1
    exact ⟨traps_of_aluField h (exec_add n s) rfl plain, traps_of_aluField h (exec_sub n s) rfl plain,
      traps_of_aluField h (exec_and n s) rfl plain, traps_of_aluField h (exec_or n s) rfl plain,
      traps_of_aluField h (exec_xor n s) rfl plain, traps_of_aluField h (exec_shl n s) rfl plain,
      traps_of_aluField h (exec_shr n s) rfl plain, traps_of_aluField h (exec_sra n s) rfl plain,
      traps_of_aluField h (exec_ror n s) rfl plain, traps_of_aluField h (exec_mul n s) rfl plain,
      traps_of_aluField h (exec_cmp n s) rfl (more _), traps_of_aluField h (exec_swap16 n s) rfl (more _),
      traps_of_aluField h (exec_swap32 n s) rfl (more _),
      traps_of_aluField h (exec_jr n s) rfl (fun e => more _ (Bool.and_eq_true_iff.1 e).1),
      traps_of_aluField h (exec_jalr n s) rfl (more _)⟩
  case crcAux =>
    exact traps_of_illegal (exec_crc32c n s) (h.asOp (opOf_alu hf rfl))
      (by simp [fAux, Nat.not_lt.2 (Nat.succ_le_of_lt haux)])
  case rdZero =>
    exact ⟨traps_of_aluField h (exec_cmp n s) rfl (by simp [fRd]),
      traps_of_aluField h (exec_jr n s) rfl (by simp +contextual [fRd])⟩
  case rbZero =>
    exact ⟨traps_of_aluField h (exec_swap16 n s) rfl (by simp [fRb]),
      traps_of_aluField h (exec_swap32 n s) rfl (by simp [fRb]),
      traps_of_aluField h (exec_crc32c n s) rfl (by simp +contextual [fRb]),
      traps_of_aluField h (exec_jr n s) rfl (by simp [fRb]), traps_of_aluField h (exec_jalr n s) rfl (by simp [fRb])⟩

/-- Settles O30: each row of the ALU group by the rule for its outcome, with its result and its flags as R263 to R267
give them. -/
theorem aluComputes : Obligations.AluComputes :=
  ⟨addSubCompare_holds, logicShiftMultiply_holds, bytesSwapped_holds, crcStepped_holds, crcCheckValue_holds,
    registerJumps_holds, aluReserved_holds⟩

/-! ## Immediates, shifts and bit fields (R265) -/

theorem bits_testBit (x : Word) (lo k i : Nat) : (bits x lo k).testBit i = (decide (i < k) && x.getLsbD (lo + i)) :=
  natBits_testBit ..

theorem zextImm_eq (w : Word) : zextImm w = w &&& 0xFFFF := by
  apply BitVec.eq_of_toNat_eq
  rw [zextImm, BitVec.toNat_ofNat, BitVec.toNat_and, show BitVec.toNat (0xFFFF : Word) = 2 ^ 16 - 1 from rfl,
    Nat.and_two_pow_sub_one_eq_mod, fImm, bits, natBits]
  omega

/-- IMM16 in the upper half of a word (LUI). -/
theorem zextImm_shiftLeft (w : Word) : zextImm w <<< 16 = w <<< 16 := by
  apply BitVec.eq_of_toNat_eq
  simp only [zextImm, fImm, bits, natBits, BitVec.toNat_shiftLeft, BitVec.toNat_ofNat, Nat.shiftLeft_eq]
  omega

theorem shiftBy_eq (k : Nat) (x : Word) (i : Nat) :
    shiftBy k x i = if k = 0 then x <<< i else if k = 1 then x >>> i else if k = 2 then x.sshiftRight i
      else x.rotateRight i := by
  match k with
  | 0 | 1 | 2 => rfl
  | k + 3 => simp [shiftBy]

/-- A field filled with zeros (BFX). -/
theorem takeField_zeros {v r : Word} {p k : Nat}
    (hr : ∀ i < 32, r.getLsbD i = (decide (i < k) && v.getLsbD (p + i))) : takeField v p k false = r := by
  refine BitVec.eq_of_getLsbD_eq fun i hi => ?_
  rw [hr i hi, takeField, BitVec.getLsbD_ofNat, decide_eq_true hi, Bool.true_and, ← bits_testBit]
  rfl

theorem bitAt_eq_testBit (x i : Nat) : bitAt x i = x.testBit i :=
  Nat.testBit_eq_decide_div_mod_eq.symm

/-- Ones above a number of `k` bits. -/
theorem testBit_ones_above {f k i : Nat} (hf : f < 2 ^ k) (hk : k ≤ 32) :
    (f + (2 ^ 32 - 2 ^ k)).testBit i = if i < k then f.testBit i else decide (i < 32) := by
  have hsplit : f + (2 ^ 32 - 2 ^ k) = 2 ^ k * (2 ^ (32 - k) - 1) + f := by
    rw [Nat.mul_sub, ← Nat.pow_add, Nat.add_sub_cancel' hk, Nat.mul_one, Nat.add_comm]
  rw [hsplit, Nat.testBit_two_pow_mul_add _ hf, Nat.testBit_two_pow_sub_one]
  split
  · rfl
  · exact decide_eq_decide.2 (by omega)

/-- A field filled with its sign (BFX with X = 1). -/
theorem takeField_sign {v r : Word} {p k : Nat} (hk : 0 < k) (hk32 : k ≤ 32)
    (hr : ∀ i < 32, r.getLsbD i = v.getLsbD (if i < k then p + i else p + k - 1)) : takeField v p k true = r := by
  have hsign : bitAt (bits v p k) (k - 1) = v.getLsbD (p + k - 1) := by
    rw [bitAt_eq_testBit, bits_testBit, decide_eq_true (by omega), Bool.true_and, Nat.add_sub_assoc hk]
  refine BitVec.eq_of_getLsbD_eq fun i hi => ?_
  rw [hr i hi, takeField, BitVec.getLsbD_ofNat, decide_eq_true hi, Bool.true_and, Bool.true_and, hsign]
  by_cases hs : v.getLsbD (p + k - 1) = true
  · rw [if_pos hs, testBit_ones_above (bits_lt ..) hk32, bits_testBit]
    split <;> simp [*]
  · rw [if_neg hs, bits_testBit]
    split <;> simp [*]

/-- The low bits of a word put into a field of another (BFI). -/
theorem putField_eq {old v r : Word} {p k : Nat} (hpk : p + k ≤ 32)
    (hr : ∀ i < 32, r.getLsbD i = if p ≤ i ∧ i < p + k then v.getLsbD (i - p) else old.getLsbD i) :
    putField old v p k = r := by
  refine BitVec.eq_of_getLsbD_eq fun i hi => ?_
  rw [hr i hi, BitVec.getLsbD, putField, setBits_toNat _ _ _ _ hpk, setBits_testBit]
  rfl

theorem immediates_holds : immediates := by
  intro s n w
  refine ⟨fun h => ?addi, fun h hrd => ?cmpi, fun h => ?andi, fun h => ?ori, fun h => ?xori, fun h hra => ?lui⟩
  case addi =>
    exact completes_of_onArch (exec_addi n s) (h.asRow rfl) rfl
      (congrArg (Arch.setReg · _ _) (setAdd_eq_sumFlags ..))
  case cmpi =>
    exact completes_of_onArch (exec_cmpi n s) (h.asRow rfl) (by simp [fRd, hrd])
      (setSub_eq_diffFlags ..)
  case andi =>
    exact completes_of_resZN (exec_andi n s) (h.asRow rfl) rfl
      (congrArg (ra s n w &&& ·) (zextImm_eq w))
  case ori =>
    exact completes_of_resZN (exec_ori n s) (h.asRow rfl) rfl
      (congrArg (ra s n w ||| ·) (zextImm_eq w))
  case xori =>
    exact completes_of_resZN (exec_xori n s) (h.asRow rfl) rfl
      (congrArg (ra s n w ^^^ ·) (zextImm_eq w))
  case lui =>
    exact completes_of_onArch (exec_lui n s) (h.asRow rfl) (by simp [fRa, hra])
      (congrArg (Arch.setReg _ _) (zextImm_shiftLeft w))

theorem shiftImmediate_holds : shiftImmediate := fun s n _ h hz =>
  completes_of_resZN (exec_shi n s) (h.asRow rfl) (by simp [hz]) (shiftBy_eq ..)

theorem bitFields_holds : bitFields := by
  rintro s n w r p k rfl rfl hpk
  refine ⟨fun h hx hr => ?zeros, fun h hx hr => ?sign, fun h hx hr => ?insert⟩
  case zeros =>
    have hfix : bits w 11 5 = 0 ∧ bits w 10 1 = 0 := by simp only [bits, natBits] at hx ⊢; omega
    exact completes_of_resZN (exec_bfx n s) (h.asRow rfl) (by simp [hfix, bfP, bfW, hpk])
      (by rw [hfix.2]; exact takeField_zeros hr)
  case sign =>
    have hfix : bits w 11 5 = 0 ∧ bits w 10 1 = 1 := by simp only [bits, natBits] at hx ⊢; omega
    exact completes_of_resZN (exec_bfx n s) (h.asRow rfl) (by simp [hfix, bfP, bfW, hpk])
      (by rw [hfix.2]; exact takeField_sign (Nat.succ_pos _) (Nat.le_trans (Nat.le_add_left ..) hpk) hr)
  case insert =>
    exact completes_of_resZN (exec_bfi n s) (h.asRow rfl) (by simp [hx, bfP, bfW, hpk])
      (putField_eq hpk hr)

/-- A bit field with a reserved bit set, or past bit 31. -/
theorem bitField_illegal {w : Word} {lo k : Nat} (hx : bits w lo k ≠ 0 ∨ 32 < bits w 0 5 + (bits w 5 5 + 1)) :
    (bits w lo k == 0 && decide (bfP w + bfW w ≤ 32)) = false := by
  rw [Bool.and_eq_false_iff, beq_eq_false_iff_ne, decide_eq_false_iff_not, Nat.not_le]
  exact hx

theorem immediatesReserved_holds : immediatesReserved := by
  intro s n w
  refine ⟨fun h hra => ?lui, fun h hrd => ?cmpi, fun h hx => ?shi, fun h hx => ?bfx, fun h hx => ?bfi⟩
  case lui => exact traps_of_illegal (exec_lui n s) (h.asRow rfl) (by simp [fRa, hra])
  case cmpi => exact traps_of_illegal (exec_cmpi n s) (h.asRow rfl) (by simp [fRd, hrd])
  case shi => exact traps_of_illegal (exec_shi n s) (h.asRow rfl) (by simp [hx])
  case bfx =>
    exact traps_of_illegal (exec_bfx n s) (h.asRow rfl)
      (bitField_illegal hx)
  case bfi =>
    exact traps_of_illegal (exec_bfi n s) (h.asRow rfl)
      (bitField_illegal hx)

/-- Settles O31: results by their bits, each row by the rule for an instruction on registers. -/
theorem immediatesCompute : Obligations.ImmediatesCompute :=
  ⟨immediates_holds, shiftImmediate_holds, bitFields_holds, immediatesReserved_holds⟩

/-! ## Descriptor words (R269) -/

/-- Word `k` of a number of 128 bits replaced. -/
theorem setDword_getLsbD (old : BitVec 128) (x : Word) {k i : Nat} (hi : i < 128) :
    (BitVec.ofNat 128 (old.toNat - natBits old.toNat (32 * k) 32 * 2 ^ (32 * k) + x.toNat * 2 ^ (32 * k))).getLsbD i =
      if i / 32 = k then x.getLsbD (i % 32) else old.getLsbD i := by
  have hbit := setBits_testBit old.toNat (32 * k) 32 x.toNat i
  rw [Nat.mod_eq_of_lt x.isLt] at hbit
  rw [BitVec.getLsbD_ofNat, decide_eq_true hi, Bool.true_and, hbit]
  by_cases hk : i / 32 = k
  · rw [if_pos hk, if_pos (by omega), show i - 32 * k = i % 32 by omega]; rfl
  · rw [if_neg hk, if_neg (by omega)]; rfl

theorem dword_eq_extract (a : Arch) (d k : Nat) : a.dword d k = (a.d.getD d 0).extractLsb' (32 * k) 32 := by
  apply BitVec.eq_of_toNat_eq
  rw [Arch.dword, BitVec.toNat_ofNat, BitVec.extractLsb'_toNat, Nat.shiftRight_eq_div_pow]

theorem descriptorWords_holds : descriptorWords := by
  rintro s n w d k rfl rfl ht hx -
  have hlegal : (fT w == 0 && bits w 2 13 == 0) = true := by simp [fT, ht, hx]
  refine ⟨fun h => ?mvd, fun h => ?mfd⟩
  case mvd =>
    exact ⟨_, fun i hi => setDword_getLsbD _ _ hi,
      completes_of_onArch (exec_mvd n s) (h.asRow rfl) hlegal rfl⟩
  case mfd =>
    exact completes_of_onArch (exec_mfd n s) (h.asRow rfl) hlegal
      (congrArg (Arch.setReg _ _) (dword_eq_extract ..))

theorem descriptorReserved_holds : descriptorReserved := by
  intro s n w hx
  have hillegal : (fT w == 0 && bits w 2 13 == 0) = false :=
    Bool.and_eq_false_iff.2 (hx.imp beq_eq_false_iff_ne.2 beq_eq_false_iff_ne.2)
  exact ⟨fun h => traps_of_illegal (exec_mvd n s) (h.asRow rfl) hillegal,
    fun h => traps_of_illegal (exec_mfd n s) (h.asRow rfl) hillegal⟩

/-- Settles O32, by the bits of a descriptor with one of its words replaced. -/
theorem descriptorWordsMoved : Obligations.DescriptorWordsMoved :=
  ⟨descriptorWords_holds, descriptorReserved_holds⟩

/-! ## Branches (R266) -/

theorem holds_eq_condition (a : Arch) {k : Nat} (hk : k < 15) : a.holds k = some (condition a k) := by
  have hne : (a.n != a.v) = decide (a.n ≠ a.v) := by cases a.n <;> cases a.v <;> rfl
  match k with
  | 0 | 1 | 2 | 3 | 4 | 5 | 6 | 7 | 8 | 9 | 10 | 12 | 14 => rfl
  | 11 => exact congrArg some hne
  | 13 => exact congrArg (fun b => some (a.z || b)) hne
  | k + 15 => omega

theorem branchTo_eq_target (s : State) (n : Fin 256) (w : Word) : branchTo (s.arch n.val).pc w = target s n w := by
  have hoff : (w.setWidth 20).toNat = fOff w := by simp [fOff, bits, natBits]
  rw [branchTo, target, BitVec.toInt_eq_toNat_cond, hoff]
  split <;> split <;> omega

/-- A word of a branch that breaks no constraint of its row. -/
theorem branch_legal {w : Word} (hz : bits w 20 2 = 0) (hc : bits w 22 4 < 15) :
    (bits w 20 2 == 0 && fCond w != 15) = true := by
  simp [hz, fCond, Nat.ne_of_lt hc]

theorem branches_holds : branches := by
  intro s n w hz hc
  have hcond : (s.arch n.val).holds (fCond w) = some (condition (s.arch n.val) (bits w 22 4)) := holds_eq_condition _ hc
  have hlegal := branch_legal hz hc
  have untaken (hf : condition (s.arch n.val) (bits w 22 4) = false) (x : Res) :
      (if (s.arch n.val).holds (fCond w) = some true then x else .next s) = .next s := by
    rw [hcond, hf, if_neg (by simp)]
  have taken (ht : condition (s.arch n.val) (bits w 22 4) = true) (u : State) :
      (if (s.arch n.val).holds (fCond w) = some true then takeBranch u (branchTo (s.arch n.val).pc w) else .next s) =
        takeBranch u (target s n w) := by
    rw [hcond, ht, if_pos rfl, branchTo_eq_target]
  refine ⟨fun h hf => ?bOn, fun h hf => ?blOn, fun h ht h0 h1 => ?b, fun h ht h0 h1 => ?bl, fun ht hout =>
    ⟨fun h => ?bOut, fun h => ?blOut⟩⟩
  case bOn => exact completes_of_next (exec_b n s) (h.asRow rfl) hlegal (untaken hf _) (archOnly_refl s n)
  case blOn => exact completes_of_next (exec_bl n s) (h.asRow rfl) hlegal (untaken hf _) (archOnly_refl s n)
  case b => exact jumps_of_takeBranch (exec_b n s) (h.asRow rfl) hlegal (taken ht _) (archOnly_refl s n) h0 h1
  case bl => exact jumps_of_takeBranch (exec_bl n s) (h.asRow rfl) hlegal (taken ht _) (archOnly_setArch s n _) h0 h1
  case bOut => exact traps_of_takeBranch (exec_b n s) (h.asRow rfl) hlegal (taken ht _) hout
  case blOut => exact traps_of_takeBranch (exec_bl n s) (h.asRow rfl) hlegal (taken ht _) hout

theorem branchesReserved_holds : branchesReserved := by
  intro s n w hx
  have hillegal : (bits w 20 2 == 0 && fCond w != 15) = false :=
    Bool.and_eq_false_iff.2 (hx.symm.imp beq_eq_false_iff_ne.2 bne_eq_false_iff_eq.2)
  exact ⟨fun h => traps_of_illegal (exec_b n s) (h.asRow rfl) hillegal,
    fun h => traps_of_illegal (exec_bl n s) (h.asRow rfl) hillegal⟩

/-- Settles O33: a branch taken or not by its condition, within the instruction memory or outside it. -/
theorem branchesTaken : Obligations.BranchesTaken :=
  ⟨branches_holds, branchesReserved_holds, registerJumps_holds⟩

/-! ## Data memory (R236, R262, R268) -/

theorem readMem_eq_map (m : List Host.Cell) (d : Byte) (a k : Nat) :
    readMem m d a k = (List.range k).map (fun i => mget m (a + i) d) := by
  induction k generalizing a with
  | zero => rfl
  | succ k ih =>
    simp only [readMem, ih, List.range_succ_eq_map, List.map_cons, List.map_map, Nat.add_zero, Function.comp_def,
      Nat.add_succ, Nat.succ_add]

theorem dmemRead_val (s : State) (n : Fin 256) (off k : Nat) :
    leNat (s.dmemRead (s.dataAt n.val off) k).1 = dataVal s n off k :=
  congrArg leNat (readMem_eq_map ..)

theorem dmemRead_meets (s : State) (p k : Nat) : (s.dmemRead p k).2 = true ↔ ∃ j < k, s.dmemEcc (p + j) = .ue := by
  simp [State.dmemRead]

theorem dmemMeets_eq_false {s : State} {p k : Nat}
    (h : ∀ j < k, s.dmemEcc (p + j) = .ue → p ≤ (p + j) / 8 * 8 ∧ (p + j) / 8 * 8 + 8 ≤ p + k) :
    s.dmemMeets p k = false := by
  simpa [State.dmemMeets] using h

/-- A removal gives its key the default. -/
theorem mget_mdel {α : Type} (m : SMap α) (k x : Nat) (d : α) :
    mget (mdel m k) x d = if k = x then d else mget m x d := by
  unfold mget
  split
  · next h => rw [h, mfind_mdel_same]; rfl
  · next h => rw [mfind_mdel_other m (Ne.symm h)]

/-- Keys removed one after the other, where a condition holds. -/
theorem mget_foldl_mdel {α : Type} (key : Nat → Nat) (cond : Nat → Prop) [DecidablePred cond] (l : List Nat)
    (m : SMap α) (x : Nat) (d : α) : mget (l.foldl (fun m i => if cond i then mdel m (key i) else m) m) x d =
      if ∃ i ∈ l, cond i ∧ key i = x then d else mget m x d := by
  induction l generalizing m with
  | nil => simp
  | cons i l ih =>
    simp only [List.foldl_cons, ih, List.mem_cons, or_and_right, exists_or, exists_eq_left]
    by_cases hc : cond i
    · by_cases hx : key i = x <;> simp [hc, hx, mget_mdel]
    · simp [hc]

theorem mwf_foldl_mdel {α : Type} [DecidableEq α] (key : Nat → Nat) (cond : Nat → Prop) [DecidablePred cond]
    (l : List Nat) {m : SMap α} {d : α} (h : mwf m d = true) :
    mwf (l.foldl (fun m i => if cond i then mdel m (key i) else m) m) d = true := by
  induction l generalizing m with
  | nil => exact h
  | cons i l ih =>
    rw [List.foldl_cons]
    split
    · exact ih (mwf_mdel _ h)
    · exact ih h

/-- The words that a store of `k` bytes at `p` covers are those that one of its bytes lies in and that lie within it. -/
theorem covers_iff {p k x : Nat} :
    (∃ i ∈ List.range k, (p ≤ (p + i) / 8 * 8 ∧ (p + i) / 8 * 8 + 8 ≤ p + k) ∧ (p + i) / 8 = x) ↔
      p ≤ 8 * x ∧ 8 * x + 8 ≤ p + k := by
  constructor
  · rintro ⟨i, -, hi, rfl⟩
    omega
  · intro h
    exact ⟨8 * x - p, List.mem_range.2 (by omega), by omega, by omega⟩

theorem dmemWrite_word (s : State) (p : Nat) (bs : List Byte) (x : Nat) :
    mget (s.dmemWrite p bs).dmemBad x .ok =
      if p ≤ 8 * x ∧ 8 * x + 8 ≤ p + bs.length then .ok else mget s.dmemBad x .ok := by
  rw [State.dmemWrite, mget_foldl_mdel (fun i => (p + i) / 8)]
  simp only [covers_iff]

theorem storedAt_dmemWrite (s : State) (p k v : Nat) : storedAt s (s.dmemWrite p (leBytes k v)) p k v := by
  have hlen := leBytes_length k v
  refine ⟨fun j hj => ?_, fun a ha => ?_, fun x hx => ?_, fun x hx => ?_, mwf_writeMem p _, mwf_foldl_mdel _ _ _⟩
  · exact (mget_writeMem_same p _ j (by rwa [hlen])).trans (by simp [leBytes_eq_map, List.getD, hj])
  · exact mget_writeMem_other p _ a (by rwa [hlen])
  · rw [dmemWrite_word, hlen, if_pos hx]
  · rw [dmemWrite_word, hlen, if_neg hx]

section traps

variable {s : State} {n off k al : Nat}

theorem dataTrap_range (h : s.dataSize n < off + k) : s.dataTrap n off k al = some (3, off) := if_pos h

theorem dataTrap_align (h : off + k ≤ s.dataSize n) (ha : off % al ≠ 0) :
    s.dataTrap n off k al = some (5, off) := by
  rw [State.dataTrap, if_neg (Nat.not_lt.2 h), if_pos ha]

theorem dataTrap_none (h : off + k ≤ s.dataSize n) (ha : off % al = 0) : s.dataTrap n off k al = none := by
  rw [State.dataTrap, if_neg (Nat.not_lt.2 h), if_neg (fun hne => hne ha)]

variable {w : Word} {found : Found} {put : State → Nat → State} {v : Nat} {t : Nat × Nat}

theorem load_trap (h : s.dataTrap n (memOff (s.arch n) w) k al = some t) :
    s.load n w k al found put = .trap t.1 t.2 := by
  simp only [State.load, h]

theorem load_clean (h : s.dataTrap n (memOff (s.arch n) w) k al = none)
    (hok : (s.dmemRead (s.dataAt n (memOff (s.arch n) w)) k).2 = false) : s.load n w k al .clean put =
      .next (put s (leNat (s.dmemRead (s.dataAt n (memOff (s.arch n) w)) k).1)) := by
  have hf : (Found.clean == Found.bad) = false := rfl
  simp only [State.load, h, hok, hf, Bool.or_self, Bool.false_eq_true, if_false]

theorem load_bad (h : s.dataTrap n (memOff (s.arch n) w) k al = none)
    (hbad : found = .bad ∨ (s.dmemRead (s.dataAt n (memOff (s.arch n) w)) k).2 = true) :
    s.load n w k al found put = .fail 4 (memOff (s.arch n) w)
      (fun u => u.dmemBadWord (s.courOf n) (s.dataAt n (memOff (s.arch n) w))) := by
  have hor : ((s.dmemRead (s.dataAt n (memOff (s.arch n) w)) k).2 || found == .bad) = true := by
    rcases hbad with rfl | hbad
    · exact Bool.or_true _
    · rw [hbad, Bool.true_or]
  simp only [State.load, h, hor, if_true]

theorem store_trap (h : s.dataTrap n (memOff (s.arch n) w) k al = some t) : s.store n w k al v = .trap t.1 t.2 := by
  simp only [State.store, h]

theorem store_next (h : s.dataTrap n (memOff (s.arch n) w) k al = none)
    (hok : s.dmemMeets (s.dataAt n (memOff (s.arch n) w)) k = false) :
    s.store n w k al v = .next (s.dmemWrite (s.dataAt n (memOff (s.arch n) w)) (leBytes k v)) := by
  simp only [State.store, h, hok, Bool.false_eq_true, if_false]

end traps

/-! ## Loads and stores (R268) -/

section rules

variable {n : Fin 256} {op : Op} {code k al slots : Nat} {legal : Word → Bool}

/-- A meaning that loads `k` bytes into its context's registers by `put` is a load. -/
theorem loads_of_load {i : Found → Instr} {put : Arch → Word → Nat → Arch}
    (he : ∀ f s, exec (i f) s = .next (s.issue n.val op slots legal (fun s w => s.load n.val w k al f
      (fun u v => u.setArch n.val (put (u.arch n.val) w v)))))
    (ho : opOf (BitVec.ofNat 32 (code * 2 ^ 26)) = some op) (hz : code ≠ 0)
    (hl : ∀ w, bits w 24 2 = 0 ∨ k < 16 → legal w = true) : loads i code k al slots put n := by
  rintro s w _ h hr rfl
  have hi := h.asRow ho hz
  have hlegal := hl w hr
  refine ⟨fun hin ha hok => ?clean, fun f hout => ?range, fun f hin ha => ?align, fun f hin ha hbad => ?bad⟩
  case clean =>
    have hread : (s.dmemRead (s.dataAt n.val (memAt s n w)) k).2 = false :=
      Bool.eq_false_iff.2 fun hue => by
        obtain ⟨j, hj, hue⟩ := (dmemRead_meets ..).1 hue
        exact hok j hj hue
    exact completes_of_next (he _ _) hi hlegal (load_clean (dataTrap_none hin ha) hread)
      (dmemRead_val s n (memAt s n w) k ▸ archOnly_setArch s n _)
  case range => exact traps_of_trap (he _ _) hi hlegal (load_trap (dataTrap_range hout))
  case align => exact traps_of_trap (he _ _) hi hlegal (load_trap (dataTrap_align hin ha))
  case bad =>
    rw [he, issue_fail hi hlegal (load_bad (dataTrap_none hin ha) (hbad.imp id (dmemRead_meets ..).2))]
    rfl

/-- A meaning that stores `k` bytes of a value is a store. -/
theorem stores_of_store {i : Instr} {val : State → Word → Nat}
    (he : ∀ s, exec i s = .next (s.issue n.val op slots legal (fun s w => s.store n.val w k al (val s w))))
    (ho : opOf (BitVec.ofNat 32 (code * 2 ^ 26)) = some op) (hz : code ≠ 0)
    (hl : ∀ w, bits w 24 2 = 0 ∨ k < 16 → legal w = true) : stores i code k al slots val n := by
  rintro s w _ h hr rfl
  have hi := h.asRow ho hz
  have hlegal := hl w hr
  refine ⟨fun hin ha hok => ?stored, fun hout => ?range, fun hin ha => ?align⟩
  case stored =>
    exact ⟨_, (he s).trans (congrArg _ (issue_next hi hlegal
        (store_next (dataTrap_none hin ha) (dmemMeets_eq_false hok)))),
      storedAt_dmemWrite s _ k (val s w), rfl, State.setArch_same .., fun _ hm => State.setArch_other _ _ hm⟩
  case range => exact traps_of_trap (he _) hi hlegal (store_trap (dataTrap_range hout))
  case align => exact traps_of_trap (he _) hi hlegal (store_trap (dataTrap_align hin ha))

end rules

/-- Bits [25:24] of a descriptor load or store are zero (R258, R268). -/
theorem descriptor_legal {w : Word} (h : bits w 24 2 = 0 ∨ 16 < 16) : (bits w 24 2 == 0) = true := by
  simpa using h

theorem dataLoaded_holds : dataLoaded := fun n =>
  ⟨loads_of_load (exec_ldw n) rfl (by decide) (fun _ _ => rfl),
    loads_of_load (exec_ldh n) rfl (by decide) (fun _ _ => rfl),
    loads_of_load (exec_ldb n) rfl (by decide) (fun _ _ => rfl),
    loads_of_load (exec_ldd n) rfl (by decide) (fun _ => descriptor_legal)⟩

theorem dataStored_holds : dataStored := fun n =>
  ⟨stores_of_store (exec_stw n) rfl (by decide) (fun _ _ => rfl),
    stores_of_store (exec_sth n) rfl (by decide) (fun _ _ => rfl),
    stores_of_store (exec_stb n) rfl (by decide) (fun _ _ => rfl),
    stores_of_store (exec_std n) rfl (by decide) (fun _ => descriptor_legal)⟩

theorem dataReserved_holds : dataReserved := by
  intro s n w f hx
  have hillegal : (bits w 24 2 == 0) = false := beq_eq_false_iff_ne.2 hx
  exact ⟨fun h => traps_of_illegal (exec_ldd n f s) (h.asRow rfl) hillegal,
    fun h => traps_of_illegal (exec_std n s) (h.asRow rfl) hillegal⟩

/-- Settles O34: each load and each store by one rule for its width, its alignment and its slots. -/
theorem dataMemoryAccessed : Obligations.DataMemoryAccessed :=
  ⟨dataLoaded_holds, dataStored_holds, dataReserved_holds⟩

end Sys2Proof.Claims

/-! PROOFS. Steps, the state after reset, and a device that does not run (R484 to R502): which commands a held or a
frozen device takes, and that a freeze keeps it as it stands. -/

namespace Sys2Proof.Claims

open Sys2Proof.Machine

/-! ## Every command answers (log 1) -/

/-- Every meaning answers a next state: none stops. -/
theorem exec_next (i : Instr) (s : State) : ∃ t, exec i s = .next t := by
  cases i <;> exact ⟨_, rfl⟩

theorem step_nil {s : State} (h : s.pending = []) : step s = .next s.tick := by
  simp only [step, h]

theorem step_cons {s : State} {i : Instr} {rest : List Instr} (h : s.pending = i :: rest) :
    step s = exec i { s with pending := rest } := by
  simp only [step, h]

/-- Settles O39, by the definition of a step. -/
theorem stepRunsFront : Obligations.StepRunsFront := fun _ _ _ h => step_cons h

/-- Settles O53: a step answers what its command, or a tick, answers. -/
theorem everyCommandCompletes : Obligations.EveryCommandCompletes := by
  refine ⟨exec_next, fun s => ?_⟩
  cases h : s.pending with
  | nil => exact ⟨_, step_nil h⟩
  | cons i rest => rw [step_cons h]; exact exec_next i _

/-! ## A device that does not run (R484, R498) -/

/-- No context issues an instruction while the device does not run. -/
theorem issue_idle {s : State} (h : s.power ≠ .run) (n : Nat) (op : Op) (slots : Nat) (legal : Word → Bool)
    (body : State → Word → Res) : s.issue n op slots legal body = s := by
  have hc : s.canIssue n = false := by simp [State.canIssue, h]
  simp [State.issue, hc]

/-- In a freeze a command of the AON domain acts by its second meaning. -/
theorem actAon_frozen {s : State} (h : s.power = .frozen) (f g : State → State) : s.actAon f g = .next (g s) := by
  simp [State.actAon, h]

/-- Held or frozen, a tick moves the clock of the AON domain alone (R484, R498). -/
theorem tick_idle {s : State} (h : s.power ≠ .run) : s.tick = { s with clk := s.clk + 10 } := by
  unfold State.tick
  split
  · contradiction
  · rfl

/-- Settles O42, by the way each command acts: as an instruction of a context, as a command of the AON domain, or as one
that acts while the device runs. -/
theorem heldIgnores : Obligations.HeldIgnores := by
  intro s i hr ha hf
  have hc (h : converts i) : s.power ≠ .frozen := fun e => hf e h
  cases i
  case add | sub | and | or | xor | shl | shr | sra | ror | mul | cmp | swap16 | swap32 | crc32c | jr | jalr | addi |
      andi | ori | xori | lui | cmpi | shi | bfx | bfi | ldw | ldh | ldb | stw | sth | stb | ldd | std | ldl | stl | b |
      bl | mvd | mfd | cyr | cyw | cywn | cyl | poll | trd | wait | msg | qput | qget | evt | time | budget | yield |
      trap | rett | sysr =>
    exact congrArg Host.Outcome.next (issue_idle hr ..)
  case holdupSenseSample | vinSenseSample | dieSensorSample =>
    exact congrArg Host.Outcome.next ((if_neg hr).trans (if_neg (hc (by simp [converts]))))
  case extest | samplePreload | idcode | freeze | frzRead | traceRead | frzScan | dbgAuth | dbgAccess | dbgRelock |
      lcReturn | bypass | freezeNFall | glitch | powerOn | resetPin | resetEnd | supplyOutOfRange | supplyInRange |
      trstNLow =>
    exact absurd (by simp [reachesAlways]) ha
  all_goals exact congrArg Host.Outcome.next (if_neg hr)

/-! ## A tick, and the state after reset (R492, R498) -/

/-- A port whose transmitters are off or quiet, and whose lanes generate no PRBS, sends nothing. -/
theorem portOut_silent {s : State} {p : Nat} (hl : (s.link p).phase = .off ∨ (s.link p).phase = .quiet)
    (hm : ∀ k ∈ [2 * p, 2 * p + 1], s.get (LN_CTL_MODE k) ≠ 1) : s.portOut p = s := by
  have hfold : [2 * p, 2 * p + 1].foldl (fun s k =>
      if s.get (LN_CTL_MODE k) = 1 ∧ s.on (LN_PRBS_GEN_EN k) then s.genOut k (s.get (LN_PRBS_PATTERN k)) else s) s = s := by
    simp [hm]
  unfold State.portOut
  rw [hfold]
  rcases hl with h | h <;> simp [State.phase, h]

/-- A device on which no port sends anything ticks by the passing of time alone. -/
theorem tick_silent {s : State} (hp : s.power = .run) (hl : ∀ p, (s.link p).phase = .off ∨ (s.link p).phase = .quiet)
    (hm : ∀ k < 10, s.get (LN_CTL_MODE k) ≠ 1) : s.tick = s.elapse 10 := by
  have hports : s.member.ports ≤ 5 := by cases s.member <;> decide
  have hfold : ∀ l : List Nat, (∀ p ∈ l, p < 5) →
      l.foldl (fun s p => State.portOut s p) (s.elapse 10) = s.elapse 10 := by
    intro l
    induction l with
    | nil => intro _; rfl
    | cons p l ih =>
      intro h
      have hp5 : p < 5 := h p List.mem_cons_self
      have hsilent : (s.elapse 10).portOut p = s.elapse 10 := by
        refine portOut_silent (by simpa using hl p) fun k hk => ?_
        rw [elapse_get]
        exact hm k (by simp at hk; omega)
      rw [List.foldl_cons, hsilent]
      exact ih fun q hq => h q (List.mem_cons_of_mem _ hq)
  simp only [State.tick, hp]
  exact hfold _ fun p hm => Nat.lt_of_lt_of_le (List.mem_range.1 hm) hports

/-- At the plain rate the time base advances by what passes (R492). -/
theorem elapse_now {s : State} (hh : s.tbHold = 0) (hs : s.tbSlew = 0) (hc : s.on CRP_REF_SSC = false)
    (hr : s.get CRP_TB_RATE_RATE = 0) : (s.elapse 10).now = s.now + 10 := by
  have hrate : s.rate = 0 := by simp [State.rate, hr]
  have hadv : s.tbAdvance 1 = 167772160 := by
    rw [State.tbAdvance, hrate, hc]
    decide
  have hk : (s.clk + 10) / 10 - s.clk / 10 = 1 := by omega
  have htb : (s.elapse 10).tb = s.tb + 10 * 2 ^ 24 := by
    simp only [State.elapse, hk, State.tbRun, if_pos hh, hadv, hs]
    exact congrArg (s.tb + ·) (by decide)
  rw [State.now, State.now, htb]
  omega

/-- Settles O40: a tick by whether the device runs, and the time base by the cycle that passes. -/
theorem idleTicks : Obligations.IdleTicks := by
  intro s hs
  rw [step_nil hs]
  refine ⟨fun hp => ?_, fun hp hl hm => ?_, fun _ hh hsl hc hr _ => elapse_now hh hsl hc hr⟩
  · rw [tick_idle hp]
  · rw [tick_silent hp hl hm]

/-- After reset only the history of reset causes differs from its reset value. -/
theorem reset_word {a : Nat} (h : a ≠ CRP_RST_HIST) : State.reset.word a = resetWord a := by
  simp [State.word, State.reset, mget, mfind, Ne.symm h]

/-- Settles O41, by the fields of the state after reset. -/
theorem resetLeaves : Obligations.ResetLeaves := by
  rintro s rfl
  exact ⟨rfl, rfl, rfl, rfl, rfl, rfl, by decide, rfl, by decide, by decide, fun _ => reset_word⟩

/-! ## A frozen device (R484 to R486) -/

/-- A device that differs from a frozen one only in what a freeze lets change is as it was frozen. -/
theorem keptFrozen_of_eq {s t : State} (hp : s.power = .frozen) (hq : ∀ i ∈ t.pending, ¬ endsFreeze i)
    (he : t = { s with regs := t.regs, tap := t.tap, out := t.out, clk := t.clk, nextFree := t.nextFree,
                       freezeHigh := t.freezeHigh, supOut := t.supOut, pending := t.pending,
                       sched := { s.sched with sensor := t.sched.sensor } })
    (hw : ∀ a, a ∉ aonRegs → t.word a = s.word a) : keptFrozen s t := by
  refine ⟨by rw [he]; exact hp, ?_, hw, hq⟩
  rw [← hp]
  exact he

theorem keptFrozen.trans {s t u : State} (h : keptFrozen s t) (k : keptFrozen t u) : keptFrozen s u := by
  obtain ⟨-, ht, hw, -⟩ := h
  obtain ⟨hp, hu, hv, hq⟩ := k
  refine ⟨hp, ?_, fun a ha => (hv a ha).trans (hw a ha), hq⟩
  rw [hu, ht]

section frozen

variable {s : State} (hp : s.power = .frozen) (hq : ∀ i ∈ s.pending, ¬ endsFreeze i)
include hp hq

theorem keptFrozen_refl : keptFrozen s s := keptFrozen_of_eq hp hq rfl fun _ _ => rfl

theorem keptFrozen_tap (t : Tap) : keptFrozen s { s with tap := t } := keptFrozen_of_eq hp hq rfl fun _ _ => rfl

/-- A register of the AON domain written. -/
theorem keptFrozen_put {f : FRef} (v : Nat) (hf : f.reg ∈ aonRegs) : keptFrozen s (s.put f v) :=
  keptFrozen_of_eq hp hq rfl fun _ ha => word_setWord_other s _ fun e => ha (e ▸ hf)

end frozen

/-- A code of the ADC stored with its extreme. -/
theorem keptFrozen_adcStore {s : State} (hp : s.power = .frozen) (hq : ∀ i ∈ s.pending, ¬ endsFreeze i) {c : Nat}
    (code : Nat) (hc : NRG_ADC c ∈ aonRegs) : keptFrozen s (s.adcStore c code) :=
  (keptFrozen_put hp hq (f := NRG_ADC_CODE c) _ hc).trans
    (keptFrozen_put (s := s.put (NRG_ADC_CODE c) code) hp hq (f := NRG_ADC_EXTREME c) _ hc)

/-- A JTAG instruction that a frozen device allows keeps it if what it does then keeps it. -/
theorem keptFrozen_jtag {s : State} (hp : s.power = .frozen) (hq : ∀ i ∈ s.pending, ¬ endsFreeze i) (code : Nat)
    {f : State → State} (hf : ∀ t : Tap, keptFrozen { s with tap := t } (f { s with tap := t })) :
    keptFrozen s (s.jtag code f) := by
  have hir : keptFrozen s (s.setIr code) := keptFrozen_tap hp hq _
  unfold State.jtag
  split
  · exact hir.trans (hf _)
  · exact hir

/-- A JTAG instruction of a running device selects BYPASS in a freeze. -/
theorem keptFrozen_blocked {s : State} (hp : s.power = .frozen) (hq : ∀ i ∈ s.pending, ¬ endsFreeze i) {code : Nat}
    {f : State → State} (hc : s.jtagAllows code = false) : keptFrozen s (s.jtag code f) := by
  rw [State.jtag, if_neg (by simp [hc])]
  exact keptFrozen_tap hp hq _

/-- What the TAP reads, shifts out and draws leaves the device as it stands. -/
theorem keptFrozen_read {s : State} (hp : s.power = .frozen) (hq : ∀ i ∈ s.pending, ¬ endsFreeze i) (t u : Tap) (k : Nat)
    (o : Out) : keptFrozen { s with tap := t } (State.emit { s with tap := u, nextFree := k } o) :=
  keptFrozen_of_eq hp hq rfl fun _ _ => rfl

theorem keptFrozen_frzRead {s : State} (hp : s.power = .frozen) (hq : ∀ i ∈ s.pending, ¬ endsFreeze i) (a : Nat) :
    keptFrozen s (s.frzRead a) := by
  refine keptFrozen_jtag hp hq _ fun t => ?_
  split <;> exact keptFrozen_read hp hq t _ _ _

theorem keptFrozen_sensor {s t : State} (h : keptFrozen s t) (k : Fin 4) :
    keptFrozen s { t with sched := { t.sched with sensor := k } } :=
  h.trans (keptFrozen_of_eq h.1 h.2.2.2 rfl fun _ _ => rfl)

/-- What a die sensor's conversion stores: codes of the AON domain, and which sensor is next (R303, R503). -/
theorem dieStore_eq (s : State) (code : Nat) : ∃ (v : Nat) (t : State),
    t = (s.adcStore (2 + s.sched.sensor.val) code).put NRG_TJ_CODE v ∧
      s.dieStore code = { t with sched := { t.sched with sensor := s.sched.sensor + 1 } } :=
  ⟨_, _, rfl, rfl⟩

theorem keptFrozen_dieStore {s : State} (hp : s.power = .frozen) (hq : ∀ i ∈ s.pending, ¬ endsFreeze i) (code : Nat) :
    keptFrozen s (s.dieStore code) := by
  have hm : ∀ k : Fin 4, NRG_ADC (2 + k.val) ∈ aonRegs := by decide
  obtain ⟨v, t, ht, hs⟩ := dieStore_eq s code
  have h := keptFrozen_adcStore hp hq code (hm s.sched.sensor)
  rw [hs]
  exact keptFrozen_sensor (ht ▸ h.trans (keptFrozen_put h.1 h.2.2.2 (f := NRG_TJ_CODE) v (by decide))) _

theorem keptFrozen_conversion {s : State} (hp : s.power = .frozen) (hq : ∀ i ∈ s.pending, ¬ endsFreeze i) {i : Instr}
    (hi : converts i) : ∃ t, exec i s = .next t ∧ keptFrozen s t := by
  rcases hi with ⟨c, rfl⟩ | ⟨c, rfl⟩ | ⟨c, rfl⟩
  · exact ⟨_, (exec_holdupSenseSample c s).trans (actAon_frozen hp _ _), keptFrozen_adcStore hp hq _ (by decide)⟩
  · exact ⟨_, (exec_vinSenseSample c s).trans (actAon_frozen hp _ _), keptFrozen_adcStore hp hq _ (by decide)⟩
  · exact ⟨_, (exec_dieSensorSample c s).trans (actAon_frozen hp _ _), keptFrozen_dieStore hp hq _⟩

/-- The JTAG instructions that a running device alone allows (R481). -/
theorem jtagAllows_frozen {s : State} (hp : s.power = .frozen) {code : Nat}
    (hc : code ∈ [jFreeze, jDbgAuth, jDbgAccess, jDbgRelock, jLcReturn]) : s.jtagAllows code = false := by
  simp only [List.mem_cons, List.not_mem_nil, or_false] at hc
  rcases hc with rfl | rfl | rfl | rfl | rfl <;> simp [State.jtagAllows, hp, jFreeze, jDbgAuth, jDbgRelock, jDbgAccess, jLcReturn, jExtest, jFrzRead,
    jTraceRead, jFrzScan, jSample, jIdcode]

/-- A command that reaches a frozen device and does not end the freeze keeps it as it stands. -/
theorem keptFrozen_always {s : State} (hp : s.power = .frozen) (hq : ∀ i ∈ s.pending, ¬ endsFreeze i) {i : Instr}
    (hi : reachesAlways i) (he : ¬ endsFreeze i) : ∃ t, exec i s = .next t ∧ keptFrozen s t := by
  have blocked {code : Nat} {f : State → State} (hc : code ∈ [jFreeze, jDbgAuth, jDbgAccess, jDbgRelock, jLcReturn]) :
      keptFrozen s (s.jtag code f) := keptFrozen_blocked hp hq (jtagAllows_frozen hp hc)
  rcases hi with ⟨c, rfl⟩ | ⟨c, rfl⟩ | rfl | rfl | ⟨a, rfl⟩ | ⟨n, w, rfl⟩ | rfl | ⟨k, g, rfl⟩ | ⟨n, a, w, v, rfl⟩ | rfl |
    rfl | rfl | rfl | ⟨k, rfl⟩ | rfl | rfl | ⟨a, b, rfl⟩ | ⟨k, rfl⟩ | ⟨k, rfl⟩ | rfl
  · exact ⟨_, exec_extest .., keptFrozen_jtag hp hq _ fun t => keptFrozen_read hp hq t _ _ _⟩
  · exact ⟨_, exec_samplePreload .., keptFrozen_jtag hp hq _ fun t => keptFrozen_read hp hq t _ _ _⟩
  · exact ⟨_, exec_idcode .., keptFrozen_jtag hp hq _ fun t => keptFrozen_read hp hq t _ _ _⟩
  · exact ⟨_, exec_freeze .., blocked (by decide)⟩
  · exact ⟨_, exec_frzRead .., keptFrozen_frzRead hp hq _⟩
  · exact ⟨_, exec_traceRead .., keptFrozen_jtag hp hq _ fun t => keptFrozen_read hp hq t _ _ _⟩
  · exact ⟨_, exec_frzScan .., keptFrozen_jtag hp hq _ fun t => keptFrozen_read hp hq t _ _ _⟩
  · exact ⟨_, exec_dbgAuth .., blocked (by decide)⟩
  · exact ⟨_, exec_dbgAccess .., blocked (by decide)⟩
  · exact ⟨_, exec_dbgRelock .., blocked (by decide)⟩
  · exact ⟨_, exec_lcReturn .., blocked (by decide)⟩
  · exact ⟨_, exec_bypass .., keptFrozen_tap hp hq _⟩
  · refine ⟨_, exec_freezeNFall s, ?_⟩
    rw [State.freezeFall, State.freeze, if_neg (by simp [hp])]
    exact keptFrozen_of_eq hp hq rfl fun _ _ => rfl
  · exact absurd (.inr (.inr ⟨k, rfl⟩)) he
  · exact absurd (.inl rfl) he
  · exact absurd (.inr (.inl rfl)) he
  · refine ⟨_, exec_resetEnd a b s, ?_⟩
    rw [State.resetEnd, if_neg (by simp [hp])]
    exact keptFrozen_refl hp hq
  · refine ⟨_, exec_supplyOutOfRange k s, keptFrozen_of_eq hp hq rfl ?_⟩
    exact (keptFrozen_put hp hq (f := CRP_SUP_LOW_LOW) _ (by decide)).2.2.1
  · refine ⟨_, exec_supplyInRange k s, ?_⟩
    rw [State.supplyIn, if_neg (by simp [hp])]
    exact keptFrozen_of_eq hp hq rfl fun _ _ => rfl
  · exact ⟨_, exec_trstNLow s, keptFrozen_tap hp hq _⟩

/-- A command that does not end the freeze keeps a frozen device as it stands. -/
theorem keptFrozen_exec {s t : State} (hp : s.power = .frozen) (hq : ∀ i ∈ s.pending, ¬ endsFreeze i) {i : Instr}
    (he : ¬ endsFreeze i) (h : exec i s = .next t) : keptFrozen s t := by
  by_cases ha : reachesAlways i
  · obtain ⟨u, hu, hk⟩ := keptFrozen_always hp hq ha he
    cases h.symm.trans hu; exact hk
  by_cases hc : converts i
  · obtain ⟨u, hu, hk⟩ := keptFrozen_conversion hp hq hc
    cases h.symm.trans hu; exact hk
  · cases h.symm.trans (heldIgnores s i (by simp [hp]) ha fun _ => hc)
    exact keptFrozen_refl hp hq

/-- Settles O43: a tick moves the clock of the AON domain alone, and a command keeps the device as it stands. -/
theorem frozenKept : Obligations.FrozenKept := by
  refine ⟨fun s hp hq => keptFrozen_refl hp hq, fun s₀ s t hk h => ?_⟩
  have hp : s.power = .frozen := hk.1
  have hq : ∀ i ∈ s.pending, ¬ endsFreeze i := hk.2.2.2
  refine hk.trans ?_
  cases hs : s.pending with
  | nil =>
    cases h.symm.trans (step_nil hs)
    rw [tick_idle (by simp [hp])]
    exact keptFrozen_of_eq hp hq rfl fun _ _ => rfl
  | cons i rest =>
    rw [hs] at hq
    rw [step_cons hs] at h
    have hr : keptFrozen s { s with pending := rest } :=
      keptFrozen_of_eq hp (fun j hj => hq j (List.mem_cons_of_mem _ hj)) rfl fun _ _ => rfl
    exact hr.trans (keptFrozen_exec hp hr.2.2.2 (hq i List.mem_cons_self) h)

end Sys2Proof.Claims

/-! PROOFS. Packets on a link (R29, R80, R81): the bytes of a packet read back, and the flits that whole packets fill. -/

namespace Sys2Proof.Claims

open Sys2Proof.Machine

/-! ## The bytes of a packet (R28) -/

theorem pktBytes_eq (k : Pkt) : pktBytes k =
    leBytes 4 k.h.w0.toNat ++ (leBytes 4 k.h.w1.toNat ++ (leBytes 4 k.h.w2.toNat ++ (leBytes 4 k.h.w3.toNat ++ k.data))) := by
  simp [pktBytes, Hdr.words]

theorem pktBytes_length (k : Pkt) : (pktBytes k).length = 16 + k.data.length := by
  simp only [pktBytes_eq, List.length_append, leBytes_length]
  omega

theorem ofNat_leNat_leBytes (w : Word) : BitVec.ofNat 32 (leNat (leBytes 4 w.toNat)) = w := by
  rw [leNat_leBytes, Nat.mod_eq_of_lt w.isLt, BitVec.ofNat_toNat, BitVec.setWidth_eq]

theorem leBytes_drop {n m x : Nat} (h : n ≤ m) : (leBytes n x).drop m = [] :=
  List.drop_eq_nil_of_le (by simpa using h)

/-- The header that a packet's bytes begin with. -/
theorem bytesHdr_pktBytes (k : Pkt) (bs : List Byte) : bytesHdr (pktBytes k ++ bs) = k.h := by
  simp [bytesHdr, pktBytes_eq, List.drop_append, leBytes_drop, ofNat_leNat_leBytes]

theorem pktBytes_drop (k : Pkt) : (pktBytes k).drop 16 = k.data := by
  simp [pktBytes_eq, List.drop_append, leBytes_drop]

/-- The word 0 of a header is read from four bytes. -/
theorem bytesHdr_w0 {k : Pkt} {bs r : List Byte} (h : pktBytes k = bs ++ r) (h4 : 4 ≤ bs.length) :
    bs.take 4 = leBytes 4 k.h.w0.toNat ∧ (bytesHdr bs).w0 = k.h.w0 := by
  have ht : bs.take 4 = leBytes 4 k.h.w0.toNat := by
    rw [← List.take_append_of_le_length h4 (l₂ := r), ← h, pktBytes_eq]
    exact List.take_left' (leBytes_length ..)
  refine ⟨ht, ?_⟩
  simp only [bytesHdr, Nat.mul_zero, List.drop_zero, ht, ofNat_leNat_leBytes]

/-- A header is read from sixteen bytes. -/
theorem bytesHdr_append {bs : List Byte} (r : List Byte) (h : 16 ≤ bs.length) : bytesHdr (bs ++ r) = bytesHdr bs := by
  have hw (i : Nat) (hi : i ≤ 12) : ((bs ++ r).drop i).take 4 = (bs.drop i).take 4 := by
    rw [List.drop_append_of_le_length (by omega), List.take_append_of_le_length (by simp; omega)]
  simp only [bytesHdr, hw 0 (by omega), hw (4 * 1) (by omega), hw (4 * 2) (by omega), hw (4 * 3) (by omega), Nat.mul_zero]

theorem leNat_zeros {bs : List Byte} (h : bs.all (· == 0) = true) : leNat bs = 0 := by
  induction bs with
  | nil => rfl
  | cons b bs ih =>
    simp only [List.all_cons, Bool.and_eq_true, beq_iff_eq] at h
    simp [leNat, h.1, ih h.2]

/-- No packet begins with four zero bytes: its TYPE is not zero (R31, R81). -/
theorem word0_not_zeros {k : Pkt} (hk : isType k.h.type = true) :
    (leBytes 4 k.h.w0.toNat).all (· == 0) = false := by
  rw [Bool.eq_false_iff]
  intro h
  have hw : k.h.w0 = 0 := by
    rw [← ofNat_leNat_leBytes k.h.w0, leNat_zeros h]
    rfl
  simp [Hdr.type, hw] at hk
  exact absurd hk (by decide)

/-! ## Reading packets (R81) -/

section reading

variable {k : Pkt} (hk : whole k) (f : Nat)
include hk

theorem pktBytes_whole : (pktBytes k).length = 16 + (if hasData k.h.type then k.h.len + 1 else 0) := by
  rw [pktBytes_length, hk.2]

/-- A packet that has arrived whole is read, and what follows it is read behind it. -/
theorem parsePkts_whole (bs : List Byte) : parsePkts (f + 1) (pktBytes k ++ bs) =
    ⟨k :: (parsePkts f bs).pkts, (parsePkts f bs).rest, (parsePkts f bs).bad⟩ := by
  have hlen := pktBytes_whole hk
  have hd := congrArg List.length (pktBytes_drop k)
  obtain ⟨hw, -⟩ := bytesHdr_w0 (k := k) (bs := pktBytes k) (r := []) (by simp) (by omega)
  have htake : (pktBytes k ++ bs).take 4 = leBytes 4 k.h.w0.toNat := by
    rw [List.take_append_of_le_length (by omega), hw]
  have hstart : (decide ((pktBytes k ++ bs).length < 4) || ((pktBytes k ++ bs).take 4).all (· == 0)) = false := by
    rw [htake, word0_not_zeros hk.1, Bool.or_false, decide_eq_false_iff_not, List.length_append]
    omega
  have htype : isType (bits k.h.w0 27 5) = true := hk.1
  rw [parsePkts]
  simp only [hstart, bytesHdr_pktBytes, htype, Bool.false_eq_true, if_false, Bool.not_true]
  rw [if_neg (by rw [List.length_append]; omega), List.drop_left' hlen, List.drop_append_of_le_length (by omega),
    pktBytes_drop, List.take_left' hk.2]

/-- A packet that has not arrived whole stays until it has. -/
theorem parsePkts_part {bs r : List Byte} (h : pktBytes k = bs ++ r) (hr : r ≠ []) (h4 : 4 ≤ bs.length) :
    parsePkts (f + 1) bs = ⟨[], bs, none⟩ := by
  obtain ⟨hw, h0⟩ := bytesHdr_w0 h h4
  have hlen := pktBytes_whole hk
  rw [h, List.length_append] at hlen
  have hpos : 0 < r.length := List.length_pos_iff.2 hr
  have hstart : (decide (bs.length < 4) || (bs.take 4).all (· == 0)) = false := by
    rw [hw, word0_not_zeros hk.1, Bool.or_false, decide_eq_false_iff_not]
    omega
  have htype : isType (bits (bytesHdr bs).w0 27 5) = true := h0 ▸ hk.1
  have hshort : bs.length < 16 + (if hasData (bytesHdr bs).type then (bytesHdr bs).len + 1 else 0) := by
    by_cases h16 : 16 ≤ bs.length
    · have hh : bytesHdr bs = k.h := by
        rw [← bytesHdr_append r h16, ← h, ← List.append_nil (pktBytes k), bytesHdr_pktBytes]
      rw [hh]
      omega
    · omega
  rw [parsePkts]
  simp only [hstart, htype, Bool.false_eq_true, if_false, Bool.not_true, if_pos hshort]

end reading

/-- Padding ends what a flit carries. -/
theorem parsePkts_padding (f m : Nat) : parsePkts (f + 1) (List.replicate m 0) = ⟨[], [], none⟩ := by
  have hend : (decide ((List.replicate m (0 : Byte)).length < 4) || ((List.replicate m (0 : Byte)).take 4).all (· == 0)) = true := by
    simp [List.take_replicate]
  rw [parsePkts, if_pos hend]

/-! ## Flits filled (R80) -/

/-- A link between flits: the bytes `rx` of a packet that has not arrived whole, and what waits to be sent of the packets
`left`, the first of them from where the last flit cut it. -/
def inFlight (rx : List Byte) (q : List (List Byte)) (left : List Pkt) : Prop :=
  rx = [] ∧ q = left.map pktBytes ∨
    ∃ k ks r, left = k :: ks ∧ r ≠ [] ∧ 4 ≤ rx.length ∧ pktBytes k = rx ++ r ∧ q = r :: ks.map pktBytes

/-- What a flit with `room` bytes left carries of packets that wait whole: it is full, its far end reads the packets that
end in it, and the rest is in flight; at most three of its bytes are lost to padding while packets wait. -/
theorem fillFlit_packets (ks : List Pkt) (hw : ∀ k ∈ ks, whole k) (f room : Nat) (hf : ks.length < f) :
    (fillFlit f room (ks.map pktBytes)).1.length = room ∧
    (fillFlit f room (ks.map pktBytes)).2.flatten.length ≤ (ks.map pktBytes).flatten.length - (room - 3) ∧
    ∃ got left rx, ks = got ++ left ∧ 16 * got.length ≤ room ∧ inFlight rx (fillFlit f room (ks.map pktBytes)).2 left ∧
      ∀ pf, got.length < pf → parsePkts pf (fillFlit f room (ks.map pktBytes)).1 = ⟨got, rx, none⟩ := by
  induction ks generalizing f room with
  | nil =>
    obtain ⟨f, rfl⟩ := Nat.exists_eq_add_one_of_ne_zero (Nat.ne_of_gt hf)
    refine ⟨by simp [fillFlit], by simp [fillFlit], [], [], [], rfl, by simp, .inl ⟨rfl, rfl⟩, fun pf hpf => ?_⟩
    obtain ⟨pf, rfl⟩ := Nat.exists_eq_add_one_of_ne_zero (Nat.ne_of_gt hpf)
    exact parsePkts_padding pf room
  | cons k ks ih =>
    obtain ⟨f, rfl⟩ := Nat.exists_eq_add_one_of_ne_zero (Nat.ne_of_gt (Nat.zero_lt_of_lt hf))
    have hk : whole k := hw k List.mem_cons_self
    have hlen : 16 ≤ (pktBytes k).length := by rw [pktBytes_length]; omega
    rw [List.map_cons, fillFlit]
    by_cases hroom : room < 4
    · rw [if_pos hroom]
      refine ⟨by simp, by simp [show room - 3 = 0 by omega], [], k :: ks, [], rfl, by simp, .inl ⟨rfl, rfl⟩, fun pf hpf => ?_⟩
      obtain ⟨pf, rfl⟩ := Nat.exists_eq_add_one_of_ne_zero (Nat.ne_of_gt hpf)
      exact parsePkts_padding pf room
    rw [if_neg hroom]
    by_cases hcut : room < (pktBytes k).length
    · rw [if_pos hcut]
      have hrest : (pktBytes k).drop room ≠ [] := by
        rw [Ne, List.drop_eq_nil_iff]
        omega
      have htake : ((pktBytes k).take room).length = room := by
        rw [List.length_take]
        omega
      have hsplit : pktBytes k = (pktBytes k).take room ++ (pktBytes k).drop room := (List.take_append_drop ..).symm
      refine ⟨htake, ?_, [], k :: ks, (pktBytes k).take room, rfl, by simp,
        .inr ⟨k, ks, _, rfl, hrest, by omega, hsplit, rfl⟩, fun pf hpf => ?_⟩
      · simp only [List.flatten_cons, List.length_append, List.length_drop]
        omega
      · obtain ⟨pf, rfl⟩ := Nat.exists_eq_add_one_of_ne_zero (Nat.ne_of_gt hpf)
        exact parsePkts_part hk pf hsplit hrest (Nat.le_trans (Nat.le_of_not_lt hroom) (Nat.le_of_eq htake.symm))
    · rw [if_neg hcut]
      obtain ⟨hfull, hleft, got, left, rx, hks, hgot, hin, hparse⟩ :=
        ih (fun j hj => hw j (List.mem_cons_of_mem _ hj)) f (room - (pktBytes k).length)
          (by simpa using hf)
      refine ⟨by simp only [List.length_append, hfull]; omega, ?_, k :: got, left, rx, by rw [hks]; rfl,
        by rw [List.length_cons]; omega, hin, fun pf hpf => ?_⟩
      · simp only [List.flatten_cons, List.length_append]
        omega
      · obtain ⟨pf, rfl⟩ := Nat.exists_eq_add_one_of_ne_zero (Nat.ne_of_gt (Nat.zero_lt_of_lt hpf))
        rw [parsePkts_whole hk, hparse pf (by simpa using hpf)]

/-- What the next flit of a link carries, and what its far end then has: the packets that end in the flit are read, and
the rest is in flight. -/
theorem fillFlit_inFlight {rx : List Byte} {q : List (List Byte)} {ks : List Pkt} (hw : ∀ k ∈ ks, whole k)
    (h : inFlight rx q ks) :
    (fillFlit (q.length + 1) 58 q).1.length = 58 ∧
    (fillFlit (q.length + 1) 58 q).2.flatten.length ≤ q.flatten.length - 55 ∧
    ∃ got left rx', ks = got ++ left ∧ inFlight rx' (fillFlit (q.length + 1) 58 q).2 left ∧
      parsePkts 16 (rx ++ (fillFlit (q.length + 1) 58 q).1) = ⟨got, rx', none⟩ := by
  rcases h with ⟨rfl, rfl⟩ | ⟨k, ks, r, rfl, hr, h4, hk, rfl⟩
  · obtain ⟨hfull, hleft, got, left, rx, hks, hgot, hin, hparse⟩ :=
      fillFlit_packets ks hw ((ks.map pktBytes).length + 1) 58 (by simp)
    exact ⟨hfull, hleft, got, left, rx, hks, hin, hparse 16 (by omega)⟩
  · have hwk : whole k := hw k List.mem_cons_self
    rw [List.length_cons, fillFlit, if_neg (by omega)]
    by_cases hcut : 58 < r.length
    · rw [if_pos hcut]
      have hrest : r.drop 58 ≠ [] := by
        rw [Ne, List.drop_eq_nil_iff]
        omega
      have hsplit : pktBytes k = (rx ++ r.take 58) ++ r.drop 58 := by
        rw [List.append_assoc, List.take_append_drop, hk]
      have hlong : 4 ≤ (rx ++ r.take 58).length := by
        rw [List.length_append]
        omega
      refine ⟨by rw [List.length_take]; omega, ?_, [], k :: ks, rx ++ r.take 58, rfl,
        .inr ⟨k, ks, _, rfl, hrest, hlong, hsplit, rfl⟩, parsePkts_part hwk 15 hsplit hrest hlong⟩
      simp only [List.flatten_cons, List.length_append, List.length_drop]
      omega
    · rw [if_neg hcut]
      obtain ⟨hfull, hleft, got, left, rx', hks, hgot, hin, hparse⟩ := fillFlit_packets ks
        (fun j hj => hw j (List.mem_cons_of_mem _ hj)) ((ks.map pktBytes).length + 1) (58 - r.length) (by simp)
      refine ⟨by simp only [List.length_append, hfull]; omega, ?_, k :: got, left, rx', by rw [hks]; rfl, hin, ?_⟩
      · simp only [List.flatten_cons, List.length_append]
        omega
      · rw [← List.append_assoc, ← hk, parsePkts_whole hwk 15, hparse 15 (by omega)]

/-- What the next `n` flits carry of packets in flight, and what their far end then has. -/
theorem payloads_inFlight (n : Nat) {rx : List Byte} {q : List (List Byte)} {ks : List Pkt} (hw : ∀ k ∈ ks, whole k)
    (h : inFlight rx q ks) :
    (∀ p ∈ (payloads n q).1, p.length = 58) ∧ (payloads n q).2.flatten.length ≤ q.flatten.length - 55 * n ∧
    ∃ got left rx', ks = got ++ left ∧ inFlight rx' (payloads n q).2 left ∧ heard rx (payloads n q).1 = (got, rx', true) := by
  induction n generalizing rx q ks with
  | zero => exact ⟨by simp [payloads], by simp [payloads], [], ks, rx, rfl, h, rfl⟩
  | succ n ih =>
    obtain ⟨hfull, hless, got, left, rx', hks, hin, hparse⟩ := fillFlit_inFlight hw h
    obtain ⟨hfull', hless', got', left', rx'', hks', hin', hheard⟩ := ih (fun k hk => hw k (by simp [hks, hk])) hin
    refine ⟨?_, ?_, got ++ got', left', rx'', by rw [hks, hks', List.append_assoc], hin', ?_⟩
    · rw [payloads]
      exact List.forall_mem_cons.2 ⟨hfull, hfull'⟩
    · rw [payloads]
      exact Nat.le_trans hless' (by omega)
    · rw [payloads, heard]
      simp [hparse, hheard]

/-- The bytes in flight are those of the packets left. -/
theorem inFlight_bytes {rx : List Byte} {q : List (List Byte)} {ks : List Pkt} (h : inFlight rx q ks) :
    rx ++ q.flatten = (ks.map pktBytes).flatten := by
  rcases h with ⟨rfl, rfl⟩ | ⟨k, ks, r, rfl, -, -, hk, rfl⟩
  · rfl
  · simp [hk]

/-- With no byte left to be sent nothing is in flight. -/
theorem inFlight_done {rx : List Byte} {q : List (List Byte)} {ks : List Pkt} (h : inFlight rx q ks)
    (hq : q.flatten.length = 0) : rx = [] ∧ q = [] ∧ ks = [] := by
  rcases h with ⟨rfl, rfl⟩ | ⟨k, ks, r, rfl, hr, -, -, rfl⟩
  · cases ks with
    | nil => exact ⟨rfl, rfl, rfl⟩
    | cons k ks =>
      simp only [List.map_cons, List.flatten_cons, List.length_append, pktBytes_length] at hq
      omega
  · have := List.length_pos_iff.2 hr
    simp only [List.flatten_cons, List.length_append] at hq
    omega

/-- Settles O45: flit by flit, what the far end has read and what is in flight make up what was to be sent. -/
theorem packetsCrossLinks : Obligations.PacketsCrossLinks := by
  intro ks hw n ps q hpq
  obtain ⟨hfull, hless, got, left, rx, hks, hin, hheard⟩ := payloads_inFlight n hw (.inl ⟨rfl, rfl⟩)
  rw [hpq] at hfull hless hin hheard
  refine ⟨hfull, ⟨got, left, rx, hks, hheard, inFlight_bytes hin⟩, fun hn => ?_⟩
  obtain ⟨rfl, rfl, rfl⟩ := inFlight_done hin (by omega)
  rw [hks, List.append_nil]
  exact ⟨rfl, hheard⟩

end Sys2Proof.Claims

/-! PROOFS. Encodings: packet headers (R28), the fields of registers (R7, R9, R436), the word registers of a context
(R235) and the digest (R108). -/

namespace Sys2Proof.Claims

open Sys2Proof.Machine

/-! ## The header (R28) -/

/-- A truth value that a bit of a word holds, as a number. -/
theorem ofBool_bit (x : Word) (i : Nat) : ofBool (bits x i 1 == 1) = bits x i 1 := by
  have h := bits_lt x i 1
  rcases (show bits x i 1 = 0 ∨ bits x i 1 = 1 by omega) with e | e <;> rw [e] <;> rfl

theorem headerLaid_holds : headerLaid := by
  intro h
  have h0 := h.w0.isLt
  have h1 := h.w1.isLt
  have h2 := h.w2.isLt
  have h3 := h.w3.isLt
  simp only [Hdr.type, Hdr.vc, Hdr.voted, Hdr.ctx, Hdr.seq, Hdr.tag, Hdr.len, Hdr.op, Hdr.fence, Hdr.addr, Hdr.origin,
    Hdr.event, ofBool_bit]
  simp only [bits, natBits]
  omega

section built
variable (type vc ctx seq tag len op addr origin event : Nat) (voted : Bool)

theorem mkHdr_w3 : (mkHdr type vc voted ctx seq tag len op addr origin event).w3 =
    BitVec.ofNat 32 (origin % 16 * 2 ^ 28 + event % 512 * 2 ^ 16) := rfl

theorem mkHdr_seq : (mkHdr type vc voted ctx seq tag len op addr origin event).seq = seq % 65536 := by
  unfold Hdr.seq bits natBits
  rw [mkHdr_w0, BitVec.toNat_ofNat]
  omega

theorem mkHdr_tag : (mkHdr type vc voted ctx seq tag len op addr origin event).tag = tag % 1024 := by
  unfold Hdr.tag bits natBits
  rw [mkHdr_w1, BitVec.toNat_ofNat]
  omega

theorem mkHdr_op : (mkHdr type vc voted ctx seq tag len op addr origin event).op = op % 16 := by
  unfold Hdr.op bits natBits
  rw [mkHdr_w1, BitVec.toNat_ofNat]
  omega

theorem mkHdr_fence : (mkHdr type vc voted ctx seq tag len op addr origin event).fence = false := by
  unfold Hdr.fence bits natBits
  rw [mkHdr_w1, BitVec.toNat_ofNat, beq_eq_false_iff_ne]
  omega

theorem mkHdr_origin : (mkHdr type vc voted ctx seq tag len op addr origin event).origin = origin % 16 := by
  unfold Hdr.origin bits natBits
  rw [mkHdr_w3, BitVec.toNat_ofNat]
  omega

theorem mkHdr_event : (mkHdr type vc voted ctx seq tag len op addr origin event).event = event % 512 := by
  unfold Hdr.event bits natBits
  rw [mkHdr_w3, BitVec.toNat_ofNat]
  omega

/-- What the last word of a built header holds besides ORIGIN and EVENT is zero. -/
theorem mkHdr_w3_reserved : bits (mkHdr type vc voted ctx seq tag len op addr origin event).w3 25 3 = 0 ∧
    bits (mkHdr type vc voted ctx seq tag len op addr origin event).w3 0 16 = 0 := by
  unfold bits natBits
  rw [mkHdr_w3, BitVec.toNat_ofNat]
  omega

end built

theorem headerBuilt_holds : headerBuilt := by
  rintro type vc voted ctx seq tag len op addr origin event h rfl htype hvc hctx hseq htag hlen hop haddr horigin hevent
  refine ⟨?_, ?_, mkHdr_voted .., ?_, ?_, ?_, ?_, ?_, ?_, ?_, ?_, mkHdr_fence .., mkHdr_w3_reserved ..⟩
  · exact (mkHdr_type ..).trans (Nat.mod_eq_of_lt htype)
  · exact (mkHdr_vc ..).trans (Nat.mod_eq_of_lt hvc)
  · exact (mkHdr_ctx ..).trans (Nat.mod_eq_of_lt hctx)
  · exact (mkHdr_seq ..).trans (Nat.mod_eq_of_lt hseq)
  · exact (mkHdr_tag ..).trans (Nat.mod_eq_of_lt htag)
  · exact (mkHdr_len ..).trans (Nat.mod_eq_of_lt hlen)
  · exact (mkHdr_op ..).trans (Nat.mod_eq_of_lt hop)
  · exact (mkHdr_addr ..).trans (Nat.mod_eq_of_lt haddr)
  · exact (mkHdr_origin ..).trans (Nat.mod_eq_of_lt horigin)
  · exact (mkHdr_event ..).trans (Nat.mod_eq_of_lt hevent)

/-- Reading a list of two parts at a place of the first. -/
theorem getD_append_of_lt {α : Type} {l : List α} (r : List α) (d : α) {n : Nat} (h : n < l.length) :
    (l ++ r).getD n d = l.getD n d := by
  rw [List.getD_eq_getElem?_getD, List.getElem?_append_left h, ← List.getD_eq_getElem?_getD]

/-- Reading a list of two parts at a place of the second. -/
theorem getD_append_of_le {α : Type} {l : List α} (r : List α) (d : α) {n : Nat} (h : l.length ≤ n) :
    (l ++ r).getD n d = r.getD (n - l.length) d := by
  rw [List.getD_eq_getElem?_getD, List.getElem?_append_right h, ← List.getD_eq_getElem?_getD]

/-- Byte `i` of four words, each least significant byte first. -/
theorem flatMap_leBytes_getD (ws : List Word) (r : List Byte) (i : Nat) (h : i < 4 * ws.length) :
    (ws.flatMap (fun w => leBytes 4 w.toNat) ++ r).getD i 0 =
      BitVec.ofNat 8 ((ws.getD (i / 4) 0).toNat / 256 ^ (i % 4)) := by
  induction ws generalizing i with
  | nil => simp at h
  | cons w ws ih =>
    rw [List.flatMap_cons, List.append_assoc]
    by_cases hi : i < 4
    · rw [getD_append_of_lt _ _ (by simpa using hi), leBytes_eq_map, Nat.div_eq_of_lt hi, Nat.mod_eq_of_lt hi]
      simp [hi]
    · rw [getD_append_of_le _ _ (by simpa using hi), leBytes_length, ih _ (by rw [List.length_cons] at h; omega)]
      have hdiv : i / 4 = (i - 4) / 4 + 1 := by omega
      rw [hdiv, List.getD_cons_succ, show (i - 4) % 4 = i % 4 by omega]

theorem headerBytes_holds : headerBytes := by
  intro k i
  refine ⟨fun h => flatMap_leBytes_getD k.h.words k.data i (by simpa [Hdr.words] using h), fun h => ?_⟩
  rw [← pktBytes_drop k]
  simp [List.getD_eq_getElem?_getD, List.getElem?_drop, h]

/-- Settles O44: each field read from the word that holds it, and each byte from the word it is of. -/
theorem headerLaidOut : Obligations.HeaderLaidOut :=
  ⟨headerLaid_holds, headerBuilt_holds, headerBytes_holds⟩

/-! ## Word registers (R235, R257) -/

theorem wordRegisters_hold : wordRegisters := by
  intro a r q v hw hr hq
  refine ⟨rfl, ?_⟩
  unfold Arch.setReg
  split
  case isTrue h => exact ⟨by simp only [Arch.reg, h]; split <;> simp [*], hw, rfl, rfl, rfl, rfl, rfl, rfl, rfl⟩
  case isFalse h =>
    refine ⟨?_, by simpa using hw, rfl, rfl, rfl, rfl, rfl, rfl, rfl⟩
    simp only [Arch.reg]
    by_cases hqr : q = r
    · simp [hqr, h, hw, hr]
    · by_cases hq0 : q = 0 <;> simp [hqr, Ne.symm hqr, hq0]

/-- Settles O51: a write replaces its own register, and none is w0's. -/
theorem wordRegistersRead : Obligations.WordRegisters := wordRegisters_hold

/-! ## The digest (R108) -/

theorem crc64Bit_eq_digestBit (c : BitVec 64) : crc64Bit c = digestBit c := by
  simp [crc64Bit, digestBit, BitVec.msb_eq_getLsbD_last]

/-- A function applied `n` times, as a fold. -/
theorem iter_eq_foldl {α : Type} (f : α → α) (n : Nat) (x : α) : iter f n x = (List.range n).foldl (fun c _ => f c) x := by
  induction n generalizing x with
  | zero => rfl
  | succ n ih => rw [iter, ih, List.range_succ_eq_map, List.foldl_cons, List.foldl_map]

theorem byte_at_top (b : Byte) : BitVec.ofNat 64 (b.toNat * 2 ^ 56) = b.setWidth 64 <<< 56 := by
  apply BitVec.eq_of_toNat_eq
  have := b.isLt
  simp only [BitVec.toNat_ofNat, BitVec.toNat_shiftLeft, BitVec.toNat_setWidth, Nat.shiftLeft_eq]
  omega

/-- Settles O52: the digest of one more byte is eight bit steps on the digest of the others. -/
theorem digestComputed : Obligations.DigestComputed := by
  refine ⟨rfl, fun bs b => ?_, by decide +kernel⟩
  rw [crc64, List.foldl_append, List.foldl_cons, List.foldl_nil, iter_eq_foldl, byte_at_top, funext crc64Bit_eq_digestBit]
  rfl

/-! ## The fields of registers (R7, R9, R436) -/

/-- A field's bounds fit it; the mask of a masked one lies in the upper half of the word. -/
def fieldFits (f : FRow) : Bool :=
  (f.acc != .rw || decide (f.min ≤ f.max ∧ f.max < 2 ^ f.w)) && (f.acc != .rwm || decide (f.lo + 16 + f.w ≤ 32))

/-- The fields of a register share no bit and fit. -/
def rowFits (r : RRow) : Bool := tidy r.fields && decide r.fields.Nodup && r.fields.all fieldFits

theorem blockRegs_fit (k : Nat) : (blockRegs k).all rowFits = true := by
  have h : ∀ k < 23, (blockRegs k).all rowFits = true := by decide +kernel
  by_cases hk : k < 23
  · exact h k hk
  · obtain ⟨j, rfl⟩ := Nat.exists_eq_add_of_le (Nat.le_of_not_lt hk)
    rw [Nat.add_comm]
    rfl

theorem fieldsOf_fit (a : Nat) : tidy (fieldsOf a) = true ∧ (fieldsOf a).Nodup ∧ ∀ f ∈ fieldsOf a, fieldFits f = true := by
  unfold fieldsOf
  split
  case h_1 r hr =>
    have h := List.all_eq_true.1 (blockRegs_fit _) r (List.mem_of_find?_eq_some hr)
    simp only [rowFits, Bool.and_eq_true, decide_eq_true_eq, List.all_eq_true] at h
    obtain ⟨⟨ht, hn⟩, hf⟩ := h
    exact ⟨ht, hn, hf⟩
  case h_2 => exact ⟨rfl, List.nodup_nil, by simp⟩

/-- A number less the bits that it shares with another. -/
theorem testBit_sub_land (a b i : Nat) : (a - a.land b).testBit i = (a.testBit i && !b.testBit i) := by
  change (a - (a &&& b)).testBit i = _
  have hle : a &&& b ≤ a := Nat.and_le_left
  have hhalf : (a &&& b) / 2 = a / 2 &&& b / 2 := Nat.and_div_two
  have hlow : (a &&& b) % 2 = if a % 2 = 1 ∧ b % 2 = 1 then 1 else 0 := by
    have h := Nat.testBit_and a b 0
    simp only [Nat.testBit_zero] at h
    split <;> grind
  induction i generalizing a b with
  | zero =>
    simp only [Nat.testBit_zero]
    split at hlow <;> grind
  | succ i ih =>
    have hsub : (a - (a &&& b)) / 2 = a / 2 - (a / 2 &&& b / 2) := by
      rw [← hhalf]
      split at hlow <;> omega
    rw [Nat.testBit_succ, Nat.testBit_succ, Nat.testBit_succ, hsub]
    refine ih _ _ Nat.and_le_left Nat.and_div_two ?_
    have h := Nat.testBit_and (a / 2) (b / 2) 0
    simp only [Nat.testBit_zero] at h
    split <;> grind

theorem clampTo_eq {lo hi : Nat} (h : lo ≤ hi) (n : Nat) : clampTo lo hi n = max lo (min hi n) := by
  unfold clampTo
  split
  · omega
  · split <;> omega

theorem fieldsWritten_holds : fieldsWritten := by
  rintro a old v new rfl g hg
  obtain ⟨ht, hn, hfit⟩ := fieldsOf_fit a
  have hbits := fieldsNext_bits (fieldsOf a) old v ht hn g hg
  have hfit := hfit g hg
  have hlt (x : Word) (lo : Nat) : bits x lo g.w % 2 ^ g.w = bits x lo g.w := Nat.mod_eq_of_lt (bits_lt ..)
  simp only [fieldFits, Bool.and_eq_true, Bool.or_eq_true, bne_iff_ne, ne_eq, decide_eq_true_eq] at hfit
  have hbit (i : Nat) (hi : i < g.w) (x : Word) (lo : Nat) : x.getLsbD (lo + i) = (bits x lo g.w).testBit i := by
    rw [bits_testBit, decide_eq_true hi, Bool.true_and]
  refine ⟨?kept, fun h => ?wo, fun h => ?rw, fun i hi => ⟨fun h => ?w1c, fun h => ?w1s, fun h => ?rwm⟩⟩
  case kept =>
    rintro (h | h) <;> rw [hbits, FRow.next, h] <;> exact hlt ..
  case wo =>
    rw [hbits, FRow.next, h]
    exact hlt ..
  case rw =>
    obtain ⟨hmin, hmax⟩ := hfit.1.resolve_left (fun hne => hne h)
    rw [hbits, FRow.next, h]
    dsimp only
    rw [clampTo_eq hmin, Nat.mod_eq_of_lt (by omega)]
  case w1c =>
    rw [hbit i hi, hbit i hi, hbit i hi, hbits, FRow.next, h]
    simp only [Nat.testBit_mod_two_pow, testBit_sub_land, decide_eq_true hi, Bool.true_and]
  case w1s =>
    rw [hbit i hi, hbit i hi, hbit i hi, hbits, FRow.next, h]
    simp only [Nat.testBit_mod_two_pow, decide_eq_true hi, Bool.true_and]
    exact Nat.testBit_or ..
  case rwm =>
    rw [hbit i hi, hbit i hi, hbit i hi, hbit i hi, hbits, FRow.next, h]
    have hor := Nat.testBit_or (bits old g.lo g.w - (bits old g.lo g.w).land (bits v (g.lo + 16) g.w))
      (bits v g.lo g.w &&& bits v (g.lo + 16) g.w) i
    rw [testBit_sub_land, Nat.testBit_and] at hor
    rw [Nat.testBit_mod_two_pow, decide_eq_true hi, Bool.true_and]
    refine hor.trans ?_
    cases (bits v (g.lo + 16) g.w).testBit i <;> simp

theorem setBits_getLsbD_other (x : Word) {lo w v i : Nat} (h : lo + w ≤ 32) (hi : i < lo ∨ lo + w ≤ i) :
    (setBits x lo w v).getLsbD i = x.getLsbD i := by
  rw [← BitVec.testBit_toNat, setBits_toNat _ _ _ _ h, setBits_testBit, if_neg (by omega), BitVec.testBit_toNat]

theorem restKept_holds : restKept := by
  intro a old v i _ hout
  obtain ⟨ht, -, -⟩ := fieldsOf_fit a
  have hfits (f : FRow) (hf : f ∈ fieldsOf a) : f.lo + f.w ≤ 32 := tidy_fits ht hf
  have key : ∀ (fs : List FRow) (x : Word), (∀ f ∈ fs, f.lo + f.w ≤ 32 ∧ (i < f.lo ∨ f.lo + f.w ≤ i)) →
      (fs.foldl (fun w f => setBits w f.lo f.w
        (f.next (bits old f.lo f.w) (bits v f.lo f.w) (bits v (f.lo + 16) f.w))) x).getLsbD i = x.getLsbD i := by
    intro fs
    induction fs with
    | nil => exact fun _ _ => rfl
    | cons f fs ih =>
      intro x h
      obtain ⟨hf, hi⟩ := h f List.mem_cons_self
      rw [List.foldl_cons, ih _ (fun g hg => h g (List.mem_cons_of_mem _ hg)), setBits_getLsbD_other x hf hi]
  exact key _ old (fun f hf => ⟨hfits f hf, hout f hf⟩)

/-- Settles O46: fields share no bit, so each holds what its own access code makes of it. -/
theorem fieldsWrittenByAccess : Obligations.FieldsWritten := ⟨fieldsWritten_holds, restKept_holds⟩

end Sys2Proof.Claims

/-! PROOFS. Lane words: symbols and the precoder (R64 to R67), flits on lanes (R79), training words (R72, R76). -/

namespace Sys2Proof.Claims

open Sys2Proof.Machine

/-! ## Symbols and the precoder (R64 to R67) -/

theorem grayOf_other {x : Nat} (h2 : x ≠ 2) (h3 : x ≠ 3) : grayOf x = x := by
  rw [grayOf, if_neg h2, if_neg h3]

theorem grayOf_grayOf (x : Nat) : grayOf (grayOf x) = x := by
  by_cases h2 : x = 2
  · exact h2 ▸ rfl
  by_cases h3 : x = 3
  · exact h3 ▸ rfl
  rw [grayOf_other h2 h3, grayOf_other h2 h3]

theorem grayOf_lt {x : Nat} (h : x < 4) : grayOf x < 4 :=
  (by decide : ∀ x < 4, grayOf x < 4) x h

theorem map_grayOf_grayOf (ps : List Nat) : (ps.map grayOf).map grayOf = ps := by
  rw [List.map_map, show grayOf ∘ grayOf = id from funext grayOf_grayOf, List.map_id]

theorem map_grayOf_lt {ps : List Nat} (h : ∀ x ∈ ps, x < 4) : ∀ x ∈ ps.map grayOf, x < 4 := by
  simpa using fun x hx => grayOf_lt (h x hx)

theorem precodeLevels_length (p : Nat) (ls : List Nat) : (precodeLevels p ls).1.length = ls.length := by
  induction ls generalizing p with
  | nil => rfl
  | cons l ls ih => simp [precodeLevels, ih]

theorem precodeLevels_lt (p : Nat) (ls : List Nat) : ∀ q ∈ (precodeLevels p ls).1, q < 4 := by
  induction ls generalizing p with
  | nil => simp [precodeLevels]
  | cons l ls ih => exact List.forall_mem_cons.2 ⟨Nat.mod_lt _ (by omega), ih _⟩

/-- The precoder is left with the last index sent. -/
theorem precodeLevels_last (p : Nat) (ls : List Nat) : (precodeLevels p ls).2 = (precodeLevels p ls).1.getLastD p := by
  induction ls generalizing p with
  | nil => rfl
  | cons l ls ih => simp only [precodeLevels, List.getLastD_cons, ih]

theorem precodeLevels_last_lt {p : Nat} (hp : p < 4) (ls : List Nat) : (precodeLevels p ls).2 < 4 := by
  induction ls generalizing p with
  | nil => exact hp
  | cons l ls ih => exact ih (Nat.mod_lt _ (by omega))

theorem precoded_precodeLevels {p : Nat} (hp : p < 4) {ls : List Nat} (h : ∀ l ∈ ls, l < 4) :
    precoded p ls (precodeLevels p ls).1 := by
  refine ⟨precodeLevels_length p ls, ?_⟩
  induction ls generalizing p with
  | nil => simp
  | cons l ls ih =>
    obtain ⟨hl, hls⟩ := List.forall_mem_cons.1 h
    have hq : (l + 4 - p) % 4 < 4 := Nat.mod_lt _ (by omega)
    rintro (_ | i) hi
    · refine ⟨hq, ?_⟩
      simp only [precodeLevels, List.getD_cons_zero, if_true]
      omega
    · obtain ⟨hlt, hsum⟩ := ih hq hls i (by simpa using hi)
      refine ⟨hlt, ?_⟩
      rw [← List.getD_cons_succ (x := l)] at hsum
      rw [if_neg (by omega)]
      rcases i with _ | i
      · simpa [precodeLevels] using hsum
      · simpa [precodeLevels] using hsum

theorem decodeLevels_precodeLevels {p : Nat} (hp : p < 4) {ls : List Nat} (h : ∀ l ∈ ls, l < 4) :
    decodeLevels p (precodeLevels p ls).1 = (ls, (precodeLevels p ls).2) := by
  induction ls generalizing p with
  | nil => rfl
  | cons l ls ih =>
    obtain ⟨hl, hls⟩ := List.forall_mem_cons.1 h
    have hq : (l + 4 - p) % 4 < 4 := Nat.mod_lt _ (by omega)
    have hback : ((l + 4 - p) % 4 + p) % 4 = l := by omega
    simp only [precodeLevels, decodeLevels, ih hq hls, hback]

theorem precoderAgrees_holds : precoderAgrees := fun p ls hp h =>
  ⟨precoded_precodeLevels hp h, precodeLevels_last p ls, decodeLevels_precodeLevels hp h⟩

/-! ## Lane words and their bit pairs (R64) -/

theorem pairsNat_lt {ps : List Nat} (h : ∀ x ∈ ps, x < 4) : pairsNat ps < 4 ^ ps.length := by
  induction ps with
  | nil => decide
  | cons x ps ih =>
    obtain ⟨hx, hps⟩ := List.forall_mem_cons.1 h
    have := ih hps
    rw [pairsNat, List.length_cons, Nat.pow_succ]
    omega

theorem natBits_pair (n i : Nat) : natBits n (2 * i) 2 = n / 4 ^ i % 4 := by
  have h : 2 ^ (2 * i) = 4 ^ i := Nat.pow_mul 2 2 i
  exact congrArg (fun p => n / p % 4) h

/-- The bit pairs of the number that is made of them. -/
theorem natBits_pairsNat {ps : List Nat} (h : ∀ x ∈ ps, x < 4) {i : Nat} (hi : i < ps.length) :
    natBits (pairsNat ps) (2 * i) 2 = ps.getD i 0 := by
  rw [natBits_pair]
  induction ps generalizing i with
  | nil => simp at hi
  | cons x ps ih =>
    obtain ⟨hx, hps⟩ := List.forall_mem_cons.1 h
    rw [pairsNat]
    rcases i with _ | i
    · rw [List.getD_cons_zero]
      omega
    · rw [List.getD_cons_succ, ← ih hps (by simpa using hi), Nat.pow_succ', ← Nat.div_div_eq_div_mul]
      rw [show (x + 4 * pairsNat ps) / 4 = pairsNat ps by omega]

/-- A number is made of its bit pairs. -/
theorem pairsNat_range (n x : Nat) : pairsNat ((List.range n).map (fun i => natBits x (2 * i) 2)) = x % 4 ^ n := by
  induction n generalizing x with
  | zero => simp [pairsNat, Nat.mod_one]
  | succ n ih =>
    have hshift : (fun i => natBits x (2 * i) 2) ∘ Nat.succ = fun i => natBits (x / 4) (2 * i) 2 := by
      funext i
      simp only [Function.comp, natBits_pair, Nat.pow_succ', Nat.div_div_eq_div_mul]
    rw [List.range_succ_eq_map, List.map_cons, List.map_map, hshift, pairsNat, ih, Nat.pow_succ', Nat.mod_mul, natBits_pair]
    simp

theorem pairsOf_length (w : BitVec 64) : (pairsOf w).length = 32 := by simp [pairsOf]

theorem pairsOf_lt (w : BitVec 64) : ∀ x ∈ pairsOf w, x < 4 := by
  simp only [pairsOf, List.mem_map]
  rintro x ⟨i, -, rfl⟩
  exact natBits_lt ..

theorem ofPairs_pairsOf (w : BitVec 64) : ofPairs (pairsOf w) = w := by
  rw [ofPairs, pairsOf, pairsNat_range]
  apply BitVec.eq_of_toNat_eq
  have := w.isLt
  rw [BitVec.toNat_ofNat]
  omega

theorem pairsOf_ofPairs {ps : List Nat} (hlen : ps.length = 32) (h : ∀ x ∈ ps, x < 4) : pairsOf (ofPairs ps) = ps := by
  have hlt := pairsNat_lt h
  rw [hlen] at hlt
  apply List.ext_getElem
  · rw [pairsOf_length, hlen]
  · intro i hi hi'
    have := natBits_pairsNat h hi'
    rw [← List.getElem_eq_getD] at this
    have hnat : (ofPairs ps).toNat = pairsNat ps := by
      exact (BitVec.toNat_ofNat ..).trans (Nat.mod_eq_of_lt hlt)
    simpa [pairsOf, hnat] using this

/-- The words that a precoder leaves are decoded to those that it took (R65). -/
theorem mapWords_decode_precode {p : Nat} (hp : p < 4) (ws : List (BitVec 64)) :
    mapWords decodeLevels p (mapWords precodeLevels p ws).1 = (ws, (mapWords precodeLevels p ws).2) := by
  induction ws generalizing p with
  | nil => rfl
  | cons w ws ih =>
    have hls : ∀ l ∈ (pairsOf w).map grayOf, l < 4 := map_grayOf_lt (pairsOf_lt w)
    have hlen : ((precodeLevels p ((pairsOf w).map grayOf)).1.map grayOf).length = 32 := by
      simp [precodeLevels_length, pairsOf_length]
    simp only [mapWords, pairsOf_ofPairs hlen (map_grayOf_lt (precodeLevels_lt p _)), map_grayOf_grayOf,
      decodeLevels_precodeLevels hp hls, ih (precodeLevels_last_lt hp _), ofPairs_pairsOf]

/-- A bit pair of a lane word, of its two bits. -/
theorem natBits_bits (w : BitVec 64) (i : Nat) :
    natBits w.toNat (2 * i) 2 = ofBool (w.getLsbD (2 * i)) + 2 * ofBool (w.getLsbD (2 * i + 1)) := by
  simp only [← BitVec.testBit_toNat, ofBool, Nat.testBit_eq_decide_div_mod_eq, decide_eq_true_eq, natBits, Nat.pow_succ,
    ← Nat.div_div_eq_div_mul]
  generalize w.toNat / 2 ^ (2 * i) = m
  have hbit (k : Nat) : (if k % 2 = 1 then 1 else 0) = k % 2 := by split <;> omega
  rw [hbit, hbit]
  omega

theorem wordLevels_getElem (w : BitVec 64) (i : Nat) (hi : i < (wordLevels w).length) : (wordLevels w)[i] =
    levelOf (grayOf (ofBool (w.getLsbD (2 * i)) + 2 * ofBool (w.getLsbD (2 * i + 1)))) := by
  simp [wordLevels, pairsOf, natBits_bits]

/-- The levels of the four pairs of bits (R64). -/
theorem levelOf_pair (a b : Bool) : levelOf (grayOf (ofBool a + 2 * ofBool b)) = [-3, -1, 3, 1].getD (ofBool a + 2 * ofBool b) 0 := by
  revert a b
  decide

theorem levelOf_inverted (a b : Bool) : levelOf (grayOf (ofBool a + 2 * ofBool (!b))) = -levelOf (grayOf (ofBool a + 2 * ofBool b)) := by
  revert a b
  decide

/-- The mask of an inverted pair has the first bit of every symbol. -/
theorem invertMask (i : Nat) (hi : i < 32) :
    (0xAAAAAAAAAAAAAAAA#64).getLsbD (2 * i) = false ∧ (0xAAAAAAAAAAAAAAAA#64).getLsbD (2 * i + 1) = true := by
  revert i
  decide

theorem wordsCarried_holds : wordsCarried := by
  intro w
  have hlen (w : BitVec 64) : (wordLevels w).length = 32 := by simp [wordLevels, pairsOf_length]
  refine ⟨fun i hi => ?_, ?_, fun p ws hp => mapWords_decode_precode hp ws⟩
  · rw [← List.getElem_eq_getD (h := by rwa [hlen]), wordLevels_getElem, levelOf_pair]
  · apply List.ext_getElem
    · simp [hlen]
    · intro i hi _
      obtain ⟨h0, h1⟩ := invertMask i (by rwa [hlen] at hi)
      rw [List.getElem_map, wordLevels_getElem, wordLevels_getElem, ← levelOf_inverted]
      simp only [invertWord, BitVec.getLsbD_xor, h0, h1, Bool.xor_false, Bool.xor_true]


/-! ## Flits on lanes (R63, R79) -/

theorem leBytes_leNat (bs : List Byte) : leBytes bs.length (leNat bs) = bs := by
  induction bs with
  | nil => rfl
  | cons b bs ih =>
    have hb := b.isLt
    rw [leNat, List.length_cons, leBytes, show (b.toNat + 256 * leNat bs) / 256 = leNat bs by omega, ih]
    congr 1
    apply BitVec.eq_of_toNat_eq
    rw [BitVec.toNat_ofNat]
    omega

/-- A byte of a number made of bytes. -/
theorem leNat_byte (bs : List Byte) (i : Nat) : BitVec.ofNat 8 (leNat bs / 256 ^ i) = bs.getD i 0 := by
  by_cases hi : i < bs.length
  · have h := congrArg (fun l : List Byte => l.getD i 0) (leBytes_leNat bs)
    simpa [leBytes_eq_map, hi] using h
  · have h := leNat_lt bs.length bs (Nat.le_refl _)
    have hpow : 2 ^ (8 * bs.length) ≤ 256 ^ i := by
      rw [Nat.pow_mul]
      exact Nat.pow_le_pow_right (by omega) (by omega)
    rw [Nat.div_eq_of_lt (Nat.lt_of_lt_of_le h hpow), List.getD_eq_getElem?_getD,
      List.getElem?_eq_none (Nat.le_of_not_lt hi)]
    rfl

section units
variable {bs : List Byte} (hbs : bs.length = 64) {u : Nat} (hu : u < 8)
include hbs hu

theorem unit_length : ((bs.drop (8 * u)).take 8).length = 8 := by
  rw [List.length_take, List.length_drop]
  omega

theorem unitWord_toNat : (unitWord bs u).toNat = leNat ((bs.drop (8 * u)).take 8) := by
  rw [unitWord, BitVec.toNat_ofNat, Nat.mod_eq_of_lt (leNat_lt 8 _ (Nat.le_of_eq (unit_length hbs hu)))]

theorem leBytes_unitWord : leBytes 8 (unitWord bs u).toNat = (bs.drop (8 * u)).take 8 := by
  rw [unitWord_toNat hbs hu]
  have h := leBytes_leNat ((bs.drop (8 * u)).take 8)
  rwa [unit_length hbs hu] at h

theorem unitWord_byte {j : Nat} (hj : j < 8) : (unitWord bs u).extractLsb' (8 * j) 8 = bs.getD (8 * u + j) 0 := by
  have h := leNat_byte ((bs.drop (8 * u)).take 8) j
  have hget : ((bs.drop (8 * u)).take 8).getD j 0 = bs.getD (8 * u + j) 0 := by
    simp [List.getD_eq_getElem?_getD, hj]
  rw [← hget, ← h, ← unitWord_toNat hbs hu]
  apply BitVec.eq_of_toNat_eq
  rw [BitVec.extractLsb'_toNat, BitVec.toNat_ofNat, Nat.shiftRight_eq_div_pow, Nat.pow_mul]

end units

/-- Bytes are their first eight and the others. -/
theorem drop_eq_take_append (bs : List Byte) (n : Nat) : bs.drop n = (bs.drop n).take 8 ++ bs.drop (n + 8) := by
  rw [← List.drop_drop, List.take_append_drop]

theorem flitsOnLanes_holds : flitsOnLanes := by
  intro bs hbs
  refine ⟨?_, fun u hu j hj => ?_⟩
  · have hu (u : Nat) (hu : u < 8) := leBytes_unitWord hbs hu
    have hend : bs.drop 64 = [] := List.drop_eq_nil_of_le (Nat.le_of_eq hbs)
    conv => rhs; rw [← List.drop_zero (l := bs), drop_eq_take_append bs 0, drop_eq_take_append bs 8,
      drop_eq_take_append bs 16, drop_eq_take_append bs 24, drop_eq_take_append bs 32, drop_eq_take_append bs 40,
      drop_eq_take_append bs 48, drop_eq_take_append bs 56, hend]
    simp [laneWords, mergeLanes, hu]
  · have hlane : (laneWords bs (u % 2)).getD (u / 2) 0 = unitWord bs u := by
      have h : ∀ u < 8, [0, 2, 4, 6][u / 2]?.map (· + u % 2) = some u := by decide
      obtain ⟨v, hv, he⟩ := Option.map_eq_some_iff.1 (h u hu)
      rw [laneWords, List.getD_eq_getElem?_getD, List.getElem?_map, hv, Option.map_some, he, Option.getD_some]
    rw [hlane, unitWord_byte hbs hu hj]

/-! ## Training words (R72, R76) -/

theorem pairsNat_append (ps qs : List Nat) : pairsNat (ps ++ qs) = pairsNat ps + 4 ^ ps.length * pairsNat qs := by
  induction ps with
  | nil => simp [pairsNat]
  | cons x ps ih =>
    rw [List.cons_append, pairsNat, pairsNat, ih, List.length_cons, Nat.pow_succ', Nat.mul_assoc, Nat.mul_add, Nat.add_assoc]

theorem pairsNat_map_range (f : Nat → Nat) (n : Nat) :
    pairsNat ((List.range n).map f) = ((List.range n).map (fun j => f j * 4 ^ j)).sum := by
  induction n with
  | zero => rfl
  | succ n ih => simp [List.range_succ, pairsNat_append, ih, pairsNat, Nat.mul_comm]

/-- The bit pairs of a TS word with the info bits `f`, as received in a polarity (R72, R76): fifteen of 0, one of 2, and
one for each info bit. -/
def tsPairs (inv : Bool) (f : Nat → Bool) : List Nat :=
  (List.replicate 15 (2 * ofBool inv) ++ [2 * ofBool (!inv)]) ++ (List.range 16).map (fun j => 1 + 2 * ofBool (f j != inv))

/-- The info bits of a TS word (R72). -/
def tsInfo (lane kind : Nat) (pre : Bool) (cnt : Nat) : Nat := lane + kind * 2 + ofBool pre * 2 ^ 3 + cnt % 256 * 2 ^ 8

theorem sum_map_mul (c : Nat) (f : Nat → Nat) (l : List Nat) : (l.map (fun j => c * f j)).sum = c * (l.map f).sum := by
  induction l with
  | nil => rfl
  | cons x l ih => rw [List.map_cons, List.map_cons, List.sum_cons, List.sum_cons, ih, Nat.mul_add]

theorem sum_map_add (f g : Nat → Nat) (l : List Nat) :
    (l.map (fun j => f j + g j)).sum = (l.map f).sum + (l.map g).sum := by
  induction l with
  | nil => rfl
  | cons x l ih =>
    simp only [List.map_cons, List.sum_cons, ih]
    omega

theorem tsWord_eq (lane kind : Nat) (pre : Bool) (cnt : Nat) :
    tsWord lane kind pre cnt = ofPairs (tsPairs false (bitAt (tsInfo lane kind pre cnt))) := by
  have hterm (j : Nat) : (1 + 2 * ofBool (bitAt (tsInfo lane kind pre cnt) j != false)) * 4 ^ j =
      4 ^ j + 2 * (ofBool (bitAt (tsInfo lane kind pre cnt) j) * 4 ^ j) := by
    rw [Bool.bne_false, Nat.add_mul, Nat.one_mul, Nat.mul_assoc]
  have hpow (j : Nat) : ofBool (bitAt (tsInfo lane kind pre cnt) j) * 2 ^ (33 + 2 * j) =
      2 ^ 33 * (ofBool (bitAt (tsInfo lane kind pre cnt) j) * 4 ^ j) := by
    rw [Nat.pow_add, Nat.pow_mul]
    exact Nat.mul_left_comm ..
  have hones : ((List.range 16).map (fun j => 4 ^ j)).sum = 0x55555555 := by decide
  change BitVec.ofNat 64 (0x5555555580000000 +
    ((List.range 16).map (fun j => ofBool (bitAt (tsInfo lane kind pre cnt) j) * 2 ^ (33 + 2 * j))).sum) = _
  have hlow : pairsNat (List.replicate 15 (2 * ofBool false) ++ [2 * ofBool (!false)]) = 0x80000000 := rfl
  have hlen : (List.replicate 15 (2 * ofBool false) ++ [2 * ofBool (!false)]).length = 16 := rfl
  rw [ofPairs, tsPairs, pairsNat_append, pairsNat_map_range, funext hterm, funext hpow, sum_map_mul,
    sum_map_add, sum_map_mul, hones, hlow, hlen]
  refine congrArg (BitVec.ofNat 64) ?_
  generalize ((List.range 16).map (fun j => ofBool (bitAt (tsInfo lane kind pre cnt) j) * 4 ^ j)).sum = x
  omega

section received
variable (inv : Bool) (f : Nat → Bool)

theorem tsPairs_length : (tsPairs inv f).length = 32 := by simp [tsPairs]

theorem tsPairs_lt : ∀ x ∈ tsPairs inv f, x < 4 := by
  have hb (b : Bool) : ofBool b ≤ 1 := by cases b <;> decide
  have h0 := hb inv
  have h1 := hb (!inv)
  have hj (j : Nat) := hb (f j != inv)
  simp only [tsPairs, List.mem_append, List.mem_replicate, List.mem_singleton, List.mem_map]
  rintro x ((⟨-, rfl⟩ | rfl) | ⟨j, -, rfl⟩)
  · omega
  · omega
  · have := hj j
    omega

/-- The bit pairs of a TS word, as a number: the low ones, and those with the info bits. -/
theorem tsPairs_toNat : (ofPairs (tsPairs inv f)).toNat = (if inv then 0x2AAAAAAA else 0x80000000) +
    2 ^ 32 * pairsNat ((List.range 16).map (fun j => 1 + 2 * ofBool (f j != inv))) := by
  have hlt := pairsNat_lt (tsPairs_lt inv f)
  rw [tsPairs_length] at hlt
  refine (BitVec.toNat_ofNat ..).trans ((Nat.mod_eq_of_lt hlt).trans ?_)
  rw [tsPairs, pairsNat_append]
  cases inv <;> rfl

/-- The pairs with the info bits fill the upper half of the word. -/
theorem infoPairs_lt : pairsNat ((List.range 16).map (fun j => 1 + 2 * ofBool (f j != inv))) < 2 ^ 32 := by
  have h := pairsNat_lt (ps := (List.range 16).map (fun j => 1 + 2 * ofBool (f j != inv)))
    (fun x hx => tsPairs_lt inv f x (List.mem_append_right _ hx))
  simpa using h

theorem infoPairs_pair (j : Nat) (hj : j < 16) :
    natBits (pairsNat ((List.range 16).map (fun j => 1 + 2 * ofBool (f j != inv)))) (2 * j) 2 = 1 + 2 * ofBool (f j != inv) := by
  rw [natBits_pairsNat (fun x hx => tsPairs_lt inv f x (List.mem_append_right _ hx)) (by simpa using hj)]
  simp [hj]

/-- The bits of 0x55555555 are the low bits of pairs. -/
theorem testBit_lowBits {i : Nat} (h : (0x55555555 : Nat).testBit i = true) : ∃ j < 16, i = 2 * j := by
  have hi : i < 32 := by
    refine Nat.lt_of_not_le fun hi => ?_
    rw [Nat.testBit_lt_two_pow (Nat.lt_of_lt_of_le (by decide) (Nat.pow_le_pow_right (by omega) hi))] at h
    cases h
  have heven : ∀ i < 32, (0x55555555 : Nat).testBit i = true → i % 2 = 0 := by decide
  have := heven i hi h
  exact ⟨i / 2, by omega, by omega⟩

/-- Every pair with an info bit has its low bit. -/
theorem infoPairs_low : pairsNat ((List.range 16).map (fun j => 1 + 2 * ofBool (f j != inv))) &&& 0x55555555 = 0x55555555 := by
  apply Nat.eq_of_testBit_eq
  intro i
  rw [Nat.testBit_and]
  cases h : (0x55555555 : Nat).testBit i
  case false => rw [Bool.and_false]
  case true =>
    obtain ⟨j, hj, rfl⟩ := testBit_lowBits h
    have hb := natBits_testBit (pairsNat ((List.range 16).map (fun j => 1 + 2 * ofBool (f j != inv)))) (2 * j) 2 0
    rw [infoPairs_pair inv f j hj] at hb
    simpa [Nat.testBit_zero, Nat.add_mod] using hb.symm

theorem wordMatch_tsPairs : wordMatch (ofPairs (tsPairs inv f)) = some inv := by
  have hlow : natBits (ofPairs (tsPairs inv f)).toNat 0 32 = if inv then 0x2AAAAAAA else 0x80000000 := by
    rw [tsPairs_toNat, natBits]
    cases inv <;> simp only [if_true, Bool.false_eq_true, if_false] <;> omega
  have hhigh : natBits (ofPairs (tsPairs inv f)).toNat 32 32 =
      pairsNat ((List.range 16).map (fun j => 1 + 2 * ofBool (f j != inv))) := by
    have hlt := infoPairs_lt inv f
    rw [tsPairs_toNat, natBits]
    cases inv <;> simp only [if_true, Bool.false_eq_true, if_false] <;> omega
  rw [wordMatch, hlow, hhigh, infoPairs_low]
  cases inv <;> rfl

/-- A TS word shows its info bits in its polarity. -/
theorem bitAt_tsPairs (j : Nat) (hj : j < 16) : (bitAt (ofPairs (tsPairs inv f)).toNat (33 + 2 * j) != inv) = f j := by
  have hb := natBits_testBit (pairsNat ((List.range 16).map (fun j => 1 + 2 * ofBool (f j != inv)))) (2 * j) 2 1
  rw [infoPairs_pair inv f j hj] at hb
  have hhigh : (ofPairs (tsPairs inv f)).toNat.testBit (33 + 2 * j) = (f j != inv) := by
    rw [tsPairs_toNat, show 33 + 2 * j = 32 + (2 * j + 1) by omega, Nat.add_comm, Nat.testBit_two_pow_mul_add _ (by split <;> decide),
      if_neg (by omega), Nat.add_sub_cancel_left]
    refine Eq.trans (by simpa using hb.symm) ?_
    cases f j <;> cases inv <;> rfl
  rw [bitAt_eq_testBit, hhigh]
  cases f j <;> cases inv <;> rfl

theorem wordInfo_tsPairs : wordInfo inv (ofPairs (tsPairs inv f)) = ((List.range 16).map (fun j => ofBool (f j) * 2 ^ j)).sum := by
  rw [wordInfo, List.map_congr_left (fun j hj => by rw [bitAt_tsPairs inv f j (List.mem_range.1 hj)])]

end received

/-- An inverted pair flips the first bit of every symbol (R67). -/
theorem pairsOf_invertWord (w : BitVec 64) : pairsOf (invertWord w) = (pairsOf w).map (fun x => (x + 2) % 4) := by
  rw [pairsOf, pairsOf, List.map_map]
  refine List.map_congr_left (fun i hi => ?_)
  obtain ⟨h0, h1⟩ := invertMask i (List.mem_range.1 hi)
  rw [Function.comp, natBits_bits, natBits_bits, invertWord, BitVec.getLsbD_xor, BitVec.getLsbD_xor, h0, h1]
  cases w.getLsbD (2 * i) <;> cases w.getLsbD (2 * i + 1) <;> rfl

/-- A TS word on an inverted pair (R67). -/
theorem invertWord_tsPairs (f : Nat → Bool) : invertWord (ofPairs (tsPairs false f)) = ofPairs (tsPairs true f) := by
  have hj (j : Nat) : (1 + 2 * ofBool (f j != false) + 2) % 4 = 1 + 2 * ofBool (f j != true) := by cases f j <;> rfl
  rw [← ofPairs_pairsOf (invertWord _), pairsOf_invertWord, pairsOf_ofPairs (tsPairs_length false f) (tsPairs_lt false f)]
  simp only [tsPairs, List.map_append, List.map_map, List.map_replicate, Function.comp_def, hj]
  rfl

/-- A number is made of its bits. -/
theorem sum_bits (x n : Nat) : ((List.range n).map (fun j => ofBool (bitAt x j) * 2 ^ j)).sum = x % 2 ^ n := by
  induction n with
  | zero => simp [Nat.mod_one]
  | succ n ih =>
    have hbit : ofBool (bitAt x n) = x / 2 ^ n % 2 := by
      unfold ofBool bitAt
      split
      · next h => exact (eq_of_beq h).symm
      · next h => rw [beq_iff_eq] at h; omega
    rw [List.range_succ, List.map_append, List.sum_append, ih, List.map_singleton, List.sum_singleton, hbit, Nat.mod_pow_succ,
      Nat.mul_comm]

/-- The fields of the info bits of a TS word (R72). -/
theorem tsInfo_fields (pre : Bool) {lane kind cnt : Nat} (hl : lane < 2) (hk : kind < 4) (hc : cnt < 256) :
    infoLane (tsInfo lane kind pre cnt % 2 ^ 16) = lane ∧ infoKind (tsInfo lane kind pre cnt % 2 ^ 16) = kind ∧
    infoPre (tsInfo lane kind pre cnt % 2 ^ 16) = pre ∧ infoCnt (tsInfo lane kind pre cnt % 2 ^ 16) = cnt := by
  have hpre : ofBool pre ≤ 1 := by cases pre <;> decide
  have hlt : tsInfo lane kind pre cnt < 2 ^ 16 := by
    unfold tsInfo
    omega
  rw [Nat.mod_eq_of_lt hlt]
  simp only [infoLane, infoKind, infoPre, infoCnt, natBits, bitAt, tsInfo, Nat.mod_eq_of_lt hc]
  refine ⟨by omega, by omega, ?_, by omega⟩
  cases pre <;> simp only [ofBool, if_true, Bool.false_eq_true, if_false, beq_iff_eq, beq_eq_false_iff_ne] <;> omega

theorem trainingWordsRead_holds : trainingWordsRead := by
  refine ⟨?_, by decide, by decide⟩
  rintro lane kind pre cnt w rfl
  rw [tsWord_eq, invertWord_tsPairs]
  refine ⟨wordMatch_tsPairs .., wordMatch_tsPairs .., ?_⟩
  intro inv i hi
  have hinfo : wordInfo inv (if inv then ofPairs (tsPairs true (bitAt (tsInfo lane kind pre cnt)))
      else ofPairs (tsPairs false (bitAt (tsInfo lane kind pre cnt)))) = tsInfo lane kind pre cnt % 2 ^ 16 := by
    cases inv
    · exact (wordInfo_tsPairs ..).trans (sum_bits ..)
    · exact (wordInfo_tsPairs ..).trans (sum_bits ..)
  rw [hi, hinfo]
  exact tsInfo_fields pre lane.isLt kind.isLt cnt.isLt

/-- Settles O59: the precoder by induction on what it sends, the lane words by their bit pairs, flits by their units. -/
theorem lanesCarry : Obligations.LanesCarry :=
  ⟨precoderAgrees_holds, wordsCarried_holds, flitsOnLanes_holds, trainingWordsRead_holds⟩

end Sys2Proof.Claims

/-! PROOFS. The guard of register writes (R4, R437, R438), locks and semaphores (R154 to R156, R164). -/

namespace Sys2Proof.Claims

open Sys2Proof.Machine

/-! ## The guard (R437, R438) -/

/-- The capture of a refused access writes GLB_REG_ERR and GLB_REG_ADDR at most. -/
theorem regCapture_word (s : State) (cause size n addr r : Nat) (w : Bool) (h : r / 0x10000 ≠ 0) :
    (s.regCapture cause w size n addr).word r = s.word r := by
  unfold State.regCapture
  split
  · rfl
  · have hne (a : Nat) (ha : a / 0x10000 = 0) : r ≠ a := fun e => h (e ▸ ha)
    rw [State.put, word_setWord_other _ _ (hne _ rfl), word_setWord_other _ _ (hne _ rfl)]

theorem regCapture_execs (s : State) (cause size n addr : Nat) (w : Bool) :
    (s.regCapture cause w size n addr).execs = s.execs ∧ (s.regCapture cause w size n addr).locks = s.locks := by
  unfold State.regCapture
  split
  · exact ⟨rfl, rfl⟩
  · rw [State.put_execs, State.setWord_execs, State.put_locks, State.setWord_locks]
    exact ⟨rfl, rfl⟩

/-- A guarded register has a row. -/
theorem regRow_of_guards {s : State} {b : By} {a : Nat} {v : Word} (h : s.guards b a v = true) :
    ∃ r, regRow a = some r ∧ fieldsOf a = r.fields := by
  unfold State.guards fieldsOf at h
  unfold fieldsOf
  cases hr : regRow a with
  | none => simp [hr] at h
  | some r => exact ⟨r, rfl, rfl⟩

/-- A write that the guard turns away is refused with UR (R438). -/
theorem writeReg_guards {s : State} {b : By} {a : Nat} {v : Word} (h : s.guards b a v = true)
    (hsrc : s.member.noSource a = false) (hctx : ¬ (0xc0000 ≤ a ∧ a < 0xc0100)) (posted : Bool) (c : Nat) :
    s.writeReg b posted a c v = (s.guardRefused b.ctx.toNat c, stUR) := by
  obtain ⟨r, hr, hf⟩ := regRow_of_guards h
  have hc : ¬ ((0xc0000 ≤ a ∧ a < 0xc0100) ∨ s.member.noSource a) := by simp [hctx, hsrc]
  simp only [State.guards, hf, State.newWord, isInn] at h
  simp only [State.writeReg, hr, if_neg hc]
  exact if_pos h

theorem guardRefuses_holds : guardRefuses := by
  intro s t b posted a c st v hg hsrc hctx h
  rw [writeReg_guards hg hsrc hctx] at h
  obtain ⟨rfl, rfl⟩ := Prod.mk.inj h
  have hraise := raise_only ((s.bump CFG_CNT1_GUARD_FAIL).regCapture 4 true 4 b.ctx.toNat c) 5 b.ctx.toNat 0
  have hcap (f : FRef) (hf : f.reg / 0x10000 = 2) : (s.guardRefused b.ctx.toNat c).get f = (s.bump CFG_CNT1_GUARD_FAIL).get f := by
    refine (hraise.get f (by rw [hf]; rfl)).trans ?_
    rw [State.get, State.get, regCapture_word _ _ _ _ _ _ _ (by rw [hf]; decide)]
  refine ⟨rfl, ?_, ?_, ?_, fun r hr => ?_, ?_, ?_⟩
  · rw [hcap _ rfl]
    refine (get_put_fit s _ _ (by decide) ?_)
    exact Nat.lt_of_le_of_lt (Nat.min_le_left ..) (by decide)
  · rw [hcap _ rfl]
    exact get_put_apart _ _ _ _ (by decide) (by decide)
  · rw [hcap _ rfl]
    exact get_put_apart _ _ _ _ (by decide) (by decide)
  · simp only [List.mem_cons, List.not_mem_nil, or_false, not_or] at hr
    obtain ⟨h0, h2, h3, h4, h12, h13, h14, h21⟩ := hr
    refine (hraise.2 r (by simp [evBlock, h3, h4, h12, h13, h14, h21])).trans ?_
    rw [regCapture_word _ _ _ _ _ _ _ h0]
    exact word_setWord_other _ _ (fun e => h2 (e ▸ by decide))
  · exact hraise.execs.trans (regCapture_execs ..).1
  · exact hraise.locks.trans (regCapture_execs ..).2

/-- A write that the guard lets through to a register of an event source that the member has, and not of context 0, stores
its word and has the register's own effect. -/
theorem writeReg_passes {s : State} {b : By} {a : Nat} {v : Word} (h : s.guards b a v = false) (hr : (regRow a).isSome = true)
    (hsrc : s.member.noSource a = false) (hctx : ¬ (0xc0000 ≤ a ∧ a < 0xc0100)) (posted : Bool) (c : Nat) :
    s.writeReg b posted a c v = (s.admitted b a).written (s.stored b a v) b posted a v := by
  obtain ⟨r, hr⟩ := Option.isSome_iff_exists.1 hr
  have hf : fieldsOf a = r.fields := by rw [fieldsOf, hr]
  have hc : ¬ ((0xc0000 ≤ a ∧ a < 0xc0100) ∨ s.member.noSource a) := by simp [hctx, hsrc]
  simp only [State.guards, hf, State.newWord, isInn] at h
  simp only [State.writeReg, hr, if_neg hc, State.stored, State.admitted, hf, State.newWord, isInn]
  exact if_neg (Bool.eq_false_iff.1 h)

/-- A covered write leaves the unlock as it is (R442). -/
theorem coveredWrite_unlocked (s : State) : s.coveredWrite.get CFG_STAT_UNLOCKED = s.get CFG_STAT_UNLOCKED := by
  have hput (u : State) (f : FRef) (v : Nat) (hf : f.lo + f.w ≤ 32) (ha : FRef.apart f CFG_STAT_UNLOCKED = true) :
      (u.put f v).get CFG_STAT_UNLOCKED = u.get CFG_STAT_UNLOCKED := get_put_apart u _ _ _ hf ha
  have hrestart : s.restartPass.get CFG_STAT_UNLOCKED = s.get CFG_STAT_UNLOCKED := by
    unfold State.restartPass
    split
    · have hb : ({ s.bump CFG_CNT0_RESTARTS with restarts := s.restarts + 1 } : State).get CFG_STAT_UNLOCKED =
          s.get CFG_STAT_UNLOCKED := (get_of_regs (t := s.bump CFG_CNT0_RESTARTS) rfl _).trans (hput s _ _ (by decide) (by decide))
      dsimp only
      split
      · rw [hput _ _ _ (by decide) (by decide), hb]
      · exact hb
    · rfl
  have hwatch (u : State) : u.watchDirty.get CFG_STAT_UNLOCKED = u.get CFG_STAT_UNLOCKED := by
    unfold State.watchDirty
    dsimp only
    split
    · exact get_of_regs (State.arm_regs ..) _
    · exact get_of_regs (State.disarm_regs ..) _
  unfold State.coveredWrite
  dsimp only
  split
  · exact hrestart
  · rw [hwatch]
    exact (get_of_regs (t := s.restartPass.put CFG_STAT_DIRTY 1) rfl _).trans ((hput _ _ _ (by decide) (by decide)).trans hrestart)

/-- The storing of a word leaves the unlock as the guard's own rule has it (R437, R438). -/
theorem stored_unlocked (s : State) (b : By) {a : Nat} (v : Word) (ha : a / 0x10000 ≠ 2) :
    (s.stored b a v).get CFG_STAT_UNLOCKED = (s.admitted b a).get CFG_STAT_UNLOCKED := by
  have hset : ((s.admitted b a).setWord a (s.newWord a v)).get CFG_STAT_UNLOCKED = (s.admitted b a).get CFG_STAT_UNLOCKED := by
    rw [State.get, State.get, word_setWord_other _ _ (fun e => ha (by rw [← e]; rfl))]
  unfold State.stored
  dsimp only
  split
  · rw [coveredWrite_unlocked, hset]
  · exact hset

theorem guardPasses_holds : guardPasses := by
  intro s t b posted a c st v ha hr hg h
  have hsrc : s.member.noSource a = false := by
    simp only [Member.noSource, Bool.and_eq_false_iff, decide_eq_false_iff_not]
    omega
  rw [writeReg_passes hg hr hsrc (by omega)] at h
  have hwin : (s.admitted b a).written (s.stored b a v) b posted a v = (s.stored b a v, stSC) := by
    unfold State.written
    simp only [ha]
  rw [hwin] at h
  obtain ⟨rfl, rfl⟩ := Prod.mk.inj h
  refine ⟨rfl, stored_word s b a v (by omega), fun r h1 h2 => (stored_only s b a v).2 r h1 h2, fun hb ho hany => ?_, fun hb => ?_⟩
  · have hadm : s.admitted b a = s.lockGuard := by
      refine if_pos ?_
      simpa [hb, ho] using hany
    rw [stored_unlocked s b v (by omega), hadm]
    exact get_put_fit s _ _ (by decide) (by decide)
  · have hadm : s.admitted b a = s := by
      refine if_neg ?_
      rcases hb with hb | hb <;> simp [hb]
    rw [stored_unlocked s b v (by omega), hadm]

theorem absentSources_hold : absentSources := by
  intro s b posted a c v h
  have ha : 0x30000 ≤ a ∧ a < 0x30800 := by
    simp only [Member.noSource, Bool.and_eq_true, decide_eq_true_eq] at h
    exact h.1
  refine ⟨?_, ?_⟩
  · unfold State.writeReg
    split
    · rfl
    · exact if_pos (.inr h)
  · rw [State.peekReg, if_neg (by omega), if_pos h]

/-- Settles O47: the three things that the guard does with a write. -/
theorem guardDecides : Obligations.GuardDecides := ⟨guardRefuses_holds, guardPasses_holds, absentSources_hold⟩

/-! ## Timers -/

theorem dueAt_disarm_same (s : State) (t : Timer) : (s.disarm t).dueAt t = none := by
  rw [State.dueAt, State.disarm, Option.map_eq_none_iff, List.find?_eq_none]
  intro e he
  simpa using (List.mem_filter.1 he).2

theorem dueAt_arm_same (s : State) (t : Timer) (n : Nat) : (s.arm t n).dueAt t = some (s.clk + n) := by
  have h : (s.disarm t).timers.find? (fun e => e.1 == t) = none := by
    simpa [State.dueAt] using dueAt_disarm_same s t
  rw [State.dueAt, State.arm, List.find?_append, h]
  simp

theorem dueAt_of_timers {s t : State} (h : t.timers = s.timers) (m : Timer) : t.dueAt m = s.dueAt m := by
  rw [State.dueAt, State.dueAt, h]

/-! ## What shows a lock (R164) -/

/-- What WIN_SEM_HELD and WIN_SEM_OWNER show of a semaphore. -/
def ownerShown (s : State) (n : Nat) (h : Option HeldLock) : State :=
  match h with
  | some h => ((s.put (WIN_SEM_OWNER_CTX n) h.ctx).put (WIN_SEM_OWNER_HELD n) 1).put
      (WIN_SEM_OWNER_REMOTE n) (ofBool h.remote)
  | none => ((s.put (WIN_SEM_OWNER_CTX n) 0).put (WIN_SEM_OWNER_HELD n) 0).put (WIN_SEM_OWNER_REMOTE n) 0

/-- A semaphore is shown in WIN_SEM_HELD and in its own WIN_SEM_OWNER. -/
theorem showSem_eq (s : State) (k : Fin 64) :
    ∃ f v, (f = WIN_SEM_HELD0_HELD ∨ f = WIN_SEM_HELD1_HELD) ∧
      s.showSem k.val = ownerShown (s.put f v) k.val (s.lockHeld (.sem k)) := by
  have hk : (Fin.ofNat 64 k.val) = k := Fin.ext (Nat.mod_eq_of_lt k.isLt)
  unfold State.showSem
  rw [hk]
  dsimp only
  by_cases hn : k.val < 32
  · rw [if_pos hn]
    exact ⟨_, _, .inl rfl, rfl⟩
  · rw [if_neg hn]
    exact ⟨_, _, .inr rfl, rfl⟩

theorem ownerShown_some (s : State) (n : Nat) {h : HeldLock} (hc : h.ctx < 256) :
    (ownerShown s n (some h)).get (WIN_SEM_OWNER_CTX n) = h.ctx ∧ (ownerShown s n (some h)).get (WIN_SEM_OWNER_HELD n) = 1 ∧
    (ownerShown s n (some h)).get (WIN_SEM_OWNER_REMOTE n) = ofBool h.remote := by
  have hr : ofBool h.remote < 2 := by cases h.remote <;> decide
  refine ⟨?_, ?_, get_put_fit _ _ _ (Nat.le_of_ble_eq_true rfl) hr⟩
  · refine (get_put_apart _ _ _ _ (Nat.le_of_ble_eq_true rfl) ?_).trans ((get_put_apart _ _ _ _ (Nat.le_of_ble_eq_true rfl) ?_).trans
      (get_put_fit _ _ _ (Nat.le_of_ble_eq_true rfl) hc))
    · simp [FRef.apart, WIN_SEM_OWNER_REMOTE, WIN_SEM_OWNER_CTX]
    · simp [FRef.apart, WIN_SEM_OWNER_HELD, WIN_SEM_OWNER_CTX]
  · refine (get_put_apart _ _ _ _ (Nat.le_of_ble_eq_true rfl) ?_).trans (get_put_fit _ _ _ (Nat.le_of_ble_eq_true rfl) (Nat.le_of_ble_eq_true rfl))
    simp [FRef.apart, WIN_SEM_OWNER_REMOTE, WIN_SEM_OWNER_HELD]

theorem ownerShown_none (s : State) (n : Nat) : (ownerShown s n none).get (WIN_SEM_OWNER_HELD n) = 0 := by
  refine (get_put_apart _ _ _ _ (Nat.le_of_ble_eq_true rfl) ?_).trans (get_put_fit _ _ _ (Nat.le_of_ble_eq_true rfl) (Nat.le_of_ble_eq_true rfl))
  simp [FRef.apart, WIN_SEM_OWNER_REMOTE, WIN_SEM_OWNER_HELD]

/-- A semaphore that is held shows its holder. -/
theorem showSem_some {s : State} (k : Fin 64) {h : HeldLock} (hl : s.lockHeld (.sem k) = some h) (hc : h.ctx < 256) :
    (s.showLock (.sem k)).get (WIN_SEM_OWNER_CTX k.val) = h.ctx ∧ (s.showLock (.sem k)).get (WIN_SEM_OWNER_HELD k.val) = 1 ∧
    (s.showLock (.sem k)).get (WIN_SEM_OWNER_REMOTE k.val) = ofBool h.remote := by
  obtain ⟨f, v, -, he⟩ := showSem_eq s k
  rw [State.showLock, he, hl]
  exact ownerShown_some _ _ hc

theorem showSem_none {s : State} (k : Fin 64) (hl : s.lockHeld (.sem k) = none) :
    (s.showLock (.sem k)).get (WIN_SEM_OWNER_HELD k.val) = 0 := by
  obtain ⟨f, v, -, he⟩ := showSem_eq s k
  rw [State.showLock, he, hl]
  exact ownerShown_none ..

theorem ownerShown_frame (s : State) (n : Nat) (h : Option HeldLock) :
    (ownerShown s n h).locks = s.locks ∧ (ownerShown s n h).timers = s.timers ∧
    ∀ a < 0x71000, (ownerShown s n h).word a = s.word a := by
  have hput (u : State) (f : FRef) (v : Nat) (hf : f.reg = WIN_SEM_OWNER n) (a : Nat) (ha : a < 0x71000) :
      (u.put f v).word a = u.word a :=
    word_setWord_other _ _ (by rw [hf, WIN_SEM_OWNER]; omega)
  cases h <;> exact ⟨by simp only [ownerShown, State.put_locks], by simp only [ownerShown, State.put_timers], fun a ha => by
    rw [ownerShown, hput _ _ _ rfl a ha, hput _ _ _ rfl a ha, hput _ _ _ rfl a ha]⟩

/-- To show a lock changes no lock, no timer and no window's own registers. -/
theorem showLock_frame (s : State) (l : LockName) :
    (s.showLock l).locks = s.locks ∧ (s.showLock l).timers = s.timers ∧ ∀ a < 0x71000, (s.showLock l).word a = s.word a := by
  cases l with
  | sem k =>
    obtain ⟨f, v, hf, he⟩ := showSem_eq s k
    rw [State.showLock, he]
    obtain ⟨hlocks, htimers, hword⟩ := ownerShown_frame (s.put f v) k.val (s.lockHeld (.sem k))
    refine ⟨hlocks, htimers, fun a ha => (hword a ha).trans (word_setWord_other _ _ ?_)⟩
    rcases hf with rfl | rfl
    · show a ≠ 0x71004
      omega
    · show a ≠ 0x71008
      omega
  | native g =>
    refine ⟨rfl, rfl, fun a ha => word_setWord_other _ _ ?_⟩
    show a ≠ 0x80004 + 0x10000 * g.val
    omega

/-! ## The holders of locks (R154 to R156) -/

theorem lockHeld_of_locks {s t : State} (h : t.locks = s.locks) (l : LockName) : t.lockHeld l = s.lockHeld l := by
  rw [State.lockHeld, State.lockHeld, h]

theorem lockHeld_showLock (s : State) (l k : LockName) : (s.showLock l).lockHeld k = s.lockHeld k :=
  lockHeld_of_locks (showLock_frame s l).1 k

/-- The locks after one was taken. -/
theorem acquire_locks (s : State) (l : LockName) (n w g : Nat) (remote : Bool) : (s.acquire l n w g remote).locks =
    s.locks.filter (fun h => !(h.name == l && (!h.timedOut || h.ctx == n))) ++ [⟨l, n, remote, false, w, g⟩] :=
  (showLock_frame ..).1

/-- A filter that keeps every lock of another name leaves its holder. -/
theorem find_filter_other (ls : List HeldLock) (p : HeldLock → Bool) {k : LockName} (hp : ∀ h, h.name = k → p h = true) :
    (ls.filter p).find? (fun h => h.name == k && !h.timedOut) = ls.find? (fun h => h.name == k && !h.timedOut) := by
  rw [List.find?_filter]
  congr 1
  funext h
  by_cases hk : h.name = k
  · rw [hp h hk]
    cases h.name == k && !h.timedOut <;> rfl
  · rw [beq_eq_false_iff_ne.2 hk]
    simp

theorem acquire_lockHeld_same (s : State) (l : LockName) (n w g : Nat) (remote : Bool) :
    (s.acquire l n w g remote).lockHeld l = some ⟨l, n, remote, false, w, g⟩ := by
  have hnone : (s.locks.filter (fun h => !(h.name == l && (!h.timedOut || h.ctx == n)))).find?
      (fun h => h.name == l && !h.timedOut) = none := by
    rw [List.find?_eq_none]
    intro h hm
    have hh := (List.mem_filter.1 hm).2
    revert hh
    cases h.name == l <;> cases h.timedOut <;> simp
  rw [State.lockHeld, acquire_locks, List.find?_append, hnone]
  simp

theorem acquire_lockHeld_other (s : State) {l k : LockName} (hk : k ≠ l) (n w g : Nat) (remote : Bool) :
    (s.acquire l n w g remote).lockHeld k = s.lockHeld k := by
  rw [State.lockHeld, acquire_locks, List.find?_append, find_filter_other _ _ (fun h hh => by simp [hh, hk])]
  simp [State.lockHeld, Ne.symm hk]

theorem lockTaken_holds : lockTaken := by
  rintro s l n w g remote t rfl
  refine ⟨acquire_lockHeld_same .., fun k hk => acquire_lockHeld_other s hk .., ?_, ?_⟩
  · exact (dueAt_of_timers (showLock_frame ..).2.1 _).trans (dueAt_arm_same ..)
  · rintro k rfl
    have hheld := acquire_lockHeld_same s (.sem k) n.toNat w g remote
    rw [State.acquire, lockHeld_showLock] at hheld
    exact showSem_some k hheld n.isLt

/-- A lock taken away: its own name's holders but one are none, so none is left. -/
theorem lockHeld_none_of_only {s : State} {l : LockName} {h : HeldLock} (hone : oneHolder s) (hl : s.lockHeld l = some h)
    {ls : List HeldLock} (hls : ∀ x ∈ ls, x.name = l → x.timedOut = false → x ∈ s.locks ∧ x ≠ h) :
    ls.find? (fun x => x.name == l && !x.timedOut) = none := by
  rw [List.find?_eq_none]
  intro x hx hp
  simp only [Bool.and_eq_true, beq_iff_eq, Bool.not_eq_true'] at hp
  obtain ⟨hmem, hne⟩ := hls x hx hp.1 hp.2
  have hh := List.find?_some hl
  have hx' : x ∈ s.locks.filter (fun h => h.name == l && !h.timedOut) := List.mem_filter.2 ⟨hmem, by simp [hp]⟩
  have hh' : h ∈ s.locks.filter (fun h => h.name == l && !h.timedOut) := List.mem_filter.2 ⟨List.mem_of_find?_eq_some hl, hh⟩
  have hlen := hone l
  rcases hf : s.locks.filter (fun h => h.name == l && !h.timedOut) with _ | ⟨y, _ | ⟨z, ls'⟩⟩
  · simp [hf] at hx'
  · rw [hf, List.mem_singleton] at hx' hh'
    exact hne (hx'.trans hh'.symm)
  · simp [hf] at hlen

/-- The locks after the unlocking write of a context. -/
theorem releaseLock_locks (s : State) (l : LockName) (n : Nat) :
    (s.releaseLock l n).locks = s.locks.filter (fun h => !(h.name == l && h.ctx == n)) := by
  unfold State.releaseLock
  dsimp only
  split
  · exact (showLock_frame ..).1
  · rfl

theorem releaseLock_lockHeld_other (s : State) {l k : LockName} (hk : k ≠ l) (n : Nat) :
    (s.releaseLock l n).lockHeld k = s.lockHeld k := by
  rw [State.lockHeld, releaseLock_locks, find_filter_other _ _ (fun h hh => by simp [hh, hk])]
  rfl

theorem lockReleased_holds : lockReleased := by
  rintro s l h t hone hl rfl
  have hh := List.find?_some hl
  have hnone : (s.releaseLock l h.ctx).lockHeld l = none := by
    rw [State.lockHeld, releaseLock_locks]
    refine lockHeld_none_of_only hone hl (fun x hx hname _ => ⟨(List.mem_filter.1 hx).1, ?_⟩)
    rintro rfl
    simp [hname] at hx
  have hheld : (s.lockHeld l).any (fun x => x.ctx == h.ctx) = true := by simp [hl]
  have hrel : s.releaseLock l h.ctx = (({ s with
      locks := s.locks.filter (fun (x : HeldLock) => !(x.name == l && x.ctx == h.ctx)) } : State).disarm (.lock l)).showLock l :=
    if_pos hheld
  refine ⟨hnone, fun k hk => releaseLock_lockHeld_other s hk _, ?_, ?_⟩
  · rw [hrel]
    exact (dueAt_of_timers (showLock_frame ..).2.1 _).trans (dueAt_disarm_same ..)
  · rintro k rfl
    rw [hrel] at hnone ⊢
    rw [lockHeld_showLock] at hnone
    exact showSem_none k hnone

theorem holderUntouched_holds : holderUntouched := by
  intro s l h n hl hn
  have hheld : (s.lockHeld l).any (fun x => x.ctx == n) = false := by simp [hl, hn]
  have hrel : s.releaseLock l n = { s with locks := s.locks.filter (fun (x : HeldLock) => !(x.name == l && x.ctx == n)) } :=
    if_neg (by rw [hheld]; decide)
  rw [hrel]
  refine ⟨?_, rfl, rfl⟩
  obtain ⟨hh, before, after, hlocks, hbefore⟩ := List.find?_eq_some_iff_append.1 hl
  have hkeep : (!(h.name == l && h.ctx == n)) = true := by simp [hn]
  have hnone : (before.filter (fun (x : HeldLock) => !(x.name == l && x.ctx == n))).find? (fun x => x.name == l && !x.timedOut) =
      none := List.find?_eq_none.2 (fun x hx hx' => by
      have hno := hbefore x (List.mem_filter.1 hx).1
      rw [hx'] at hno
      cases hno)
  rw [State.lockHeld]
  dsimp only
  rw [hlocks, List.filter_append, List.find?_append, hnone, List.filter_cons, if_pos hkeep]
  exact List.find?_cons_of_pos (p := fun (x : HeldLock) => x.name == l && !x.timedOut) hh

/-- A list mapped by what changes one holder's state alone. -/
def endHold (h x : HeldLock) : HeldLock := if x == h then { x with timedOut := true } else x

/-- The state in which a lock's timeout is shown. -/
def holdEnded (s : State) (l : LockName) (h : HeldLock) : State :=
  match l with
  | .native g => ({ s with locks := s.locks.map (endHold h) } : State).setSeg g.val { s.seg g.val with tenure := none }
  | .sem _ => { s with locks := s.locks.map (endHold h) }

theorem holdEnded_frame (s : State) (l : LockName) (h : HeldLock) :
    (holdEnded s l h).locks = s.locks.map (endHold h) ∧ (holdEnded s l h).regs = s.regs := by
  cases l <;> exact ⟨rfl, rfl⟩

/-- A lock that times out: what becomes of it is shown, counted at its window and raised (R156). -/
theorem lockTimedOut_eq {s : State} {l : LockName} {h : HeldLock} (hl : s.lockHeld l = some h) : s.lockTimedOut l =
    (let t := ((holdEnded s l h).disarm (.lock l)).showLock l
     (if h.window < 64 then t.bump (WIN_STAT_LOCK_TO h.window) else t).raise 35 0 0) := by
  unfold State.lockTimedOut
  rw [hl]
  cases l <;> rfl

theorem lockTimedOut_locks {s : State} {l : LockName} {h : HeldLock} (hl : s.lockHeld l = some h) :
    (s.lockTimedOut l).locks = s.locks.map (endHold h) := by
  rw [lockTimedOut_eq hl]
  have hshown : (((holdEnded s l h).disarm (.lock l)).showLock l).locks = s.locks.map (endHold h) :=
    (showLock_frame ..).1.trans (holdEnded_frame s l h).1
  refine (raise_only ..).locks.trans ?_
  split
  · exact (State.put_locks ..).trans hshown
  · exact hshown

theorem lockTimedOut_count {s : State} {l : LockName} {h : HeldLock} (hl : s.lockHeld l = some h) (hw : h.window < 64) :
    (s.lockTimedOut l).get (WIN_STAT_LOCK_TO h.window) =
      min (2 ^ (WIN_STAT_LOCK_TO h.window).w - 1) (s.get (WIN_STAT_LOCK_TO h.window) + 1) := by
  have hreg : (WIN_STAT_LOCK_TO h.window).reg < 0x71000 := by
    show 0x70014 + 0x20 * h.window < 0x71000
    omega
  have hblock : evBlock ((WIN_STAT_LOCK_TO h.window).reg / 0x10000) = false := by
    rw [show (WIN_STAT_LOCK_TO h.window).reg / 0x10000 = 7 by simp only [WIN_STAT_LOCK_TO, WIN_STAT]; omega]
    rfl
  have hsame : (((holdEnded s l h).disarm (.lock l)).showLock l).get (WIN_STAT_LOCK_TO h.window) =
      s.get (WIN_STAT_LOCK_TO h.window) := by
    rw [State.get, (showLock_frame ..).2.2 _ hreg]
    exact get_of_regs (holdEnded_frame s l h).2 _
  rw [lockTimedOut_eq hl]
  refine ((raise_only ..).get _ hblock).trans ?_
  rw [if_pos hw]
  refine (get_put_fit _ _ _ (Nat.le_of_ble_eq_true rfl) ?_).trans (by rw [hsame]; rfl)
  exact Nat.lt_of_le_of_lt (Nat.min_le_left ..) (Nat.le_of_ble_eq_true rfl)

/-- What a timeout leaves of the holders. -/
theorem find_endHold_other (ls : List HeldLock) {h : HeldLock} {k : LockName} (hk : h.name ≠ k) :
    (ls.map (endHold h)).find? (fun x => x.name == k && !x.timedOut) = ls.find? (fun x => x.name == k && !x.timedOut) := by
  induction ls with
  | nil => rfl
  | cons x ls ih =>
    by_cases hx : x = h
    · have hself : endHold h x = { h with timedOut := true } := by rw [hx, endHold, if_pos (beq_self_eq_true h)]
      rw [List.map_cons, hself, List.find?_cons_of_neg (by simp), hx, List.find?_cons_of_neg (by simp [hk]), ih]
    · have hsame : endHold h x = x := if_neg (by simpa using hx)
      rw [List.map_cons, hsame, List.find?_cons, List.find?_cons, ih]

theorem lockExpired_holds : lockExpired := by
  rintro s l h t hone hl rfl
  have hh := List.find?_some hl
  have hname : h.name = l := by simp only [Bool.and_eq_true, beq_iff_eq] at hh; exact hh.1
  refine ⟨?_, fun k hk => ?_, ?_, lockTimedOut_count hl⟩
  · rw [State.lockHeld, lockTimedOut_locks hl]
    refine lockHeld_none_of_only hone hl (fun x hx _ hopen => ?_)
    obtain ⟨y, hy, rfl⟩ := List.mem_map.1 hx
    unfold endHold at hopen ⊢
    split at hopen
    · cases hopen
    · next hne => rw [if_neg hne]; exact ⟨hy, by simpa using hne⟩
  · rw [State.lockHeld, lockTimedOut_locks hl]
    exact find_endHold_other _ (by rw [hname]; exact Ne.symm hk)
  · rw [lockTimedOut_locks hl]
    exact List.mem_map.2 ⟨h, List.mem_of_find?_eq_some hl, if_pos (beq_self_eq_true h)⟩

/-! ## One holder (R154) -/

/-- To take, to release and to time out leave at most one holder. -/
theorem holdersKept_holds : holdersKept := by
  intro s l n w g remote hone
  refine ⟨fun k => ?_, fun k => ?_, fun k => ?_⟩
  · rw [acquire_locks, List.filter_append, List.length_append]
    by_cases hk : l = k
    · have hnone : (s.locks.filter (fun h => !(h.name == l && (!h.timedOut || h.ctx == n)))).filter
          (fun h => h.name == k && !h.timedOut) = [] := by
        rw [List.filter_eq_nil_iff]
        intro x hx
        have hx := (List.mem_filter.1 hx).2
        subst hk
        revert hx
        cases x.name == l <;> cases x.timedOut <;> simp
      rw [hnone, List.length_nil, Nat.zero_add]
      exact List.length_filter_le ..
    · rw [List.filter_cons_of_neg (by simp [hk]), List.filter_nil, List.length_nil, Nat.add_zero]
      exact Nat.le_trans (List.filter_sublist.filter _).length_le (hone k)
  · rw [releaseLock_locks]
    exact Nat.le_trans (List.filter_sublist.filter _).length_le (hone k)
  · cases hl : s.lockHeld l with
    | none =>
      have hsame : s.lockTimedOut l = s := by rw [State.lockTimedOut, hl]
      rw [hsame]
      exact hone k
    | some h =>
      have hmap : (fun x : HeldLock => x.name == k && !x.timedOut) ∘ endHold h =
          fun x => (endHold h x).name == k && !(endHold h x).timedOut := rfl
      rw [lockTimedOut_locks hl, ← List.countP_eq_length_filter, List.countP_map, hmap]
      refine Nat.le_trans (List.countP_mono_left (fun x _ hx => ?_)) (List.countP_eq_length_filter ▸ hone k)
      unfold endHold at hx
      split at hx
      · simp at hx
      · exact hx

/-- Settles O48: the rules for the holder of a lock, and for what shows it. -/
theorem locksExclude : Obligations.LocksExclude :=
  ⟨lockTaken_holds, lockReleased_holds, holderUntouched_holds, lockExpired_holds, holdersKept_holds⟩

end Sys2Proof.Claims

/-! PROOFS. Packets of the Flacon queues (R323 to R329). -/

namespace Sys2Proof.Claims

open Sys2Proof.Machine

/-! ## What putting words can change -/

/-- `t` is `s` after words went into queue `q`: the registers read as before, and so does every other queue. -/
def QueueOnly (q : Nat) (s t : State) : Prop :=
  (∃ rg qu qr ti, t = { s with regs := rg, queues := qu, qram := qr, timers := ti }) ∧ (∀ a, t.word a = s.word a) ∧
    ∀ k, k ≠ q → t.queue k = s.queue k

theorem QueueOnly.refl (q : Nat) (s : State) : QueueOnly q s s := ⟨⟨_, _, _, _, rfl⟩, fun _ => rfl, fun _ _ => rfl⟩

theorem QueueOnly.trans {q : Nat} {s t u : State} (h : QueueOnly q s t) (k : QueueOnly q t u) : QueueOnly q s u := by
  obtain ⟨⟨_, _, _, _, rfl⟩, hw, hq⟩ := h
  obtain ⟨⟨_, _, _, _, rfl⟩, kw, kq⟩ := k
  exact ⟨⟨_, _, _, _, rfl⟩, fun a => (kw a).trans (hw a), fun j hj => (kq j hj).trans (hq j hj)⟩

/-- A count advanced by nothing leaves every register as it reads. -/
theorem QueueOnly.bumpBy_zero (q : Nat) (s : State) (f : FRef) : QueueOnly q s (s.bumpBy f 0) := by
  have hsat : satAdd (2 ^ f.w - 1) (s.get f) 0 = s.get f := by
    have := get_lt s f
    unfold satAdd
    omega
  rw [State.bumpBy, hsat]
  exact ⟨⟨_, _, _, _, rfl⟩, fun a => word_put_self s f a, fun _ _ => rfl⟩

theorem QueueOnly.setQueue (q : Nat) (s : State) (x : Queue) : QueueOnly q s (s.setQueue q x) :=
  ⟨⟨_, _, _, _, rfl⟩, fun _ => rfl, fun _ hk => State.setQueue_other s x hk⟩

theorem QueueOnly.ringStore (q : Nat) (s : State) (j back : Nat) (w : Word) : QueueOnly q s (s.ringStore j back w) := by
  unfold State.ringStore
  split
  · exact ⟨⟨_, _, _, _, rfl⟩, fun _ => rfl, fun _ _ => rfl⟩
  · exact .refl q s

theorem QueueOnly.advance (q : Nat) (s : State) (k : Nat) : QueueOnly q s (s.advance q k) := .setQueue q s _

theorem QueueOnly.arm (q : Nat) (s : State) (m : Timer) (k : Nat) : QueueOnly q s (s.arm m k) :=
  ⟨⟨_, _, _, _, rfl⟩, fun _ => rfl, fun _ _ => rfl⟩

theorem QueueOnly.disarm (q : Nat) (s : State) (m : Timer) : QueueOnly q s (s.disarm m) :=
  ⟨⟨_, _, _, _, rfl⟩, fun _ => rfl, fun _ _ => rfl⟩

theorem QueueOnly.get {q : Nat} {s t : State} (h : QueueOnly q s t) (f : FRef) : t.get f = s.get f := by
  rw [State.get, State.get, h.2.1]

theorem QueueOnly.on {q : Nat} {s t : State} (h : QueueOnly q s t) (f : FRef) : t.on f = s.on f := by
  rw [State.on, State.on, h.get]

theorem QueueOnly.ring {q : Nat} {s t : State} (h : QueueOnly q s t) (j : Nat) : t.ring j = s.ring j := by
  rw [State.ring, State.ring, h.get, h.get]

theorem QueueOnly.queueCap {q : Nat} {s t : State} (h : QueueOnly q s t) (j : Nat) : t.queueCap j = s.queueCap j := by
  have hconf : t.ringConflict j = s.ringConflict j := by
    simp only [State.ringConflict, h.on, h.ring]
  have huses : t.usesRing j = s.usesRing j := by rw [State.usesRing, State.usesRing, h.on, hconf]
  rw [State.queueCap, State.queueCap, huses, h.ring]

theorem ringStore_queue (s : State) (q back : Nat) (w : Word) (k : Nat) : (s.ringStore q back w).queue k = s.queue k := by
  unfold State.ringStore
  split <;> rfl

theorem arm_queue (s : State) (m : Timer) (n k : Nat) : (s.arm m n).queue k = s.queue k := by
  rw [State.queue, State.arm_queues, State.queue]

theorem advance_queue (s : State) (q k : Nat) :
    ∃ pos, (s.advance q k).queue q = { s.queue q with wpos := pos } := ⟨_, State.setQueue_same ..⟩

/-! ## Words put (R323, R324) -/

/-- Nothing is dropped from a queue with room. -/
theorem dropOldest_room {cap need : Nat} {ps : List QPacket} (h : (ps.map QPacket.size).sum + need ≤ cap) :
    dropOldest cap need ps = (ps, 0) := by
  cases ps with
  | nil => rfl
  | cons p ps => rw [dropOldest, if_pos h]

/-- A queue's packets with a word appended to the open one. -/
def wordAppended (v : Word) (p : QPacket) : QPacket :=
  if p.isOpen then { p with words := p.words ++ [⟨v, .ok⟩], count := p.count + 1 } else p

/-- A queue with a word stored behind its open packet's words. -/
def wordStored (s : State) (q : Nat) (v : Word) : State :=
  ((s.ringStore q 0 v).setQueue q { (s.ringStore q 0 v).queue q with
    packets := ((s.ringStore q 0 v).queue q).packets.map (wordAppended v) }).advance q 1

theorem wordStored_only (s : State) (q : Nat) (v : Word) : QueueOnly q s (wordStored s q v) :=
  ((QueueOnly.ringStore ..).trans (.setQueue ..)).trans (.advance ..)

theorem wordStored_queue (s : State) (q : Nat) (v : Word) : ∃ pos, (wordStored s q v).queue q =
    { s.queue q with packets := (s.queue q).packets.map (wordAppended v), wpos := pos } := by
  obtain ⟨pos, h⟩ := advance_queue ((s.ringStore q 0 v).setQueue q { (s.ringStore q 0 v).queue q with
    packets := ((s.ringStore q 0 v).queue q).packets.map (wordAppended v) }) q 1
  refine ⟨pos, h.trans ?_⟩
  rw [State.setQueue_same, ringStore_queue]

/-- A word put into an open packet with room for it stands behind its words. -/
theorem putWord_open {s : State} {q : Nat} {p : QPacket} (hret : (s.queue q).retired = false)
    (hopen : (s.queue q).openPacket = some p) (hcount : p.count < 1023)
    (hroom : ((s.queue q).packets.map QPacket.size).sum + 1 ≤ s.queueCap q) (n src : Nat) (v : Word) :
    ∃ t pos, s.putWord q n src v = ⟨t, false, false⟩ ∧ QueueOnly q s t ∧
      t.queue q = { s.queue q with packets := (s.queue q).packets.map (wordAppended v), wpos := pos } := by
  have h0 : QueueOnly q s ((s.bumpBy (QUE_LOSS_LOST q) 0).setQueue q (s.queue q)) :=
    (QueueOnly.bumpBy_zero ..).trans (.setQueue ..)
  have hfull : ¬ (s.queueCap q < ((s.queue q).packets.map QPacket.size).sum + 1) := by omega
  have hlost : ({ s.queue q with packets := (s.queue q).packets, loss := (s.queue q).loss || decide (0 < 0) } : Queue) = s.queue q := by
    simp
  have heq : s.putWord q n src v = ⟨wordStored ((s.bumpBy (QUE_LOSS_LOST q) 0).setQueue q (s.queue q)) q v, false, false⟩ := by
    have hc : (((s.queue q).openPacket.map (·.count)).getD 0 == 1023) = false := by
      rw [hopen]
      exact beq_eq_false_iff_ne.2 (Nat.ne_of_lt hcount)
    have hs : (s.queue q).openPacket.isSome = true := by rw [hopen]; rfl
    unfold State.putWord
    dsimp only
    rw [if_neg (by rw [hret]; decide), if_neg (by rw [hc]; decide), hs, if_pos rfl, dropOldest_room hroom]
    dsimp only
    simp only [hlost, h0.queueCap, if_neg hfull, if_true]
    rfl
  obtain ⟨pos, hq⟩ := wordStored_queue ((s.bumpBy (QUE_LOSS_LOST q) 0).setQueue q (s.queue q)) q v
  rw [State.setQueue_same] at hq
  exact ⟨_, pos, heq, h0.trans (wordStored_only ..), hq⟩

/-- The packet that a producer's first word opens. -/
def newPacket (x : Queue) (n src : Nat) (v : Word) : QPacket :=
  ⟨n, src, x.truncNext.contains (n, src), [⟨v, .ok⟩], 1, true, .ok, true⟩

/-- A queue with a packet opened behind the others by its first word, its timeout to be armed. -/
def packetStarted (s : State) (q n src : Nat) (v : Word) : State :=
  let u := (s.advance q 1).ringStore q 0 v
  u.setQueue q { u.queue q with
    packets := (u.queue q).packets ++ [newPacket (s.queue q) n src v],
    truncNext := (u.queue q).truncNext.filter (fun e => !(e == (n, src))) }

theorem packetStarted_only (s : State) (q n src : Nat) (v : Word) : QueueOnly q s (packetStarted s q n src v) :=
  ((QueueOnly.advance ..).trans (.ringStore ..)).trans (.setQueue ..)

theorem packetStarted_queue (s : State) (q n src : Nat) (v : Word) : ∃ left pos, (packetStarted s q n src v).queue q =
    { s.queue q with packets := (s.queue q).packets ++ [newPacket (s.queue q) n src v], truncNext := left, wpos := pos } := by
  obtain ⟨pos, h⟩ := advance_queue s q 1
  refine ⟨(s.queue q).truncNext.filter (fun e => !(e == (n, src))), pos, (State.setQueue_same ..).trans ?_⟩
  rw [ringStore_queue, h]

/-- The first word of a packet opens it behind the others. -/
theorem putWord_new {s : State} {q : Nat} (hret : (s.queue q).retired = false) (hopen : (s.queue q).openPacket = none)
    (hroom : ((s.queue q).packets.map QPacket.size).sum + 2 ≤ s.queueCap q) (n src : Nat) (v : Word) :
    ∃ t left pos, s.putWord q n src v = ⟨t, (s.queue q).truncNext.contains (n, src), false⟩ ∧ QueueOnly q s t ∧
      t.queue q = { s.queue q with
        packets := (s.queue q).packets ++ [newPacket (s.queue q) n src v], truncNext := left, wpos := pos } := by
  have h0 : QueueOnly q s ((s.bumpBy (QUE_LOSS_LOST q) 0).setQueue q (s.queue q)) :=
    (QueueOnly.bumpBy_zero ..).trans (.setQueue ..)
  have hfull : ¬ (s.queueCap q < ((s.queue q).packets.map QPacket.size).sum + 2) := by omega
  have hlost : ({ s.queue q with packets := (s.queue q).packets, loss := (s.queue q).loss || decide (0 < 0) } : Queue) = s.queue q := by
    simp
  have heq : ∃ k, s.putWord q n src v =
      ⟨((packetStarted ((s.bumpBy (QUE_LOSS_LOST q) 0).setQueue q (s.queue q)) q n src v).advance q 1).arm (.openPkt q) k,
        (s.queue q).truncNext.contains (n, src), false⟩ := by
    have hs : (s.queue q).openPacket.isSome = false := by rw [hopen]; rfl
    unfold State.putWord
    dsimp only
    rw [if_neg (by rw [hret]; decide), if_neg (by rw [hopen]; decide), hs, if_neg Bool.false_ne_true, dropOldest_room hroom]
    dsimp only
    simp only [hlost, h0.queueCap, if_neg hfull, Bool.false_eq_true, if_false]
    rw [packetStarted, State.setQueue_same]
    exact ⟨_, rfl⟩
  obtain ⟨k, heq⟩ := heq
  have hu : ((s.bumpBy (QUE_LOSS_LOST q) 0).setQueue q (s.queue q)).queue q = s.queue q := State.setQueue_same ..
  generalize (s.bumpBy (QUE_LOSS_LOST q) 0).setQueue q (s.queue q) = u at *
  obtain ⟨left, pos, hq⟩ := packetStarted_queue u q n src v
  obtain ⟨pos', hq'⟩ := advance_queue (packetStarted u q n src v) q 1
  rw [hq, hu] at hq'
  refine ⟨_, left, pos', heq, ((h0.trans (packetStarted_only ..)).trans (.advance ..)).trans (.arm ..), ?_⟩
  rw [arm_queue, hq']

/-- The open packet is the last. -/
theorem openPacket_last {x : Queue} {p : QPacket} {ps : List QPacket} (hps : x.packets = ps ++ [p]) (hopen : p.isOpen = true)
    (hclosed : ∀ y ∈ ps, y.isOpen = false) : x.openPacket = some p := by
  rw [Queue.openPacket, hps, List.find?_append, List.find?_eq_none.2 (fun y hy => by rw [hclosed y hy]; decide)]
  simp [hopen]

/-- What is done to the open packet of a queue alone. -/
theorem map_open_last {p : QPacket} {ps : List QPacket} (f : QPacket → QPacket) (hopen : p.isOpen = true)
    (hclosed : ∀ y ∈ ps, y.isOpen = false) :
    (ps ++ [p]).map (fun y => if y.isOpen then f y else y) = ps ++ [f p] := by
  have hsame : ps.map (fun y => if y.isOpen then f y else y) = ps := by
    refine (List.map_congr_left (fun y hy => if_neg ?_)).trans (List.map_id ps)
    rw [hclosed y hy]
    decide
  rw [List.map_append, hsame, List.map_singleton, if_pos hopen]

/-- The words put into an open packet with room for them stand behind its words. -/
theorem putWords_open {s : State} {q : Nat} {p : QPacket} {ps : List QPacket} (hret : (s.queue q).retired = false)
    (hps : (s.queue q).packets = ps ++ [p]) (hclosed : ∀ x ∈ ps, x.isOpen = false) (hopen : p.isOpen = true) (ws : List Word)
    (hcount : p.count + ws.length ≤ 1023)
    (hroom : ((s.queue q).packets.map QPacket.size).sum + ws.length ≤ s.queueCap q) (n src : Nat) :
    ∃ t pos, s.putWords q n src ws = (t, false) ∧ QueueOnly q s t ∧
      t.queue q = { s.queue q with wpos := pos, packets := ps ++
        [{ p with words := p.words ++ ws.map (fun w => ⟨w, .ok⟩), count := p.count + ws.length }] } := by
  induction ws generalizing s p with
  | nil =>
    refine ⟨s, (s.queue q).wpos, rfl, .refl q s, ?_⟩
    rw [List.map_nil, List.append_nil, List.length_nil, Nat.add_zero, ← hps]
  | cons w ws ih =>
    have hfind : (s.queue q).openPacket = some p := openPacket_last hps hopen hclosed
    have hmap : (ps ++ [p]).map (wordAppended w) =
        ps ++ [{ p with words := p.words ++ [⟨w, .ok⟩], count := p.count + 1 }] := by
      exact map_open_last (fun y => { y with words := y.words ++ [⟨w, .ok⟩], count := y.count + 1 }) hopen hclosed
    rw [List.length_cons] at hcount hroom
    obtain ⟨t, pos, hput, honly, hq⟩ := putWord_open hret hfind (by omega) (by omega) n src w
    rw [hps, hmap] at hq
    have hsize : ((t.queue q).packets.map QPacket.size).sum = ((s.queue q).packets.map QPacket.size).sum + 1 := by
      rw [hq, hps]
      simp only [List.map_append, List.sum_append, List.map_singleton, List.sum_singleton, QPacket.size, List.length_append,
        List.length_singleton]
      omega
    obtain ⟨u, pos', hputs, honly', hq'⟩ := ih (s := t) (p := { p with words := p.words ++ [⟨w, .ok⟩], count := p.count + 1 })
      (by rw [hq]; exact hret) (by rw [hq]) hopen (by dsimp only; omega) (by rw [hsize, honly.queueCap]; omega)
    refine ⟨u, pos', ?_, honly.trans honly', ?_⟩
    · rw [State.putWords, hput]
      simp only [hputs, Bool.or_false]
    · rw [hq', hq]
      simp only [List.map_cons, List.append_assoc, List.singleton_append, List.length_cons, Nat.add_assoc, Nat.add_comm 1]

theorem packetOpened_holds : packetOpened := by
  rintro s q n src w ws t hopen hret hlen hroom rfl
  obtain ⟨t, left, pos, hput, honly, hq⟩ := putWord_new hret hopen (by omega) n src w
  have hsize : ((t.queue q).packets.map QPacket.size).sum = ((s.queue q).packets.map QPacket.size).sum + 2 := by
    rw [hq]
    simp [QPacket.size, newPacket, ofBool]
  obtain ⟨u, pos', hputs, honly', hq'⟩ := putWords_open (s := t) (ps := (s.queue q).packets) (p := newPacket (s.queue q) n src w)
    (by rw [hq]; exact hret) (by rw [hq]) (by simpa [Queue.openPacket] using hopen) rfl ws
    (by show 1 + ws.length ≤ 1023; omega) (by rw [hsize, honly.queueCap]; omega) n src
  have hall : s.putWords q n src (w :: ws) = (u, false) := by
    rw [State.putWords, hput]
    simp only [hputs, Bool.or_false]
  rw [hall]
  refine ⟨?_, (honly.trans honly').2.2, ?_, rfl⟩
  · rw [hq']
    simp [newPacket, Nat.add_comm]
  · rw [hq', hq]

/-! ## Packets closed (R323) -/

theorem lengthLaid_holds : lengthLaid := by
  intro p hcount hctx hsrc
  have htrunc : ofBool p.trunc < 2 := by cases p.trunc <;> decide
  have hnat : p.lengthWord.toNat = p.count * 4 + p.ctx * 2 ^ 16 + p.src * 2 ^ 24 + ofBool p.trunc * 2 ^ 31 := by
    rw [QPacket.lengthWord, BitVec.toNat_ofNat]
    omega
  refine ⟨?_, ?_, ?_, ?_, ?_, ?_⟩
  · simp only [bits, natBits, hnat]; omega
  · simp only [bits, natBits, hnat]; omega
  · simp only [bits, natBits, hnat]; omega
  · simp only [bits, natBits, hnat]; omega
  · simp only [bits, natBits, hnat]; omega
  · rw [← BitVec.testBit_toNat, hnat, Nat.testBit_eq_decide_div_mod_eq]
    cases p.trunc <;> simp only [ofBool, if_true, Bool.false_eq_true, if_false, decide_eq_true_eq, decide_eq_false_iff_not] <;> omega

/-- A queue with its open packet closed, as it stands before TRUNC is counted. -/
def packetShut (s : State) (q : Nat) (p : QPacket) : State :=
  let u := s.ringStore q (p.count + 1) ({ p with isOpen := false } : QPacket).lengthWord
  (u.setQueue q { u.queue q with
    packets := (u.queue q).packets.map (fun y => if y.isOpen then { p with isOpen := false } else y) }).disarm (.openPkt q)

theorem disarm_queue (s : State) (m : Timer) (k : Nat) : (s.disarm m).queue k = s.queue k := by
  rw [State.queue, State.disarm_queues, State.queue]

theorem packetShut_queue_same (s : State) (q : Nat) (p : QPacket) : (packetShut s q p).queue q = { s.queue q with
    packets := (s.queue q).packets.map (fun y => if y.isOpen then { p with isOpen := false } else y) } := by
  rw [packetShut, disarm_queue, State.setQueue_same, ringStore_queue]

theorem packetShut_queue_other (s : State) {q k : Nat} (p : QPacket) (hk : k ≠ q) : (packetShut s q p).queue k = s.queue k := by
  rw [packetShut, disarm_queue, State.setQueue_other _ _ hk, ringStore_queue]

theorem packetClosed_holds : packetClosed := by
  rintro s q p ps t hps hopen hclosed rfl
  have hbump (u : State) (c : Bool) (f : FRef) (k : Nat) : (if c then u.bump f else u).queue k = u.queue k := by
    split <;> rfl
  have heq : s.closePacket q false = if p.trunc then (packetShut s q p).bump (QUE_LOSS_TRUNC q) else packetShut s q p := by
    unfold State.closePacket
    dsimp only
    rw [openPacket_last hps hopen hclosed]
    dsimp only
    rw [Bool.or_false]
    rfl
  have hpackets : ((s.closePacket q false).queue q).packets = ps ++ [{ p with isOpen := false }] := by
    rw [heq, hbump, packetShut_queue_same, hps]
    exact map_open_last (fun _ => { p with isOpen := false }) hopen hclosed
  refine ⟨hpackets, ?_, fun k hk => ?_⟩
  · rw [Queue.openPacket, hpackets, List.find?_eq_none]
    intro y hy
    rcases List.mem_append.1 hy with hy | hy
    · rw [hclosed y hy]
      decide
    · rw [List.mem_singleton.1 hy]
      exact Bool.false_ne_true
  · rw [heq, hbump, packetShut_queue_other s p hk]

/-! ## Packets taken (R323, R328, R329) -/

/-- Words that the check finds correct are seen as they are. -/
theorem words_seen (ws : List Word) : (ws.map (fun w => (⟨w, .ok⟩ : QWord))).map QWord.seen = ws := by
  rw [List.map_map]
  exact List.map_id _

theorem packetTaken_holds : packetTaken := by
  intro x p ps ws n hitems hpackets hwords hlen hn
  have hall : p.words.length ≤ n - 1 := by
    rw [hwords, List.length_map]
    omega
  refine ⟨fun hopen => ?_, fun hclosed => ?_, fun hclosed hws hecc => ?_⟩
  · have htake (m : Nat) : x.take m = none := by
      rw [Queue.take, hitems, hpackets]
      exact if_pos hopen
    refine ⟨htake n, ?_⟩
    rw [Queue.takeData, Queue.takeDataN, hitems, hpackets]
    simp [hlen, hopen, htake]
  · rw [Queue.take, hitems, hpackets]
    dsimp only
    rw [if_neg (by rw [hclosed]; decide), if_pos hlen, List.take_of_length_le hall, List.drop_of_length_le hall, hwords,
      words_seen, if_pos hlen, hlen]
    simp
  · have hnone : p.words = [] := by rw [hwords, hws, List.map_nil]
    rw [Queue.takeData, Queue.takeDataN, hitems, hpackets]
    simp only [hlen, hclosed, hnone, hecc]
    exact Option.map_id'

/-- Settles O49: words put one after the other by induction, the packet that they make closed and taken. -/
theorem packetsQueued : Obligations.PacketsQueued :=
  ⟨packetOpened_holds, packetClosed_holds, lengthLaid_holds, packetTaken_holds⟩

end Sys2Proof.Claims

/-! PROOFS. Traps of a context (R245, R254). -/

namespace Sys2Proof.Claims

open Sys2Proof.Machine

/-! ## The trace (R486) -/

/-- `t` is `s` after the trace recorded something: only the trace and its registers differ. -/
def TraceOnly (s t : State) : Prop :=
  (∃ rg tr tn tp ta, t = { s with regs := rg, trace := tr, traceNum := tn, tracePost := tp, traceAt := ta }) ∧
    ∀ a, a / 0x10000 ≠ 21 → t.word a = s.word a

theorem TraceOnly.refl (s : State) : TraceOnly s s := ⟨⟨_, _, _, _, _, rfl⟩, fun _ _ => rfl⟩

theorem TraceOnly.trans {s t u : State} (h : TraceOnly s t) (k : TraceOnly t u) : TraceOnly s u := by
  obtain ⟨⟨_, _, _, _, _, rfl⟩, h⟩ := h
  obtain ⟨⟨_, _, _, _, _, rfl⟩, k⟩ := k
  exact ⟨⟨_, _, _, _, _, rfl⟩, fun a ha => (k a ha).trans (h a ha)⟩

theorem TraceOnly.put (s : State) (f : FRef) (v : Nat) (h : f.reg / 0x10000 = 21) : TraceOnly s (s.put f v) :=
  ⟨⟨_, _, _, _, _, rfl⟩, fun _ ha => word_setWord_other s _ (fun e => ha (e ▸ h))⟩

theorem TraceOnly.upd (s : State) (tr tn tp ta) :
    TraceOnly s { s with trace := tr, traceNum := tn, tracePost := tp, traceAt := ta } :=
  ⟨⟨_, _, _, _, _, rfl⟩, fun _ _ => rfl⟩

theorem TraceOnly.kept {s t : State} (h : TraceOnly s t) :
    t.archs = s.archs ∧ t.dmem = s.dmem ∧ t.imem = s.imem ∧ t.ledger = s.ledger ∧ t.queues = s.queues := by
  obtain ⟨⟨_, _, _, _, _, rfl⟩, -⟩ := h
  exact ⟨rfl, rfl, rfl, rfl, rfl⟩

theorem TraceOnly.ite {s a b : State} {c : Prop} [Decidable c] (ha : TraceOnly s a) (hb : TraceOnly s b) :
    TraceOnly s (if c then a else b) := by
  split
  · exact ha
  · exact hb

theorem traceWrite_trace (s : State) (e : List Word) : TraceOnly s (s.traceWrite e) := by
  have tail (t : State) : TraceOnly t (match t.tracePost with
      | none => t
      | some k =>
        if k ≤ 1 then { t.put DBG_TRC_STAT_STOPPED 1 with tracePost := none }
        else { t with tracePost := some (k - 1) }) := by
    split
    · exact .refl t
    · exact .ite ((TraceOnly.put t _ _ (by decide)).trans (.upd _ _ _ _ _)) (.upd _ _ _ _ _)
  have post (t : State) (c : Bool) : TraceOnly t (if c then t.put DBG_TRC_STAT_STOPPED 1 else t) :=
    .ite (.put t _ _ (by decide)) (.refl t)
  have wrap (c : Bool) : TraceOnly s (if c then s.put DBG_TRC_STAT_WRAPPED 1 else s) :=
    .ite (.put s _ _ (by decide)) (.refl s)
  unfold State.traceWrite
  exact (((wrap _).trans (.upd _ _ _ _ _)).trans ((TraceOnly.put _ _ _ (by decide)).trans (post _ _))).trans (tail _)

theorem traceRec_trace (s : State) (k p : Nat) (b : List Word) (d : Word) : TraceOnly s (s.traceRec k p b d) :=
  .ite (.refl s) (.ite (.put s _ _ (by decide)) (traceWrite_trace s _))

/-! ## The capture of a trap (R254) -/

/-- The first trap since VALID was cleared captured. -/
def trapCaptured (s : State) (n cause info : Nat) (pc : Nat) : State :=
  (((s.put (CTX_TRAP0_VALID n) 1).put (CTX_TRAP0_CAUSE n) cause).put (CTX_TRAP1_PC n) pc).put (CTX_TRAP2_INFO n) info

/-- The handler of a context entered. -/
def handlerEntered (s : State) (n cause info : Nat) : State :=
  (s.setArch n { s.arch n with inTrap := true, trapPc := (s.arch n).pc, pc := s.get (CTX_PROG_TRAP_VEC n), lastCause := cause,
                               lastInfo := BitVec.ofNat 32 info }).put (CTX_STAT_IN_TRAP n) 1

/-- A put leaves a field of another register, or of other bits, alone. -/
theorem get_put_of (s : State) {f g : FRef} (v : Nat) (hf : f.lo + f.w ≤ 32)
    (h : g.reg ≠ f.reg ∨ g.lo + g.w ≤ f.lo ∨ f.lo + f.w ≤ g.lo) : (s.put f v).get g = s.get g := by
  refine get_put_apart s f g v hf ?_
  simp only [FRef.apart, Bool.or_eq_true, bne_iff_ne, decide_eq_true_eq]
  rcases h with h | h | h
  · exact .inl (.inl (Ne.symm h))
  · exact .inl (.inr h)
  · exact .inr h

/-- What is counted and traced of a trap. -/
def trapCounted (s : State) (n cause info : Nat) : State :=
  (s.bump (CTX_TRAP0_COUNT n)).traceRec 7 8 [BitVec.ofNat 32 cause, BitVec.ofNat 32 (s.arch n).pc, BitVec.ofNat 32 info,
    BitVec.ofNat 32 n] 0

/-- A trap counted, traced and, where VALID is clear, captured. -/
def trapNoted (s : State) (n cause info : Nat) : State :=
  if s.on (CTX_TRAP0_VALID n) then trapCounted s n cause info
  else trapCaptured (trapCounted s n cause info) n cause info (s.arch n).pc

/-- A field of one bit that is on reads 1. -/
theorem on_eq_one {s : State} {f : FRef} (hf : f.w = 1) (h : s.on f = true) : s.get f = 1 := by
  have hlt := get_lt s f
  simp only [State.on, bne_iff_ne, ne_eq] at h
  rw [hf] at hlt
  omega

section trap
variable (s : State) {n : Nat} (hn : n < 256) (cause info : Nat)

theorem trapCounted_kept :
    (trapCounted s n cause info).archs = s.archs ∧ (trapCounted s n cause info).dmem = s.dmem ∧
    (trapCounted s n cause info).imem = s.imem ∧ (trapCounted s n cause info).ledger = s.ledger ∧
    (trapCounted s n cause info).queues = s.queues := by
  obtain ⟨h1, h2, h3, h4, h5⟩ := (traceRec_trace (s.bump (CTX_TRAP0_COUNT n)) 7 8 [BitVec.ofNat 32 cause,
    BitVec.ofNat 32 (s.arch n).pc, BitVec.ofNat 32 info, BitVec.ofNat 32 n] 0).kept
  exact ⟨h1.trans (State.put_archs ..), h2.trans (State.put_dmem ..), h3.trans (State.put_imem ..),
    h4.trans (State.put_ledger ..), h5.trans (State.put_queues ..)⟩

/-- The capture writes the registers of the trap. -/
theorem trapCaptured_kept (pc : Nat) :
    (trapCaptured s n cause info pc).archs = s.archs ∧ (trapCaptured s n cause info pc).dmem = s.dmem ∧
    (trapCaptured s n cause info pc).imem = s.imem ∧ (trapCaptured s n cause info pc).ledger = s.ledger ∧
    (trapCaptured s n cause info pc).queues = s.queues := by
  unfold trapCaptured
  refine ⟨?_, ?_, ?_, ?_, ?_⟩
  · rw [State.put_archs, State.put_archs, State.put_archs, State.put_archs]
  · rw [State.put_dmem, State.put_dmem, State.put_dmem, State.put_dmem]
  · rw [State.put_imem, State.put_imem, State.put_imem, State.put_imem]
  · rw [State.put_ledger, State.put_ledger, State.put_ledger, State.put_ledger]
  · rw [State.put_queues, State.put_queues, State.put_queues, State.put_queues]

theorem trapNoted_kept :
    (trapNoted s n cause info).archs = s.archs ∧ (trapNoted s n cause info).dmem = s.dmem ∧
    (trapNoted s n cause info).imem = s.imem ∧ (trapNoted s n cause info).ledger = s.ledger ∧
    (trapNoted s n cause info).queues = s.queues := by
  unfold trapNoted
  split
  · exact trapCounted_kept ..
  · rw [(trapCaptured_kept ..).1, (trapCaptured_kept ..).2.1, (trapCaptured_kept ..).2.2.1, (trapCaptured_kept ..).2.2.2.1,
      (trapCaptured_kept ..).2.2.2.2]
    exact trapCounted_kept ..

theorem trapNoted_arch (m : Nat) : (trapNoted s n cause info).arch m = s.arch m := by
  rw [State.arch, State.arch, (trapNoted_kept ..).1]

include hn

/-- A count of a trap changes no word of its context's registers but that of the count. -/
theorem trapCounted_get {f : FRef} {o : Nat} (hf : f.reg = 0xc0000 + o + 0x100 * n) (ho : o < 0x100)
    (hc : o ≠ 0x20 ∨ f.lo + f.w ≤ 16 ∨ 31 ≤ f.lo) : (trapCounted s n cause info).get f = s.get f := by
  have htrace : (trapCounted s n cause info).get f = (s.bump (CTX_TRAP0_COUNT n)).get f := by
    rw [State.get, State.get, trapCounted, (traceRec_trace ..).2 _ (by rw [hf]; omega)]
  refine htrace.trans (get_put_of s _ (Nat.le_of_ble_eq_true rfl) ?_)
  rcases hc with hc | hc | hc
  · refine .inl ?_
    rw [hf, CTX_TRAP0_COUNT, CTX_TRAP0]
    dsimp only
    omega
  · exact .inr (.inl hc)
  · exact .inr (.inr hc)

theorem trapCounted_word {o : Nat} (ho : o < 0x100) (hc : o ≠ 0x20) :
    (trapCounted s n cause info).word (0xc0000 + o + 0x100 * n) = s.word (0xc0000 + o + 0x100 * n) := by
  rw [trapCounted, (traceRec_trace ..).2 _ (by omega)]
  refine word_setWord_other _ _ ?_
  rw [CTX_TRAP0_COUNT, CTX_TRAP0]
  dsimp only
  omega

theorem trapCounted_count : (trapCounted s n cause info).get (CTX_TRAP0_COUNT n) =
    min (2 ^ (CTX_TRAP0_COUNT n).w - 1) (s.get (CTX_TRAP0_COUNT n) + 1) := by
  have htrace : (trapCounted s n cause info).get (CTX_TRAP0_COUNT n) = (s.bump (CTX_TRAP0_COUNT n)).get (CTX_TRAP0_COUNT n) := by
    rw [State.get, State.get, trapCounted, (traceRec_trace ..).2 _ (by rw [CTX_TRAP0_COUNT, CTX_TRAP0]; dsimp only; omega)]
  refine htrace.trans (get_put_fit s _ _ (Nat.le_of_ble_eq_true rfl) ?_)
  exact Nat.lt_of_le_of_lt (Nat.min_le_left ..) (Nat.le_of_ble_eq_true rfl)

omit hn in
/-- The capture leaves the other registers of the context, and the count, alone. -/
theorem trapCaptured_get {f : FRef} {o pc : Nat} (hf : f.reg = 0xc0000 + o + 0x100 * n)
    (hc : (o ≠ 0x20 ∧ o ≠ 0x24 ∧ o ≠ 0x28) ∨ f = CTX_TRAP0_COUNT n) : (trapCaptured s n cause info pc).get f = s.get f := by
  have hput (u : State) (g : FRef) (v : Nat) (hg : g.lo + g.w ≤ 32)
      (h : f.reg ≠ g.reg ∨ f.lo + f.w ≤ g.lo ∨ g.lo + g.w ≤ f.lo) : (u.put g v).get f = u.get f := get_put_of u v hg h
  have hreg (a : Nat) (ha : o ≠ a - 0xc0000) (h : 0xc0000 ≤ a) : f.reg ≠ a + 0x100 * n := by
    rw [hf]
    omega
  rw [trapCaptured]
  rcases hc with ⟨h0, h1, h2⟩ | rfl
  · rw [hput _ _ _ (Nat.le_of_ble_eq_true rfl) (.inl (hreg 0xc0028 h2 (by omega))),
      hput _ _ _ (Nat.le_of_ble_eq_true rfl) (.inl (hreg 0xc0024 h1 (by omega))),
      hput _ _ _ (Nat.le_of_ble_eq_true rfl) (.inl (hreg 0xc0020 h0 (by omega))),
      hput _ _ _ (Nat.le_of_ble_eq_true rfl) (.inl (hreg 0xc0020 h0 (by omega)))]
  · have ho : o = 0x20 := by
      rw [CTX_TRAP0_COUNT, CTX_TRAP0] at hf
      dsimp only at hf
      omega
    subst ho
    rw [hput _ _ _ (Nat.le_of_ble_eq_true rfl) (.inl (hreg 0xc0028 (by omega) (by omega))),
      hput _ _ _ (Nat.le_of_ble_eq_true rfl) (.inl (hreg 0xc0024 (by omega) (by omega))),
      hput _ _ _ (Nat.le_of_ble_eq_true rfl) (.inr (.inr (Nat.le_of_ble_eq_true rfl))),
      hput _ _ _ (Nat.le_of_ble_eq_true rfl) (.inr (.inl (Nat.le_of_ble_eq_true rfl)))]

/-- A noted trap leaves the registers of its context but those of traps alone. -/
theorem trapNoted_get {f : FRef} {o : Nat} (hf : f.reg = 0xc0000 + o + 0x100 * n) (ho : o < 0x100)
    (hc : o ≠ 0x20 ∧ o ≠ 0x24 ∧ o ≠ 0x28) : (trapNoted s n cause info).get f = s.get f := by
  unfold trapNoted
  split
  · exact trapCounted_get s hn cause info hf ho (.inl hc.1)
  · rw [trapCaptured_get _ _ _ hf (.inl hc), trapCounted_get s hn cause info hf ho (.inl hc.1)]

theorem trapNoted_count : (trapNoted s n cause info).get (CTX_TRAP0_COUNT n) =
    min (2 ^ (CTX_TRAP0_COUNT n).w - 1) (s.get (CTX_TRAP0_COUNT n) + 1) := by
  unfold trapNoted
  split
  · exact trapCounted_count s hn cause info
  · rw [trapCaptured_get (o := 0x20) _ _ _ rfl (.inr rfl), trapCounted_count s hn cause info]

/-- A trap whose handler is enabled and not entered enters it (R245). -/
theorem trap_handled (hen : s.on (CTX_PROG_TRAP_EN n) = true) (hin : (s.arch n).inTrap = false)
    (hpc : (s.arch n).pc < 16384) : s.trap n cause info = handlerEntered (trapNoted s n cause info) n cause info := by
  have hvalid : (trapCounted s n cause info).on (CTX_TRAP0_VALID n) = s.on (CTX_TRAP0_VALID n) := by
    rw [State.on, State.on, trapCounted_get (o := 0x20) s hn cause info rfl (by omega) (.inr (.inr (Nat.le_of_ble_eq_true rfl)))]
  have hnoted : (if (trapCounted s n cause info).on (CTX_TRAP0_VALID n) then trapCounted s n cause info
      else
        let f := if (s.arch n).pc < 16384 then (BitVec.ofNat 32 (s.arch n).pc, trapCounted s n cause info)
          else (trapCounted s n cause info).free
        (((f.2.put (CTX_TRAP0_VALID n) 1).put (CTX_TRAP0_CAUSE n) cause).put (CTX_TRAP1_PC n) f.1.toNat).put
          (CTX_TRAP2_INFO n) info) = trapNoted s n cause info := by
    have hnat : (BitVec.ofNat 32 (s.arch n).pc).toNat = (s.arch n).pc := by
      rw [BitVec.toNat_ofNat]
      omega
    rw [hvalid, if_pos hpc]
    dsimp only
    rw [hnat]
    rfl
  have hen' : (trapNoted s n cause info).on (CTX_PROG_TRAP_EN n) = true := by
    rw [State.on, trapNoted_get (o := 0xc) s hn cause info rfl (by omega) (by omega)]
    exact hen
  unfold State.trap
  change (let s' := (if (trapCounted s n cause info).on (CTX_TRAP0_VALID n) then trapCounted s n cause info
      else
        let f := if (s.arch n).pc < 16384 then (BitVec.ofNat 32 (s.arch n).pc, trapCounted s n cause info)
          else (trapCounted s n cause info).free
        (((f.2.put (CTX_TRAP0_VALID n) 1).put (CTX_TRAP0_CAUSE n) cause).put (CTX_TRAP1_PC n) f.1.toNat).put
          (CTX_TRAP2_INFO n) info)
    let a := { s'.arch n with lastCause := cause, lastInfo := BitVec.ofNat 32 info }
    if s'.on (CTX_PROG_TRAP_EN n) && !a.inTrap then
      (s'.setArch n { a with inTrap := true, trapPc := a.pc, pc := s'.get (CTX_PROG_TRAP_VEC n) }).put (CTX_STAT_IN_TRAP n) 1
    else (s'.setArch n a).halt n cause) = _
  rw [hnoted]
  dsimp only
  rw [if_pos (by rw [hen', trapNoted_arch, hin]; rfl)]
  rfl

end trap

/-- What the capture shows (R254). -/
theorem trapCaptured_shown (s : State) (n : Nat) {cause info pc : Nat} (hcause : cause < 32) (hinfo : info < 2 ^ 32)
    (hpc : pc < 16384) :
    (trapCaptured s n cause info pc).get (CTX_TRAP0_VALID n) = 1 ∧
    (trapCaptured s n cause info pc).get (CTX_TRAP0_CAUSE n) = cause ∧
    (trapCaptured s n cause info pc).get (CTX_TRAP1_PC n) = pc ∧ (trapCaptured s n cause info pc).get (CTX_TRAP2_INFO n) = info := by
  have hput (u : State) (f g : FRef) (v : Nat) (hf : f.lo + f.w ≤ 32)
      (h : g.reg ≠ f.reg ∨ g.lo + g.w ≤ f.lo ∨ f.lo + f.w ≤ g.lo) : (u.put f v).get g = u.get g := get_put_of u v hf h
  have h12 : (CTX_TRAP1_PC n).reg ≠ (CTX_TRAP2_INFO n).reg := by
    show 0xc0024 + 0x100 * n ≠ 0xc0028 + 0x100 * n
    omega
  have h02 : (CTX_TRAP0_CAUSE n).reg ≠ (CTX_TRAP2_INFO n).reg := by
    show 0xc0020 + 0x100 * n ≠ 0xc0028 + 0x100 * n
    omega
  have h01 : (CTX_TRAP0_CAUSE n).reg ≠ (CTX_TRAP1_PC n).reg := by
    show 0xc0020 + 0x100 * n ≠ 0xc0024 + 0x100 * n
    omega
  have hle {a b : Nat} (h : Nat.ble a b = true) : a ≤ b := Nat.le_of_ble_eq_true h
  refine ⟨?_, ?_, ?_, get_put_fit _ _ _ (hle rfl) hinfo⟩
  · rw [trapCaptured, hput _ _ (CTX_TRAP0_VALID n) _ (hle rfl) (.inl h02), hput _ _ (CTX_TRAP0_VALID n) _ (hle rfl) (.inl h01),
      hput _ _ _ _ (hle rfl) (.inr (.inr (hle rfl))), get_put_fit _ _ _ (hle rfl) (hle rfl)]
  · rw [trapCaptured, hput _ _ _ _ (hle rfl) (.inl h02), hput _ _ _ _ (hle rfl) (.inl h01), get_put_fit _ _ _ (hle rfl) hcause]
  · rw [trapCaptured, hput _ _ _ _ (hle rfl) (.inl h12), get_put_fit _ _ _ (hle rfl) hpc]

section entered
variable (s : State) (n cause info : Nat)

theorem handlerEntered_arch_same : (handlerEntered s n cause info).arch n =
    { s.arch n with inTrap := true, trapPc := (s.arch n).pc, pc := s.get (CTX_PROG_TRAP_VEC n), lastCause := cause,
                    lastInfo := BitVec.ofNat 32 info } := by
  rw [handlerEntered, State.arch, State.put_archs]
  exact State.setArch_same ..

theorem handlerEntered_arch_other {m : Nat} (hm : m ≠ n) : (handlerEntered s n cause info).arch m = s.arch m := by
  rw [handlerEntered, State.arch, State.put_archs]
  exact State.setArch_other _ _ hm

theorem handlerEntered_kept :
    (handlerEntered s n cause info).dmem = s.dmem ∧ (handlerEntered s n cause info).imem = s.imem ∧
    (handlerEntered s n cause info).ledger = s.ledger ∧ (handlerEntered s n cause info).queues = s.queues := by
  unfold handlerEntered
  refine ⟨?_, ?_, ?_, ?_⟩
  · rw [State.put_dmem, State.setArch_dmem]
  · rw [State.put_imem, State.setArch_imem]
  · rw [State.put_ledger, State.setArch_ledger]
  · rw [State.put_queues, State.setArch_queues]

/-- To enter the handler changes no register but CTX_STAT.IN_TRAP. -/
theorem handlerEntered_get {f : FRef} (h : f.reg ≠ CTX_STAT n ∨ f.lo + f.w ≤ 12 ∨ 13 ≤ f.lo) :
    (handlerEntered s n cause info).get f = s.get f := by
  rw [handlerEntered, get_put_of _ _ (Nat.le_of_ble_eq_true rfl) h]
  exact get_of_regs (State.setArch_regs ..) _

theorem handlerEntered_word {a : Nat} (h : a ≠ CTX_STAT n) : (handlerEntered s n cause info).word a = s.word a := by
  rw [handlerEntered]
  refine (word_setWord_other _ _ h).trans ?_
  exact word_of_regs (State.setArch_regs ..) a

theorem handlerEntered_inTrap : (handlerEntered s n cause info).get (CTX_STAT_IN_TRAP n) = 1 :=
  get_put_fit _ _ _ (Nat.le_of_ble_eq_true rfl) (Nat.le_of_ble_eq_true rfl)

end entered

theorem trapHandled_holds : trapHandled := by
  rintro s n cause info a t rfl hen hin hpc hcause hinfo rfl
  rw [trap_handled s n.isLt cause info hen hin hpc]
  obtain ⟨-, hdmem, himem, hledger, hqueues⟩ := trapNoted_kept s cause info (n := n.val)
  obtain ⟨hdmem', himem', hledger', hqueues'⟩ := handlerEntered_kept (trapNoted s n.val cause info) n.val cause info
  have hreg (f : FRef) (o : Nat) (hf : f.reg = 0xc0000 + o + 0x100 * n.val) (ho : o ≠ 4) : f.reg ≠ CTX_STAT n.val := by
    rw [hf, CTX_STAT]
    omega
  have hget (f : FRef) (o : Nat) (hf : f.reg = 0xc0000 + o + 0x100 * n.val) (ho : o ≠ 4) :
      (handlerEntered (trapNoted s n.val cause info) n.val cause info).get f = (trapNoted s n.val cause info).get f :=
    handlerEntered_get _ _ _ _ (.inl (hreg f o hf ho))
  refine ⟨?_, fun m hm => ?_, handlerEntered_inTrap .., ?_, ?_, ?_, fun hv => ?_, fun hv => ?_, hdmem'.trans hdmem,
    himem'.trans himem, hledger'.trans hledger, hqueues'.trans hqueues⟩
  · rw [handlerEntered_arch_same, trapNoted_arch, trapNoted_get (o := 0xc) s n.isLt cause info rfl (by omega) (by omega)]
  · rw [handlerEntered_arch_other _ _ _ _ hm, trapNoted_arch]
  · rw [State.run, State.run, handlerEntered_get _ _ _ _ (.inr (.inl (Nat.le_of_ble_eq_true rfl))),
      trapNoted_get (o := 4) s n.isLt cause info rfl (by omega) (by omega)]
  · rw [hget _ 0x20 rfl (by omega), trapNoted_count s n.isLt cause info]
  · rw [hget _ 0x20 rfl (by omega), trapNoted]
    split
    · next hv =>
      rw [trapCounted_get (o := 0x20) s n.isLt cause info rfl (by omega) (.inr (.inr (Nat.le_of_ble_eq_true rfl)))]
      exact on_eq_one rfl hv
    · exact (trapCaptured_shown _ _ (by omega) hinfo hpc).1
  · obtain ⟨-, hc, hp, hi⟩ := trapCaptured_shown (trapCounted s n.val cause info) n.val (cause := cause) (by omega) hinfo hpc
    rw [hget _ 0x20 rfl (by omega), hget _ 0x24 rfl (by omega), hget _ 0x28 rfl (by omega), trapNoted, if_neg (by rw [hv]; decide)]
    exact ⟨hc, hp, hi⟩
  · have hword (o : Nat) (ho : o < 0x100) (h4 : o ≠ 4) (h20 : o ≠ 0x20) :
        (handlerEntered (trapNoted s n.val cause info) n.val cause info).word (0xc0000 + o + 0x100 * n.val) =
          s.word (0xc0000 + o + 0x100 * n.val) := by
      rw [handlerEntered_word _ _ _ _ (by rw [CTX_STAT]; omega), trapNoted, if_pos hv, trapCounted_word s n.isLt cause info ho h20]
    have hcause' : (handlerEntered (trapNoted s n.val cause info) n.val cause info).get (CTX_TRAP0_CAUSE n.val) =
        s.get (CTX_TRAP0_CAUSE n.val) := by
      rw [hget _ 0x20 rfl (by omega), trapNoted, if_pos hv,
        trapCounted_get (o := 0x20) s n.isLt cause info rfl (by omega) (.inr (.inl (Nat.le_of_ble_eq_true rfl)))]
    exact ⟨hcause', hword 0x24 (by omega) (by omega) (by omega), hword 0x28 (by omega) (by omega) (by omega)⟩

/-- Settles O50: a trap is noted, and then its handler entered. -/
theorem trapsHandled : Obligations.TrapsHandled := trapHandled_holds

end Sys2Proof.Claims

/-! PROOFS. What stands on the pins (R166 to R168, R379, R421). -/

namespace Sys2Proof.Claims

open Sys2Proof.Machine

/-! ## Segments (R166 to R168) -/

/-- A beat is on the bus in the cycle of a job alone. -/
theorem cycle_of_onBus {s : State} {g : Nat} {b : BusBeat} (h : s.onBus g = some b) :
    ∃ a1 a2 a3 a4 a5 a6 a7 a8 a9, (s.seg g).cycle = .job a1 a2 a3 a4 a5 a6 a7 a8 a9 := by
  unfold State.onBus at h
  split at h
  · next hc => exact ⟨_, _, _, _, _, _, _, _, _, hc⟩
  · cases h

theorem cdir_of_onBus {s : State} {g : Nat} {b : BusBeat} (h : s.onBus g = some b) :
    s.cdir g = if s.drivesCad g b then 3 else 2 := by
  obtain ⟨_, _, _, _, _, _, _, _, _, hc⟩ := cycle_of_onBus h
  rw [State.cdir, hc]
  simp only [h, Option.any_some]

theorem segOff_eq (s : State) (g : Nat) (hg : s.hasSeg g = true) :
    s.segOff g = true ↔ s.power ≠ .run ∨ bitAt s.supOut 0 = true ∨ s.segState g = 0 := by
  simp [State.segOff, hg, or_assoc]

/-- The pins of a segment that this device owns. -/
theorem segPins_owner {s : State} {g : Nat} (hon : s.segOff g = false) (hrole : s.get (SEG_STAT_ROLE g) = 2) :
    s.segPins g = ⟨0, s.cdir g, s.on (SEG_CTL_MODE g), !s.grants g, !s.on (SEG_STAT_CRST_ACTIVE g)⟩ := by
  rw [State.segPins, if_neg (by rw [hon]; decide), if_pos hrole]

theorem transceiversSet_holds : transceiversSet := by
  intro s g hg
  refine ⟨fun hoff => if_pos ((segOff_eq s g hg).2 hoff), fun hrun hcore hst => ?_⟩
  have hon : s.segOff g = false := by
    rw [Bool.eq_false_iff, Ne, segOff_eq s g hg]
    simp [hrun, hcore, hst]
  refine ⟨fun hrole => ?_, fun hrole => ?_⟩
  · rw [State.segPins, if_neg (by rw [hon]; decide), if_neg hrole]
    rfl
  · rw [segPins_owner hon hrole]
    refine ⟨rfl, rfl, rfl, fun hidle => ?_, fun b hb hw => ?_, fun b hb hw hat => ?_, fun at_ hgrant => ?_, fun a b spc addr reads hlm => ?_⟩
    · simp [State.cdir, State.grants, hidle]
    · rw [cdir_of_onBus hb, if_pos (by simp [State.drivesCad, hw])]
    · have hno : s.drivesCad g b = false := by
        simp only [State.drivesCad, hw, Bool.false_or, decide_eq_false_iff_not]
        omega
      rw [cdir_of_onBus hb, hno]
      rfl
    · simp [State.cdir, State.grants, hgrant]
    · simp [State.cdir, hlm]

/-! ## Control balls (R421, R498, R501, R520) -/

theorem controlBalls_hold : controlBalls := by
  intro s
  refine ⟨fun hheld => by simp [State.controlPins, hheld], fun hup => ⟨?_, ?_, ?_⟩⟩
  · simp [State.controlPins, hup]
  · simp [State.controlPins, hup]
  · simp [State.controlPins, hup, State.alerting, List.find?_isSome]

/-! ## Chain lines (R379, R402) -/

theorem chainLines_hold : chainLines := by
  intro s k hk
  have hlow : (s.power != .run || s.chainState k == 0 || decide (s.member.chains ≤ k)) = true ↔
      s.power ≠ .run ∨ s.chainState k = 0 := by
    simp [Nat.not_le.2 hk]
  rw [← hlow, State.chainLine]
  split
  · next h => simp [h]
  · next h => simp [h]

/-- Settles O58: the pins read off the state. -/
theorem pinsStand : Obligations.PinsStand := ⟨transceiversSet_holds, controlBalls_hold, chainLines_hold⟩

end Sys2Proof.Claims

/-! PROOFS. Register writes that reach their register (R430, R434, R437, R438): the word stored, and what the commands of
the ports, the Accord and the lanes do beyond it. -/

namespace Sys2Proof.Claims

open Sys2Proof.Machine

/-! ## A write that reaches its register -/

/-- A condition under which every write reaches its register. -/
def Admitting (ok : Admits) : Prop := ∀ s b a v, ok s b a v = true → s.reaches b a v = true

theorem admitting_reaches : Admitting State.reaches := fun _ _ _ _ h => h

theorem admitting_mayWrite : Admitting mayWrite := by
  intro s b a v h
  simp only [mayWrite, Bool.and_eq_true] at h
  obtain ⟨⟨⟨⟨⟨hrow, hsel⟩, hpres⟩, hctx⟩, hsrc⟩, hguard⟩ := h
  have hfree : s.guards b a v = false := by
    rw [State.guards]
    revert hguard
    cases (fieldsOf a).any (·.guarded) <;> cases isInn b <;> cases s.ownsGuard b.ctx.toNat <;> simp
  simp only [State.reaches, hrow, hsel, hpres, hctx, hsrc, hfree, Bool.and_self, Bool.not_false]

section wrote
variable {s : State} {b : By} {a : Nat} {v : Word}

/-- A write that reaches its register, by what it does beyond its word. -/
theorem actDrain_doWrite (hrun : s.power = .run) (h : s.reaches b a v = true) {f : State → State}
    (hf : (s.admitted b a).written (s.stored b a v) b false a v = (f (s.stored b a v), stSC)) :
    s.actDrain (fun u => u.doWrite b a v) = .next (wrote s b a v f) := by
  rw [actDrain_run hrun, doWrite_reaches h, hf]
  rfl

/-- A write of one field that reaches its register, by what it does beyond its word. -/
theorem actDrain_doPut {r : FRef} {x : Nat} (hrun : s.power = .run) (h : s.reaches b r.reg (s.putWordOf r x) = true) {f : State → State}
    (hf : (s.admitted b r.reg).written (s.stored b r.reg (s.putWordOf r x)) b false r.reg (s.putWordOf r x) =
      (f (s.stored b r.reg (s.putWordOf r x)), stSC)) :
    s.actDrain (fun u => u.doPut b r x) = .next (wrote s b r.reg (s.putWordOf r x) f) := by
  rw [actDrain_run hrun, doPut_eq, doWrite_reaches h, hf]
  rfl

/-- What neither the storing of a word nor the guard changes. -/
theorem stored_frame (s : State) (b : By) (a : Nat) (v : Word) :
    ∃ rg tm ds rs, s.stored b a v = { s with regs := rg, timers := tm, dirtySince := ds, restarts := rs } :=
  (stored_only s b a v).1

theorem admitted_get (s : State) (b : By) (a : Nat) {f : FRef} (h2 : f.reg / 0x10000 ≠ 2) :
    (s.admitted b a).get f = s.get f := by
  rw [State.get, State.get, (admitted_only s b a (f.reg + 1)).2 _ (by omega) h2]

theorem stored_on (s : State) (b : By) (a : Nat) (v : Word) {f : FRef} (h : f.reg ≠ a) (h2 : f.reg / 0x10000 ≠ 2) :
    (s.stored b a v).on f = s.on f := by
  rw [State.on, State.on, stored_get s b a v f h h2]

theorem stored_links (s : State) (b : By) (a : Nat) (v : Word) : (s.stored b a v).links = s.links := by
  obtain ⟨_, _, _, _, h⟩ := stored_frame s b a v
  rw [h]

theorem stored_phase (s : State) (b : By) (a : Nat) (v : Word) (p : Nat) : (s.stored b a v).phase p = s.phase p := by
  rw [State.phase, State.phase, State.link, State.link, stored_links]

end wrote

/-- A plainly writable field takes what is written to it, held to its range (R7). -/
theorem stored_rw {s : State} {b : By} {f : FRef} {v : Word} {g : FRow} (hg : g ∈ fieldsOf f.reg) (hlo : g.lo = f.lo)
    (hw : g.w = f.w) (hacc : g.acc = .rw) (hadj : ∀ old new, bits (s.adjust f.reg old new) f.lo f.w = bits new f.lo f.w)
    (h2 : f.reg / 0x10000 ≠ 2) : (s.stored b f.reg v).get f = max g.min (min g.max (bits v f.lo f.w)) := by
  obtain ⟨-, -, hrw, -⟩ := fieldsWritten_holds f.reg (s.word f.reg) v _ rfl g hg
  rw [State.get, stored_word s b f.reg v h2, State.newWord, hadj, ← hlo, ← hw]
  exact hrw hacc

/-- The bit of a command in the word that a write of 1 to it gives. -/
theorem one_bit (s : State) {f : FRef} (hw : f.w = 1) (hlo : f.lo < 32) : bits (one s f) f.lo 1 = 1 := by
  have h := putWordOf_bits s f 1 (by omega) (by rw [hw]; decide)
  rwa [hw] at h

/-! ## The rows of the registers that are written

One evaluation of the register table for all the rows that the clauses read. -/

/-- The command bits that a write of another bit of their register leaves zero: register, low bit and width. -/
def commandBits : List (Nat × Nat × Nat) :=
  [(ACC_CH_CMD 0, 0, 1), (LL_CMD 0, 0, 1), (LL_CMD 0, 1, 1), (LL_CMD 0, 2, 1), (LN_INJ 0, 0, 1), (LN_INJ 0, 1, 1), (SEG_CMD 0, 0, 1),
   (SEG_CMD 0, 4, 4), (CTX_CMD 0, 0, 1), (CTX_CMD 0, 1, 1), (NRG_CMD, 0, 1), (NRG_CMD, 1, 1), (SEC_FUSE_CMD, 0, 1),
   (SEC_FUSE_CMD, 1, 1), (CRP_TB_CMD, 1, 1)]

theorem tableRows :
    ((∀ c : Fin 3, regRow (ACC_CH_CMD c.val) = regRow (ACC_CH_CMD 0)) ∧ (∀ k : Fin 10, regRow (LN_INJ k.val) = regRow (LN_INJ 0)) ∧
      (∀ q : Fin 5, regRow (LL_CMD q.val) = regRow (LL_CMD 0)) ∧ (∀ g : Fin 4, regRow (SEG_CMD g.val) = regRow (SEG_CMD 0)) ∧
      ∀ n : BitVec 8, regRow (CTX_CMD n.toNat) = regRow (CTX_CMD 0)) ∧
    (∀ x ∈ commandBits, commandField x.1 x.2.1 x.2.2 = true) ∧
    (∀ k : Fin 10, (⟨0, 2, .rw, 0, true, true, 0, 3⟩ : FRow) ∈ fieldsOf (LN_CTL k.val)) ∧
    (⟨0, 10, .w1s, 0, true, false, 0, 1023⟩ : FRow) ∈ fieldsOf ARB_COMMIT ∧
    ∀ j : Fin 16, fieldsOf (EVT_PEND j.val) = [⟨0, 32, .w1c, 0, false, false, 0, 4294967295⟩] := by decide +kernel

/-- The registers of a kind have the fields of the first's. -/
theorem regRow_alike : (∀ c : Fin 3, regRow (ACC_CH_CMD c.val) = regRow (ACC_CH_CMD 0)) ∧
    (∀ k : Fin 10, regRow (LN_INJ k.val) = regRow (LN_INJ 0)) ∧ (∀ q : Fin 5, regRow (LL_CMD q.val) = regRow (LL_CMD 0)) ∧
    (∀ g : Fin 4, regRow (SEG_CMD g.val) = regRow (SEG_CMD 0)) ∧ ∀ n : BitVec 8, regRow (CTX_CMD n.toNat) = regRow (CTX_CMD 0) :=
  tableRows.1

theorem regRow_chCmd (c : Fin 3) : regRow (ACC_CH_CMD c.val) = regRow (ACC_CH_CMD 0) := regRow_alike.1 c

theorem regRow_lnInj (k : Fin 10) : regRow (LN_INJ k.val) = regRow (LN_INJ 0) := regRow_alike.2.1 k

theorem regRow_llCmd (q : Fin 5) : regRow (LL_CMD q.val) = regRow (LL_CMD 0) := by
  obtain ⟨-, -, hport, -, -⟩ := regRow_alike
  exact hport q

theorem commandBits_command {a lo w : Nat} (h : (a, lo, w) ∈ commandBits) : commandField a lo w = true := by
  obtain ⟨-, hall, -⟩ := tableRows
  exact hall _ h

theorem fieldsOf_lnCtl (k : Fin 10) : (⟨0, 2, .rw, 0, true, true, 0, 3⟩ : FRow) ∈ fieldsOf (LN_CTL k.val) := by
  obtain ⟨-, -, hall, -⟩ := tableRows
  exact hall k

theorem fieldsOf_arbCommit : (⟨0, 10, .w1s, 0, true, false, 0, 1023⟩ : FRow) ∈ fieldsOf ARB_COMMIT := by
  obtain ⟨-, -, -, h, -⟩ := tableRows
  exact h

theorem fieldsOf_evtPend (j : Fin 16) :
    fieldsOf (EVT_PEND j.val) = [⟨0, 32, .w1c, 0, false, false, 0, 4294967295⟩] := by
  obtain ⟨-, -, -, -, hall⟩ := tableRows
  exact hall j

/-! ## Host ports (R60) -/

section hostPorts
variable {ok : Admits} (hok : Admitting ok)
include hok

theorem hostPortEnabled_of : hostPortEnabled ok := by
  intro s b p v hrun h
  refine (exec_hpCtlEn b p v s).trans (actDrain_doWrite hrun (hok _ _ _ _ h) ?_)
  have hblock : HP_CTL p.val / 0x10000 = 4 := by rw [HP_CTL]; omega
  have hp : (HP_CTL p.val - 0x40000) / 0x4000 = p.val := by rw [HP_CTL]; omega
  unfold State.written
  simp only [hblock, hp, if_true]

end hostPorts

/-! ## The Accord (R120, R126, R127, R134) -/

/-- The channel whose command register stands at an address. -/
theorem find_chCmd (c : Fin 3) : (List.range 3).find? (fun k => ACC_CH_CMD k == ACC_CH_CMD c.val) = some c.val := by
  revert c
  decide

theorem written_chCmd (old s : State) (b : By) (p : Bool) (c : Fin 3) (v : Word) (hb : votedOrInn b = true) :
    State.written old s b p (ACC_CH_CMD c.val) v =
      (((s.zero (ACC_CH_CMD_EXCLUDE c.val)).zero (ACC_CH_CMD_REJOIN c.val)).chCommand c.val (bits v 0 1 == 1) (bits v 1 1 == 1), stSC) := by
  have hreg : ACC_CH_CMD c.val = 0x60020 + 4 * c.val := rfl
  rw [written_acc _ _ _ _ _ _ (by rw [hreg]; omega), State.accWritten, if_neg (by rw [ACC_REC]; omega), if_neg (by rw [ACC_CTL]; omega),
    find_chCmd]
  simp only [hb, if_true]

/-- In a write of one of a channel's command bits the other is zero. -/
theorem chCmd_other (s : State) (c : Fin 3) :
    bits (one s (ACC_CH_CMD_REJOIN c.val)) 0 1 = 0 := by
  exact putWordOf_zero s _ 1 0 1 _ (regRow_chCmd c) (commandBits_command (by decide)) (Nat.le_of_ble_eq_true rfl) (.inl (Nat.le_of_ble_eq_true rfl))

/-- One who may unfences a fenced context by its FENCE_ID (R120). -/
theorem unfence_eq {s : State} {b : By} {n id : Nat} (hmay : mayUnfence s b n) (hctx : b.ctx.toNat ≠ n)
    (hid : s.get (CTX_FENCE_FENCE_ID n) = id) (hfenced : s.on (CTX_FENCE_FENCED n) = true) :
    s.unfence b n id =
      (((s.put (CTX_FENCE_FENCED n) 0).put (CTX_FENCE_REASON n) 0).put (CTX_FENCE_REJECTED n) 0, stSC) := by
  have hself : (decide (b.ctx.toNat = n) && n != 0) = false := by simp [hctx]
  unfold State.unfence
  rcases hmay with ⟨hv, hb⟩ | ⟨hv, hb | ⟨c, hb, howner⟩⟩
  · simp [hself, hv, hb, hid, hfenced]
  · simp [hself, hv, hb, hid, hfenced]
  · simp [hself, hv, hb, howner, hid, hfenced]

section accord
variable {ok : Admits} (hok : Admitting ok)
include hok

theorem channelCommands_of : channelCommands ok := by
  intro s b c hrun hb
  refine ⟨fun h => ?_, fun h hst hformed hport => ?_⟩
  · refine (exec_exclude b c s).trans (actDrain_doPut hrun (hok _ _ _ _ h) ?_)
    have hbit : bits (s.putWordOf (ACC_CH_CMD_EXCLUDE c.val) 1) 0 1 = 1 :=
      one_bit s (f := ACC_CH_CMD_EXCLUDE c.val) rfl (Nat.le_of_ble_eq_true rfl)
    refine (written_chCmd _ _ _ _ _ _ hb).trans ?_
    rw [hbit]
    rfl
  · refine (exec_rejoin b c s).trans (actDrain_doPut hrun (hok _ _ _ _ h) ?_)
    have hbit : bits (s.putWordOf (ACC_CH_CMD_REJOIN c.val) 1) 1 1 = 1 :=
      one_bit s (f := ACC_CH_CMD_REJOIN c.val) rfl (Nat.le_of_ble_eq_true rfl)
    have hother : bits (s.putWordOf (ACC_CH_CMD_REJOIN c.val) 1) 0 1 = 0 := chCmd_other s c
    have hget (f : FRef) (hf : f.reg ≠ ACC_CH_CMD c.val) (h2 : f.reg / 0x10000 ≠ 2) :
        (((s.stored b (ACC_CH_CMD c.val) (one s (ACC_CH_CMD_REJOIN c.val))).zero (ACC_CH_CMD_EXCLUDE c.val)).zero
          (ACC_CH_CMD_REJOIN c.val)).get f = s.get f := by
      rw [State.zero, State.zero, get_put_of _ _ (Nat.le_of_ble_eq_true rfl) (.inl hf),
        get_put_of _ _ (Nat.le_of_ble_eq_true rfl) (.inl hf), stored_get s b _ _ f hf h2]
    have hreg : ACC_CH_CMD c.val = 0x60020 + 4 * c.val := rfl
    have hst' : (((s.stored b (ACC_CH_CMD c.val) (one s (ACC_CH_CMD_REJOIN c.val))).zero (ACC_CH_CMD_EXCLUDE c.val)).zero
        (ACC_CH_CMD_REJOIN c.val)).chState c.val = 2 := by
      refine (hget (ACC_CH_STAT_STATE c.val) ?_ ?_).trans hst
      · show 0x60030 + 0x4 * c.val ≠ _
        omega
      · show (0x60030 + 0x4 * c.val) / 0x10000 ≠ 2
        omega
    have hformed' : (((s.stored b (ACC_CH_CMD c.val) (one s (ACC_CH_CMD_REJOIN c.val))).zero (ACC_CH_CMD_EXCLUDE c.val)).zero
        (ACC_CH_CMD_REJOIN c.val)).on ACC_STAT_FORMED = true := by
      rw [State.on, hget _ (by show 0x60004 ≠ _; omega) (by decide)]
      exact hformed
    have hport' : (((s.stored b (ACC_CH_CMD c.val) (one s (ACC_CH_CMD_REJOIN c.val))).zero (ACC_CH_CMD_EXCLUDE c.val)).zero
        (ACC_CH_CMD_REJOIN c.val)).portState c.val = 2 := by
      have hstat : portStateRef c.val = HP_STAT_STATE c.val := if_pos c.isLt
      rw [State.portState, hstat] at hport ⊢
      refine (hget _ ?_ ?_).trans hport
      · show 0x40004 + 0x4000 * c.val ≠ _
        omega
      · show (0x40004 + 0x4000 * c.val) / 0x10000 ≠ 2
        omega
    refine (written_chCmd _ _ _ _ _ _ hb).trans ?_
    rw [hother, hbit, State.chCommand, if_neg (by decide)]
    refine congrArg (·, stSC) (if_pos ?_)
    simp only [Bool.and_eq_true, beq_iff_eq, true_and]
    exact ⟨⟨hst', hformed'⟩, hport'⟩

theorem highCleared_of : highCleared ok := by
  intro s b hrun h
  refine (exec_highClr b s).trans (actDrain_doPut hrun (hok _ _ _ _ h) ?_)
  have hbit : bits (s.putWordOf ACC_REC_HIGH_CLR 1) 31 1 = 1 := one_bit s (f := ACC_REC_HIGH_CLR) rfl (by decide)
  refine (written_acc _ _ _ _ _ _ rfl).trans ?_
  rw [State.accWritten, if_pos (show ACC_REC_HIGH_CLR.reg = ACC_REC from rfl), if_pos hbit]

theorem unfenced_of : unfenced ok := by
  intro s b n id hrun hn hctx hmay h hid hfenced
  refine (exec_ctxUnfence b n id s).trans (actDrain_doPut hrun (hok _ _ _ _ h) ?_)
  have hn := n.isLt
  have hblock : CTX_UNFENCE n.toNat / 0x10000 = 12 := by rw [CTX_UNFENCE]; omega
  have hnum : (CTX_UNFENCE n.toNat - 0xc0000) / 0x100 = n.toNat := by rw [CTX_UNFENCE]; omega
  have hval : bits (s.putWordOf (CTX_UNFENCE_FENCE_ID n.toNat) id.toNat) 0 8 = id.toNat :=
    putWordOf_bits s (CTX_UNFENCE_FENCE_ID n.toNat) id.toNat (Nat.le_of_ble_eq_true rfl) id.isLt
  have hreg : CTX_UNFENCE n.toNat = 0xc0048 + 0x100 * n.toNat := rfl
  obtain ⟨u, hu⟩ : ∃ u, u = (s.stored b (CTX_UNFENCE n.toNat) (s.putWordOf (CTX_UNFENCE_FENCE_ID n.toNat) id.toNat)).zero
    (CTX_UNFENCE_FENCE_ID n.toNat) := ⟨_, rfl⟩
  have hget (f : FRef) (o : Nat) (hf : f.reg = 0xc0000 + o + 0x100 * n.toNat) (ho : o ≠ 0x48 ∧ o < 0x100) : u.get f = s.get f := by
    rw [hu, State.zero, get_put_of _ _ (Nat.le_of_ble_eq_true rfl) (.inl (by
      show f.reg ≠ CTX_UNFENCE n.toNat
      omega)), stored_get s b _ _ f (by omega) (by omega)]
  have hvoted : u.isVoted n.toNat = s.isVoted n.toNat := by
    rw [State.isVoted, State.isVoted, State.on, State.on, hget (CTX_VOTE_MODE n.toNat) 0x40 rfl (by omega)]
  have hmay' : mayUnfence u b n.toNat := by
    rwa [mayUnfence, hvoted, hget (CTX_VOTE_OWNER n.toNat) 0x40 rfl (by omega)]
  have hid' : u.get (CTX_FENCE_FENCE_ID n.toNat) = id.toNat := by rwa [hget _ 0x44 rfl (by omega)]
  have hfenced' : u.on (CTX_FENCE_FENCED n.toNat) = true := by
    rw [State.on, hget _ 0x44 rfl (by omega)]
    exact hfenced
  have hw : (s.admitted b (CTX_UNFENCE n.toNat)).written
      (s.stored b (CTX_UNFENCE n.toNat) (s.putWordOf (CTX_UNFENCE_FENCE_ID n.toNat) id.toNat)) b false (CTX_UNFENCE n.toNat)
      (s.putWordOf (CTX_UNFENCE_FENCE_ID n.toNat) id.toNat) = u.unfence b n.toNat id.toNat := by
    unfold State.written
    simp only [hblock, hnum, if_true, hval, ← hu]
  refine hw.trans ?_
  rw [unfence_eq hmay' (fun e => hctx (BitVec.eq_of_toNat_eq e)) hid' hfenced', hu]
  rfl

end accord

/-! ## Lanes and links (R75, R87 to R95) -/

section laneWritten
variable (old s : State) (b : By) (p : Bool) (k : Fin 10) (v : Word)

/-- What a write of a lane register does beyond its word is what the registers of that lane do. -/
theorem written_laneReg (o : Nat) (ho : o < 0x400) :
    State.written old s b p (0x50000 + o + 0x400 * k.val) v = (old.laneWritten s (0x50000 + o + 0x400 * k.val) v, stSC) :=
  written_lane _ _ _ _ _ _ (by omega)

theorem laneWritten_ctl : old.laneWritten s (LN_CTL k.val) v =
    if (old.prbsSwitched s k.val).get (LN_CTL_MODE k.val) = 1 ∧ old.get (LN_CTL_MODE k.val) ≠ 1 then
      (old.prbsSwitched s k.val).retrain (lanePort k.val) true else old.prbsSwitched s k.val := by
  have ha : LN_CTL k.val = 0x50000 + 0x400 * k.val := rfl
  have hk : (LN_CTL k.val - 0x50000) / 0x400 = k.val := by rw [ha]; omega
  unfold State.laneWritten
  rw [if_pos (by rw [ha]; omega), hk]
  exact if_pos rfl

theorem laneWritten_align : old.laneWritten s (LN_ALIGN k.val) v =
    if bits v 0 1 == 1 && (trains (s.phase (lanePort k.val)) || (s.zero (LN_ALIGN_BITSLIP k.val)).get (LN_CTL_MODE k.val) == 2) then
      ((s.zero (LN_ALIGN_BITSLIP k.val)).incr (LN_ALIGN_SLIP_POS k.val)).put (LN_ALIGN_MATCH k.val) 0
    else s.zero (LN_ALIGN_BITSLIP k.val) := by
  have ha : LN_ALIGN k.val = 0x50010 + 0x400 * k.val := rfl
  have hk : (LN_ALIGN k.val - 0x50000) / 0x400 = k.val := by rw [ha]; omega
  have hphase : (s.zero (LN_ALIGN_BITSLIP k.val)).phase (lanePort k.val) = s.phase (lanePort k.val) := by
    rw [State.phase, State.phase, State.link, State.link, State.zero, State.put_links]
  unfold State.laneWritten
  rw [if_pos (by rw [ha]; omega), hk]
  dsimp only
  rw [if_neg (by rw [ha, LN_CTL]; omega), if_neg (by rw [ha, LN_CTLE]; omega), if_pos rfl, hphase]
  cases s.phase (lanePort k.val) <;> rfl

theorem laneWritten_prbs : old.laneWritten s (LN_PRBS k.val) v =
    if bits v 5 1 = 1 then
      ((old.prbsSwitched (s.zero (LN_PRBS_CLEAR k.val)) k.val).zero (LN_PRBS_SYM_ERR_COUNT k.val)).zero (LN_PRBS_BIT_ERR_COUNT k.val)
    else old.prbsSwitched (s.zero (LN_PRBS_CLEAR k.val)) k.val := by
  have ha : LN_PRBS k.val = 0x50014 + 0x400 * k.val := rfl
  have hk : (LN_PRBS k.val - 0x50000) / 0x400 = k.val := by rw [ha]; omega
  unfold State.laneWritten
  rw [if_pos (by rw [ha]; omega), hk]
  dsimp only
  rw [if_neg (by rw [ha, LN_CTL]; omega), if_neg (by rw [ha, LN_CTLE]; omega), if_neg (by rw [ha, LN_ALIGN]; omega), if_pos rfl]

theorem laneWritten_inj : old.laneWritten s (LN_INJ k.val) v =
    injectMore ((s.zero (LN_INJ_INJECT_ONE k.val)).zero (LN_INJ_INJECT_BURST k.val)) k.val
      (bits v 0 1 + (if bits v 1 1 = 1 then
        ((s.zero (LN_INJ_INJECT_ONE k.val)).zero (LN_INJ_INJECT_BURST k.val)).get (LN_INJ_BURST_LEN k.val) else 0)) := by
  have ha : LN_INJ k.val = 0x50020 + 0x400 * k.val := rfl
  have hk : (LN_INJ k.val - 0x50000) / 0x400 = k.val := by rw [ha]; omega
  unfold State.laneWritten
  rw [if_pos (by rw [ha]; omega), hk]
  dsimp only
  rw [if_neg (by rw [ha, LN_CTL]; omega), if_neg (by rw [ha, LN_CTLE]; omega), if_neg (by rw [ha, LN_ALIGN]; omega),
    if_neg (by rw [ha, LN_PRBS]; omega), if_pos rfl]
  rfl

theorem laneWritten_linkCmd (q : Fin 5) : old.laneWritten s (LL_CMD q.val) v =
    (let t := if bits v 0 1 = 1 then (s.retrain q.val true).zero (LL_CMD_RETRAIN q.val) else s
     let t := if bits v 1 1 = 1 then t.askIdle q.val else t
     if bits v 2 1 = 1 then t.wakePort q.val else t) := by
  have ha : LL_CMD q.val = 0x54014 + 0x100 * q.val := rfl
  have hq : (LL_CMD q.val - 0x54000) / 0x100 = q.val := by rw [ha]; omega
  unfold State.laneWritten
  rw [if_neg (by rw [ha]; omega), hq]
  exact if_pos rfl

end laneWritten

/-- The bits of LL_CMD in a word that sets one of them. -/
theorem linkCmd_bits (s : State) (q : Fin 5) {f : FRef} (hf : f.reg = LL_CMD q.val) (hw : f.w = 1) (hlo : f.lo < 3) :
    ∀ j < 3, bits (s.putWordOf f 1) j 1 = if j = f.lo then 1 else 0 := by
  have hc : ∀ j < 3, commandField (LL_CMD 0) j 1 = true := by
    intro j hj
    refine commandBits_command ?_
    revert j
    decide
  intro j hj
  split
  · next h => rw [h]; exact one_bit s hw (by omega)
  · next h => exact putWordOf_zero s f 1 j 1 (LL_CMD 0) (by rw [hf, regRow_llCmd]) (hc j hj) (by omega) (by omega)

/-- The bits of LN_INJ's commands in a word that sets one of them. -/
theorem inject_bits (s : State) (k : Fin 10) {f : FRef} (hf : f.reg = LN_INJ k.val) (hw : f.w = 1) (hlo : f.lo < 2) :
    ∀ j < 2, bits (s.putWordOf f 1) j 1 = if j = f.lo then 1 else 0 := by
  have hc : ∀ j < 2, commandField (LN_INJ 0) j 1 = true := by
    intro j hj
    refine commandBits_command ?_
    revert j
    decide
  intro j hj
  split
  · next h => rw [h]; exact one_bit s hw (by omega)
  · next h => exact putWordOf_zero s f 1 j 1 (LN_INJ 0) (by rw [hf, regRow_lnInj]) (hc j hj) (by omega) (by omega)

theorem get_ite {c : Prop} [Decidable c] {s t : State} {f : FRef} {x : Nat} (hs : s.get f = x) (ht : t.get f = x) :
    (if c then s else t).get f = x := by
  split
  · exact hs
  · exact ht

section lanes
variable {ok : Admits} (hok : Admitting ok)
include hok

theorem bitslipMoves_of : bitslipMoves ok := by
  intro s b k hrun h hmay
  refine (exec_bitslip b k s).trans (actDrain_doPut hrun (hok _ _ _ _ h) ?_)
  have hbit : bits (s.putWordOf (LN_ALIGN_BITSLIP k.val) 1) 0 1 = 1 :=
    one_bit s (f := LN_ALIGN_BITSLIP k.val) rfl (Nat.le_of_ble_eq_true rfl)
  have hmode : ((s.stored b (LN_ALIGN k.val) (one s (LN_ALIGN_BITSLIP k.val))).zero (LN_ALIGN_BITSLIP k.val)).get (LN_CTL_MODE k.val) =
      s.get (LN_CTL_MODE k.val) := by
    have hne : (LN_CTL_MODE k.val).reg ≠ LN_ALIGN k.val := by
      show 0x50000 + 0x400 * k.val ≠ 0x50010 + 0x400 * k.val
      omega
    rw [State.zero, get_put_of _ _ (Nat.le_of_ble_eq_true rfl) (.inl hne), stored_get s b _ _ _ hne (by
      show (0x50000 + 0x400 * k.val) / 0x10000 ≠ 2
      omega)]
  refine (written_laneReg _ _ _ _ k _ 0x10 (by omega)).trans (congrArg (·, stSC) ((laneWritten_align _ _ k _).trans (if_pos ?_)))
  have hmay' : (trains (s.phase (lanePort k.val)) || s.get (LN_CTL_MODE k.val) == 2) = true := by
    simpa using hmay
  rw [hbit]
  refine Eq.trans ?_ hmay'
  rw [← hmode]
  exact congrArg (fun x => trains x || _) (stored_phase ..)

theorem linkCommands_of : linkCommands ok := by
  intro s b p hrun
  have hblock (v : Word) (old u : State) : State.written old u b false (LL_CMD p.val) v = (old.laneWritten u (LL_CMD p.val) v, stSC) :=
    written_lane _ _ _ _ _ _ (by rw [LL_CMD]; omega)
  refine ⟨fun h => ?_, fun h => ?_, fun h => ?_⟩
  · have hbits := linkCmd_bits s p (f := LL_CMD_RETRAIN p.val) rfl rfl (Nat.le_of_ble_eq_true rfl)
    refine (exec_retrain b p s).trans (actDrain_doPut hrun (hok _ _ _ _ h) ((hblock _ _ _).trans ?_))
    rw [laneWritten_linkCmd, hbits 0 (by omega), hbits 1 (by omega), hbits 2 (by omega)]
    rfl
  · have hbits := linkCmd_bits s p (f := LL_CMD_EIDLE p.val) rfl rfl (Nat.le_of_ble_eq_true rfl)
    refine (exec_eidle b p s).trans (actDrain_doPut hrun (hok _ _ _ _ h) ((hblock _ _ _).trans ?_))
    rw [laneWritten_linkCmd, hbits 0 (by omega), hbits 1 (by omega), hbits 2 (by omega)]
    rfl
  · have hbits := linkCmd_bits s p (f := LL_CMD_WAKE p.val) rfl rfl (Nat.le_of_ble_eq_true rfl)
    refine (exec_wake b p s).trans (actDrain_doPut hrun (hok _ _ _ _ h) ((hblock _ _ _).trans ?_))
    rw [laneWritten_linkCmd, hbits 0 (by omega), hbits 1 (by omega), hbits 2 (by omega)]
    rfl

theorem injectionsAndClears_of : injectionsAndClears ok := by
  intro s b k hrun
  refine ⟨fun h => ?_, fun h => ?_, fun h => ?_⟩
  · have hbits := inject_bits s k (f := LN_INJ_INJECT_ONE k.val) rfl rfl (Nat.le_of_ble_eq_true rfl)
    refine (exec_injectOne b k s).trans (actDrain_doPut hrun (hok _ _ _ _ h) ((written_laneReg _ _ _ _ k _ 0x20 (by omega)).trans ?_))
    refine congrArg (·, stSC) ((laneWritten_inj _ _ k _).trans ?_)
    rw [hbits 0 (by omega), hbits 1 (by omega)]
    rfl
  · have hbits := inject_bits s k (f := LN_INJ_INJECT_BURST k.val) rfl rfl (Nat.le_of_ble_eq_true rfl)
    refine (exec_injectBurst b k s).trans (actDrain_doPut hrun (hok _ _ _ _ h) ((written_laneReg _ _ _ _ k _ 0x20 (by omega)).trans ?_))
    refine congrArg (·, stSC) ((laneWritten_inj _ _ k _).trans ?_)
    have hlen (u : State) : ((u.zero (LN_INJ_INJECT_ONE k.val)).zero (LN_INJ_INJECT_BURST k.val)).get (LN_INJ_BURST_LEN k.val) =
        u.get (LN_INJ_BURST_LEN k.val) := by
      rw [State.zero, State.zero, get_put_of _ _ (Nat.le_of_ble_eq_true rfl) (.inr (.inr (Nat.le_of_ble_eq_true rfl))),
        get_put_of _ _ (Nat.le_of_ble_eq_true rfl) (.inr (.inr (Nat.le_of_ble_eq_true rfl)))]
    rw [hbits 0 (by omega), hbits 1 (by omega), hlen]
    exact congrArg (injectMore _ k.val) (Nat.zero_add _)
  · have hbit : bits (s.putWordOf (LN_PRBS_CLEAR k.val) 1) 5 1 = 1 :=
      one_bit s (f := LN_PRBS_CLEAR k.val) rfl (Nat.le_of_ble_eq_true rfl)
    refine (exec_prbsClear b k s).trans (actDrain_doPut hrun (hok _ _ _ _ h) ((written_laneReg _ _ _ _ k _ 0x14 (by omega)).trans ?_))
    exact congrArg (·, stSC) ((laneWritten_prbs _ _ k _).trans (if_pos hbit))

omit hok in
/-- A change of a lane's PRBS settings leaves MODE as it is. -/
theorem prbsSwitched_mode (old s : State) (k : Fin 10) : (old.prbsSwitched s k.val).get (LN_CTL_MODE k.val) = s.get (LN_CTL_MODE k.val) := by
  have hlane (u : State) (x : Lane) : (u.setLane k.val x).get (LN_CTL_MODE k.val) = u.get (LN_CTL_MODE k.val) := get_of_regs rfl _
  have hput (u : State) (f : FRef) (v : Nat) (hf : f.lo + f.w ≤ 32) (h : LN_CTL k.val ≠ f.reg) :
      (u.put f v).get (LN_CTL_MODE k.val) = u.get (LN_CTL_MODE k.val) := get_put_of u v hf (.inl h)
  have hlock : LN_CTL k.val ≠ (LN_PRBS_CHK_LOCK k.val).reg := by
    show 0x50000 + 0x400 * k.val ≠ 0x50014 + 0x400 * k.val
    omega
  have hidle : LN_CTL k.val ≠ (LN_STAT_EIDLE_TX k.val).reg := by
    show 0x50000 + 0x400 * k.val ≠ 0x50004 + 0x400 * k.val
    omega
  have hgen (c : Bool) (x : Lane) : (if c then s.setLane k.val x else s).get (LN_CTL_MODE k.val) = s.get (LN_CTL_MODE k.val) :=
    get_ite (hlane _ _) rfl
  have hchk (u : State) (c : Bool) (x : Lane) (hu : u.get (LN_CTL_MODE k.val) = s.get (LN_CTL_MODE k.val)) :
      (if c then (u.setLane k.val x).put (LN_PRBS_CHK_LOCK k.val) 0 else u).get (LN_CTL_MODE k.val) = s.get (LN_CTL_MODE k.val) :=
    get_ite ((hput _ _ _ (Nat.le_of_ble_eq_true rfl) hlock).trans ((hlane _ _).trans hu)) hu
  unfold State.prbsSwitched
  exact get_ite ((hput _ _ _ (Nat.le_of_ble_eq_true rfl) hidle).trans (hchk _ _ _ (hgen _ _))) (hchk _ _ _ (hgen _ _))

theorem modeWritten_of : modeWritten ok := by
  intro s b k m hrun h
  have hval : bits (s.putWordOf (LN_CTL_MODE k.val) m.toNat) 0 2 = m.toNat :=
    putWordOf_bits s (LN_CTL_MODE k.val) m.toNat (Nat.le_of_ble_eq_true rfl) m.isLt
  have hmode : (s.stored b (LN_CTL k.val) (s.putWordOf (LN_CTL_MODE k.val) m.toNat)).get (LN_CTL_MODE k.val) = m.toNat := by
    have hb : LN_CTL k.val / 0x10000 = 5 := by rw [LN_CTL]; omega
    refine (stored_rw (f := LN_CTL_MODE k.val) (fieldsOf_lnCtl k) rfl rfl rfl (fun old new => ?_) (fun e => ?_)).trans ?_
    · simp only [State.adjust, show (LN_CTL_MODE k.val).reg = LN_CTL k.val from rfl, hb]
      rfl
    · exact absurd (hb.symm.trans e) (by decide)
    · have := m.isLt
      rw [show bits (s.putWordOf (LN_CTL_MODE k.val) m.toNat) (LN_CTL_MODE k.val).lo (LN_CTL_MODE k.val).w = m.toNat from hval]
      dsimp only
      omega
  have hold : (s.admitted b (LN_CTL k.val)).get (LN_CTL_MODE k.val) = s.get (LN_CTL_MODE k.val) := by
    refine admitted_get s b _ ?_
    show (0x50000 + 0x400 * k.val) / 0x10000 ≠ 2
    omega
  have hm : m.toNat = 1 ↔ m = 1 := by rw [BitVec.toNat_eq]; rfl
  have hw := laneWritten_ctl (s.admitted b (LN_CTL k.val)) (s.stored b (LN_CTL k.val) (s.putWordOf (LN_CTL_MODE k.val) m.toNat)) k
    (s.putWordOf (LN_CTL_MODE k.val) m.toNat)
  rw [prbsSwitched_mode, hmode, hold] at hw
  refine ⟨fun h1 hne => ?_, fun hno => ?_⟩
  · refine (exec_lnCtlMode b k m s).trans (actDrain_doPut hrun (hok _ _ _ _ h) ((written_laneReg _ _ _ _ k _ 0 (by omega)).trans ?_))
    exact congrArg (·, stSC) (hw.trans (if_pos ⟨hm.2 h1, hne⟩))
  · refine (exec_lnCtlMode b k m s).trans (actDrain_doPut hrun (hok _ _ _ _ h) ((written_laneReg _ _ _ _ k _ 0 (by omega)).trans ?_))
    exact congrArg (·, stSC) (hw.trans (if_neg (fun hc => hno.elim (fun h => h (hm.1 hc.1)) (fun h => hc.2 h))))

end lanes

/-- Settles O54: each of these writes reaches its register under `mayWrite`, and its unit's own rule gives the rest. -/
theorem portWritesComplete : Obligations.PortWritesComplete :=
  ⟨hostPortEnabled_of admitting_mayWrite, channelCommands_of admitting_mayWrite, highCleared_of admitting_mayWrite,
    unfenced_of admitting_mayWrite, bitslipMoves_of admitting_mayWrite, linkCommands_of admitting_mayWrite,
    injectionsAndClears_of admitting_mayWrite, modeWritten_of admitting_mayWrite⟩

/-- Settles O7: the same writes of the lanes and links. -/
theorem laneRegistersCommand : Obligations.LaneRegistersCommand :=
  ⟨bitslipMoves_of admitting_reaches, linkCommands_of admitting_reaches, injectionsAndClears_of admitting_reaches,
    modeWritten_of admitting_reaches⟩

end Sys2Proof.Claims

/-! PROOFS. Writes of the segments, the arbiters and the images that reach their registers (R189, R197, R201, R210,
R346). -/

namespace Sys2Proof.Claims

open Sys2Proof.Machine

/-! ## A command that acts -/

section acts
variable {s : State} {f : State → State} {t : State} (hrun : s.power = .run) (h : f s = t)
include hrun h

theorem actDrain_next : s.actDrain f = .next t.drain := by rw [actDrain_run hrun, h]

theorem actPort_next {p : Nat} (hp : s.hasPort p = true) : s.actPort p f = .next t := by rw [actPort_run hrun hp, h]

theorem actSeg_next {g : Nat} (hg : s.hasSeg g = true) : s.actSeg g f = .next t.drain := by rw [actSeg_run hrun hg, h]

theorem actCour_next {c : Nat} (hc : c < s.member.couriers) : s.actCour c f = .next t := by rw [actCour_run hrun hc, h]

theorem actSpan_next {q : Nat} (hq : q < s.member.spans) : s.actSpan q f = .next t.drain := by rw [actSpan_run hrun hq, h]

end acts

/-! ## Segments (R189, R197, R201) -/

theorem written_seg (old s : State) (b : By) (p : Bool) (g : Fin 4) (o : Nat) (ho : o < 0x10000) (v : Word) :
    State.written old s b p (0x80000 + o + 0x10000 * g.val) v = (s.segWritten g.val (0x80000 + o + 0x10000 * g.val) v, stSC) := by
  have hb : (0x80000 + o + 0x10000 * g.val) / 0x10000 = 8 + g.val := by omega
  unfold State.written
  match g, hb with
  | 0, hb => simp only [hb]; rfl
  | 1, hb => simp only [hb]; rfl
  | 2, hb => simp only [hb]; rfl
  | 3, hb => simp only [hb]; rfl

theorem stored_member (s : State) (b : By) (a : Nat) (v : Word) : (s.stored b a v).member = s.member := by
  obtain ⟨_, _, _, _, h⟩ := stored_frame s b a v
  rw [h]

section segments
variable {ok : Admits} (hok : Admitting ok)
include hok

theorem segmentEnabled_of : segmentEnabled ok := by
  intro s b g v hrun h
  refine (exec_segCtlEn b g v s).trans (actDrain_doWrite hrun (hok _ _ _ _ h) ((written_seg _ _ _ _ g 0 (by omega) v).trans ?_))
  exact congrArg (·, stSC) (if_pos rfl)

omit hok in
/-- What a write of SEG_CMD does beyond its word (R189, R201). -/
theorem segWritten_cmd (s : State) (g : Fin 4) (v : Word) : s.segWritten g.val (SEG_CMD g.val) v =
    (let u := ((List.range 4).filter (fun l => bitAt v.toNat (4 + l))).foldl (fun u l => u.rearm g.val l) (s.zero (SEG_CMD_ARM g.val))
     if bits v 0 1 = 1 then
       if u.on (SEG_STAT_CRST_ACTIVE g.val) then u
       else if u.owns g.val then
         (u.put (SEG_STAT_CRST_ACTIVE g.val) 1).arm (.cardReset g.val) (u.get (SEG_RST_WIDTH g.val) * 1000000)
       else u.zero (SEG_CMD_CARD_RESET g.val)
     else u) := by
  unfold State.segWritten
  rw [if_neg (by rw [SEG_CMD, SEG_CTL]; omega), if_pos rfl]

omit hok in
/-- The lines that ARM names, in ascending order. -/
theorem armed_lines (v : Word) : (List.range 4).filter (fun l => bitAt v.toNat (4 + l)) =
    (List.range 4).filter (fun l => bitAt (bits v 4 4) l) := by
  refine List.filter_congr (fun l hl => ?_)
  rw [bitAt_eq_testBit, bitAt_eq_testBit, bits, natBits_testBit, decide_eq_true (List.mem_range.1 hl), Bool.true_and]

omit hok in
theorem regRow_segCmd (g : Fin 4) : regRow (SEG_CMD g.val) = regRow (SEG_CMD 0) := by
  obtain ⟨-, -, -, hseg, -⟩ := regRow_alike
  exact hseg g

theorem linesArmed_of : linesArmed ok := by
  intro s b g lines hrun h
  have hval : bits (s.putWordOf (SEG_CMD_ARM g.val) lines.toNat) 4 4 = lines.toNat :=
    putWordOf_bits s (SEG_CMD_ARM g.val) lines.toNat (Nat.le_of_ble_eq_true rfl) lines.isLt
  have hzero : bits (s.putWordOf (SEG_CMD_ARM g.val) lines.toNat) 0 1 = 0 :=
    putWordOf_zero s (SEG_CMD_ARM g.val) _ 0 1 _ (regRow_segCmd g) (commandBits_command (by decide)) (Nat.le_of_ble_eq_true rfl)
      (.inl (Nat.le_of_ble_eq_true rfl))
  refine (exec_arm b g lines s).trans (actDrain_doPut hrun (hok _ _ _ _ h) ((written_seg _ _ _ _ g 0xa0 (by omega) _).trans ?_))
  refine congrArg (·, stSC) ((segWritten_cmd _ g _).trans ?_)
  rw [armed_lines, hval, hzero]
  rfl

theorem cardsReset_of : cardsReset ok := by
  intro s u b g hrun
  refine ⟨fun h hidle howns => ?_, fun hg hexp hact => ?_⟩
  · have hbit : bits (s.putWordOf (SEG_CMD_CARD_RESET g.val) 1) 0 1 = 1 :=
      one_bit s (f := SEG_CMD_CARD_RESET g.val) rfl (Nat.le_of_ble_eq_true rfl)
    have hzero : bits (s.putWordOf (SEG_CMD_CARD_RESET g.val) 1) 4 4 = 0 :=
      putWordOf_zero s (SEG_CMD_CARD_RESET g.val) _ 4 4 _ (regRow_segCmd g) (commandBits_command (by decide)) (Nat.le_of_ble_eq_true rfl)
        (.inr (Nat.le_of_ble_eq_true rfl))
    refine (exec_cardReset b g s).trans (actDrain_doPut hrun (hok _ _ _ _ h) ((written_seg _ _ _ _ g 0xa0 (by omega) _).trans ?_))
    refine congrArg (·, stSC) ((segWritten_cmd _ g _).trans ?_)
    obtain ⟨u, hu⟩ : ∃ u, u = (s.stored b (SEG_CMD_CARD_RESET g.val).reg (s.putWordOf (SEG_CMD_CARD_RESET g.val) 1)).zero
        (SEG_CMD_ARM g.val) :=
      ⟨_, rfl⟩
    have hget (f : FRef) (o : Nat) (hf : f.reg = 0x80000 + o + 0x10000 * g.val) (ho : o ≠ 0xa0 ∧ o < 0x10000) : u.get f = s.get f := by
      have hreg : (SEG_CMD_CARD_RESET g.val).reg = 0x800a0 + 0x10000 * g.val := rfl
      rw [hu, State.zero, get_put_of _ _ (Nat.le_of_ble_eq_true rfl) (.inl (by
        show f.reg ≠ SEG_CMD g.val
        rw [SEG_CMD]
        omega)), stored_get s b _ _ f (by omega) (by omega)]
    have hidle' : u.on (SEG_STAT_CRST_ACTIVE g.val) = false := by
      rw [State.on, hget _ 4 rfl (by omega)]
      exact hidle
    have hmember : u.member = s.member := by
      rw [hu, State.zero, State.put_member, stored_member]
    have howns' : u.owns g.val = true := by
      rw [State.owns, State.hasSeg, hmember, hget _ 4 rfl (by omega), hget _ 4 rfl (by omega)]
      exact howns
    rw [armed_lines, hzero, hbit]
    simp only [show ((List.range 4).filter fun l => bitAt 0 l) = [] from rfl, List.foldl_nil, ← hu, if_true, hidle', howns',
      Bool.false_eq_true, if_false, hget (SEG_RST_WIDTH g.val) 0xa4 rfl (by omega)]
  · refine (exec_cardResetEnd g s).trans (actSeg_next hrun ?_ hg)
    rw [State.cardResetOver, hexp]
    exact if_pos hact

end segments

/-! ## Arbiter settings (R346) -/

/-- The sum of the powers of two that a predicate picks has the bits it picks. -/
theorem testBit_sum_filter (p : Nat → Bool) (n : Nat) :
    (((List.range n).filter p).map (fun i => 2 ^ i)).sum < 2 ^ n ∧
      ∀ i < n, (((List.range n).filter p).map (fun i => 2 ^ i)).sum.testBit i = p i := by
  induction n with
  | zero => simp
  | succ n ih =>
    obtain ⟨hlt, hbit⟩ := ih
    rw [List.range_succ, List.filter_append, List.map_append, List.sum_append]
    cases hp : p n with
    | false =>
      simp only [List.filter_cons, hp, Bool.false_eq_true, if_false, List.filter_nil, List.map_nil, List.sum_nil, Nat.add_zero]
      refine ⟨by omega, fun i hi => ?_⟩
      rcases Nat.lt_succ_iff_lt_or_eq.1 hi with h | rfl
      · exact hbit i h
      · rw [hp, Nat.testBit_lt_two_pow hlt]
    | true =>
      simp only [List.filter_cons, hp, if_true, List.filter_nil, List.map_cons, List.map_nil, List.sum_cons, List.sum_nil,
        Nat.add_zero]
      refine ⟨by omega, fun i hi => ?_⟩
      rcases Nat.lt_succ_iff_lt_or_eq.1 hi with h | rfl
      · rw [Nat.add_comm, Nat.testBit_two_pow_add_gt h]
        exact hbit i h
      · rw [Nat.add_comm, Nat.testBit_two_pow_add_eq, Nat.testBit_lt_two_pow hlt, hp]
        rfl

/-- The commit bit of an arbiter that the device has is set by a write that names the arbiter. -/
theorem stored_commit {s : State} {b : By} {i : Nat} {v : Word} (hi : i < 10) (hp : s.member.present (ARB_CFG i) = true)
    (hv : v.getLsbD i = true) : bitAt ((s.stored b ARB_COMMIT v).get ARB_COMMIT_INST) i = true := by
  have hnew : (fieldsNext (fieldsOf ARB_COMMIT) (s.word ARB_COMMIT) v).getLsbD i = true := by
    obtain ⟨-, -, -, hbits⟩ := fieldsWritten_holds ARB_COMMIT (s.word ARB_COMMIT) v _ rfl ⟨0, 10, .w1s, 0, true, false, 0, 1023⟩
      fieldsOf_arbCommit
    obtain ⟨-, h, -⟩ := hbits i hi
    have h := h rfl
    rw [Nat.zero_add] at h
    rw [h, hv, Bool.or_true]
  have hadj (old new : Word) : s.adjust ARB_COMMIT old new =
      setBits new 0 10 (((List.range 10).filter (fun i => bitAt new.toNat i && s.member.present (ARB_CFG i))).map
        (fun i => 2 ^ i)).sum := rfl
  obtain ⟨hlt, hsum⟩ := testBit_sum_filter
    (fun i => bitAt (fieldsNext (fieldsOf ARB_COMMIT) (s.word ARB_COMMIT) v).toNat i && s.member.present (ARB_CFG i)) 10
  rw [State.get, show ARB_COMMIT_INST.reg = ARB_COMMIT from rfl, stored_word s b ARB_COMMIT v (by decide), State.newWord, hadj,
    show ARB_COMMIT_INST.lo = 0 from rfl, show ARB_COMMIT_INST.w = 10 from rfl, bits_setBits_same _ 0 10 _ (by omega),
    Nat.mod_eq_of_lt hlt, bitAt_eq_testBit, hsum i hi, bitAt_eq_testBit, hp, Bool.and_true]
  exact hnew

/-- A write of ARB_COMMIT that names one arbiter, which the device has, commits that one (R346). -/
theorem committed_one {s : State} {b : By} {i : Fin 10} {v : Word} (hp : s.member.present (ARB_CFG i) = true)
    (hv : v = s.putWordOf ARB_COMMIT_INST (2 ^ i.val)) :
    (List.range 10).filter (fun j => bitAt v.toNat j && bitAt ((s.stored b ARB_COMMIT v).get ARB_COMMIT_INST) j) = [i.val] := by
  have hpow : 2 ^ i.val < 2 ^ 10 := Nat.pow_lt_pow_right (by omega) i.isLt
  have hbits : bits v 0 10 = 2 ^ i.val := by
    rw [hv]
    exact putWordOf_bits s ARB_COMMIT_INST _ (by decide) hpow
  have hbit (j : Nat) (hj : j < 10) : v.toNat.testBit j = decide (i.val = j) := by
    have h := bits_testBit v 0 10 j
    rw [hbits, Nat.testBit_two_pow, decide_eq_true hj, Bool.true_and, Nat.zero_add] at h
    exact h.symm
  have hone : ∀ i : Fin 10, (List.range 10).filter (fun j => decide (i.val = j)) = [i.val] := by decide
  refine (List.filter_congr (fun j hj => ?_)).trans (hone i)
  have hj := List.mem_range.1 hj
  rw [bitAt_eq_testBit, hbit j hj]
  by_cases h : i.val = j
  · subst h
    have hvi : v.getLsbD i.val = true := by
      show v.toNat.testBit i.val = true
      rw [hbit _ i.isLt, decide_eq_true rfl]
    rw [decide_eq_true rfl, Bool.true_and, stored_commit i.isLt hp hvi]
  · rw [decide_eq_false h, Bool.false_and]

theorem stored_segs (s : State) (b : By) (a : Nat) (v : Word) : (s.stored b a v).segs = s.segs := by
  obtain ⟨_, _, _, _, h⟩ := stored_frame s b a v
  rw [h]

/-- What a write of ARB_COMMIT that names one arbiter does beyond its word. -/
theorem arbWritten_one {s : State} {b : By} {i : Fin 10} {v : Word} (hp : s.member.present (ARB_CFG i) = true)
    (hv : v = s.putWordOf ARB_COMMIT_INST (2 ^ i.val)) : (s.stored b ARB_COMMIT v).arbWritten ARB_COMMIT v =
      if 1 ≤ i.val ∧ i.val ≤ 4 ∧ ((s.seg (i - 1)).cycle ≠ .idle ∨ (s.seg (i - 1)).tenure.isSome = true) then
        (s.stored b ARB_COMMIT v).setArb i { (s.stored b ARB_COMMIT v).arb i with commitWait := true }
      else (s.stored b ARB_COMMIT v).arbApply i := by
  have hseg (g : Nat) : (s.stored b ARB_COMMIT v).seg g = s.seg g := by
    rw [State.seg, State.seg, stored_segs]
  rw [State.arbWritten, if_pos rfl, committed_one hp hv, List.foldl_cons, List.foldl_nil]
  simp only [hseg]

section arbiters
variable {ok : Admits} (hok : Admitting ok)
include hok

theorem settingsCommitted_of : settingsCommitted ok := by
  intro s b i v hrun hp hv h
  have hval : (BitVec.ofNat 10 (2 ^ i.val)).toNat = 2 ^ i.val := by
    rw [BitVec.toNat_ofNat, Nat.mod_eq_of_lt (Nat.pow_lt_pow_right (by omega) i.isLt)]
  have key (f : State → State) (hf : (s.stored b ARB_COMMIT v).arbWritten ARB_COMMIT v = f (s.stored b ARB_COMMIT v)) :
      exec (.arbCommit b (BitVec.ofNat 10 (2 ^ i.val))) s = .next (wrote s b ARB_COMMIT v f) := by
    refine (exec_arbCommit b _ s).trans ?_
    rw [execArbCommit, hval]
    subst hv
    exact actDrain_doPut hrun (hok _ _ _ _ h) ((written_arb _ _ _ _ _ _ rfl).trans (congrArg (·, stSC) hf))
  exact ⟨fun hfree => key _ ((arbWritten_one hp hv).trans (if_neg hfree)),
    fun hbusy => key _ ((arbWritten_one hp hv).trans (if_pos hbusy))⟩

end arbiters

/-! ## Images (R210, R221) -/

/-- What a write of an image's register does beyond its word (R210, R221). -/
theorem stgWritten_img (old s : State) (i : BitVec 8) (o : Nat) (ho : o < 0x20) (v : Word) :
    old.stgWritten s (0xd8000 + o + 0x20 * i.toNat) v =
      if 0xd8000 + o + 0x20 * i.toNat = IMG_BASE i.toNat ∨ 0xd8000 + o + 0x20 * i.toNat = IMG_SIZE i.toNat then
        if s.on (IMG_CFG_EN i.toNat) then s.discardImage old i.toNat else s
      else if 0xd8000 + o + 0x20 * i.toNat = IMG_CFG i.toNat then
        if s.on (IMG_CFG_EN i.toNat) != old.on (IMG_CFG_EN i.toNat) then s.discardImage old i.toNat
        else homeFollowed old s i.toNat
      else s := by
  have hi : (0xd8000 + o + 0x20 * i.toNat - 0xd8000) / 0x20 = i.toNat := by omega
  unfold State.stgWritten
  rw [if_neg (by rw [STG_TIM]; omega), if_neg (by rw [STG_CTL]; omega), if_neg (by rw [STG_CMD]; omega), if_pos (by omega), hi]
  rfl

section images
variable {ok : Admits} (hok : Admitting ok)
include hok

theorem imageRegistersWritten_of : imageRegistersWritten ok := by
  intro s b i v hrun
  have hi := i.isLt
  have key (o : Nat) (ho : o < 0x20) (r : Fin 3) (hr : imgReg i.toNat r.val = 0xd8000 + o + 0x20 * i.toNat)
      (h : ok s b (0xd8000 + o + 0x20 * i.toNat) v = true) (f : State → State)
      (hf : (s.admitted b (0xd8000 + o + 0x20 * i.toNat)).stgWritten (s.stored b (0xd8000 + o + 0x20 * i.toNat) v)
        (0xd8000 + o + 0x20 * i.toNat) v = f (s.stored b (0xd8000 + o + 0x20 * i.toNat) v)) :
      exec (.imgCfgWrite b i r v) s = .next (wrote s b (0xd8000 + o + 0x20 * i.toNat) v f) := by
    refine (exec_imgCfgWrite b i r v s).trans ?_
    rw [execImgCfgWrite, hr]
    exact actDrain_doWrite hrun (hok _ _ _ _ h) ((written_stg _ _ _ _ _ _ (by omega)).trans (congrArg (·, stSC) hf))
  have hen (o : Nat) (ho : o < 8) : (s.stored b (0xd8000 + o + 0x20 * i.toNat) v).on (IMG_CFG_EN i.toNat) =
      s.on (IMG_CFG_EN i.toNat) := by
    refine stored_on s b _ v ?_ ?_
    · show 0xd8008 + 0x20 * i.toNat ≠ _
      omega
    · show (0xd8008 + 0x20 * i.toNat) / 0x10000 ≠ 2
      omega
  have hold (a : Nat) : (s.admitted b a).on (IMG_CFG_EN i.toNat) = s.on (IMG_CFG_EN i.toNat) := by
    rw [State.on, State.on, admitted_get s b a (f := IMG_CFG_EN i.toNat) (by
      show (0xd8008 + 0x20 * i.toNat) / 0x10000 ≠ 2
      omega)]
  have hbase : IMG_BASE i.toNat = 0xd8000 + 0 + 0x20 * i.toNat := rfl
  have hsize : IMG_SIZE i.toNat = 0xd8000 + 4 + 0x20 * i.toNat := rfl
  have hcfg : IMG_CFG i.toNat = 0xd8000 + 8 + 0x20 * i.toNat := rfl
  refine ⟨fun h he => ?_, fun h he => ?_, fun h he => ?_, fun h he => ?_, fun h he => ?_, fun h he => ?_⟩
  · refine key 0 (by omega) 0 rfl h (fun u => u.discardImage (s.admitted b (IMG_BASE i.toNat)) i.toNat) ?_
    rw [stgWritten_img _ _ _ _ (by omega), if_pos (.inl rfl), hen 0 (by omega)]
    exact if_pos he
  · refine key 4 (by omega) 1 rfl h (fun u => u.discardImage (s.admitted b (IMG_SIZE i.toNat)) i.toNat) ?_
    rw [stgWritten_img _ _ _ _ (by omega), if_pos (.inr rfl), hen 4 (by omega)]
    exact if_pos he
  · refine key 0 (by omega) 0 rfl h (fun u => u) ?_
    rw [stgWritten_img _ _ _ _ (by omega), if_pos (.inl rfl), hen 0 (by omega), if_neg (by rw [he]; decide)]
  · refine key 4 (by omega) 1 rfl h (fun u => u) ?_
    rw [stgWritten_img _ _ _ _ (by omega), if_pos (.inr rfl), hen 4 (by omega), if_neg (by rw [he]; decide)]
  · refine key 8 (by omega) 2 rfl h (fun u => u.discardImage (s.admitted b (IMG_CFG i.toNat)) i.toNat) ?_
    rw [stgWritten_img _ _ _ _ (by omega), if_neg (by rw [hbase, hsize]; omega), if_pos hcfg.symm, hold]
    exact if_pos (bne_iff_ne.2 he)
  · refine key 8 (by omega) 2 rfl h (fun u => homeFollowed (s.admitted b (IMG_CFG i.toNat)) u i.toNat) ?_
    rw [stgWritten_img _ _ _ _ (by omega), if_neg (by rw [hbase, hsize]; omega), if_pos hcfg.symm, hold]
    exact if_neg (fun h => bne_iff_ne.1 h he)

end images

/-- Settles O55: every write that executes normally reaches its register, and does there what its clause says. -/
theorem busWritesComplete : Obligations.BusWritesComplete := by
  unfold Obligations.BusWritesComplete
  exact ⟨linesArmed_of admitting_mayWrite, segmentEnabled_of admitting_mayWrite, cardsReset_of admitting_mayWrite,
    settingsCommitted_of admitting_mayWrite, imageRegistersWritten_of admitting_mayWrite⟩

end Sys2Proof.Claims

/-! PROOFS. Writes of contexts, couriers, stages, queues, the Span and the chains that reach their registers (R239, R245,
R247, R250, R291, R310, R313, R315, R322, R326, R334, R351, R363, R390, R396, R402). -/

namespace Sys2Proof.Claims

open Sys2Proof.Machine

/-! ## Contexts (R239, R245, R250) -/

/-- A write that reaches its register is none of context 0 (R251). -/
theorem reaches_ctx {s : State} {b : By} {n : BitVec 8} {o : Nat} {v : Word} (ho : o < 0x100)
    (h : s.reaches b (0xc0000 + o + 0x100 * n.toNat) v = true) : n.toNat ≠ 0 := by
  intro h0
  simp only [State.reaches, Bool.and_eq_true, Bool.not_eq_true', Bool.and_eq_false_iff, decide_eq_false_iff_not] at h
  obtain ⟨⟨⟨-, hout⟩, -⟩, -⟩ := h
  omega

/-- What a write of a register of a context does beyond its word. -/
theorem written_ctx (old s : State) (b : By) (p : Bool) (n : BitVec 8) (o : Nat) (ho : o < 0x48) (v : Word) :
    State.written old s b p (0xc0000 + o + 0x100 * n.toNat) v = (s.ctxWritten (0xc0000 + o + 0x100 * n.toNat) v, stSC) := by
  have hn := n.isLt
  have hblock : (0xc0000 + o + 0x100 * n.toNat) / 0x10000 = 12 := by omega
  unfold State.written
  simp only [hblock]
  exact if_neg (by rw [CTX_UNFENCE]; omega)

theorem ctxWritten_ctl (s : State) (n : BitVec 8) (v : Word) :
    s.ctxWritten (CTX_CTL n.toNat) v = s.ctxEn n.toNat (s.on (CTX_CTL_EN n.toNat)) := by
  have hn : (CTX_CTL n.toNat - 0xc0000) / 0x100 = n.toNat := by rw [CTX_CTL]; omega
  unfold State.ctxWritten
  rw [hn]
  exact if_pos rfl

theorem ctxWritten_cmd (s : State) (n : BitVec 8) (v : Word) : s.ctxWritten (CTX_CMD n.toNat) v =
    (let u := (s.zero (CTX_CMD_KICK n.toNat)).zero (CTX_CMD_RESUME n.toNat)
     let u := if bits v 1 1 = 1 then u.ctxResume n.toNat else u
     if bits v 0 1 = 1 then u.wake n.toNat else u) := by
  have hn : (CTX_CMD n.toNat - 0xc0000) / 0x100 = n.toNat := by rw [CTX_CMD]; omega
  unfold State.ctxWritten
  rw [hn]
  exact (if_neg (by rw [CTX_CMD, CTX_CTL]; omega)).trans (if_pos rfl)

theorem regRow_ctxCmd (n : BitVec 8) : regRow (CTX_CMD n.toNat) = regRow (CTX_CMD 0) := by
  obtain ⟨-, -, -, -, hctx⟩ := regRow_alike
  exact hctx n

section contexts
variable {ok : Admits} (hok : Admitting ok)
include hok

theorem contextEnabled_of : contextEnabled ok := by
  intro s u b n v hrun h hu
  have hn : n.toNat ≠ 0 := reaches_ctx (o := 0) (by omega) (hok _ _ _ _ h)
  have key (f : State → State) (hf : u.ctxEn n.toNat (u.on (CTX_CTL_EN n.toNat)) = f u) :
      exec (.ctxCtlEn b n v) s = .next (wrote s b (CTX_CTL n.toNat) v f) := by
    refine (exec_ctxCtlEn b n v s).trans (actDrain_doWrite hrun (hok _ _ _ _ h) ((written_ctx _ _ _ _ n 0 (by omega) v).trans ?_))
    subst hu
    exact congrArg (·, stSC) ((ctxWritten_ctl _ n v).trans hf)
  refine ⟨fun hst hen => key _ ?_, fun hst hen => key _ ?_, fun hst => key _ ?_⟩
  · exact (if_neg hn).trans (by simp only [hst, hen])
  · rcases hst with hst | hst <;> exact (if_neg hn).trans (by simp only [hst, hen])
  · exact (if_neg hn).trans (by simp only [hst])

theorem contextCommands_of : contextCommands ok := by
  intro s b n hrun
  refine ⟨fun h => ?_, fun h hst => ?_⟩
  · have hbit : bits (s.putWordOf (CTX_CMD_KICK n.toNat) 1) 0 1 = 1 :=
      one_bit s (f := CTX_CMD_KICK n.toNat) rfl (Nat.le_of_ble_eq_true rfl)
    have hother : bits (s.putWordOf (CTX_CMD_KICK n.toNat) 1) 1 1 = 0 :=
      putWordOf_zero s (CTX_CMD_KICK n.toNat) 1 1 1 _ (regRow_ctxCmd n) (commandBits_command (by decide)) (Nat.le_of_ble_eq_true rfl)
        (.inr (Nat.le_of_ble_eq_true rfl))
    refine (exec_kick b n s).trans (actDrain_doPut hrun (hok _ _ _ _ h) ((written_ctx _ _ _ _ n 0x18 (by omega) _).trans ?_))
    refine congrArg (·, stSC) ((ctxWritten_cmd _ n _).trans ?_)
    rw [hbit, hother]
    rfl
  · have hbit : bits (s.putWordOf (CTX_CMD_RESUME n.toNat) 1) 1 1 = 1 :=
      one_bit s (f := CTX_CMD_RESUME n.toNat) rfl (Nat.le_of_ble_eq_true rfl)
    have hother : bits (s.putWordOf (CTX_CMD_RESUME n.toNat) 1) 0 1 = 0 :=
      putWordOf_zero s (CTX_CMD_RESUME n.toNat) 1 0 1 _ (regRow_ctxCmd n) (commandBits_command (by decide)) (Nat.le_of_ble_eq_true rfl)
        (.inl (Nat.le_of_ble_eq_true rfl))
    have hrun5 : (((s.stored b (CTX_CMD n.toNat) (one s (CTX_CMD_RESUME n.toNat))).zero (CTX_CMD_KICK n.toNat)).zero
        (CTX_CMD_RESUME n.toNat)).run n.toNat = 5 := by
      have hreg : (CTX_STAT_RUN n.toNat).reg ≠ CTX_CMD n.toNat := by
        show 0xc0004 + 0x100 * n.toNat ≠ 0xc0018 + 0x100 * n.toNat
        omega
      rw [State.run, State.zero, State.zero, get_put_of _ _ (Nat.le_of_ble_eq_true rfl) (.inl hreg),
        get_put_of _ _ (Nat.le_of_ble_eq_true rfl) (.inl hreg), stored_get s b _ _ _ hreg (by
          have := n.isLt
          show (0xc0004 + 0x100 * n.toNat) / 0x10000 ≠ 2
          omega)]
      exact hst
    refine (exec_ctxResume b n s).trans (actDrain_doPut hrun (hok _ _ _ _ h) ((written_ctx _ _ _ _ n 0x18 (by omega) _).trans ?_))
    refine congrArg (·, stSC) ((ctxWritten_cmd _ n _).trans ?_)
    rw [hbit, hother]
    exact if_pos hrun5

end contexts

/-! ## Couriers, stages and energy (R247, R291, R310, R313, R315) -/

theorem stgWritten_cour (old s : State) (c : Fin 16) (v : Word) :
    old.stgWritten s (COUR_CTL c.val) v = s.courEn c.val (s.on (COUR_CTL_EN c.val)) := by
  have ha : COUR_CTL c.val = 0xd4000 + 0x40 * c.val := rfl
  have hc : (COUR_CTL c.val - 0xd4000) / 0x40 = c.val := by rw [ha]; omega
  unfold State.stgWritten
  rw [if_neg (by rw [ha, STG_TIM]; omega), if_neg (by rw [ha, STG_CTL]; omega), if_neg (by rw [ha, STG_CMD]; omega),
    if_neg (by omega), if_pos (by omega), hc]
  exact if_pos rfl

/-- What a write of one of the bits of NRG_CMD does beyond its word (R310, R315). -/
theorem written_nrgCmd (old s : State) (b : By) (p : Bool) (v : Word) :
    (bits v 0 1 = 1 → bits v 1 1 = 0 → State.written old s b p NRG_CMD v =
      (((s.zero NRG_CMD_LASTGASP).zero NRG_CMD_EXTREME_CLR).gasp 1, stSC)) ∧
    (bits v 0 1 = 0 → bits v 1 1 = 1 → State.written old s b p NRG_CMD v =
      (((s.zero NRG_CMD_LASTGASP).zero NRG_CMD_EXTREME_CLR).extremeClr, stSC)) := by
  have h : State.written old s b p NRG_CMD v =
      (if bits v 1 1 = 1 then
        (if bits v 0 1 = 1 then ((s.zero NRG_CMD_LASTGASP).zero NRG_CMD_EXTREME_CLR).gasp 1
        else (s.zero NRG_CMD_LASTGASP).zero NRG_CMD_EXTREME_CLR).extremeClr
      else (if bits v 0 1 = 1 then ((s.zero NRG_CMD_LASTGASP).zero NRG_CMD_EXTREME_CLR).gasp 1
        else (s.zero NRG_CMD_LASTGASP).zero NRG_CMD_EXTREME_CLR), stSC) := by
    unfold State.written
    exact if_pos rfl
  refine ⟨fun h0 h1 => ?_, fun h0 h1 => ?_⟩
  · rw [h, if_pos h0, if_neg (by omega)]
  · rw [h, if_neg (show ¬ bits v 0 1 = 1 by omega), if_pos h1]

section engines
variable {ok : Admits} (hok : Admitting ok)
include hok

theorem courierEnabled_of : courierEnabled ok := by
  intro s u b c v hrun h hu
  have key (f : State → State) (hf : u.courEn c.val (u.on (COUR_CTL_EN c.val)) = f u) :
      exec (.courCtlEn b c v) s = .next (wrote s b (COUR_CTL c.val) v f) := by
    have hblock : COUR_CTL c.val / 0x10000 = 13 := by rw [COUR_CTL]; omega
    refine (exec_courCtlEn b c v s).trans (actDrain_doWrite hrun (hok _ _ _ _ h) ((written_stg _ _ _ _ _ _ hblock).trans ?_))
    subst hu
    exact congrArg (·, stSC) ((stgWritten_cour _ _ c v).trans hf)
  refine ⟨fun hst hen => key _ ?_, fun hst hen => key _ ?_, fun hst hen hnot => key _ ?_, fun hst => key _ ?_⟩
  · unfold State.courEn
    simp only [hst, hen]
  · unfold State.courEn
    simp only [hst, hen]
  · unfold State.courEn
    simp only [hst, hen]
    exact if_neg (by rw [hnot]; decide)
  · unfold State.courEn
    simp only [hst]

theorem stageRegisters_of : stageRegisters ok := by
  intro s b v hrun
  refine ⟨fun h => ?_, fun h => ?_, fun h => ?_⟩
  · exact (exec_stgTimWrite b v s).trans (actDrain_doWrite hrun (hok _ _ _ _ h) (written_stg _ _ _ _ _ _ rfl))
  · exact (exec_stgOfsWrite b v s).trans (actDrain_doWrite hrun (hok _ _ _ _ h) (written_stg _ _ _ _ _ _ rfl))
  · have hbit : bits (s.putWordOf STG_CMD_PEAK_CLR 1) 0 1 = 1 := one_bit s (f := STG_CMD_PEAK_CLR) rfl (by decide)
    refine (exec_peakClr b s).trans (actDrain_doPut hrun (hok _ _ _ _ h) ((written_stg _ _ _ _ _ _ rfl).trans ?_))
    exact congrArg (·, stSC) (if_pos hbit)

theorem energyCommands_of : energyCommands ok := by
  intro s b hrun
  refine ⟨fun h => ?_, fun h => ?_⟩
  · have hbit : bits (s.putWordOf NRG_CMD_LASTGASP 1) 0 1 = 1 := one_bit s (f := NRG_CMD_LASTGASP) rfl (by decide)
    have hother : bits (s.putWordOf NRG_CMD_LASTGASP 1) 1 1 = 0 :=
      putWordOf_zero s NRG_CMD_LASTGASP 1 1 1 NRG_CMD rfl (commandBits_command (by decide)) (by decide) (.inr (by decide))
    refine (exec_lastgasp b s).trans (actDrain_doPut hrun (hok _ _ _ _ h) ((written_nrgCmd _ _ _ _ _).1 hbit hother))
  · have hbit : bits (s.putWordOf NRG_CMD_EXTREME_CLR 1) 1 1 = 1 := one_bit s (f := NRG_CMD_EXTREME_CLR) rfl (by decide)
    have hother : bits (s.putWordOf NRG_CMD_EXTREME_CLR 1) 0 1 = 0 :=
      putWordOf_zero s NRG_CMD_EXTREME_CLR 1 0 1 NRG_CMD rfl (commandBits_command (by decide)) (by decide) (.inl (by decide))
    refine (exec_extremeClr b s).trans (actDrain_doPut hrun (hok _ _ _ _ h) ((written_nrgCmd _ _ _ _ _).2 hother hbit))

end engines

/-! ## Queues (R322, R326, R334) -/

/-- What a write of a queue's register but QUE_PUSH does beyond its word (R322, R334). -/
theorem queWritten_queue (old s : State) (q : Fin 160) (o : Nat) (ho : o < 0x1c) (v : Word) :
    old.queWritten s (0xe0000 + o + 0x20 * q.val) v =
      (if o = 0 ∨ o = 4 then old.queuesMoved s q
      else if o = 0x18 then if bits v 0 1 = 1 then (s.resetQueue q).zero (QUE_CMD_RESET q.val) else s
      else s, stSC) := by
  have hq : (0xe0000 + o + 0x20 * q.val - 0xe0000) / 0x20 = q.val := by omega
  have h0 : 0xe0000 + o + 0x20 * q.val = QUE_CFG q.val ∨ 0xe0000 + o + 0x20 * q.val = QUE_RBASE q.val ↔ o = 0 ∨ o = 4 := by
    rw [QUE_CFG, QUE_RBASE]; omega
  have h1 : 0xe0000 + o + 0x20 * q.val = QUE_CMD q.val ↔ o = 0x18 := by rw [QUE_CMD]; omega
  have h2 : ¬ 0xe0000 + o + 0x20 * q.val = QUE_PUSH q.val := by rw [QUE_PUSH]; omega
  unfold State.queWritten
  rw [hq, if_neg (show ¬ 160 ≤ q.val by omega), if_neg h2]
  simp only [h0, h1]
  simp only [apply_ite (·, stSC)]

/-- A push onto a work queue that has room for the item (R326). -/
theorem queWritten_push {old s t : State} {q : Fin 160} {v : Word} (hwork : isWorkQueue q = true)
    (hpush : (s.zero (QUE_PUSH_ITEM q.val)).pushItem q v = some t) : old.queWritten s (QUE_PUSH q.val) v = (t, stSC) := by
  have hq : (QUE_PUSH q.val - 0xe0000) / 0x20 = q.val := by rw [QUE_PUSH]; omega
  unfold State.queWritten
  rw [hq, if_neg (show ¬ 160 ≤ q.val by omega), if_neg (by rw [QUE_PUSH, QUE_CFG, QUE_RBASE]; omega),
    if_neg (by rw [QUE_PUSH, QUE_CMD]; omega), if_pos rfl]
  refine (if_pos hwork).trans ?_
  rw [hpush]

theorem queue_block (q : Fin 160) {o : Nat} (ho : o < 0x20) : (0xe0000 + o + 0x20 * q.val) / 0x10000 = 14 := by omega

section queues
variable {ok : Admits} (hok : Admitting ok)
include hok

theorem queueRegisters_of : queueRegisters ok := by
  intro s b q hrun
  refine ⟨fun h => ?_, fun v t h hwork hpush => ?_, fun v h => ?_, fun v h => ?_⟩
  · have hbit : bits (s.putWordOf (QUE_CMD_RESET q.val) 1) 0 1 = 1 :=
      one_bit s (f := QUE_CMD_RESET q.val) rfl (Nat.le_of_ble_eq_true rfl)
    refine (exec_queReset b q s).trans (actDrain_doPut hrun (hok _ _ _ _ h)
      ((written_que _ _ _ _ _ _ (queue_block q (o := 0x18) (by omega))).trans
        ((queWritten_queue _ _ q 0x18 (by omega) _).trans ?_)))
    exact congrArg (·, stSC) (if_pos hbit)
  · refine (exec_quePush b q v s).trans ((actDrain_run hrun _).trans ?_)
    have hw : (s.admitted b (QUE_PUSH q.val)).written (s.stored b (QUE_PUSH q.val) v) b false (QUE_PUSH q.val) v = (t, stSC) := by
      exact (written_que _ _ _ _ _ _ (queue_block q (o := 0x1c) (by omega))).trans (queWritten_push hwork hpush)
    rw [doWrite_reaches (hok _ _ _ _ h), hw]
  · exact (exec_queCfgWrite b q false v s).trans (actDrain_doWrite hrun (hok _ _ _ _ h)
      ((written_que _ _ _ _ _ _ (queue_block q (o := 0) (by omega))).trans (queWritten_queue _ _ q 0 (by omega) v)))
  · exact (exec_queCfgWrite b q true v s).trans (actDrain_doWrite hrun (hok _ _ _ _ h)
      ((written_que _ _ _ _ _ _ (queue_block q (o := 4) (by omega))).trans (queWritten_queue _ _ q 4 (by omega) v)))

end queues

/-! ## The Span (R351, R363) -/

/-- The numbers that the lowest four bits of a word name. -/
theorem named_bits (v : Word) : (List.range 4).filter (fun g => bitAt v.toNat g) =
    (List.range 4).filter (fun g => bitAt (bits v 0 4) g) := by
  refine List.filter_congr (fun g hg => ?_)
  rw [bitAt_eq_testBit, bitAt_eq_testBit, bits, natBits_testBit, decide_eq_true (List.mem_range.1 hg), Bool.true_and, Nat.zero_add]

section span
variable {ok : Admits} (hok : Admitting ok)
include hok

theorem spanPortsEnabled_of : spanPortsEnabled ok := by
  intro s b v hrun h
  exact (exec_spnCtlEn b v s).trans (actDrain_doWrite hrun (hok _ _ _ _ h)
    ((written_spn _ _ _ _ _ _ rfl).trans (congrArg (·, stSC) (if_pos rfl))))

theorem handoverGoes_of : handoverGoes ok := by
  intro s u hrun
  refine ⟨fun b segs h => ?_, fun g hg hin hidle hu => ?_⟩
  · have hval : bits (s.putWordOf SPN_CMD_HANDOVER segs.toNat) 0 4 = segs.toNat :=
      putWordOf_bits s SPN_CMD_HANDOVER segs.toNat (by decide) segs.isLt
    refine (exec_handover b segs s).trans (actDrain_doPut hrun (hok _ _ _ _ h) ((written_spn _ _ _ _ _ _ rfl).trans ?_))
    refine congrArg (·, stSC) (((if_neg (by decide)).trans (if_pos rfl)).trans ?_)
    rw [named_bits, hval]
  · refine (exec_handoverRelease g s).trans (actSeg_next hrun ?_ hg)
    subst hu
    unfold State.handoverRelease
    exact if_pos (by rw [hin, hidle]; rfl)

end span

/-! ## Chains (R390, R396, R402) -/

/-- What a write of a chain's register does beyond its word (R390, R396, R402). -/
theorem written_chain (old s : State) (b : By) (p : Bool) (k : Fin 4) (o : Nat) (ho : o < 0x4000) (v : Word) :
    State.written old s b p (0x110000 + o + 0x4000 * k.val) v =
      (if o = 0 then s.chainEn k (s.on (OPC_CTL_EN k))
      else if o = 4 then (List.range (s.outposts k)).foldl (fun s i => s.mark k i [0xF3]) s
      else if 0x400 ≤ o then
        s.mark k ((o - 0x400) / 0x80) (if o % 8 = 0 then [(o - 0x400) % 0x80 / 8, 0x10 + (o - 0x400) % 0x80 / 8]
          else [0x20 + (o - 0x400) % 0x80 / 8, 0x30 + (o - 0x400) % 0x80 / 8])
      else s, stSC) := by
  have hblock : (0x110000 + o + 0x4000 * k.val) / 0x10000 = 17 := by omega
  have hk : (0x110000 + o + 0x4000 * k.val - 0x110000) / 0x4000 = k.val := by omega
  have hmod : (0x110000 + o + 0x4000 * k.val) % 0x4000 = o := by omega
  rw [written_opc _ _ _ _ _ _ hblock, State.opcWritten]
  simp only [hk, hmod]

section chains
variable {ok : Admits} (hok : Admitting ok)
include hok

theorem chainEnabled_of : chainEnabled ok := by
  intro s u b k v hrun h hu
  have key (f : State → State) (hf : u.chainEn k.val (u.on (OPC_CTL_EN k.val)) = f u) :
      exec (.opcCtlEn b k v) s = .next (wrote s b (OPC_CTL k.val) v f) := by
    refine (exec_opcCtlEn b k v s).trans (actDrain_doWrite hrun (hok _ _ _ _ h) ((written_chain _ _ _ _ k 0 (by omega) v).trans ?_))
    subst hu
    exact congrArg (·, stSC) hf
  refine ⟨fun hst hen => key _ ?_, fun hst hen => key _ ?_, fun hst => key _ ?_⟩
  · unfold State.chainEn
    simp only [hst, hen]
  · unfold State.chainEn
    simp only [hst, hen]
  · unfold State.chainEn
    simp only [hst]

theorem chainRegisters_of : chainRegisters ok := by
  intro s b k hrun
  refine ⟨fun o c v h => ?_, fun o c v h => ?_, fun v h => ?_, fun m h => ?_⟩
  · have ha : OPC_CHA k.val o.val c.val = 0x110000 + (0x400 + 0x80 * o.val + 8 * c.val) + 0x4000 * k.val := by
      rw [OPC_CHA]; omega
    have ho : (0x400 + 0x80 * o.val + 8 * c.val - 0x400) / 0x80 = o.val := by omega
    have hc : (0x400 + 0x80 * o.val + 8 * c.val - 0x400) % 0x80 / 8 = c.val := by omega
    refine (exec_opcChaWrite b k o c v s).trans (actDrain_doWrite hrun (hok _ _ _ _ h) ?_)
    have hw := written_chain (s.admitted b (OPC_CHA k.val o.val c.val)) (s.stored b (OPC_CHA k.val o.val c.val) v) b false k
      (0x400 + 0x80 * o.val + 8 * c.val) (by omega) v
    rw [← ha, if_neg (by omega), if_neg (by omega), if_pos (by omega), if_pos (by omega), ho, hc] at hw
    exact hw
  · have ha : OPC_CHB k.val o.val c.val = 0x110000 + (0x404 + 0x80 * o.val + 8 * c.val) + 0x4000 * k.val := by
      rw [OPC_CHB]; omega
    have ho : (0x404 + 0x80 * o.val + 8 * c.val - 0x400) / 0x80 = o.val := by omega
    have hc : (0x404 + 0x80 * o.val + 8 * c.val - 0x400) % 0x80 / 8 = c.val := by omega
    refine (exec_opcChbWrite b k o c v s).trans (actDrain_doWrite hrun (hok _ _ _ _ h) ?_)
    have hw := written_chain (s.admitted b (OPC_CHB k.val o.val c.val)) (s.stored b (OPC_CHB k.val o.val c.val) v) b false k
      (0x404 + 0x80 * o.val + 8 * c.val) (by omega) v
    rw [← ha, if_neg (by omega), if_neg (by omega), if_pos (by omega), if_neg (by omega), ho, hc] at hw
    exact hw
  · exact (exec_opcCfgWrite b k v s).trans (actDrain_doWrite hrun (hok _ _ _ _ h) (written_chain _ _ _ _ k 4 (by omega) v))
  · exact (exec_opcResume b k m s).trans (actDrain_doPut hrun (hok _ _ _ _ h) (written_chain _ _ _ _ k 0x14 (by omega) _))

end chains

/-- Settles O56: every write that executes normally reaches its register, and does there what its clause says. -/
theorem engineWritesComplete : Obligations.EngineWritesComplete := by
  unfold Obligations.EngineWritesComplete
  exact ⟨contextEnabled_of admitting_mayWrite, contextCommands_of admitting_mayWrite, courierEnabled_of admitting_mayWrite,
    stageRegisters_of admitting_mayWrite, energyCommands_of admitting_mayWrite, queueRegisters_of admitting_mayWrite,
    spanPortsEnabled_of admitting_mayWrite, handoverGoes_of admitting_mayWrite, chainEnabled_of admitting_mayWrite,
    chainRegisters_of admitting_mayWrite⟩

end Sys2Proof.Claims

/-! PROOFS. Writes of the fault, event, configuration, boot, security and clock registers that reach their registers (R413,
R421, R430, R437, R441, R466 to R470, R475 to R477, R494). -/

namespace Sys2Proof.Claims

open Sys2Proof.Machine

theorem act_next {s t : State} {f : State → State} (hrun : s.power = .run) (h : f s = t) : s.act f = .next t := by
  rw [act_run hrun, h]

/-! ## Faults and events (R413, R415, R421) -/

/-- A write of 1 clears bits: what is left is what was there but for them. -/
theorem stored_pend (s : State) (b : By) (j : Fin 16) (m : Word) :
    (s.stored b (EVT_PEND j.val) m).get (EVT_PEND_PEND j.val) =
      s.get (EVT_PEND_PEND j.val) - (s.get (EVT_PEND_PEND j.val) &&& m.toNat) := by
  have hrow := fieldsOf_evtPend
  have ha : EVT_PEND j.val = 0x30800 + 4 * j.val := rfl
  have hadj (old new : Word) : s.adjust (EVT_PEND j.val) old new = new := by
    have hb : EVT_PEND j.val / 0x10000 = 3 := by rw [ha]; omega
    have he : (EVT_PEND j.val - 0x30000) / 4 = 512 + j.val := by rw [ha]; omega
    unfold State.adjust
    simp only [hb, he]
    rw [if_neg (by decide), if_neg (by decide), if_pos trivial, if_neg (by omega)]
  have hall (x : Word) : bits x 0 32 = x.toNat := by
    rw [bits, natBits, Nat.pow_zero, Nat.div_one, Nat.mod_eq_of_lt x.isLt]
  have hnext : (s.stored b (EVT_PEND j.val) m).get (EVT_PEND_PEND j.val) =
      FRow.next ⟨0, 32, .w1c, 0, false, false, 0, 4294967295⟩ (bits (s.word (EVT_PEND j.val)) 0 32) (bits m 0 32)
        (bits m 16 32) % 2 ^ 32 := by
    have h := fieldsNext_bits (fieldsOf (EVT_PEND j.val)) (s.word (EVT_PEND j.val)) m (by rw [hrow]; decide) (by rw [hrow]; decide)
      ⟨0, 32, .w1c, 0, false, false, 0, 4294967295⟩ (by rw [hrow]; exact List.mem_singleton.2 rfl)
    refine Eq.trans ?_ h
    show bits ((s.stored b (EVT_PEND j.val) m).word (EVT_PEND j.val)) 0 32 = _
    rw [stored_word s b _ m (by rw [ha]; omega), State.newWord, hadj]
  have hget : s.get (EVT_PEND_PEND j.val) = (s.word (EVT_PEND j.val)).toNat := hall _
  rw [hnext, hget, hall, hall]
  exact Nat.mod_eq_of_lt (Nat.lt_of_le_of_lt (Nat.sub_le _ _) (s.word (EVT_PEND j.val)).isLt)

section faults
variable {ok : Admits} (hok : Admitting ok)
include hok

theorem faultCommands_of : faultCommands ok := by
  intro s b m hrun
  refine ⟨(exec_innkeeperFault s).trans (act_run hrun _), fun h => ?_⟩
  have hval : bits (s.putWordOf FLT_LANE_RETIRED m.toNat) 0 10 = m.toNat :=
    putWordOf_bits s FLT_LANE_RETIRED m.toNat (by decide) m.isLt
  have hold : (s.admitted b FLT_LANE).word FLT_LANE = s.word FLT_LANE :=
    (admitted_only s b FLT_LANE 0).2 FLT_LANE (by decide) (by decide)
  refine (exec_fltLaneReturn b m s).trans (actDrain_doPut hrun (hok _ _ _ _ h) ?_)
  unfold State.written
  refine congrArg (·, stSC) ((if_pos rfl).trans ?_)
  show ((s.stored b FLT_LANE _).setWord FLT_LANE ((s.admitted b FLT_LANE).word FLT_LANE)).laneReturn _ = _
  rw [hval, hold]
  rfl

theorem pendingCleared_of : pendingCleared ok := by
  intro s b j m hrun h
  have hb : EVT_PEND j.val / 0x10000 = 3 := by rw [EVT_PEND]; omega
  exact ⟨(exec_evtPendClear b j m s).trans (actDrain_doWrite hrun (hok _ _ _ _ h) (written_evt _ _ _ _ _ _ hb)), stored_pend s b j m⟩

end faults

/-! ## Register writes and the guard (R430, R434, R437) -/

/-- A write of the key register does nothing beyond its word but lock or unlock the guard (R437). -/
theorem written_unlock (old s : State) (b : By) (p : Bool) (v : Word) :
    State.written old s b p CFG_UNLOCK v = ((s.zero CFG_UNLOCK_KEY).unlockWrite b.ctx.toNat v.toNat, stSC) := by
  unfold State.written
  exact if_pos rfl

/-- A write of the whole word of a register of one field is a write of that word. -/
theorem putWordOf_whole (s : State) {f : FRef} (hlo : f.lo = 0) (hw : f.w = 32) (x : Word) : s.putWordOf f x.toNat = x := by
  refine BitVec.eq_of_toNat_eq ?_
  have h := putWordOf_bits s f x.toNat (by omega) (by rw [hw]; exact x.isLt)
  rw [hlo, hw, bits, natBits, Nat.pow_zero, Nat.div_one, Nat.mod_eq_of_lt (s.putWordOf f x.toNat).isLt] at h
  exact h

section config
variable {ok : Admits} (hok : Admitting ok)
include hok

theorem registersWritten_of : registersWritten ok := by
  intro s t b a v st hrun
  refine ⟨fun ha h hw => ?_, fun o ho => ?_, fun ha hno => ?_⟩
  · have hsel : selOf a.toNat = .reg a.toNat := by
      have := hok _ _ _ _ h
      simp only [State.reaches, Bool.and_eq_true, beq_iff_eq] at this
      obtain ⟨⟨⟨⟨⟨hsel, -⟩, -⟩, -⟩, -⟩, -⟩ := this
      exact hsel
    refine (exec_registerWrite b a v s).trans (actDrain_next hrun ?_)
    unfold State.regWriteAt
    rw [hsel, if_pos ha, doWrite_reaches (hok _ _ _ _ h), hw]
  · refine (exec_registerWrite b a v s).trans (actDrain_next hrun ?_)
    unfold State.regWriteAt
    rw [ho]
    rfl
  · refine (exec_registerWrite b a v s).trans (actDrain_next hrun ?_)
    unfold State.regWriteAt
    split
    · rename_i o ho
      exact absurd ho (hno o)
    · rw [if_neg ha]
      rfl

theorem guardUnlocked_of : guardUnlocked ok := by
  intro s u b key hrun
  have hword : s.putWordOf CFG_UNLOCK_KEY key.toNat = key := putWordOf_whole s rfl rfl key
  refine ⟨fun h hkey => ?_, fun h hkey => ?_, fun h => ?_⟩
  · refine (exec_cfgUnlock b key s).trans (actDrain_doPut hrun (hok _ _ _ _ h) ((written_unlock _ _ _ _ _).trans ?_))
    rw [hword, State.unlockWrite]
    exact congrArg (·, stSC) (if_pos (by rw [hkey]; rfl))
  · refine (exec_cfgUnlock b key s).trans (actDrain_doPut hrun (hok _ _ _ _ h) ((written_unlock _ _ _ _ _).trans ?_))
    rw [hword, State.unlockWrite]
    exact congrArg (·, stSC) (if_neg (fun e => hkey (BitVec.eq_of_toNat_eq e)))
  · refine (exec_guardRelock s).trans (act_next hrun ?_)
    rw [State.guardRelock, h]

theorem passesStart_of : passesStart ok := by
  intro s u b hrun
  refine ⟨fun h => ?_, fun h hidle => ?_, fun h hbusy => ?_⟩
  · have hbit : bits (s.putWordOf CFG_COMMIT_COMMIT 1) 0 1 = 1 := one_bit s (f := CFG_COMMIT_COMMIT) rfl (by decide)
    refine (exec_cfgCommit b s).trans (actDrain_doPut hrun (hok _ _ _ _ h) ?_)
    unfold State.written
    exact congrArg (·, stSC) (if_pos hbit)
  · refine (exec_checkPassStart s).trans (act_next hrun ?_)
    rw [State.passStart, h]
    exact if_neg (by rw [hidle]; decide)
  · refine (exec_checkPassStart s).trans (act_next hrun ?_)
    rw [State.passStart, h]
    exact if_pos hbusy

end config

/-! ## Boot and update (R466 to R470) -/

/-- The fields of a write of BOOT_CMD. -/
theorem bootWord_bits : ∀ (op : Fin 8) (x : Fin 2) (f : Bool), bits (bootWord op x f) 0 4 = op.val ∧
    bits (bootWord op x f) 4 1 = x.val ∧ (bits (bootWord op x f) 5 1 == 1) = f := by decide +kernel

theorem written_bootCmd {old s : State} {b : By} {p : Bool} {op : Fin 8} {x : Fin 2} {f : Bool} (hb : votedOrInn b = true)
    (hidle : (s.setWord BOOT_CMD 0).on BOOT_STAT_BUSY = false) : State.written old s b p BOOT_CMD (bootWord op x f) =
      ((s.setWord BOOT_CMD 0).bootCommand op x f, stSC) := by
  obtain ⟨hop, hx, hf⟩ := bootWord_bits op x f
  rw [written_boot _ _ _ _ _ _ rfl, State.bootWritten, if_pos rfl]
  dsimp only
  rw [hb, hidle, hop, hx, hf]
  rfl

theorem stored_dir (s : State) (b : By) (a : Nat) (v : Word) : (s.stored b a v).dir = s.dir := by
  obtain ⟨_, _, _, _, h⟩ := stored_frame s b a v
  rw [h]
  rfl

section boot
variable {ok : Admits} (hok : Admitting ok)
include hok

theorem bootCommandsTaken_of : bootCommandsTaken ok := by
  intro s b hrun hb hidle
  have key (op : Fin 8) (x : Fin 2) (f : Bool) (h : ok s b BOOT_CMD (bootWord op x f) = true) :
      s.actDrain (fun s => s.bootWrite b op x f) = .next (bootTaken s b op x f) := by
    refine actDrain_doWrite hrun (hok _ _ _ _ h) (written_bootCmd hb ?_)
    rw [State.on, get_of_regs (t := (s.stored b BOOT_CMD (bootWord op x f)).setWord BOOT_CMD 0) rfl, State.get,
      word_setWord_other _ _ (by decide), ← State.get, stored_get s b _ _ _ (by decide) (by decide)]
    exact hidle
  refine ⟨fun x => ⟨fun h => ?_, fun h => ?_, fun h => ?_, fun h => ?_⟩, fun h => ?_, fun f => ⟨fun h => ?_, fun h => ?_⟩⟩
  · exact (exec_erase b x s).trans (key 1 x false h)
  · exact (exec_program b x s).trans (key 2 x false h)
  · exact (exec_verify b x s).trans (key 3 x false h)
  · exact (exec_armTrial b x s).trans (key 4 x false h)
  · exact (exec_writeSettings b s).trans (key 5 0 false h)
  · exact (exec_restart b f s).trans (key 6 0 f h)
  · exact (exec_reject b f s).trans (key 7 0 f h)

theorem trialConfirmed_of : trialConfirmed ok := by
  intro s b d hrun hb h hdir htrial hphase
  have hbit : bits (s.putWordOf BOOT_CONFIRM_CONFIRM 1) 0 1 = 1 := one_bit s (f := BOOT_CONFIRM_CONFIRM) rfl (by decide)
  have hget (f : FRef) (hf : f.reg = BOOT_STAT) : ((s.stored b BOOT_CONFIRM_CONFIRM.reg (s.putWordOf BOOT_CONFIRM_CONFIRM 1)).put
      BOOT_CONFIRM_CONFIRM 0).get f = s.get f := by
    rw [get_put_of _ _ (by decide) (.inl (by rw [hf]; decide)),
      stored_get s b _ _ _ (by rw [hf]; decide) (by rw [hf]; decide)]
  have hdir' : ((s.stored b BOOT_CONFIRM_CONFIRM.reg (s.putWordOf BOOT_CONFIRM_CONFIRM 1)).put BOOT_CONFIRM_CONFIRM 0).dir = some d :=
    (stored_dir s b _ _).trans hdir
  refine (exec_confirm b s).trans (actDrain_doPut hrun (hok _ _ _ _ h) ((written_boot _ _ _ _ _ _ rfl).trans ?_))
  refine ((if_neg (by decide)).trans ((if_pos rfl).trans ((if_pos hbit).trans (if_pos hb)))).trans ?_
  refine congrArg (·, stSC) ?_
  rw [State.confirm]
  dsimp only
  rw [hdir']
  dsimp only
  rw [State.on, hget _ rfl, hget _ rfl, hget _ rfl]
  exact if_pos ⟨htrial, hphase⟩

end boot

/-! ## Fuses (R475 to R477) -/

/-- The OTP write `n` begun, where none of it runs. -/
theorem fuses_eq (u : State) (n : Nat) : (if u.fusing.contains n then u else { u with fusing := u.fusing ++ [n] }) = fuses u n := by
  unfold fuses
  cases u.fusing.contains n <;> rfl

theorem stored_lifecycle (s : State) (b : By) (a : Nat) (v : Word) : (s.stored b a v).lifecycle = s.lifecycle := by
  obtain ⟨_, _, _, _, h⟩ := stored_frame s b a v
  rw [h]

theorem stored_otp (s : State) (b : By) (a : Nat) (v : Word) : (s.stored b a v).otp = s.otp := by
  obtain ⟨_, _, _, _, h⟩ := stored_frame s b a v
  rw [h]

/-- A command of the fuses, in MANUFACTURE, begins what its bits name (R475). -/
theorem secWritten_fuse {s : State} (b : By) {v : Word} (hl : s.lifecycle = 0) :
    (bits v 0 1 = 1 → bits v 1 1 = 0 → s.secWritten b SEC_FUSE_CMD v = (fuses s 1, stSC)) ∧
    (bits v 0 1 = 0 → bits v 1 1 = 1 → s.secWritten b SEC_FUSE_CMD v = (fuses s 2, stSC)) := by
  have h : s.secWritten b SEC_FUSE_CMD v = (if bits v 1 1 = 1 then
      fuses (if bits v 0 1 = 1 then fuses s 1 else s) 2 else (if bits v 0 1 = 1 then fuses s 1 else s), stSC) := by
    rw [← fuses_eq s 1, ← fuses_eq _ 2]
    unfold State.secWritten
    exact (if_neg (by decide)).trans ((if_pos rfl).trans (if_pos hl))
  refine ⟨fun h0 h1 => ?_, fun h0 h1 => ?_⟩
  · rw [h, if_neg (by omega), if_pos h0]
  · rw [h, if_pos h1, if_neg (by omega)]

section fuseWrites
variable {ok : Admits} (hok : Admitting ok)
include hok

theorem fuseWritesBegin_of : fuseWritesBegin ok := by
  intro s b hrun hl
  refine ⟨fun h hb hkey hvault => ?_, fun h => ?_, fun h => ?_, fun h => ?_⟩
  · have hval : bits (s.putWordOf SEC_LC_CMD_TO 1) 0 2 = 1 := putWordOf_bits s SEC_LC_CMD_TO 1 (by decide) (by decide)
    obtain ⟨u, hu⟩ : ∃ u, u = (s.stored b SEC_LC_CMD_TO.reg (s.putWordOf SEC_LC_CMD_TO 1)).zero SEC_LC_CMD_TO := ⟨_, rfl⟩
    have hlu : u.lifecycle = 0 := by rw [hu, State.zero, State.put_lifecycle, stored_lifecycle, hl]
    have hou : u.otp = s.otp := by rw [hu, State.zero, State.put_otp, stored_otp]
    refine (exec_lifecycleToField b s).trans (actDrain_doPut hrun (hok _ _ _ _ h) ((written_sec _ _ _ _ _ _ rfl).trans ?_))
    unfold State.secWritten
    refine (if_pos rfl).trans ?_
    dsimp only
    rw [← hu, fuses_eq u 0, hval, hb, hlu, hou, hkey, hvault]
    rfl
  · have hbit : bits (s.putWordOf SEC_FUSE_CMD_KEY_HASH 1) 0 1 = 1 := one_bit s (f := SEC_FUSE_CMD_KEY_HASH) rfl (by decide)
    have hother : bits (s.putWordOf SEC_FUSE_CMD_KEY_HASH 1) 1 1 = 0 :=
      putWordOf_zero s SEC_FUSE_CMD_KEY_HASH 1 1 1 SEC_FUSE_CMD rfl (commandBits_command (by decide)) (by decide) (.inr (by decide))
    exact (exec_keyHash b s).trans (actDrain_doPut hrun (hok _ _ _ _ h) ((written_sec _ _ _ _ _ _ rfl).trans
      ((secWritten_fuse b ((stored_lifecycle s b _ _).trans hl)).1 hbit hother)))
  · have hbit : bits (s.putWordOf SEC_FUSE_CMD_DBG_HASH 1) 1 1 = 1 := one_bit s (f := SEC_FUSE_CMD_DBG_HASH) rfl (by decide)
    have hother : bits (s.putWordOf SEC_FUSE_CMD_DBG_HASH 1) 0 1 = 0 :=
      putWordOf_zero s SEC_FUSE_CMD_DBG_HASH 1 0 1 SEC_FUSE_CMD rfl (commandBits_command (by decide)) (by decide) (.inl (by decide))
    exact (exec_dbgHash b s).trans (actDrain_doPut hrun (hok _ _ _ _ h) ((written_sec _ _ _ _ _ _ rfl).trans
      ((secWritten_fuse b ((stored_lifecycle s b _ _).trans hl)).2 hother hbit)))
  · have hbit : bits (s.putWordOf SEC_VAULT_CMD_LOAD 1) 0 1 = 1 := one_bit s (f := SEC_VAULT_CMD_LOAD) rfl (by decide)
    refine (exec_load b s).trans (actDrain_doPut hrun (hok _ _ _ _ h) ((written_sec _ _ _ _ _ _ rfl).trans ?_))
    unfold State.secWritten
    refine ((if_neg (by decide)).trans ((if_neg (by decide)).trans ((if_pos rfl).trans
      (if_pos ((stored_lifecycle s b _ _).trans hl))))).trans ?_
    exact congrArg (·, stSC) ((if_pos hbit).trans (fuses_eq _ 3))

end fuseWrites

/-! ## The time base (R494) -/

/-- What a write of CRP_TB_CMD does beyond its word. -/
theorem crpWritten_cmd (old s : State) (v : Word) : old.crpWritten s CRP_TB_CMD v =
    ((s.put CRP_TB_CMD_SET (old.get CRP_TB_CMD_SET)).zero CRP_TB_CMD_SET_NOW).tbCommand (bits v 0 1 == 1) (bits v 1 1 == 1) :=
  (if_neg (by decide)).trans (if_pos rfl)

/-- SET waits for the next edge where the edges discipline the time base. -/
theorem tbCommand_waits {s : State} (h : s.get CRP_TB_CTL_SRC = 1) :
    s.tbCommand (1 == 1) (0 == 1) = s.put CRP_TB_CMD_SET 1 := by
  rw [State.tbCommand, if_neg (by decide), if_pos (by decide), if_pos h]

theorem tbCommand_sets {s : State} (h : s.get CRP_TB_CTL_SRC ≠ 1) : s.tbCommand (1 == 1) (0 == 1) = s.tbSet := by
  rw [State.tbCommand, if_neg (by decide), if_pos (by decide), if_neg h]

theorem tbCommand_now (s : State) (set : Bool) : s.tbCommand set (1 == 1) = s.tbSet := by
  rw [State.tbCommand, if_pos (by decide)]

section timeBase
variable {ok : Admits} (hok : Admitting ok)
include hok

theorem timeBaseSet_of : timeBaseSet ok := by
  intro s b hrun
  have hset : bits (s.putWordOf CRP_TB_CMD_SET 1) 0 1 = 1 := one_bit s (f := CRP_TB_CMD_SET) rfl (by decide)
  have hsetOther : bits (s.putWordOf CRP_TB_CMD_SET 1) 1 1 = 0 :=
    putWordOf_zero s CRP_TB_CMD_SET 1 1 1 CRP_TB_CMD rfl (commandBits_command (by decide)) (by decide) (.inr (by decide))
  have hold : (s.admitted b CRP_TB_CMD).get CRP_TB_CMD_SET = s.get CRP_TB_CMD_SET := admitted_get s b _ (by decide)
  have hsrc (v : Word) (x : Nat) : (((s.stored b CRP_TB_CMD v).put CRP_TB_CMD_SET x).zero CRP_TB_CMD_SET_NOW).get CRP_TB_CTL_SRC =
      s.get CRP_TB_CTL_SRC := by
    rw [State.zero, get_put_of _ _ (by decide) (.inl (by decide)), get_put_of _ _ (by decide) (.inl (by decide)),
      stored_get s b _ _ _ (by decide) (by decide)]
  have key (r : FRef) (hr : r.reg = CRP_TB_CMD) (h : ok s b r.reg (s.putWordOf r 1) = true) (f : State → State)
      (hf : (((s.stored b r.reg (s.putWordOf r 1)).put CRP_TB_CMD_SET (s.get CRP_TB_CMD_SET)).zero CRP_TB_CMD_SET_NOW).tbCommand
        (bits (s.putWordOf r 1) 0 1 == 1) (bits (s.putWordOf r 1) 1 1 == 1) = f (s.stored b r.reg (s.putWordOf r 1))) :
      s.actDrain (fun s => s.doPut b r 1) = .next (wrote s b r.reg (s.putWordOf r 1) f) := by
    refine actDrain_doPut hrun (hok _ _ _ _ h) ((written_crp _ _ _ _ _ _ (by rw [hr]; rfl)).trans (congrArg (·, stSC) ?_))
    rw [hr] at hf ⊢
    rw [crpWritten_cmd, hold]
    exact hf
  refine ⟨fun h hs => ?_, fun h hs => ?_, fun h => ?_⟩
  · refine (exec_set b s).trans (key CRP_TB_CMD_SET rfl h (fun u =>
      ((u.put CRP_TB_CMD_SET (s.get CRP_TB_CMD_SET)).zero CRP_TB_CMD_SET_NOW).put CRP_TB_CMD_SET 1) ?_)
    rw [hset, hsetOther]
    exact tbCommand_waits ((hsrc _ _).trans hs)
  · refine (exec_set b s).trans (key CRP_TB_CMD_SET rfl h (fun u =>
      ((u.put CRP_TB_CMD_SET (s.get CRP_TB_CMD_SET)).zero CRP_TB_CMD_SET_NOW).tbSet) ?_)
    rw [hset, hsetOther]
    exact tbCommand_sets (fun e => hs ((hsrc _ _).symm.trans e))
  · have hnow : bits (s.putWordOf CRP_TB_CMD_SET_NOW 1) 1 1 = 1 := one_bit s (f := CRP_TB_CMD_SET_NOW) rfl (by decide)
    refine (exec_setNow b s).trans (key CRP_TB_CMD_SET_NOW rfl h (fun u =>
      ((u.put CRP_TB_CMD_SET (s.get CRP_TB_CMD_SET)).zero CRP_TB_CMD_SET_NOW).tbSet) ?_)
    rw [hnow]
    exact tbCommand_now _ _

end timeBase

/-- Settles O57: every write that executes normally reaches its register, and does there what its clause says. -/
theorem deviceWritesComplete : Obligations.DeviceWritesComplete := by
  unfold Obligations.DeviceWritesComplete
  exact ⟨faultCommands_of admitting_mayWrite, pendingCleared_of admitting_mayWrite, registersWritten_of admitting_mayWrite,
    guardUnlocked_of admitting_mayWrite, passesStart_of admitting_mayWrite, bootCommandsTaken_of admitting_mayWrite,
    trialConfirmed_of admitting_mayWrite, fuseWritesBegin_of admitting_mayWrite, timeBaseSet_of admitting_mayWrite⟩

end Sys2Proof.Claims

/-! PROOFS. Courier instructions that work on the Ledger, the bus and the queues, and that wait or control (R270 to R287). -/

namespace Sys2Proof.Claims

open Sys2Proof.Machine

/-! ## Outcomes of an issued instruction (R260 to R262) -/

section outcomes
variable {s u : State} {n : Fin 256} {w : Word} {op : Op} {slots : Nat} {legal : Word → Bool} {body : State → Word → Res}
  {i : Instr}

/-- An instruction that waits for a resource and is not started: its wait is charged. -/
theorem issue_stall {k : Nat} (hi : issuesOp s n w op) (hl : legal w = true) (hb : body s w = .stall u k) :
    s.issue n.val op slots legal body = u.charge_ n.val k := by
  obtain ⟨hcan, hpc, hecc, rfl, hop⟩ := hi
  simp [State.issue, hcan, Nat.not_le.2 hpc, hecc, hop, hl, hb]

theorem proceeds_of_next (he : exec i s = .next (s.issue n.val op slots legal body)) (hi : issuesOp s n w op)
    (hl : legal w = true) (hb : body s w = .next u) : proceeds i s n slots u := by
  rw [proceeds, he, issue_next hi hl hb]

theorem stalls_of_stall {k : Nat} (he : exec i s = .next (s.issue n.val op slots legal body)) (hi : issuesOp s n w op)
    (hl : legal w = true) (hb : body s w = .stall u k) : exec i s = .next (u.charge_ n.val k) := by
  rw [he, issue_stall hi hl hb]

theorem fails_of_fail {c x : Nat} {f : State → State} (he : exec i s = .next (s.issue n.val op slots legal body))
    (hi : issuesOp s n w op) (hl : legal w = true) (hb : body s w = .fail c x f) :
    exec i s = .next (f ((s.charge_ n.val slots).trap n.val c x)) := by
  rw [he, issue_fail hi hl hb]

/-- A wait that is granted before the budget is used up (R261). -/
theorem waiting_granted {k : Nat} {go : State → Res} (h : waitFits s n k) :
    s.waiting n.val k true go = go (s.charge_ n.val k) := by
  refine if_pos ?_
  rcases h with rfl | h
  · rfl
  · rw [Bool.true_and, Bool.or_eq_true, decide_eq_true_eq]
    exact .inr h

/-- A wait that is not granted, or that uses up the budget, charges what it took (R261). -/
theorem waiting_stalls {k : Nat} {g : Bool} {go : State → Res} (h : g = false ∨ ¬ waitFits s n k) :
    s.waiting n.val k g go = .stall s (max 1 (min k (slotsLeft s n))) := by
  refine if_neg ?_
  rw [Bool.and_eq_true, Bool.or_eq_true, beq_iff_eq, decide_eq_true_eq]
  rintro ⟨hg, hk⟩
  rcases h with h | h
  · rw [h] at hg
    exact Bool.false_ne_true hg
  · exact h hk

end outcomes

/-! ## The Ledger (R262, R270) -/

section ledgerTraps
variable {s : State} {off : Nat}

theorem ledgerTrap_none (ha : off % 4 = 0) (hin : off + 4 ≤ s.member.ledgerBytes) : s.ledgerTrap off = none := by
  rw [State.ledgerTrap, if_neg (fun h => h ha), if_neg (by omega)]

theorem ledgerTrap_align (ha : off % 4 ≠ 0) : s.ledgerTrap off = some (5, off) := if_pos ha

theorem ledgerTrap_range (ha : off % 4 = 0) (hout : s.member.ledgerBytes < off + 4) : s.ledgerTrap off = some (6, off) := by
  rw [State.ledgerTrap, if_neg (fun h => h ha), if_pos hout]

end ledgerTraps

theorem ledgerLoaded_holds : ledgerLoaded := by
  rintro s n w _ e bs _ h rfl rfl
  have hi : issuesOp s n w .ldl := h.asRow rfl (by decide)
  refine ⟨fun ha hin hfit => ⟨fun hok => ?read, fun hue => ?ue⟩, fun g ha hin hno => ?stall, fun g ha => ?align,
    fun g ha hout => ?range⟩
  case read =>
    refine proceeds_of_next (exec_ldl n _ s) hi rfl ?_
    dsimp only
    rw [show s.ledgerTrap (memOff (s.arch n.val) w) = none from ledgerTrap_none ha hin]
    exact (waiting_granted hfit).trans (if_neg (fun hue => Bool.false_ne_true (hok.symm.trans hue)))
  case ue =>
    refine fails_of_fail (f := fun u => (((u.ledgerFound (memAt s n w) e).ledgerRead 0 n.val (memAt s n w) 4).1).charge_ n.val
      (backoffSlots bs)) (exec_ldl n _ s) hi rfl ?_
    dsimp only
    rw [show s.ledgerTrap (memOff (s.arch n.val) w) = none from ledgerTrap_none ha hin]
    exact (waiting_granted hfit).trans (if_pos hue)
  case stall =>
    refine stalls_of_stall (exec_ldl n _ s) hi rfl ?_
    dsimp only
    rw [show s.ledgerTrap (memOff (s.arch n.val) w) = none from ledgerTrap_none ha hin]
    exact waiting_stalls hno
  case align =>
    refine traps_of_trap (exec_ldl n _ s) hi rfl ?_
    dsimp only
    rw [show s.ledgerTrap (memOff (s.arch n.val) w) = some (5, memAt s n w) from ledgerTrap_align ha]
  case range =>
    refine traps_of_trap (exec_ldl n _ s) hi rfl ?_
    dsimp only
    rw [show s.ledgerTrap (memOff (s.arch n.val) w) = some (6, memAt s n w) from ledgerTrap_range ha hout]

/-- The offset that a load or store of the Ledger computes is the one that the statements name. -/
theorem memOff_eq (s : State) (n : Fin 256) (w : Word) : memOff (s.arch n.val) w = memAt s n w := rfl

/-- What an STL that is granted answers for the verdict on its write (R207, R212, R214, R270). -/
def stlAnswer (s : State) (n : Fin 256) (k off : Nat) (v : Word) : Verdict → Res
  | .ok => .next (stlWrite s n k off v).1
  | .te => .fail 7 off (fun u => (u.ledgerWrite 0 n.val (offsets off (leBytes 4 v.toNat))).1.charge_ n.val k)
  | .refused => .fail 6 off (fun u => (u.ledgerWrite 0 n.val (offsets off (leBytes 4 v.toNat))).1.charge_ n.val k)
  | .forward => .next ((s.charge_ n.val k).ledgerAway n.val (offsets off (leBytes 4 v.toNat)))
  | .un => .next ((s.charge_ n.val k).ledgerFail n.val stUN off 4)

theorem stl_granted {s : State} {n : Fin 256} {w : Word} {k : Nat} {vd : Verdict} (ha : memAt s n w % 4 = 0)
    (hin : memAt s n w + 4 ≤ s.member.ledgerBytes) (hfit : waitFits s n k)
    (hv : (stlWrite s n k (memAt s n w) (rd s n w)).2 = vd) :
    ∃ body, exec (.stl ⟨n, k, true⟩) s = .next (s.issue n.val .stl 2 (fun _ => true) body) ∧
      body s w = stlAnswer s n k (memAt s n w) (rd s n w) vd := by
  have hword : ((s.charge_ n.val k).arch n.val).reg (fRd w) = rd s n w := rfl
  refine ⟨_, exec_stl _ s, ?_⟩
  dsimp only
  rw [memOff_eq, ledgerTrap_none ha hin]
  dsimp only
  rw [waiting_granted hfit, hword, ← stlWrite, hv]
  cases vd <;> rfl

theorem ledgerStored_holds : ledgerStored := by
  rintro s n w _ k _ h rfl rfl
  have hi : issuesOp s n w .stl := h.asRow rfl (by decide)
  refine ⟨fun ha hin hfit => ⟨fun hv => ?ok, fun hv => ?forward, fun hv => ?un, fun hv => ?refused, fun hv => ?te⟩,
    fun g ha hin hno => ?stall, fun g ha => ?align, fun g ha hout => ?range⟩
  case ok =>
    obtain ⟨_, he, hb⟩ := stl_granted ha hin hfit hv
    exact proceeds_of_next he hi rfl hb
  case forward =>
    obtain ⟨_, he, hb⟩ := stl_granted ha hin hfit hv
    exact proceeds_of_next he hi rfl hb
  case un =>
    obtain ⟨_, he, hb⟩ := stl_granted ha hin hfit hv
    exact proceeds_of_next he hi rfl hb
  case refused =>
    obtain ⟨_, he, hb⟩ := stl_granted ha hin hfit hv
    have hfail := fails_of_fail he hi rfl hb
    exact hfail
  case te =>
    obtain ⟨_, he, hb⟩ := stl_granted ha hin hfit hv
    have hfail := fails_of_fail he hi rfl hb
    exact hfail
  case stall =>
    refine stalls_of_stall (exec_stl _ s) hi rfl ?_
    dsimp only
    rw [show s.ledgerTrap (memOff (s.arch n.val) w) = none from ledgerTrap_none ha hin]
    exact waiting_stalls hno
  case align =>
    refine traps_of_trap (exec_stl _ s) hi rfl ?_
    dsimp only
    rw [show s.ledgerTrap (memOff (s.arch n.val) w) = some (5, memAt s n w) from ledgerTrap_align ha]
  case range =>
    refine traps_of_trap (exec_stl _ s) hi rfl ?_
    dsimp only
    rw [show s.ledgerTrap (memOff (s.arch n.val) w) = some (6, memAt s n w) from ledgerTrap_range ha hout]

/-- Settles O35: each answer of the Ledger by the rule for its outcome. -/
theorem ledgerAccessed : Obligations.LedgerAccessed := ⟨ledgerLoaded_holds, ledgerStored_holds⟩

end Sys2Proof.Claims

/-! PROOFS. Bus cycle instructions (R271 to R279): what a descriptor, a token and a segment let an instruction do. -/

namespace Sys2Proof.Claims

open Sys2Proof.Machine

/-! ## Bus cycle instructions (R271 to R278) -/

/-- A descriptor that R272 lets through is let through for the instructions but POLL. -/
theorem descBad_of_legal {s : State} {d : Desc} (h : descLegal s d) {o : BusOp} (hp : o ≠ .poll)
    (hl : o = .locked → d.loc = 0 ∧ d.burst = false) : s.descBad o d = false := by
  obtain ⟨hseg, hres, htmo, hloc, hw, hlen, hspc, hreg, hio, hend⟩ := h
  have h1 : decide (400 < d.tmo) = false := decide_eq_false (by omega)
  have h2 : decide (255 < d.len) = false := decide_eq_false (by omega)
  have h3 : (d.loc == 0 && decide (3 < d.len)) = false := by
    rw [Bool.and_eq_false_iff, beq_eq_false_iff_ne, decide_eq_false_iff_not]
    by_cases h0 : d.loc = 0
    · exact .inr (by have := hreg h0; omega)
    · exact .inl h0
  have h4 : (d.space == 2 && natBits d.a 16 5 == 0) = false := by
    rw [Bool.and_eq_false_iff, beq_eq_false_iff_ne, beq_eq_false_iff_ne]
    by_cases h0 : d.space = 2
    · exact .inr (hio h0)
    · exact .inl h0
  have h5 : decide (0xFFFFFF < d.a + d.len) = false := decide_eq_false (by omega)
  have h6 : (o == .locked && (d.loc != 0 || d.burst)) = false := by
    by_cases h0 : o = .locked
    · obtain ⟨hl0, hlb⟩ := hl h0
      rw [hl0, hlb]
      exact Bool.and_false _
    · rw [beq_eq_false_iff_ne.2 h0, Bool.false_and]
  unfold State.descBad
  rw [hseg, hres, h1, beq_eq_false_iff_ne.2 hloc]
  cases o
  case poll => exact absurd rfl hp
  all_goals
    dsimp only
    rw [beq_eq_false_iff_ne.2 hw, h2, beq_eq_false_iff_ne.2 hspc, h3, h4, h5, h6]
    rfl

/-- A descriptor that traps is one that R272 does not let through. -/
theorem descBad_of_not_legal {s : State} {d : Desc} (h : ¬ descLegal s d) {o : BusOp} (hp : o ≠ .poll) :
    s.descBad o d = true := by
  rw [← Bool.not_eq_false]
  intro hbad
  refine h ?_
  unfold State.descBad at hbad
  cases o
  case poll => exact absurd rfl hp
  all_goals
    simp only [Bool.or_eq_false_iff, Bool.not_eq_false', Bool.and_eq_false_iff, beq_eq_false_iff_ne,
      decide_eq_false_iff_not] at hbad
    obtain ⟨⟨⟨⟨hseg, hres⟩, htmo⟩, hloc⟩, ⟨⟨⟨⟨⟨hw, hlen⟩, hspc⟩, hreg⟩, hio⟩, hend⟩, -⟩ := hbad
    exact ⟨hseg, hres, by omega, hloc, hw, by omega, hspc, fun h0 => by have := hreg.resolve_left (fun h => h h0); omega,
      fun h0 => hio.resolve_left (fun h => h h0), by omega⟩

theorem descBad_poll {s : State} {d : Desc} (hseg : s.hasSeg d.seg = true) (hres : d.reserved = false) (htmo : d.tmo ≤ 400)
    (hspc : d.space = 3) (hloc : d.loc = 0) (ha : d.a < 4) : s.descBad .poll d = false := by
  unfold State.descBad
  rw [hseg, hres, decide_eq_false (show ¬ 400 < d.tmo by omega), hspc, hloc]
  dsimp only
  rw [decide_eq_false (show ¬ 4 ≤ d.a by omega)]
  rfl

theorem bufTrap_none {s : State} {n : Fin 256} {d : Desc} (h : bufferFits s n d) : s.bufTrap n.val d = none := by
  obtain ⟨h1, h2⟩ := h
  rw [State.bufTrap, if_neg (fun e => by have := h1 e.1; omega), if_neg (fun e => by have := h2 e.1; omega)]

/-- A descriptor whose bytes are in registers needs no buffer. -/
theorem bufferFits_reg (s : State) (n : Fin 256) {d : Desc} (h : d.loc = 0) : bufferFits s n d :=
  ⟨fun e => by omega, fun e => by omega⟩

theorem takeToken_order (s : State) (n t : Nat) : (s.takeToken n t).order = s.order := by
  unfold State.takeToken
  dsimp only
  split
  · rw [State.put_order, State.put_order]
    rfl
  · rw [State.put_order]
    rfl

theorem takeToken_member (s : State) (n t : Nat) : (s.takeToken n t).member = s.member := by
  unfold State.takeToken
  dsimp only
  split
  · rw [State.put_member, State.put_member]
    rfl
  · rw [State.put_member]
    rfl

theorem takeToken_get (s : State) (n t : Nat) {f : FRef} (h : f.reg ≠ COUR_TAGS) : (s.takeToken n t).get f = s.get f := by
  have hput (u : State) (k : Nat) : (u.put COUR_TAGS_IN_USE k).get f = u.get f :=
    get_put_of u k (Nat.le_of_ble_eq_true rfl) (.inl h)
  have hput' (u : State) (k : Nat) : (u.put COUR_TAGS_HIGH k).get f = u.get f :=
    get_put_of u k (Nat.le_of_ble_eq_true rfl) (.inl h)
  unfold State.takeToken
  dsimp only
  split
  · rw [hput', hput]
    rfl
  · rw [hput]
    rfl

theorem takeToken_owns (s : State) (n t g : Nat) : (s.takeToken n t).owns g = s.owns g := by
  have hreg : ∀ f : FRef, f.reg = SEG_STAT g → f.reg ≠ COUR_TAGS := fun f hf => by
    rw [hf, SEG_STAT, COUR_TAGS]
    omega
  rw [State.owns, State.owns, State.hasSeg, State.hasSeg, takeToken_member, takeToken_get _ _ _ (hreg _ rfl), takeToken_get _ _ _ (hreg _ rfl)]

/-- The bytes that a bus instruction takes at its issue (R274). -/
def bytesTaken (o : BusOp) (s : State) (n : Fin 256) (d : Desc) (v : Word) : State × Option (List Byte) :=
  if o == .posted || o == .nonposted then s.sourceBytes n.val d v else (s, some (List.replicate (d.len + 1) 0))

/-- The cycle that a bus instruction hands to its segment. -/
def busJob (o : BusOp) (s : State) (n : Fin 256) (w : Word) (d : Desc) (bytes : List Byte) : Job :=
  (s.takeToken n.val (bits w 15 3)).descJob n.val o d
    (if o = .posted then .courierWrite n.val else .token n.val (bits w 15 3)) (rd s n w) bytes

section busIssue
variable {o : BusOp} {s : State} {n : Fin 256} {w : Word} {d : Desc} {bytes : List Byte}
  (hd : descOf ((s.arch n.val).d.getD (fD w) 0) = d)
include hd

theorem busIssue_desc (h : s.descBad o d = true) : busIssue o n.val s w = .trap 9 (bits w 18 3) := by
  unfold busIssue
  dsimp only
  rw [hd]
  exact if_pos h

theorem busIssue_buffer {x : Nat × Nat} (h : s.descBad o d = false) (hb : s.bufTrap n.val d = some x) :
    busIssue o n.val s w = .trap x.1 x.2 := by
  unfold busIssue
  dsimp only
  rw [hd, if_neg (fun e => Bool.false_ne_true (h.symm.trans e)), hb]

section checked
variable (h : s.descBad o d = false) (hb : bufferFits s n d)
include h hb

theorem busIssue_busy (ht : (s.token n.val (bits w 15 3)).state = 1) : busIssue o n.val s w = .trap 8 (bits w 15 3) := by
  unfold busIssue
  dsimp only
  rw [hd, if_neg (fun e => Bool.false_ne_true (h.symm.trans e)), bufTrap_none hb]
  exact if_pos ht

theorem busIssue_tagless (ht : (s.token n.val (bits w 15 3)).state ≠ 1) (hg : 128 ≤ s.get COUR_TAGS_IN_USE) :
    busIssue o n.val s w = .stall (s.tagStall n.val) 1 := by
  unfold busIssue
  dsimp only
  rw [hd, if_neg (fun e => Bool.false_ne_true (h.symm.trans e)), bufTrap_none hb]
  exact (if_neg ht).trans (if_pos hg)

section taken
variable (ht : tokenFree s n w) (hs : bytesTaken o s n d (rd s n w) = (s, some bytes))
include ht hs

theorem busIssue_away (howns : s.owns d.seg = false) : busIssue o n.val s w =
    .next (((s.takeToken n.val (bits w 15 3)).resolveToken n.val (bits w 15 3) stUN 0 0 0).pollOver d.seg
      (if o = .poll then some (d.a % 4) else none)) := by
  obtain ⟨hfree, htag⟩ := ht
  have howns' : (!(s.takeToken n.val (bits w 15 3)).owns d.seg) = true := by rw [takeToken_owns, howns]; rfl
  unfold busIssue
  dsimp only
  rw [hd, if_neg (fun e => Bool.false_ne_true (h.symm.trans e)), bufTrap_none hb]
  refine (if_neg hfree).trans ((if_neg (Nat.not_le.2 htag)).trans ?_)
  rw [show (if (o == .posted || o == .nonposted) = true then s.sourceBytes n.val d ((s.arch n.val).reg (fRd w))
    else (s, some (List.replicate (d.len + 1) 0))) = (s, some bytes) from hs]
  exact if_pos howns'

theorem busIssue_owned (howns : s.owns d.seg = true) : busIssue o n.val s w =
    .next (if o = .posted then
      (issued s n (bits w 15 3) d.seg (busJob o s n w d bytes)).resolveToken n.val (bits w 15 3) stSC 0 0 0
      else issued s n (bits w 15 3) d.seg (busJob o s n w d bytes)) := by
  obtain ⟨hfree, htag⟩ := ht
  have howns' : ¬ (!(s.takeToken n.val (bits w 15 3)).owns d.seg) = true := by rw [takeToken_owns, howns]; decide
  unfold busIssue
  dsimp only
  rw [hd, if_neg (fun e => Bool.false_ne_true (h.symm.trans e)), bufTrap_none hb]
  refine (if_neg hfree).trans ((if_neg (Nat.not_le.2 htag)).trans ?_)
  rw [show (if (o == .posted || o == .nonposted) = true then s.sourceBytes n.val d ((s.arch n.val).reg (fRd w))
    else (s, some (List.replicate (d.len + 1) 0))) = (s, some bytes) from hs]
  refine (if_neg howns').trans ?_
  rw [issued, ← takeToken_order s n.val (bits w 15 3)]
  rfl

end taken

end checked

end busIssue

/-- The cycle handed over is as its descriptor gives it (R271, R273). -/
theorem busJob_cycle (o : BusOp) (s : State) (n : Fin 256) (w : Word) (d : Desc) (bytes : List Byte) :
    cycleOf s n d (busJob o s n w d bytes) := by
  have horder := takeToken_order s n.val (bits w 15 3)
  cases o <;> exact ⟨rfl, rfl, rfl, rfl, rfl, rfl, rfl, rfl, horder, rfl⟩

theorem bytesTaken_sourced {s : State} {n : Fin 256} {w : Word} {d : Desc} {bs : List Byte} (h : sourced s n w d bs)
    {o : BusOp} (ho : o = .posted ∨ o = .nonposted) : bytesTaken o s n d (rd s n w) = (s, some bs) := by
  have hwrites : (o == .posted || o == .nonposted) = true := by rcases ho with rfl | rfl <;> rfl
  rw [bytesTaken, if_pos hwrites, State.sourceBytes]
  rcases h with ⟨hloc, rfl⟩ | ⟨hloc, hok, rfl⟩
  · rw [if_pos hloc]
  · have hread : (s.dmemRead (s.dataAt n.val d.buf) (d.len + 1)).2 = false := by
      rw [← Bool.not_eq_true, dmemRead_meets]
      rintro ⟨j, hj, hue⟩
      exact hok j (by omega) hue
    rw [if_neg (by omega), if_pos hloc]
    dsimp only
    rw [hread]
    exact congrArg (fun x => (s, some x)) (readMem_eq_map ..)

/-- Reserved fields of a bus instruction that are zero. -/
theorem busX_legal {w : Word} (hx : bits w 0 15 = 0) : (fX w == 0) = true := beq_iff_eq.2 hx

theorem busXRd_legal {w : Word} (hx : bits w 0 15 = 0) (hrd : bits w 21 5 = 0) : (fX w == 0 && fRd w == 0) = true := by
  rw [Bool.and_eq_true]
  exact ⟨beq_iff_eq.2 hx, beq_iff_eq.2 hrd⟩

theorem cyclesRead_holds : cyclesRead := by
  rintro s n w d hd hx ht howns
  refine ⟨fun h hrd hl hb => ?cyr, fun h hl hloc hburst => ?cyl, fun h hrd hseg hres htmo hspc hloc ha => ?poll⟩
  case cyr =>
    exact ⟨_, busJob_cycle .read s n w d _, rfl, rfl, rfl, rfl, rfl, proceeds_of_next (exec_cyr n s) (h.asRow rfl (by decide)) (busXRd_legal hx hrd)
      (busIssue_owned hd.symm (descBad_of_legal hl (by decide) (fun e => by cases e)) hb ht rfl howns)⟩
  case cyl =>
    exact ⟨_, busJob_cycle .locked s n w d _, rfl, rfl, rfl, rfl, proceeds_of_next (exec_cyl n s) (h.asRow rfl (by decide)) (busX_legal hx)
      (busIssue_owned hd.symm (descBad_of_legal hl (by decide) (fun _ => ⟨hloc, hburst⟩)) (bufferFits_reg s n hloc) ht rfl howns)⟩
  case poll =>
    have hline : (busJob .poll s n w d (List.replicate (d.len + 1) 0)).poll = some d.a :=
      congrArg some (Nat.mod_eq_of_lt ha)
    exact ⟨_, busJob_cycle .poll s n w d _, rfl, hline, proceeds_of_next (exec_poll n s) (h.asRow rfl (by decide)) (busXRd_legal hx hrd)
      (busIssue_owned hd.symm (descBad_poll hseg hres htmo hspc hloc ha) (bufferFits_reg s n hloc) ht rfl howns)⟩

theorem cyclesWritten_holds : cyclesWritten := by
  rintro s n w d bs hd hx ht howns hl hb hs
  refine ⟨fun h => ?cywn, fun h => ?cyw⟩
  case cywn =>
    exact ⟨_, busJob_cycle .nonposted s n w d bs, rfl, rfl, rfl, proceeds_of_next (exec_cywn n s) (h.asRow rfl (by decide)) (busX_legal hx)
      (busIssue_owned hd.symm (descBad_of_legal hl (by decide) (fun e => by cases e)) hb ht (bytesTaken_sourced hs (.inr rfl)) howns)⟩
  case cyw =>
    exact ⟨_, busJob_cycle .posted s n w d bs, rfl, rfl, rfl, proceeds_of_next (exec_cyw n s) (h.asRow rfl (by decide)) (busX_legal hx)
      (busIssue_owned hd.symm (descBad_of_legal hl (by decide) (fun e => by cases e)) hb ht (bytesTaken_sourced hs (.inl rfl)) howns)⟩

theorem cyclesAway_holds : cyclesAway := by
  rintro s n w d hd hx ht howns hl hloc
  have hb := bufferFits_reg s n hloc
  have hs : sourced s n w d (leBytes (d.len + 1) (rd s n w).toNat) := .inl ⟨hloc, rfl⟩
  refine ⟨fun h hrd => ?cyr, fun h => ?cyw, fun h => ?cywn, fun h hburst => ?cyl⟩
  case cyr =>
    exact proceeds_of_next (exec_cyr n s) (h.asRow rfl (by decide)) (busXRd_legal hx hrd)
      (busIssue_away hd.symm (descBad_of_legal hl (by decide) (fun e => by cases e)) hb ht rfl howns)
  case cyw =>
    exact proceeds_of_next (exec_cyw n s) (h.asRow rfl (by decide)) (busX_legal hx)
      (busIssue_away hd.symm (descBad_of_legal hl (by decide) (fun e => by cases e)) hb ht (bytesTaken_sourced hs (.inl rfl)) howns)
  case cywn =>
    exact proceeds_of_next (exec_cywn n s) (h.asRow rfl (by decide)) (busX_legal hx)
      (busIssue_away hd.symm (descBad_of_legal hl (by decide) (fun e => by cases e)) hb ht (bytesTaken_sourced hs (.inr rfl)) howns)
  case cyl =>
    exact proceeds_of_next (exec_cyl n s) (h.asRow rfl (by decide)) (busX_legal hx)
      (busIssue_away hd.symm (descBad_of_legal hl (by decide) (fun _ => ⟨hloc, hburst⟩)) hb ht rfl howns)

theorem pollAway_holds : pollAway := by
  rintro s u n w d hd hx hrd ht howns hseg hres htmo hspc hloc ha h rfl
  have haway := busIssue_away hd.symm (descBad_poll hseg hres htmo hspc hloc ha) (bufferFits_reg s n hloc) ht rfl howns
  rw [if_pos rfl, Nat.mod_eq_of_lt ha] at haway
  exact proceeds_of_next (exec_poll n s) (h.asRow rfl (by decide)) (busXRd_legal hx hrd) haway

theorem bufTrap_data {s : State} {n : Fin 256} {d : Desc} (hloc : d.loc = 1) (h : s.dataSize n.val < d.buf + d.len + 1) :
    s.bufTrap n.val d = some (3, d.buf) := if_pos ⟨hloc, h⟩

theorem bufTrap_ledger {s : State} {n : Fin 256} {d : Desc} (hloc : d.loc = 2) (h : s.member.ledgerBytes < d.buf + d.len + 1) :
    s.bufTrap n.val d = some (6, d.buf) := by
  rw [State.bufTrap, if_neg (fun e => by have := e.1; omega), if_pos ⟨hloc, h⟩]

/-- The traps and the stall of an instruction that hands a cycle to a bus, whatever its cycle (R242, R261, R262, R272). -/
theorem busTraps {s : State} {n : Fin 256} {w : Word} {d : Desc} {o : BusOp} {op : Op} {i : Instr} {legal : Word → Bool}
    (hd : d = descOf ((s.arch n.val).d.getD (bits w 18 3) 0)) (he : exec i s = .next (s.issue n.val op 2 legal (busIssue o n.val)))
    (hi : issuesOp s n w op) (hw : legal w = true) (hp : o ≠ .poll) (hl : o ≠ .locked) :
    (¬ descLegal s d → traps i s n 2 9 (bits w 18 3)) ∧
    (descLegal s d → d.loc = 1 → s.dataSize n.val < d.buf + d.len + 1 → traps i s n 2 3 d.buf) ∧
    (descLegal s d → d.loc = 2 → s.member.ledgerBytes < d.buf + d.len + 1 → traps i s n 2 6 d.buf) ∧
    (descLegal s d → bufferFits s n d → (s.token n.val (bits w 15 3)).state = 1 → traps i s n 2 8 (bits w 15 3)) ∧
    (descLegal s d → bufferFits s n d → (s.token n.val (bits w 15 3)).state ≠ 1 → 128 ≤ s.get COUR_TAGS_IN_USE →
      exec i s = .next ((s.tagStall n.val).charge_ n.val 1)) := by
  have hbad (h : descLegal s d) : s.descBad o d = false := descBad_of_legal h hp (fun e => absurd e hl)
  refine ⟨fun h => ?desc, fun h hloc hout => ?data, fun h hloc hout => ?ledger, fun h hb ht => ?busy, fun h hb ht hg => ?tag⟩
  case desc => exact traps_of_trap he hi hw (busIssue_desc hd.symm (descBad_of_not_legal h hp))
  case data => exact traps_of_trap he hi hw (busIssue_buffer hd.symm (hbad h) (bufTrap_data hloc hout))
  case ledger => exact traps_of_trap he hi hw (busIssue_buffer hd.symm (hbad h) (bufTrap_ledger hloc hout))
  case busy => exact traps_of_trap he hi hw (busIssue_busy hd.symm (hbad h) hb ht)
  case tag => exact stalls_of_stall he hi hw (busIssue_tagless hd.symm (hbad h) hb ht hg)

theorem cyclesTrapped_holds : cyclesTrapped := by
  rintro s n w d hd hx i (⟨rfl, h, hrd⟩ | ⟨rfl, h⟩)
  · exact busTraps hd (exec_cyr n s) (h.asRow rfl (by decide)) (busXRd_legal hx hrd) (by decide) (by decide)
  · exact busTraps hd (exec_cywn n s) (h.asRow rfl (by decide)) (busX_legal hx) (by decide) (by decide)

/-! ## Tokens read (R279) -/

/-- TRD gives its register what the token shows, with Z and N of it. -/
theorem completes_of_trd {s : State} {n : Fin 256} {w : Word} {v : Word} (h : issuing s n w 0x25) (hd : bits w 18 3 = 0)
    (hx : bits w 2 13 = 0) (hsel : bits w 0 2 ≠ 3) (hv : (s.tokenNow n.val (bits w 15 3)).shown (bits w 0 2) = v) :
    completes (.trd n) s n 1 (zn s n w v) := by
  refine completes_of_next (exec_trd n s) (h.asRow rfl (by decide)) ?_ rfl ?_
  · simp [fD, hd, hx, hsel]
  · rw [show (s.tokenNow n.val (fT w)).shown (bits w 0 2) = v from hv, setZN_eq]
    exact archOnly_setArch s n _

theorem tokenNow_other {s : State} {n t : Nat} (h : (s.token n t).state ≠ 1) : s.tokenNow n t = s.token n t := if_neg h

theorem tokenNow_pending {s : State} {n t : Nat} {j : Job} (h : (s.token n t).state = 1)
    (hj : (((List.range 4).map (fun g => (s.seg g).jobs)).flatten).find? (fun j => j.owner == .token n t) = some j) :
    s.tokenNow n t = { s.token n t with busNs := j.busNs, retries := j.answers } := by
  unfold State.tokenNow
  dsimp only
  rw [if_pos h, hj]

/-- The state of a token as it stands is the token's. -/
theorem tokenNow_state (s : State) (n t : Nat) : (s.tokenNow n t).state = (s.token n t).state := by
  unfold State.tokenNow
  dsimp only
  split
  · split <;> rfl
  · rfl

theorem tokenRead_holds : tokenRead := by
  rintro s n w k h hd hx hk
  have hk : s.token n.val (bits w 15 3) = k := hk.symm
  have hnow (hne : k.state ≠ 1) : s.tokenNow n.val (bits w 15 3) = k := (tokenNow_other (by rwa [hk])).trans hk
  refine ⟨fun hst hsel => ?data, fun hst hsel => ?status, fun hst hsel => ?ns, fun hst hsel => ?noData,
    fun hst hst1 hsel => ?noStatus, fun j hst hj => ⟨fun hsel => ?answers, fun hsel => ?soFar⟩⟩
  case data =>
    refine completes_of_trd h hd hx (by omega) ?_
    rw [hnow (by omega), hsel]
    exact if_pos hst
  case status =>
    refine completes_of_trd h hd hx (by omega) ?_
    rw [hnow (by omega), hsel, Token.shown, if_neg (by decide), if_pos rfl, if_pos hst, hst]
    refine congrArg (BitVec.ofNat 32) ?_
    omega
  case ns =>
    refine completes_of_trd h hd hx (by omega) ?_
    rw [hnow hst, hsel]
    rfl
  case noData =>
    refine completes_of_trd h hd hx (by omega) ?_
    have hst' : ¬ (s.tokenNow n.val (bits w 15 3)).state = 2 := by rwa [tokenNow_state, hk]
    rw [hsel]
    exact if_neg hst'
  case noStatus =>
    refine completes_of_trd h hd hx (by omega) ?_
    rw [hnow hst1, hsel, Token.shown, if_neg (by decide), if_pos rfl, if_neg hst]
    refine congrArg (BitVec.ofNat 32) ?_
    omega
  case answers =>
    refine completes_of_trd h hd hx (by omega) ?_
    rw [tokenNow_pending (by rwa [hk]) hj, hk, hsel, Token.shown, if_neg (by decide), if_pos rfl, if_neg (by
      show ¬ k.state = 2
      omega)]
    refine congrArg (BitVec.ofNat 32) ?_
    show k.state + 0 + min 15 j.answers * 2 ^ 8 = _
    omega
  case soFar =>
    refine completes_of_trd h hd hx (by omega) ?_
    rw [tokenNow_pending (by rwa [hk]) hj, hsel]
    rfl

/-- Settles O36: each bus instruction by the rule for what its descriptor, its token and its segment let it do. -/
theorem busCyclesIssued : Obligations.BusCyclesIssued :=
  ⟨cyclesRead_holds, cyclesWritten_holds, cyclesAway_holds, pollAway_holds, cyclesTrapped_holds, tokenRead_holds⟩

end Sys2Proof.Claims

/-! PROOFS. Waiting, yielding, events, the time, budgets, and traps with their return (R281 to R287). -/

namespace Sys2Proof.Claims

open Sys2Proof.Machine

/-! ## Slots charged (R294) -/

theorem charge_word (s : State) (n k a : Nat) : (s.charge_ n k).word a = (s.bumpBy (CTX_CHG_SLOTS n) k).word a := rfl

/-- No slot charged leaves every register as it is. -/
theorem charge_zero_word (s : State) (n a : Nat) : (s.charge_ n 0).word a = s.word a := by
  have hlt : s.get (CTX_CHG_SLOTS n) < 2 ^ 25 := get_lt s (CTX_CHG_SLOTS n)
  have hsat : satAdd (2 ^ (CTX_CHG_SLOTS n).w - 1) (s.get (CTX_CHG_SLOTS n)) 0 = s.get (CTX_CHG_SLOTS n) := by
    show min (2 ^ 25 - 1) (s.get (CTX_CHG_SLOTS n) + 0) = _
    omega
  rw [charge_word, State.bumpBy, hsat, word_put_self]

/-- Slots charged change the count of their context alone. -/
theorem charge_get_other (s : State) (n k : Nat) {f : FRef} (h : f.reg ≠ CTX_CHG n) : (s.charge_ n k).get f = s.get f := by
  rw [State.get, charge_word, ← State.get, State.bumpBy, get_put_of _ _ (Nat.le_of_ble_eq_true rfl) (.inl h)]

theorem charge_get_slots (s : State) (n k : Nat) :
    (s.charge_ n k).get (CTX_CHG_SLOTS n) = min (2 ^ 25 - 1) (s.get (CTX_CHG_SLOTS n) + k) := by
  rw [State.get, charge_word, ← State.get, State.bumpBy, get_put_same _ _ _ (Nat.le_of_ble_eq_true rfl)]
  show min (2 ^ 25 - 1) _ % 2 ^ 25 = _
  omega

theorem charge_timers (s : State) (n k : Nat) : (s.charge_ n k).timers = s.timers := rfl

theorem charge_clk (s : State) (n k : Nat) : (s.charge_ n k).clk = s.clk := rfl

/-- `t` is `s` but for the registers of contexts, the register space and the slots of couriers. -/
def SlotsOnly (s t : State) : Prop := ∃ ar rg cs, t = { s with archs := ar, regs := rg, courSlots := cs }

theorem SlotsOnly.trans {s t u : State} (h : SlotsOnly s t) (k : SlotsOnly t u) : SlotsOnly s u := by
  obtain ⟨_, _, _, rfl⟩ := h
  obtain ⟨_, _, _, rfl⟩ := k
  exact ⟨_, _, _, rfl⟩

theorem SlotsOnly.setArch (s : State) (n : Nat) (a : Arch) : SlotsOnly s (s.setArch n a) := ⟨_, _, _, rfl⟩

theorem SlotsOnly.charge (s : State) (n k : Nat) : SlotsOnly s (s.charge_ n k) := ⟨_, _, _, rfl⟩

theorem SlotsOnly.eq {s t : State} (h : SlotsOnly s t) :
    t = { s with archs := t.archs, regs := t.regs, courSlots := t.courSlots } := by
  obtain ⟨_, _, _, rfl⟩ := h
  rfl

/-! ## WAIT (R240, R281, R282) -/

section wait
variable {s : State} {n : Fin 256} {w : Word}

/-- A WAIT whose reserved bits are zero, by its kind (R258, R281). -/
theorem waitLegal_tokens (hd : bits w 18 3 = 0) (ht : bits w 15 3 = 0) (hx : bits w 9 3 = 0) (hk : bits w 13 2 = 0)
    (h0 : bits w 0 9 ≠ 0) (h1 : bits w 0 9 < 256) : waitLegal w = true := by
  simp [waitLegal, fD, fT, waitKind, waitArg, hd, ht, hx, hk, h0, h1]

theorem waitLegal_event (hd : bits w 18 3 = 0) (ht : bits w 15 3 = 0) (hx : bits w 9 3 = 0) (hk : bits w 13 2 = 1)
    (ha : bits w 12 1 = 0) : waitLegal w = true := by
  simp [waitLegal, fD, fT, waitKind, waitAll, hd, ht, hx, hk, ha]

theorem waitLegal_time (hd : bits w 18 3 = 0) (ht : bits w 15 3 = 0) (hx : bits w 9 3 = 0) (hk : bits w 13 2 = 2)
    (ha : bits w 12 1 = 0) (h0 : bits w 0 9 = 0) : waitLegal w = true := by
  simp [waitLegal, fD, fT, waitKind, waitAll, waitArg, hd, ht, hx, hk, ha, h0]

/-- What a WAIT does that is not met at once (R281). -/
def waitOn (s : State) (n : Fin 256) (w : Word) (f : WaitFor) : Res :=
  if bits w 21 5 != 0 && (rd s n w).toNat == 0 then .next (s.waitDone n.val 1 true)
  else .next (s.waitBegin n.val f (if bits w 21 5 != 0 then some (s.now + (rd s n w).toNat) else none))

theorem waitOn_zero {f : WaitFor} (hrd : bits w 21 5 ≠ 0) (hz : (rd s n w).toNat = 0) :
    waitOn s n w f = .next (s.waitDone n.val 1 true) := by
  rw [waitOn, hz, bne_iff_ne.2 hrd]
  rfl

/-- A WAIT that has no time waits without end; one with a time waits until then. -/
theorem waitOn_begins {f : WaitFor} {due : Option Nat} (hdue : bits w 21 5 = 0 ∧ due = none ∨
    bits w 21 5 ≠ 0 ∧ (rd s n w).toNat ≠ 0 ∧ due = some (s.now + (rd s n w).toNat)) :
    waitOn s n w f = .next (s.waitBegin n.val f due) := by
  rcases hdue with ⟨hrd, rfl⟩ | ⟨hrd, hz, rfl⟩
  · rw [waitOn, hrd]
    rfl
  · rw [waitOn, bne_iff_ne.2 hrd, beq_eq_false_iff_ne.2 hz]
    rfl

theorem doWait_tokens (hk : bits w 13 2 = 0) : doWait n.val s w =
    if tokensMet (s.arch n.val).t (bits w 0 9) (bits w 12 1 == 1) then .next (s.waitDone n.val 1 false)
    else waitOn s n w (.tokens (bits w 0 9) (bits w 12 1 == 1)) := by
  unfold doWait
  simp only [waitKind, hk]
  rfl

theorem doWait_event (hk : bits w 13 2 = 1) : doWait n.val s w = waitOn s n w (.event (bits w 0 9)) := by
  unfold doWait
  simp only [waitKind, hk]
  rfl

theorem doWait_time (hk : bits w 13 2 = 2) : doWait n.val s w =
    if (rd s n w).toNat = 0 then .next (s.waitDone n.val 1 false)
    else .next (s.waitBegin n.val .time (some (s.now + (rd s n w).toNat))) := by
  unfold doWait
  simp only [waitKind, hk]
  rfl

/-- A token condition that names a token which is not PENDING, all but with ALL (R281). -/
theorem tokensMet_any {i : Nat} (hi : i < 8) (hm : bitAt (bits w 0 9) i = true) (ht : (s.token n.val i).state ≠ 1) :
    tokensMet (s.arch n.val).t (bits w 0 9) false = true := by
  refine List.any_eq_true.2 ⟨i, List.mem_filter.2 ⟨List.mem_range.2 hi, hm⟩, ?_⟩
  exact bne_iff_ne.2 ht

theorem tokensMet_all (h : ∀ i < 8, bitAt (bits w 0 9) i = true → (s.token n.val i).state ≠ 1) :
    tokensMet (s.arch n.val).t (bits w 0 9) true = true := by
  refine List.all_eq_true.2 (fun i hi => ?_)
  obtain ⟨hlt, hm⟩ := List.mem_filter.1 hi
  exact bne_iff_ne.2 (h i (List.mem_range.1 hlt) hm)

/-- Eight bits that are not all zero have one that is set. -/
theorem exists_bitAt {m : Nat} (h0 : m ≠ 0) (h1 : m < 256) : ∃ i < 8, bitAt m i = true := by
  refine Classical.byContradiction fun hno => ?_
  refine h0 (Nat.eq_of_testBit_eq (fun i => ?_))
  rw [Nat.zero_testBit]
  by_cases hi : i < 8
  · rw [← Bool.not_eq_true, ← bitAt_eq_testBit]
    exact fun e => hno ⟨i, hi, e⟩
  · exact Nat.testBit_lt_two_pow (Nat.lt_of_lt_of_le h1 (Nat.pow_le_pow_right (n := 2) (by decide) (Nat.not_lt.1 hi)))

/-- While every token is PENDING no token condition holds. -/
theorem tokensMet_pending (all : Bool) (h0 : bits w 0 9 ≠ 0) (h1 : bits w 0 9 < 256)
    (h : ∀ i < 8, (s.token n.val i).state = 1) : tokensMet (s.arch n.val).t (bits w 0 9) all = false := by
  have hfree (i : Nat) (hi : i ∈ (List.range 8).filter (bitAt (bits w 0 9))) :
      (((s.arch n.val).t.getD i ⟨0, 0, 0, 0, 0⟩).state != 1) = false :=
    bne_eq_false_iff_eq.2 (h i (List.mem_range.1 (List.mem_filter.1 hi).1))
  cases all
  · refine List.any_eq_false.2 (fun i hi => ?_)
    rw [hfree i hi]
    decide
  · obtain ⟨i, hi, hm⟩ := exists_bitAt h0 h1
    refine List.all_eq_false.2 ⟨i, List.mem_filter.2 ⟨List.mem_range.2 hi, hm⟩, ?_⟩
    rw [hfree i (List.mem_filter.2 ⟨List.mem_range.2 hi, hm⟩)]
    decide

/-- A WAIT that ends at once (R281): its slot is charged, and C tells a timeout. -/
theorem waitEnds_of_done {c : Bool} (h : issuing s n w 0x28) (hl : waitLegal w = true)
    (hb : doWait n.val s w = .next (s.waitDone n.val 1 c)) : waitEnds s n 1 s c := by
  have ha : (s.waitDone n.val 1 c).arch n.val = { s.arch n.val with c := c } := by
    rw [State.waitDone, charge_arch, State.setArch_same]
  refine ⟨_, (exec_wait n s).trans (congrArg _ (issue_next (h.asRow rfl (by decide)) hl hb)), ?_, fun m hm => ?_, fun a => ?_, ?_⟩
  · rw [State.setArch_same, ha]
  · rw [State.setArch_other _ _ hm, charge_arch, State.waitDone, charge_arch, State.setArch_other _ _ hm]
  · rw [State.setArch_word, charge_zero_word]
    rfl
  · exact ((((SlotsOnly.setArch s n.val _).trans (.charge _ n.val 1)).trans (.charge _ n.val 0)).trans (.setArch _ _ _)).eq

/-- A WAIT that is not met waits (R240, R281): its context is WAITING behind it. -/
theorem waitBegins_of_begin {f : WaitFor} {due : Option Nat} (h : issuing s n w 0x28) (hl : waitLegal w = true)
    (hb : doWait n.val s w = .next (s.waitBegin n.val f due)) : ∃ t, exec (.wait n) s = .next (goesOn s n t) ∧ t.run n.val = 3 ∧
      t.arch n.val = { s.arch n.val with
        waitFor := f, due := due, waitSince := some s.clk, pc := (s.arch n.val).pc + 1 } ∧
      t.get (CTX_CHG_SLOTS n.val) = s.get (CTX_CHG_SLOTS n.val) ∧
      (∀ m : Nat, m ≠ n.val → t.arch m = s.arch m) ∧ t.timers = s.timers ∧ t.clk = s.clk := by
  have ha : (s.waitBegin n.val f due).arch n.val =
      { s.arch n.val with waitFor := f, due := due, waitSince := some s.clk } := by
    rw [State.waitBegin, State.put_arch, State.setArch_same]
  have hchg : (CTX_CHG_SLOTS n.val).reg ≠ (CTX_STAT_RUN n.val).reg := by
    show 0xc0078 + 0x100 * n.val ≠ 0xc0004 + 0x100 * n.val
    omega
  refine ⟨_, (exec_wait n s).trans (congrArg _ (issue_next (h.asRow rfl (by decide)) hl hb)), ?_, ?_, ?_, fun m hm => ?_, ?_, ?_⟩
  · rw [State.run, State.get, State.setArch_word, charge_zero_word, ← State.get, State.waitBegin,
      get_put_same _ _ _ (Nat.le_of_ble_eq_true rfl)]
    rfl
  · rw [State.setArch_same, ha]
  · rw [State.get, State.setArch_word, charge_zero_word, ← State.get, State.waitBegin,
      get_put_of _ _ (Nat.le_of_ble_eq_true rfl) (.inl hchg)]
    rfl
  · rw [State.setArch_other _ _ hm, charge_arch, State.waitBegin, State.put_arch, State.setArch_other _ _ hm]
  · rw [State.setArch_timers, charge_timers, State.waitBegin, State.put_timers, State.setArch_timers]
  · rw [State.setArch_clk, charge_clk, State.waitBegin, State.put_clk, State.setArch_clk]

end wait

theorem waitMet_holds : waitMet := by
  intro s n w h hd ht hx hk h0 h1
  have hl := waitLegal_tokens hd ht hx hk h0 h1
  refine ⟨fun ha hany => ?any, fun ha hall => ?all⟩
  case any =>
    obtain ⟨i, hi, hm, hst⟩ := hany
    refine waitEnds_of_done h hl ?_
    rw [doWait_tokens hk, ha]
    exact if_pos (tokensMet_any hi hm hst)
  case all =>
    refine waitEnds_of_done h hl ?_
    rw [doWait_tokens hk, ha]
    exact if_pos (tokensMet_all hall)

theorem waitZero_holds : waitZero := by
  intro s n w h hd ht hx hz
  refine ⟨fun hk ha h0 => ?time, fun hrd hc => ?timeout⟩
  case time =>
    refine waitEnds_of_done h (waitLegal_time hd ht hx hk ha h0) ?_
    rw [doWait_time hk]
    exact if_pos hz
  case timeout =>
    rcases hc with ⟨hk, h0, h1, hp⟩ | ⟨hk, ha⟩
    · refine waitEnds_of_done h (waitLegal_tokens hd ht hx hk h0 h1) ?_
      rw [doWait_tokens hk, tokensMet_pending _ h0 h1 hp]
      exact waitOn_zero hrd hz
    · refine waitEnds_of_done h (waitLegal_event hd ht hx hk ha) ?_
      rw [doWait_event hk]
      exact waitOn_zero hrd hz

theorem waitBegins_holds : waitBegins := by
  intro s n w f due h hd ht hx hc hdue
  rcases hc with ⟨hk, h0, h1, rfl, hp⟩ | ⟨hk, ha, rfl⟩ | ⟨hk, ha, h0, hrd, rfl⟩
  · refine waitBegins_of_begin h (waitLegal_tokens hd ht hx hk h0 h1) ?_
    rw [doWait_tokens hk, tokensMet_pending _ h0 h1 hp]
    exact waitOn_begins hdue
  · refine waitBegins_of_begin h (waitLegal_event hd ht hx hk ha) ?_
    rw [doWait_event hk]
    exact waitOn_begins hdue
  · obtain ⟨h0', -⟩ | ⟨-, hz, rfl⟩ := hdue
    · exact absurd h0' hrd
    · refine waitBegins_of_begin h (waitLegal_time hd ht hx hk ha h0) ?_
      rw [doWait_time hk]
      exact if_neg hz

/-- A context that leaves its thread in a WAIT: the slots that held it are charged (R240, R294). -/
theorem unbind_waiting {s : State} {n : Nat} {b : Nat} (run : Nat) (hb : (s.arch n).waitSince = some b) :
    ∃ c v, s.unbind n run = ((((s.setArch n { s.arch n with waitSince := none }).charge_ n (min 4 (slotsOf (s.clk - b)))).put
      (COUR_STAT_BUSY c) v).put (CTX_STAT_THREAD n) 0).put (CTX_STAT_RUN n) run := by
  unfold State.unbind
  dsimp only
  rw [hb]
  exact ⟨_, _, rfl⟩

theorem waitLeaves_holds : waitLeaves := by
  intro s n b hb
  have hsettle : s.settleWait n.val = if slotsOf (s.clk - b) ≤ 4 then s else s.unbind n.val 3 := by
    rw [State.settleWait, hb]
  refine ⟨fun hle => hsettle.trans (if_pos hle), fun hlt => ?_⟩
  obtain ⟨c, v, hu⟩ := unbind_waiting 3 hb
  have hmin : min 4 (slotsOf (s.clk - b)) = 4 := Nat.min_eq_left (Nat.le_of_lt hlt)
  rw [hsettle.trans (if_neg (Nat.not_le.2 hlt)), hu, hmin]
  refine ⟨?_, ?_, ?_⟩
  · rw [State.run, get_put_same _ _ _ (Nat.le_of_ble_eq_true rfl)]
    rfl
  · rw [State.put_arch, State.put_arch, State.put_arch, charge_arch, State.setArch_same]
  · have h1 : (CTX_CHG_SLOTS n.val).reg ≠ CTX_STAT n.val := by
      show 0xc0078 + 0x100 * n.val ≠ 0xc0004 + 0x100 * n.val
      omega
    have h2 : (CTX_CHG_SLOTS n.val).reg ≠ COUR_STAT c := by
      have := n.isLt
      show 0xc0078 + 0x100 * n.val ≠ 0xd4004 + 0x40 * c
      omega
    rw [get_put_of _ _ (Nat.le_of_ble_eq_true rfl) (.inl h1), get_put_of _ _ (Nat.le_of_ble_eq_true rfl) (.inl h1),
      get_put_of _ _ (Nat.le_of_ble_eq_true rfl) (.inl h2), charge_get_slots, State.get, State.setArch_word, ← State.get]

/-! ## YIELD and EVT (R286, R287) -/

/-- With no packet open YIELD closes none. -/
theorem closePackets_none {s : State} {n : Nat} (h : ∀ q ∈ s.packetQueues n, s.hasOpen n q = false) : s.closePackets n = s := by
  unfold State.closePackets
  generalize s.packetQueues n = qs at h
  induction qs with
  | nil => rfl
  | cons q qs ih =>
    rw [List.foldl_cons, h q List.mem_cons_self, if_neg (by decide)]
    exact ih (fun q' hq' => h q' (List.mem_cons_of_mem _ hq'))

/-- The fields of a word of format SB whose low bits are all zero (R258). -/
theorem zero_fields {w : Word} (hz : bits w 0 21 = 0) : bits w 18 3 = 0 ∧ bits w 15 3 = 0 ∧ bits w 0 15 = 0 := by
  simp only [bits, natBits] at hz ⊢
  omega

theorem yields_holds : yields := by
  intro s n w h hrd hz hq
  obtain ⟨hd, ht, hx⟩ := zero_fields hz
  have hl : (fRd w == 0 && onlyR w) = true := by simp [fRd, onlyR, fD, fT, fX, hrd, hd, ht, hx]
  have hbody : doYield n.val s w = if (s.arch n.val).wake then .next (s.setArch n.val { s.arch n.val with wake := false })
      else .next (s.unbind n.val 0) := by
    rw [doYield, closePackets_none hq]
  refine ⟨fun hw => ?wake, fun hw => ?idle⟩
  case wake =>
    refine completes_of_next (exec_yield n s) (h.asRow rfl (by decide)) hl (hbody.trans (if_pos hw)) ?_
    exact archOnly_setArch s n _
  case idle =>
    exact proceeds_of_next (exec_yield n s) (h.asRow rfl (by decide)) hl (hbody.trans (if_neg (by rw [hw]; decide)))

theorem eventsRaised_holds : eventsRaised := by
  intro s n w h hz
  have hf : bits w 18 3 = 0 ∧ bits w 15 3 = 0 ∧ bits w 3 12 = 0 := by
    simp only [bits, natBits] at hz ⊢
    omega
  obtain ⟨hd, ht, hx⟩ := hf
  exact proceeds_of_next (exec_evt n s) (h.asRow rfl (by decide)) (by simp [fD, fT, hd, ht, hx]) rfl

/-! ## The time, budgets and the system (R286) -/

/-- The d and t fields of a word. -/
theorem dt_zero {w : Word} (hz : bits w 15 6 = 0) : bits w 18 3 = 0 ∧ bits w 15 3 = 0 := by
  simp only [bits, natBits] at hz ⊢
  omega

/-- A selector in X whose other bits are zero (R258). -/
theorem selector_low {w : Word} {k : Nat} (hk : bits w 0 15 = k) (h8 : k < 8) : bits w 3 12 = 0 ∧ bits w 0 3 = k := by
  simp only [bits, natBits] at hk ⊢
  omega

/-- A value given to rd with Z and N of it. -/
theorem zn_eq (s : State) (n : Fin 256) (w v : Word) : ((s.arch n.val).setZN v).setReg (fRd w) v = zn s n w v := by
  rw [setZN_eq]
  rfl

theorem completes_of_budget {s : State} {n : Fin 256} {w : Word} {k v : Nat} (h : issuing s n w 0x2E) (hz : bits w 15 6 = 0)
    (hk : bits w 0 15 = k) (h4 : k ≤ 4) (hv : s.budgetLeft n.val k = v) :
    completes (.budget n) s n 1 (zn s n w (BitVec.ofNat 32 v)) := by
  obtain ⟨hd, ht⟩ := dt_zero hz
  obtain ⟨hx, hsel⟩ := selector_low hk (by omega)
  refine completes_of_next (exec_budget n s) (h.asRow rfl (by decide)) (by simp [fD, fT, hd, ht, hx, hsel, h4]) rfl ?_
  rw [hsel, hv, zn_eq]
  exact archOnly_setArch s n _

theorem systemRead_holds : systemRead := by
  intro s n w hz
  obtain ⟨hd, ht⟩ := dt_zero hz
  refine ⟨fun h hx heven hrd => ?time, fun h hx => ?slots, fun g hg h hx => ?bus, fun k v h hk hv => ?sysr⟩
  case time =>
    refine completes_of_next (exec_time n s) (h.asRow rfl (by decide)) ?_ rfl (archOnly_setArch s n _)
    simp [onlyR, fD, fT, fX, fRd, hd, ht, hx, heven, hrd]
  case slots => exact completes_of_budget h hz hx (by decide) (if_pos rfl)
  case bus =>
    refine completes_of_budget h hz hx (by omega) ((if_neg (by omega)).trans ?_)
    rw [Nat.add_sub_cancel]
  case sysr =>
    have hk6 : k < 6 := by omega
    obtain ⟨hx, hsel⟩ := selector_low hk (by omega)
    have hval : s.sysValue n.val k = v := by
      rcases hv with ⟨rfl, rfl⟩ | ⟨rfl, rfl⟩ | ⟨rfl, rfl⟩ | ⟨rfl, rfl⟩ | ⟨rfl, rfl⟩ | ⟨rfl, rfl⟩ <;> rfl
    refine completes_of_next (exec_sysr n s) (h.asRow rfl (by decide)) (by simp [fD, fT, hd, ht, hx, hsel]; omega) rfl ?_
    rw [hsel, hval, zn_eq]
    exact archOnly_setArch s n _

/-- An instruction that goes on at an index within the instruction memory. -/
theorem exec_of_jump {s u : State} {n : Fin 256} {w : Word} {op : Op} {slots p : Nat} {legal : Word → Bool}
    {body : State → Word → Res} {i : Instr} (he : exec i s = .next (s.issue n.val op slots legal body)) (hi : issuesOp s n w op)
    (hl : legal w = true) (hb : body s w = .jump u p) (hp : p < 16384) :
    exec i s = .next ((u.charge_ n.val slots).setArch n.val { u.arch n.val with pc := p }) := by
  rw [he, issue_jump hi hl hb hp]

/-! ## TRAP and RETT (R245, R286) -/

theorem trapsAndReturns_holds : trapsAndReturns := by
  intro s n w
  have hreturn (hz : bits w 1 25 = 0) : (fRd w == 0 && fD w == 0 && fT w == 0 && bits w 1 14 == 0) = true := by
    have hf : bits w 21 5 = 0 ∧ bits w 18 3 = 0 ∧ bits w 15 3 = 0 ∧ bits w 1 14 = 0 := by
      simp only [bits, natBits] at hz ⊢
      omega
    obtain ⟨hrd, hd, ht, hx⟩ := hf
    simp [fRd, fD, fT, hrd, hd, ht, hx]
  refine ⟨fun h hz => ?trap, fun h hz hin hpc => ?rett, fun h hz hout => ?outside⟩
  case trap =>
    have hf : bits w 21 5 = 0 ∧ bits w 18 3 = 0 ∧ bits w 16 2 = 0 := by
      simp only [bits, natBits] at hz ⊢
      omega
    obtain ⟨hrd, hd, hx⟩ := hf
    exact traps_of_trap (exec_trap n s) (h.asRow rfl (by decide)) (by simp [fRd, fD, hrd, hd, hx]) rfl
  case rett =>
    refine ⟨_, exec_of_jump (exec_rett n s) (h.asRow rfl (by decide)) (hreturn hz) (if_pos hin) hpc, ?_, ?_, fun m hm => ?_⟩
    · have hchg : (CTX_STAT_IN_TRAP n.val).reg ≠ CTX_CHG n.val := by
        show 0xc0004 + 0x100 * n.val ≠ 0xc0078 + 0x100 * n.val
        omega
      rw [State.get, State.setArch_word, ← State.get, charge_get_other _ _ _ hchg, get_put_same _ _ _ (Nat.le_of_ble_eq_true rfl)]
      rfl
    · rw [State.setArch_same, State.put_arch, State.setArch_same]
    · rw [State.setArch_other _ _ hm, charge_arch, State.put_arch, State.setArch_other _ _ hm]
  case outside =>
    exact traps_of_trap (exec_rett n s) (h.asRow rfl (by decide)) (hreturn hz) (if_neg (by rw [hout]; decide))

/-- Settles O37: each WAIT by its condition and its time, each of the others by the rule for its outcome. -/
theorem programsControl : Obligations.ProgramsControl :=
  ⟨waitMet_holds, waitZero_holds, waitBegins_holds, waitLeaves_holds, yields_holds, eventsRaised_holds, systemRead_holds,
    trapsAndReturns_holds⟩

end Sys2Proof.Claims

/-! PROOFS. Messages released and queue words put and got by programs (R241, R283, R284). -/

namespace Sys2Proof.Claims

open Sys2Proof.Machine

/-! ## The program's own packet -/

/-- A program has its packet open where the queue's open packet is its own. -/
theorem hasOpen_iff (s : State) (n q : Nat) :
    s.hasOpen n q = true ↔ ∃ p, (s.queue q).openPacket = some p ∧ p.ctx = n ∧ p.src = 0 := by
  unfold State.hasOpen
  cases (s.queue q).openPacket <;> simp

/-- The producer of the open packet may put on, while no test runs (R324, R411). -/
theorem mayPut_own {s : State} {n q : Nat} (h : s.hasOpen n q = true) (ht : (s.queue q).testing = false) :
    s.mayPut q n 0 = true := by
  obtain ⟨p, hp, rfl, hsrc⟩ := (hasOpen_iff ..).1 h
  simp [State.mayPut, ht, hp, hsrc]

theorem raiseLoss_false (s : State) (q : Nat) : s.raiseLoss q false = s := rfl

/-- A queue whose packet has been closed has none open (R323). -/
theorem closePacket_openPacket (s : State) (q : Nat) : ((s.closePacket q false).queue q).openPacket = none := by
  cases hp : (s.queue q).openPacket with
  | none =>
    have heq : s.closePacket q false = s := by
      unfold State.closePacket
      dsimp only
      rw [hp]
    rw [heq, hp]
  | some p =>
    have hbump (u : State) (c : Bool) (f : FRef) : (if c then u.bump f else u).queue q = u.queue q := by
      split <;> rfl
    have heq : s.closePacket q false = if p.trunc then (packetShut s q p).bump (QUE_LOSS_TRUNC q) else packetShut s q p := by
      unfold State.closePacket
      dsimp only
      rw [hp]
      dsimp only
      rw [Bool.or_false]
      rfl
    rw [heq, hbump, packetShut_queue_same, Queue.openPacket, List.find?_eq_none]
    intro y hy
    obtain ⟨x, -, rfl⟩ := List.mem_map.1 hy
    by_cases hx : x.isOpen = true
    · rw [if_pos hx]
      exact Bool.false_ne_true
    · rwa [if_neg hx]

/-! ## MSG (R284) -/

theorem closeOwn_released (s : State) (n q : Nat) :
    s.closeOwn n q true = (if s.hasOpen n q then s.closePacket q false else s).programNotice n := rfl

theorem messagesReleased_holds : messagesReleased := by
  rintro s n w q h hz rfl
  have hl : (fRd w == 0 && onlyR w) = true := by
    have hrd : bits w 21 5 = 0 := by
      simp only [bits, natBits] at hz ⊢
      omega
    obtain ⟨hd, ht, hx⟩ := zero_fields (w := w) (by simp only [bits, natBits] at hz ⊢; omega)
    simp [fRd, onlyR, fD, fT, fX, hrd, hd, ht, hx]
  have hmsg : doMsg n.val s w = if s.hasOpen n.val (s.get (CTX_QUE_NQ n.val)) then
      .next (s.closeOwn n.val (s.get (CTX_QUE_NQ n.val)) true)
    else if !s.mayPut (s.get (CTX_QUE_NQ n.val)) n.val 0 then .stall s 1
    else .next (((s.openEmpty (s.get (CTX_QUE_NQ n.val)) n.val 0).1.raiseLoss (s.get (CTX_QUE_NQ n.val))
      (s.openEmpty (s.get (CTX_QUE_NQ n.val)) n.val 0).2).closeOwn n.val (s.get (CTX_QUE_NQ n.val)) true) := rfl
  refine ⟨fun hopen => ?open_, fun _ => closePacket_openPacket .., fun hopen hput => ⟨_, _, rfl, rfl, ?empty⟩,
    fun hopen hput => ?full⟩
  case open_ =>
    refine proceeds_of_next (exec_msg n s) (h.asRow rfl (by decide)) hl (hmsg.trans ((if_pos hopen).trans ?_))
    rw [closeOwn_released, if_pos hopen]
  case empty =>
    refine proceeds_of_next (exec_msg n s) (h.asRow rfl (by decide)) hl (hmsg.trans ?_)
    rw [if_neg (by rw [hopen]; decide), if_neg (by rw [hput]; decide), closeOwn_released]
  case full =>
    refine stalls_of_stall (exec_msg n s) (h.asRow rfl (by decide)) hl (hmsg.trans ?_)
    rw [if_neg (by rw [hopen]; decide), if_pos (by rw [hput]; decide)]

/-! ## QPUT (R283) -/

section qput
variable {s : State} {n : Fin 256} {w : Word} {q : Nat}

/-- The queue of the set that SEL names is the program's to use (R283). -/
theorem selQueue_of (h : setQueueOf s n (bits w 0 2) q) : s.selQueue n.val (bits w 0 2) = (q, true) ∧ bits w 0 2 ≠ 3 := by
  rcases h with ⟨hs, rfl⟩ | ⟨hs, hen, rfl⟩ | ⟨hs, hen, rfl⟩
  · simp [State.selQueue, hs]
  · simp [State.selQueue, hs, hen]
  · simp [State.selQueue, hs, hen]

theorem qput_legal (hz : bits w 15 6 = 0) (hx : bits w 3 12 = 0) (h3 : bits w 0 2 ≠ 3) :
    (fD w == 0 && fT w == 0 && bits w 3 12 == 0 && bits w 0 2 != 3) = true := by
  obtain ⟨hd, ht⟩ := dt_zero hz
  simp [fD, fT, hd, ht, hx, h3]

/-- A word put into the program's open packet without its end (R283). -/
theorem doQput_packet (hq : s.selQueue n.val (bits w 0 2) = (q, true)) (hw : isWorkQueue q = false) (he : bits w 2 1 = 0)
    (hput : s.mayPut q n.val 0 = true) : doQput n.val s w = .next
      (((s.putWord q n.val 0 (rd s n w)).st.raiseLoss q (s.putWord q n.val 0 (rd s n w)).lost).setC n.val
        (s.putWord q n.val 0 (rd s n w)).c) := by
  unfold doQput
  simp only [hq, hw, hput, he]
  rfl

/-- An item put onto a work queue with a credit (R283, R326). -/
theorem doQput_item {t : State} (hq : s.selQueue n.val (bits w 0 2) = (q, true)) (hw : isWorkQueue q = true)
    (hp : s.pushItem q (rd s n w) = some t) : doQput n.val s w = .next (t.setC n.val (t.queue q).retired) := by
  unfold doQput
  simp only [hq, hw, show s.pushItem q ((s.arch n.val).reg (fRd w)) = some t from hp]
  rfl

/-- A queue outside the context's set traps with QUEUE (R283). -/
theorem doQput_outside (hq : s.selQueue n.val (bits w 0 2) = (q, false)) : doQput n.val s w = .trap 10 q := by
  unfold doQput
  simp only [hq]
  rfl

end qput

/-- An item put on a free credit stands behind the others (R326). -/
theorem pushItem_credit {s : State} {q : Nat} (htest : (s.queue q).testing = false) (hret : (s.queue q).retired = false)
    (hcr : s.credits q ≠ 0) (v : Word) : ∃ t pos, s.pushItem q v = some t ∧ QueueOnly q s t ∧
      t.queue q = { s.queue q with items := (s.queue q).items ++ [⟨v, false, false, .ok⟩], wpos := pos } := by
  obtain ⟨pos, hq⟩ := advance_queue ((s.ringStore q 0 v).setQueue q { (s.ringStore q 0 v).queue q with
    items := ((s.ringStore q 0 v).queue q).items ++ [⟨v, false, false, .ok⟩] }) q 1
  refine ⟨_, pos, ?_, ((QueueOnly.ringStore q s q 0 v).trans (.setQueue ..)).trans (.advance ..), hq.trans ?_⟩
  · unfold State.pushItem
    dsimp only
    rw [htest, hret, if_neg Bool.false_ne_true, if_neg Bool.false_ne_true, if_neg hcr]
  · rw [State.setQueue_same, ringStore_queue]

/-- What C set leaves of the registers of contexts. -/
theorem QueueOnly.archs {q : Nat} {s t : State} (h : QueueOnly q s t) : t.archs = s.archs := by
  obtain ⟨⟨_, _, _, _, rfl⟩, -, -⟩ := h
  rfl

theorem QueueOnly.memories {q : Nat} {s t : State} (h : QueueOnly q s t) : t.dmem = s.dmem ∧ t.ledger = s.ledger := by
  obtain ⟨⟨_, _, _, _, rfl⟩, -, -⟩ := h
  exact ⟨rfl, rfl⟩

theorem QueueOnly.arch {q : Nat} {s t : State} (h : QueueOnly q s t) (m : Nat) : t.arch m = s.arch m := by
  rw [State.arch, h.archs, ← State.arch]

/-- The state behind an instruction that has put a word and cleared C. -/
def putDone (s t : State) (n : Fin 256) : State :=
  ((t.setC n.val false).charge_ n.val 2).setArch n.val { (t.setC n.val false).arch n.val with pc := (s.arch n.val).pc + 1 }

theorem putDone_queue (s t : State) (n : Fin 256) (k : Nat) : (putDone s t n).queue k = t.queue k := rfl

theorem putDone_memories (s t : State) (n : Fin 256) : (putDone s t n).dmem = t.dmem ∧ (putDone s t n).ledger = t.ledger := ⟨rfl, rfl⟩

theorem putDone_arch {q : Nat} {s t : State} (h : QueueOnly q s t) (n : Fin 256) :
    (putDone s t n).arch n.val = { s.arch n.val with c := false, pc := (s.arch n.val).pc + 1 } := by
  rw [putDone, State.setArch_same, State.setC, State.setArch_same, h.arch]

theorem putDone_arch_other {q : Nat} {s t : State} (h : QueueOnly q s t) (n : Fin 256) {m : Nat} (hm : m ≠ n.val) :
    (putDone s t n).arch m = s.arch m := by
  rw [putDone, State.setArch_other _ _ hm, charge_arch, State.setC, State.setArch_other _ _ hm, h.arch]

/-- QPUT onto a queue outside the context's set (R283). -/
theorem traps_of_outside {s : State} {n : Fin 256} {w : Word} {q : Nat} (h : issuing s n w 0x2A) (hz : bits w 15 6 = 0)
    (hx : bits w 3 12 = 0) (h3 : bits w 0 2 ≠ 3) (hq : s.selQueue n.val (bits w 0 2) = (q, false)) :
    traps (.qput n) s n 2 10 q :=
  traps_of_trap (exec_qput n s) (h.asRow rfl (by decide)) (qput_legal hz hx h3) (doQput_outside hq)

theorem wordsPut_holds : wordsPut := by
  intro s n w q h hz hx
  refine ⟨fun hset hwork he hopen htest hret hcount hroom => ?packet, fun hset hwork htest hret hcr => ?item,
    fun hs hen hq => ?aux, fun hs hen hq => ?work⟩
  case packet =>
    obtain ⟨hsel, h3⟩ := selQueue_of hset
    obtain ⟨p, hp, -, -⟩ := (hasOpen_iff ..).1 hopen
    obtain ⟨t, pos, hput, honly, hqueue⟩ := putWord_open hret hp (hcount p hp) hroom n.val 0 (rd s n w)
    have hb : doQput n.val s w = .next (t.setC n.val false) := by
      rw [doQput_packet hsel hwork he (mayPut_own hopen htest), hput, raiseLoss_false]
    refine ⟨putDone s t n, proceeds_of_next (exec_qput n s) (h.asRow rfl (by decide)) (qput_legal hz hx h3) hb, ?_, fun k hk => ?_, ?_, ?_,
      putDone_arch honly n, fun m hm => putDone_arch_other honly n hm⟩
    · rw [putDone_queue, hqueue]
      rfl
    · rw [putDone_queue, honly.2.2 k hk]
    · rw [(putDone_memories s t n).1, honly.memories.1]
    · rw [(putDone_memories s t n).2, honly.memories.2]
  case item =>
    obtain ⟨hsel, h3⟩ := selQueue_of hset
    obtain ⟨t, pos, hput, honly, hqueue⟩ := pushItem_credit htest hret hcr (rd s n w)
    have hb : doQput n.val s w = .next (t.setC n.val false) := by
      rw [doQput_item hsel hwork hput, hqueue, hret]
    refine ⟨putDone s t n, proceeds_of_next (exec_qput n s) (h.asRow rfl (by decide)) (qput_legal hz hx h3) hb, ?_, ?_, fun k hk => ?_⟩
    · rw [putDone_queue, hqueue]
    · rw [putDone_arch honly n]
    · rw [putDone_queue, honly.2.2 k hk]
  case aux =>
    exact traps_of_outside h hz hx (by rw [hs]; decide) (by rw [hs, hq, ← hen]; rfl)
  case work =>
    exact traps_of_outside h hz hx (by rw [hs]; decide) (by rw [hs, hq, ← hen]; rfl)

/-! ## QGET (R241, R283) -/

section qget
variable {s : State} {n : Fin 256} {w : Word}

theorem doQget_trap (h : (bits w 0 2 = 0 || !(s.selQueue n.val (bits w 0 2)).2) = true) :
    doQget n.val s w = .trap 10 (s.selQueue n.val (bits w 0 2)).1 := by
  unfold doQget
  exact if_pos h

/-- QGET from WQ with no item in the context's slot (R241). -/
theorem doQget_none (hs : bits w 0 2 = 1) (hen : s.on (CTX_QUE_WQ_EN n.val) = true) (hi : (s.arch n.val).item = none) :
    doQget n.val s w = .next (s.got n.val (bits w 21 5) none false) := by
  unfold doQget
  simp only [hs, State.selQueue, hen, hi]
  rfl

/-- QGET from WQ takes the item of the context's slot (R241). -/
theorem doQget_some {v : Word} (hs : bits w 0 2 = 1) (hen : s.on (CTX_QUE_WQ_EN n.val) = true)
    (hi : (s.arch n.val).item = some v) : doQget n.val s w =
      .next ((s.setArch n.val ({ s.arch n.val with item := none }.tookItem v (s.arch n.val).itemLine)).got n.val (bits w 21 5)
        (some v) true) := by
  unfold doQget
  simp only [hs, State.selQueue, hen, hi]
  rfl

/-- The registers behind a word got over registers set before. -/
theorem got_archOnly (a : Arch) (r : Nat) (v : Option Word) (last : Bool) :
    archOnly s ((s.setArch n.val a).got n.val r v last) n ({ a with z := v.isNone, n := last }.setReg r (v.getD 0)) := by
  refine ⟨rfl, ?_, fun m hm => ?_⟩
  · rw [State.got, State.setArch_same, State.setArch_same]
  · rw [State.got, State.setArch_other _ _ hm, State.setArch_other _ _ hm]

end qget

theorem wordsGot_holds : wordsGot := by
  intro s n w v h hz hx
  obtain ⟨hd, ht⟩ := dt_zero hz
  have hl (h3 : bits w 0 2 ≠ 3) : (fD w == 0 && fT w == 0 && bits w 2 13 == 0 && bits w 0 2 != 3) = true := by
    simp [fD, fT, hd, ht, hx, h3]
  refine ⟨fun hs hen hi hline => ?item, fun hs hen hi => ?none, fun hs => ?notice, fun hs hen => ?aux⟩
  case item =>
    refine completes_of_next (exec_qget n s) (h.asRow rfl (by decide)) (hl (by rw [hs]; decide)) (doQget_some hs hen hi) ?_
    rw [hline]
    exact got_archOnly ..
  case none =>
    exact completes_of_next (exec_qget n s) (h.asRow rfl (by decide)) (hl (by rw [hs]; decide)) (doQget_none hs hen hi) (archOnly_setArch s n _)
  case notice =>
    have hsel : s.selQueue n.val (bits w 0 2) = (s.get (CTX_QUE_NQ n.val), true) := by rw [hs]; rfl
    refine traps_of_trap (exec_qget n s) (h.asRow rfl (by decide)) (hl (by rw [hs]; decide)) ((doQget_trap ?_).trans (by rw [hsel]))
    rw [hs]
    rfl
  case aux =>
    have hsel : s.selQueue n.val (bits w 0 2) = (s.get (CTX_QUE_AUXQ n.val), false) := by rw [hs, ← hen]; rfl
    refine traps_of_trap (exec_qget n s) (h.asRow rfl (by decide)) (hl (by rw [hs]; decide)) ((doQget_trap ?_).trans (by rw [hsel]))
    rw [hsel]
    exact Bool.or_true _

/-- Settles O38: each instruction's meaning at the form that its word gives, over the lemmas on words put and closed. -/
theorem programQueues : Obligations.ProgramQueues := ⟨messagesReleased_holds, wordsPut_holds, wordsGot_holds⟩

end Sys2Proof.Claims

/-! PROOFS. Packets that arrive at the ports (R24, R35, R45, R56 to R59, R100, R101). -/

namespace Sys2Proof.Claims

open Sys2Proof.Machine

/-! ## What the arrival of a packet changes before it is looked at -/

/-- The partner heard changes nothing that the checks of a packet read. -/
theorem heardOn_frame (s : State) (p : Nat) : ∃ sp, s.heardOn p = { s with span := sp } := by
  unfold State.heardOn
  split
  · exact ⟨_, rfl⟩
  · exact ⟨_, rfl⟩

theorem received_frame (s : State) (p : Nat) (k : Pkt) : ∃ po sp, received s p k = { s with ports := po, span := sp } := by
  obtain ⟨sp, h⟩ := heardOn_frame s p
  unfold received
  rw [h]
  split
  · exact ⟨_, _, rfl⟩
  · exact ⟨_, _, rfl⟩

theorem heardOn_port (s : State) (p q : Nat) : (s.heardOn p).port q = s.port q := by
  obtain ⟨sp, h⟩ := heardOn_frame s p
  rw [h]
  rfl

section received
variable (s : State) (p : Nat) (k : Pkt)

theorem received_get (f : FRef) : (received s p k).get f = s.get f := by
  obtain ⟨_, _, h⟩ := received_frame s p k
  rw [h]
  rfl

theorem received_on (f : FRef) : (received s p k).on f = s.on f := by
  rw [State.on, received_get, State.on]

theorem received_targetAt (n a : Nat) : (received s p k).targetAt n a = s.targetAt n a := by
  obtain ⟨_, _, h⟩ := received_frame s p k
  rw [h]
  rfl

theorem received_replayOf (n f : Nat) : (received s p k).replayOf n f = s.replayOf n f := by
  obtain ⟨_, _, h⟩ := received_frame s p k
  rw [h]
  rfl

theorem received_ctxState (n : Nat) : (received s p k).ctxState n = s.ctxState n := by
  rw [State.ctxState, received_get, State.ctxState]

theorem received_isVoted (n : Nat) : (received s p k).isVoted n = s.isVoted n := by
  rw [State.isVoted, received_on, State.isVoted]

theorem received_accepted (n q : Nat) : (received s p k).accepted n q = s.accepted n q := by
  obtain ⟨_, _, h⟩ := received_frame s p k
  rw [h]
  rfl

theorem received_inRange (n q : Nat) : (received s p k).inRange n q = s.inRange n q := by
  rw [State.inRange, received_get, State.inRange]

theorem received_stalled : ((received s p k).port p).stalled = (s.port p).stalled := by
  have hport (u : State) (q : Nat) (x : Port) : (u.setPort q x).port q = x := mget_mput_same ..
  have hroom : (((s.heardOn p).takeRoom p k).port p).stalled = (s.port p).stalled := by
    rw [State.takeRoom, hport, heardOn_port]
  unfold received
  split
  · rw [State.takeTag, hport, hroom]
  · exact hroom

/-- What holds a packet back reads neither the ports nor the Span. -/
theorem received_holdsBack (x y : Pkt) : (received s p k).holdsBack x y = s.holdsBack x y := by
  unfold State.holdsBack
  simp only [received_targetAt]

end received

/-! ## The checks of a packet (R59) -/

section taken
variable {s : State} {p : Nat} {k : Pkt}

/-- What a packet that arrives without an error meets. -/
theorem takes_iff : s.takes p k = true ↔ s.hasPort p = true ∧ s.linkUp p = true ∧ pktAgrees k = true ∧ k.h.type ≠ tMSG ∧
    (3 ≤ p ∨ k.h.type ≠ tCPL ∧ k.h.type ≠ tCPLD) ∧
    (nonPosted k.h.type = true → k.h.tag < tagRange p ∧ (s.port p).tags.contains k.h.tag = false) ∧
    (3 ≤ p ∨ s.on (HP_CTL_ORIGIN_CHK p) = false ∨ k.h.origin = p) ∧ s.hasRoom p k = true := by
  cases hn : nonPosted k.h.type <;> simp [State.takes, hn, and_assoc, or_assoc]

/-- A header and data that agree show no error (R29 to R32). -/
theorem pktAgrees_iff : pktAgrees k = true ↔ typeVc k.h.type = some k.h.vc ∧ (usesLen k.h.type = true → k.h.len ≤ 255) ∧
    k.data.length = (if hasData k.h.type then k.h.len + 1 else 0) ∧
    (k.h.type = tATM → (atomicSize k.h.op k.h.len k.h.addr).isSome = true) ∧
    (isAccess k.h.type = true → k.h.addr % 4096 + k.h.len + 1 ≤ 4096) ∧ (k.h.type = tSEQ → k.h.op ≤ 1) := by
  simp only [pktAgrees, Bool.and_eq_true, beq_iff_eq, Bool.or_eq_true, Bool.not_eq_true', decide_eq_true_eq, bne_iff_ne, and_assoc]
  cases usesLen k.h.type <;> cases isAccess k.h.type <;> simp [Decidable.imp_iff_not_or]

theorem packetCause_none (h : s.takes p k = true) : (s.heardOn p).packetCause p k = none := by
  obtain ⟨-, -, hagree, hmsg, hcpl, htag, -, -⟩ := takes_iff.1 h
  obtain ⟨hvc, hlen, hdata, hatm, hacc, hseq⟩ := pktAgrees_iff.1 hagree
  unfold State.packetCause
  dsimp only
  rw [heardOn_port]
  have h1 : ¬ (typeVc k.h.type != some k.h.vc) = true := by simp [hvc]
  have h2 : ¬ (usesLen k.h.type && decide (255 < k.h.len)) = true := by
    simp only [Bool.and_eq_true, decide_eq_true_eq, not_and, Nat.not_lt]
    exact hlen
  have h3 : ¬ (k.data.length != (if hasData k.h.type then k.h.len + 1 else 0)) = true := by simp [hdata]
  have h4 : ¬ (nonPosted k.h.type && decide (tagRange p ≤ k.h.tag)) = true := by
    simp only [Bool.and_eq_true, decide_eq_true_eq, not_and, Nat.not_le]
    exact fun e => (htag e).1
  have h5 : ¬ (nonPosted k.h.type && (s.port p).tags.contains k.h.tag) = true := by
    rw [Bool.and_eq_true, not_and, Bool.not_eq_true]
    exact fun e => (htag e).2
  have h6 : ¬ (k.h.type == tATM && (atomicSize k.h.op k.h.len k.h.addr).isNone) = true := by
    rw [Bool.and_eq_true, beq_iff_eq]
    rintro ⟨ht, hnone⟩
    have hsome := hatm ht
    rw [Option.isNone_iff_eq_none.1 hnone] at hsome
    exact Bool.false_ne_true hsome
  have h7 : ¬ (isAccess k.h.type && decide (4096 < k.h.addr % 4096 + k.h.len + 1)) = true := by
    simp only [Bool.and_eq_true, decide_eq_true_eq, not_and, Nat.not_lt]
    exact hacc
  have h8 : ¬ (k.h.type == tMSG || (decide (p < 3) && (k.h.type == tCPL || k.h.type == tCPLD))) = true := by
    simp only [Bool.or_eq_true, Bool.and_eq_true, beq_iff_eq, decide_eq_true_eq]
    omega
  have h9 : ¬ (k.h.type == tSEQ && decide (1 < k.h.op)) = true := by
    simp only [Bool.and_eq_true, beq_iff_eq, decide_eq_true_eq, not_and, Nat.not_lt]
    exact hseq
  rw [if_neg h1, if_neg h2, if_neg h3, if_neg h4, if_neg h5, if_neg h6, if_neg h7, if_neg h8, if_neg h9]

/-- A packet without an error is taken by its port, a completion by the request that it answers (R24, R59, R60). -/
theorem takePacket_taken (h : s.takes p k = true) (hnop : k.h.type ≠ tNOP) (bad : Bool) : s.takePacket p k bad =
    if k.h.type = tCPL ∨ k.h.type = tCPLD then (s.heardOn p).takeCompletion (p - 3) k
    else if 3 ≤ p && isSpanControl k then ((s.heardOn p).traceSpan p k).spanControl (p - 3) k 0
    else (s.heardOn p).portTakes p k bad := by
  have hcause := packetCause_none h
  obtain ⟨hport, hlink, -, -, -, -, horigin, hroom⟩ := takes_iff.1 h
  have hon : (s.heardOn p).on (HP_CTL_ORIGIN_CHK p) = s.on (HP_CTL_ORIGIN_CHK p) := by
    obtain ⟨_, e⟩ := heardOn_frame s p
    rw [e]
    rfl
  have hroom' : (s.heardOn p).hasRoom p k = true := by rwa [State.hasRoom, heardOn_port, ← State.hasRoom]
  have hmis : (decide (p < 3) && (s.heardOn p).on (HP_CTL_ORIGIN_CHK p) && k.h.type != tNOP && k.h.origin != p) = false := by
    rw [hon]
    rcases horigin with hp | ho | ho
    · simp [Nat.not_lt.2 hp]
    · simp [ho]
    · simp [ho]
  unfold State.takePacket
  simp only [hport, hlink, hcause, hmis, hroom', if_neg hnop, Bool.not_true, Bool.or_self, Bool.false_eq_true, if_false]

/-! ## Requests at a port that is ON (R60, R100, R101) -/

/-- The request of the partner at a span port that is ON. -/
theorem portTakes_span (hst : s.portState p = 2) (hp : 3 ≤ p) (bad : Bool) :
    (s.heardOn p).portTakes p k bad = (received s p k).spanAdmit p k := by
  have hst' : (received s p k).portState p = 2 := (received_get ..).trans hst
  unfold State.portTakes
  dsimp only
  rw [show (if nonPosted k.h.type then ((s.heardOn p).takeRoom p k).takeTag p k.h.tag else (s.heardOn p).takeRoom p k) =
    received s p k from rfl, hst', if_neg (by decide), if_neg (by decide), if_pos hp]

/-- A copy at a host port that is ON, of no open record or of one without an uncorrectable word. -/
theorem portTakes_host (hst : s.portState p = 2) (hp : p < 3) {bad : Bool}
    (hbad : bad = false ∨ (received s p k).openFor (k.h.type == tRPL) k.h.ctx k.h.seq = none) :
    (s.heardOn p).portTakes p k bad = (received s p k).takeCopy p k := by
  have hst' : (received s p k).portState p = 2 := (received_get ..).trans hst
  unfold State.portTakes
  dsimp only
  rw [show (if nonPosted k.h.type then ((s.heardOn p).takeRoom p k).takeTag p k.h.tag else (s.heardOn p).takeRoom p k) =
    received s p k from rfl, hst', if_neg (by decide), if_neg (by decide), if_neg (Nat.not_le.2 hp)]
  rcases hbad with rfl | hnone
  · cases (received s p k).openFor (k.h.type == tRPL) k.h.ctx k.h.seq <;> rfl
  · rw [hnone]

/-- A copy that no vote decides and that nothing holds back leaves the receive buffer as the Accord's admission gives it
(R46, R49, R103). -/
theorem takeCopy_left {u t : State} (hvote : (k.h.voted && k.h.type != tSEQ) = false)
    (hwait : (u.port p).stalled.any (fun y => u.holdsBack y.pkt k) = false) (hadm : u.admitCopy p k u.clk = (t, false)) :
    u.takeCopy p k = leaves t p k := by
  have htry : u.tryCopy p k u.clk (u.port p).stalled = .left (t.freeRx p k) := by
    unfold State.tryCopy
    dsimp only
    simp only [hvote, Bool.false_eq_true, if_false, hadm, hwait, Bool.and_false]
  unfold State.takeCopy
  dsimp only
  rw [htry]
  rfl

/-- A packet of a type has that type. -/
theorem packet_type {t : Nat} (ht : t < 32) (h : Hdr) (d : List Byte) : (packet t h d).h.type = t := by
  rw [packet, Hdr.withType_type, Nat.mod_eq_of_lt ht]

theorem received_waits (hwait : nothingWaits s p k = true) :
    ((received s p k).port p).stalled.any (fun y => (received s p k).holdsBack y.pkt k) = false := by
  rw [received_stalled]
  simp only [received_holdsBack]
  exact (Bool.not_eq_true' _).mp hwait

theorem received_openFor (rpl : Bool) (n q : Nat) : (received s p k).openFor rpl n q = s.openFor rpl n q := by
  obtain ⟨_, _, h⟩ := received_frame s p k
  rw [h]
  rfl

/-- A packet without an error that is no completion and grants no credits, at a host port that is ON (R60, R100). -/
theorem takePacket_host {t : State} (htakes : s.takes p k = true) (hst : s.portState p = 2) (hp : p < 3) {bad : Bool}
    (hbad : bad = false ∨ s.openFor (k.h.type == tRPL) k.h.ctx k.h.seq = none)
    (htype : k.h.type ≠ tNOP ∧ k.h.type ≠ tCPL ∧ k.h.type ≠ tCPLD) (hvote : (k.h.voted && k.h.type != tSEQ) = false)
    (hwait : nothingWaits s p k = true) (hadm : (received s p k).admitCopy p k (received s p k).clk = (t, false)) :
    s.takePacket p k bad = leaves t p k := by
  obtain ⟨hnop, hcpl, hcpld⟩ := htype
  have hspan : ¬ (3 ≤ p && isSpanControl k) = true := by simp [Nat.not_le.2 hp]
  rw [takePacket_taken htakes hnop, if_neg (not_or.2 ⟨hcpl, hcpld⟩), if_neg hspan,
    portTakes_host hst hp (by rwa [received_openFor]), takeCopy_left hvote (received_waits hwait) hadm]

end taken

/-! ## Requests that need no vote (R35, R100, R101) -/

section unvoted
variable {s : State} {p : Nat} {k : Pkt}

/-- A request of a SINGLE context from its owner's port whose SEQ is new is accepted (R35, R100). -/
theorem admitCopy_single (hacc : isAccess k.h.type = true) (hmode : s.isVoted k.h.ctx = false) (hv : k.h.voted = false)
    (howner : s.get (CTX_VOTE_OWNER k.h.ctx) = p) (hst : s.ctxState k.h.ctx = 2)
    (hfence : (s.accept k.h.ctx k.h.seq).turnedAway k.h.ctx = (s.accept k.h.ctx k.h.seq, none))
    (hrange : s.inRange k.h.ctx k.h.seq = true) (hnew : s.accepted k.h.ctx k.h.seq = false) (at_ : Nat) :
    s.admitCopy p k at_ =
      ((s.accept k.h.ctx k.h.seq).addExec (owedTo p k) (.single (channelOf p)) k none p [p], false) := by
  have hseq : k.h.type ≠ tSEQ := by rintro h; rw [h] at hacc; exact absurd hacc (by decide)
  have hrpl : k.h.type ≠ tRPL := by rintro h; rw [h] at hacc; exact absurd hacc (by decide)
  have hn : k.h.ctx ≠ 0 := by rintro h; rw [h] at hmode; exact absurd hmode Bool.noConfusion
  have hpass : (s.accept k.h.ctx k.h.seq).passUnvoted p k (.single (channelOf p)) none =
      (s.accept k.h.ctx k.h.seq).addExec (owedTo p k) (.single (channelOf p)) k none p [p] := by
    unfold State.passUnvoted
    dsimp only
    rw [hfence]
    rfl
  rw [← hpass]
  unfold State.admitCopy
  simp only [hseq, hrpl, hn, hst, hmode, hv, howner, hnew, hrange, false_and, if_false, ne_eq, not_true_eq_false, and_false, or_self,
    if_true, Bool.false_eq_true, Bool.not_true, Nat.reduceEqDiff]
  rfl

/-- The acceptance of a SEQ changes the registers of its context's SEQ and of the count alone. -/
theorem accept_get (s : State) (n q : Nat) {f : FRef} (h1 : f.reg ≠ CTX_SEQ n) (h2 : 0x20 ≤ f.reg) : (s.accept n q).get f = s.get f := by
  unfold State.accept
  split
  · unfold State.countAccept
    dsimp only
    rw [get_put_of _ _ (by decide) (.inl (fun e => absurd (e ▸ h2) (by decide))),
      get_put_of _ _ (by decide) (.inl (fun e => absurd (e ▸ h2) (by decide))),
      get_put_of _ _ (Nat.le_of_ble_eq_true rfl) (.inl h1)]
    rfl
  · rfl

theorem accept_turnedAway {n : Nat} (hfence : s.on (CTX_FENCE_FENCED n) = false) (hst : s.ctxState n = 2) (q : Nat) :
    (s.accept n q).turnedAway n = (s.accept n q, none) := by
  have hfr : (CTX_FENCE_FENCED n).reg = 0xc0044 + 0x100 * n := rfl
  have hsr : (CTX_STAT_STATE n).reg = 0xc0004 + 0x100 * n := rfl
  have hseq : CTX_SEQ n = 0xc0014 + 0x100 * n := rfl
  have hf : (s.accept n q).on (CTX_FENCE_FENCED n) = false := by
    rw [State.on, accept_get s n q (by omega) (by omega), ← State.on, hfence]
  have hs : (s.accept n q).ctxState n = 2 := by
    rw [State.ctxState, accept_get s n q (by omega) (by omega), ← State.ctxState, hst]
  rw [State.turnedAway, if_neg (by rw [hf]; decide), if_neg (by rw [hs]; decide)]

theorem turnedAway_none {n : Nat} (hfence : s.on (CTX_FENCE_FENCED n) = false) (hst : s.ctxState n = 2) :
    s.turnedAway n = (s, none) := by
  rw [State.turnedAway, if_neg (by rw [hfence]; decide), if_neg (by rw [hst]; decide)]

/-- The conditions on a request of a SINGLE context, one by one. -/
theorem singleRequest_iff : singleRequest s p k = true ↔ s.power = .run ∧ s.takes p k = true ∧ s.portState p = 2 ∧
    nothingWaits s p k = true ∧ s.openFor false k.h.ctx k.h.seq = none ∧ s.isVoted k.h.ctx = false ∧ k.h.voted = false ∧
    s.get (CTX_VOTE_OWNER k.h.ctx) = p ∧ s.ctxState k.h.ctx = 2 ∧ s.on (CTX_FENCE_FENCED k.h.ctx) = false ∧
    s.inRange k.h.ctx k.h.seq = true ∧ s.accepted k.h.ctx k.h.seq = false := by
  simp only [singleRequest, Bool.and_eq_true, beq_iff_eq, Bool.not_eq_true', Option.isNone_iff_eq_none, and_assoc]

/-- What an access of a SINGLE context leaves that is accepted from its owner's port. -/
theorem single_taken (hacc : isAccess k.h.type = true) (hp : p < 3) (h : singleRequest s p k = true) (bad : Bool) :
    (s.takePacket p k bad).drain = singleAccepted s p k := by
  obtain ⟨-, htakes, hst, hwait, hopen, hmode, hv, howner, hctx, hfence, hrange, hnew⟩ := singleRequest_iff.1 h
  have htype : k.h.type ≠ tNOP ∧ k.h.type ≠ tCPL ∧ k.h.type ≠ tCPLD ∧ k.h.type ≠ tRPL := by
    refine ⟨?_, ?_, ?_, ?_⟩ <;> (intro e; rw [e] at hacc; exact absurd hacc (by decide))
  obtain ⟨hnop, hcpl, hcpld, hrpl⟩ := htype
  have hctx' : (received s p k).ctxState k.h.ctx = 2 := (received_ctxState ..).trans hctx
  have hadm := admitCopy_single (s := received s p k) hacc ((received_isVoted ..).trans hmode) hv ((received_get ..).trans howner)
    hctx' (accept_turnedAway ((received_on ..).trans hfence) hctx' _) ((received_inRange ..).trans hrange)
    ((received_accepted ..).trans hnew) (received s p k).clk
  have hfalse : (k.h.type == tRPL) = false := beq_eq_false_iff_ne.2 hrpl
  rw [takePacket_host htakes hst hp (.inr (by rw [hfalse]; exact hopen)) ⟨hnop, hcpl, hcpld⟩ (by rw [hv]; rfl) hwait hadm]
  rfl

/-- The conditions on a request of the partner, one by one. -/
theorem spanRequest_iff : spanRequest s p k = true ↔ s.power = .run ∧ s.takes p k = true ∧ s.portState p = 2 ∧
    isSpanControl k = false ∧ s.ctxState k.h.ctx = 2 ∧ s.on (CTX_FENCE_FENCED k.h.ctx) = false := by
  simp only [spanRequest, Bool.and_eq_true, beq_iff_eq, Bool.not_eq_true', and_assoc]

/-- What an access of the partner leaves that is accepted (R101). -/
theorem span_taken (hacc : isAccess k.h.type = true) (hp : 3 ≤ p) (h : spanRequest s p k = true) (bad : Bool) :
    (s.takePacket p k bad).drain = spanAccepted s p k := by
  obtain ⟨-, htakes, hst, hctl, hctx, hfence⟩ := spanRequest_iff.1 h
  have htype : k.h.type ≠ tNOP ∧ k.h.type ≠ tCPL ∧ k.h.type ≠ tCPLD := by
    refine ⟨?_, ?_, ?_⟩ <;> (intro e; rw [e] at hacc; exact absurd hacc (by decide))
  obtain ⟨hnop, hcpl, hcpld⟩ := htype
  have hctx' : (received s p k).ctxState k.h.ctx = 2 := (received_ctxState ..).trans hctx
  have hpass : (received s p k).passUnvoted p k (.span k.h.voted) (some (p - 3)) =
      (received s p k).addExec (owedTo p k) (.span k.h.voted) k (some (p - 3)) p [p] := by
    unfold State.passUnvoted
    dsimp only
    rw [turnedAway_none ((received_on ..).trans hfence) hctx']
    rfl
  have hadm : (received s p k).spanAdmit p k = ((received s p k).passUnvoted p k (.span k.h.voted) (some (p - 3))).freeRx p k := by
    unfold State.spanAdmit
    dsimp only
    rw [hctx', hacc, if_neg (by decide), if_neg (by decide), if_neg (by decide)]
  rw [takePacket_taken htakes hnop, if_neg (not_or.2 ⟨hcpl, hcpld⟩), if_neg (by simp [hctl]), portTakes_span hst hp, hadm, hpass]
  rfl

end unvoted

/-- An access is a packet of one of four types (R31). -/
theorem packet_access {t : Nat} (ht : isAccess t = true) (h32 : t < 32) (h : Hdr) (d : List Byte) :
    isAccess (packet t h d).h.type = true := by
  rwa [packet_type h32]

theorem singleRequestsAccepted_holds : singleRequestsAccepted := by
  intro s p h d bad hp
  have key {t : Nat} {d : List Byte} (ht : isAccess t = true) (h32 : t < 32) (hs : singleRequest s p (packet t h d) = true) :
      s.act (fun s => s.arrive p t h d bad) = .next (singleAccepted s p (packet t h d)) :=
    act_next (singleRequest_iff.1 hs).1 (single_taken (packet_access ht h32 h d) hp hs bad)
  exact ⟨fun hs => (exec_mwr p h d bad s).trans (key (by decide) (by decide) hs),
    fun hs => (exec_npw p h d bad s).trans (key (by decide) (by decide) hs),
    fun hs => (exec_mrd p h bad s).trans (key (by decide) (by decide) hs),
    fun hs => (exec_atm p h d bad s).trans (key (by decide) (by decide) hs)⟩

theorem spanRequestsAccepted_holds : spanRequestsAccepted := by
  intro s p h d bad hp
  have key {t : Nat} {d : List Byte} (ht : isAccess t = true) (h32 : t < 32) (hs : spanRequest s p (packet t h d) = true) :
      s.act (fun s => s.arrive p t h d bad) = .next (spanAccepted s p (packet t h d)) :=
    act_next (spanRequest_iff.1 hs).1 (span_taken (packet_access ht h32 h d) hp hs bad)
  exact ⟨fun hs => (exec_mwr p h d bad s).trans (key (by decide) (by decide) hs),
    fun hs => (exec_npw p h d bad s).trans (key (by decide) (by decide) hs),
    fun hs => (exec_mrd p h bad s).trans (key (by decide) (by decide) hs),
    fun hs => (exec_atm p h d bad s).trans (key (by decide) (by decide) hs)⟩

/-- Settles O1: a packet that meets no error is admitted by its context's mode, on both kinds of port. -/
theorem unvotedRequestsAccepted : Obligations.UnvotedRequestsAccepted := ⟨singleRequestsAccepted_holds, spanRequestsAccepted_holds⟩

/-! ## Service requests (R56 to R58) -/

section service
variable {s : State} {p : Nat} {k : Pkt}

theorem serviceRequest_iff : serviceRequest s p k = true ↔ s.power = .run ∧ p < 3 ∧ s.takes p k = true ∧ s.portState p = 2 ∧
    nothingWaits s p k = true := by
  simp only [serviceRequest, Bool.and_eq_true, beq_iff_eq, decide_eq_true_eq, and_assoc]

/-- What a service request leaves that the Accord serves by `f`. -/
theorem service_taken {f : State → State} (h : serviceRequest s p k = true) (htype : k.h.type = tSEQ ∨ k.h.type = tRPL ∧ k.h.voted = false)
    (hadm : (received s p k).admitCopy p k (received s p k).clk = (f (received s p k), false)) :
    (s.takePacket p k false).drain = served s p k f := by
  obtain ⟨-, hp, htakes, hst, hwait⟩ := serviceRequest_iff.1 h
  have hother : k.h.type ≠ tNOP ∧ k.h.type ≠ tCPL ∧ k.h.type ≠ tCPLD := by
    rcases htype with e | ⟨e, -⟩ <;> (rw [e]; decide)
  have hvote : (k.h.voted && k.h.type != tSEQ) = false := by
    rcases htype with e | ⟨-, e⟩
    · rw [e, bne_self_eq_false, Bool.and_false]
    · rw [e, Bool.false_and]
  rw [takePacket_host htakes hst hp (.inl rfl) hother hvote hwait hadm]
  rfl

theorem admitCopy_query (ht : k.h.type = tSEQ) (hop : k.h.op = 0) (at_ : Nat) :
    s.admitCopy p k at_ = (s.answerSeq p k.h.tag k.h, false) := by
  unfold State.admitCopy
  exact if_pos ⟨ht, hop⟩

theorem admitCopy_sync (ht : k.h.type = tSEQ) (hop : k.h.op ≠ 0) (hn : k.h.ctx ≠ 0) (hctx : s.ctxState k.h.ctx = 2)
    (hv : s.isVoted k.h.ctx = true) (hch : s.chState p = 3) (at_ : Nat) : s.admitCopy p k at_ = (s.sync p k.h.tag k.h, false) := by
  have hrpl : ¬ (k.h.type = tRPL ∧ (k.h.ctx = 0 ∨ k.h.voted = false)) := by
    rw [ht]
    exact fun e => absurd e.1 (by decide)
  unfold State.admitCopy
  dsimp only
  rw [if_neg (fun e => hop e.2), hctx, if_neg (by decide), if_neg hrpl, if_neg hn, if_pos ht, hv, hch, if_pos (by decide)]

theorem admitCopy_replay (ht : k.h.type = tRPL) (hv : k.h.voted = false) (hctx : s.ctxState k.h.ctx = 2) (at_ : Nat) :
    s.admitCopy p k at_ =
      (s.replayTo p k.h.tag k.h (s.replayOf k.h.ctx k.h.seq).1 (s.replayOf k.h.ctx k.h.seq).2, false) := by
  have hseq : ¬ (k.h.type = tSEQ ∧ k.h.op = 0) := by
    rw [ht]
    exact fun e => absurd e.1 (by decide)
  unfold State.admitCopy
  dsimp only
  rw [if_neg hseq, hctx, if_neg (by decide), if_pos ⟨ht, .inr hv⟩]

end service

theorem seqQueryAnswered_holds : seqQueryAnswered := by
  rintro s p h k rfl hs
  have ht : (packet tSEQ (h.withOp 0) []).h.type = tSEQ := packet_type (by decide) ..
  have hop : (packet tSEQ (h.withOp 0) []).h.op = 0 := by rw [packet, Hdr.withType_op, Hdr.withOp_op]
  exact (exec_seqQuery p h s).trans (act_next (serviceRequest_iff.1 hs).1
    (service_taken (f := fun u => u.answerSeq p _ _) hs (.inl ht) (admitCopy_query ht hop _)))

theorem seqSyncTaken_holds : seqSyncTaken := by
  rintro s p h k rfl hs hn hvoted hctx hch
  have ht : (packet tSEQ (h.withOp 1) []).h.type = tSEQ := packet_type (by decide) ..
  have hop : (packet tSEQ (h.withOp 1) []).h.op = 1 := by rw [packet, Hdr.withType_op, Hdr.withOp_op]
  exact (exec_seqSync p h s).trans (act_next (serviceRequest_iff.1 hs).1
    (service_taken (f := fun u => u.sync p _ _) hs (.inl ht) (admitCopy_sync ht (by rw [hop]; decide) hn
      ((received_ctxState ..).trans hctx) ((received_isVoted ..).trans hvoted) ((received_get ..).trans hch) _)))

theorem rplReplayed_holds : rplReplayed := by
  rintro s p h k rfl hs hopen hctx hv
  have ht : (packet tRPL h []).h.type = tRPL := packet_type (by decide) ..
  have hadm := admitCopy_replay (s := received s p (packet tRPL h [])) (p := p) ht hv ((received_ctxState ..).trans hctx)
    (received s p (packet tRPL h [])).clk
  rw [received_replayOf] at hadm
  exact (exec_rpl p h s).trans (act_next (serviceRequest_iff.1 hs).1
    (service_taken (f := fun u => u.replayTo p _ _ (s.replayOf _ _).1 (s.replayOf _ _).2) hs (.inr ⟨ht, hv⟩) hadm))

/-! ## Credits, completions and stray messages (R24, R40, R45, R48, R59) -/

theorem heardOn_execs (s : State) (p : Nat) : (s.heardOn p).execs = s.execs := by
  obtain ⟨_, h⟩ := heardOn_frame s p
  rw [h]

/-- A NOP grants its credits (R45, R48). -/
theorem takePacket_nop {s : State} {p : Nat} {h : Hdr} (hport : s.hasPort p = true) (hlink : s.linkUp p = true) (hvc : h.vc = 0)
    (bad : Bool) : s.takePacket p (packet tNOP h []) bad = (s.heardOn p).takeCredits p (h.withType tNOP) := by
  have ht : (packet tNOP h []).h.type = tNOP := packet_type (by decide) ..
  have hv : (packet tNOP h []).h.vc = 0 := by rw [packet, Hdr.withType_vc, hvc]
  have hcause : (s.heardOn p).packetCause p (packet tNOP h []) = none := by
    unfold State.packetCause
    simp only [ht, hv]
    simp [typeVc, usesLen, hasData, nonPosted, isAccess, packet, tNOP, tMWR, tMSG, tNPW, tMRD, tATM, tSEQ, tRPL, tCPL, tCPLD]
  unfold State.takePacket
  simp only [hport, hlink, hcause, Bool.not_true, Bool.or_self, Bool.false_eq_true, if_false]
  exact if_pos ht

/-- The credits of a NOP are added, and what is above 4095 of a kind is a protocol error (R45, R48). -/
theorem takeCredits_eq {s : State} {p : Nat} {h : Hdr} {c : Credits} (hc : c = creditsAfter s p h) :
    s.takeCredits p (h.withType tNOP) =
      (let u := if decide (4095 < c.ph) || decide (4095 < c.pd) || decide (4095 < c.nh) || decide (4095 < c.nd)
          then (creditsHeld s p c).protoError p (h.withType tNOP) 0x0B else creditsHeld s p c
       if p < 3 then u else u.flushControl (mget u.span.queue (p - 3) []).length (p - 3)) := by
  have hw2 : (h.withType tNOP).w2 = h.w2 := Hdr.withType_w2 ..
  unfold State.takeCredits
  rw [hw2, hc]
  rfl

theorem nopGrantsCredits_holds : nopGrantsCredits := by
  rintro s t p h c hrun hport hlink hvc hc rfl
  have hc' : c = creditsAfter (s.heardOn p) p h := by rw [hc, creditsAfter, creditsAfter, heardOn_port]
  have harrive (u : State) (hu : (s.heardOn p).takeCredits p (h.withType tNOP) = u) : exec (.nop p h) s = .next u.drain :=
    (exec_nop p h s).trans (act_next hrun (congrArg State.drain ((takePacket_nop hport hlink hvc false).trans hu)))
  refine ⟨fun h1 h2 h3 h4 => harrive _ ((takeCredits_eq hc').trans ?_), fun hover hp => harrive _ ((takeCredits_eq hc').trans ?_)⟩
  · have hno : (decide (4095 < c.ph) || decide (4095 < c.pd) || decide (4095 < c.nh) || decide (4095 < c.nd)) = false := by
      simp only [decide_eq_false (Nat.not_lt.2 h1), decide_eq_false (Nat.not_lt.2 h2), decide_eq_false (Nat.not_lt.2 h3),
        decide_eq_false (Nat.not_lt.2 h4), Bool.or_self]
    rw [hno]
    rfl
  · have hyes : (decide (4095 < c.ph) || decide (4095 < c.pd) || decide (4095 < c.nh) || decide (4095 < c.nd)) = true := by
      simp only [Bool.or_eq_true, decide_eq_true_eq, or_assoc]
      exact hover
    rw [hyes]
    exact if_pos hp

/-- A completion is taken by the request forwarded under its tag (R24). -/
theorem takePacket_completion {s : State} {p : Nat} {k : Pkt} {e : Exec} (htakes : s.takes p k = true)
    (ht : k.h.type = tCPL ∨ k.h.type = tCPLD) (hfind : s.execs.find? (fun e => e.stage == .forwarded (p - 3) k.h.tag) = some e)
    (bad : Bool) : s.takePacket p k bad =
      if k.data.isEmpty ∨ cplStatus k ≠ stSC then
        (s.heardOn p).endExec e (cplStatus k) e.sent (e.taddr + e.sent) 1 []
      else if e.sent + k.data.length < owedBytes e then (s.heardOn p).partExec e k.data
      else (s.heardOn p).endExec e stSC 0 e.taddr 1 k.data := by
  have hnop : k.h.type ≠ tNOP := by rcases ht with e | e <;> (rw [e]; decide)
  rw [takePacket_taken htakes hnop, if_pos ht]
  unfold State.takeCompletion
  rw [heardOn_execs, hfind]
  rfl

theorem completionsTaken_holds : completionsTaken := by
  intro s p h d k e hrun hp htakes hop hfind
  have hstatus : cplStatus k = k.h.op := if_neg (Nat.not_lt.2 hop)
  obtain ⟨-, -, hagree, -⟩ := takes_iff.1 htakes
  obtain ⟨-, -, hdata, -⟩ := pktAgrees_iff.1 hagree
  refine ⟨?_, ?_, ?_⟩
  · rintro rfl
    have ht : (packet tCPL h []).h.type = tCPL := packet_type (by decide) ..
    refine (exec_cpl p h s).trans (act_next hrun (congrArg State.drain
      ((takePacket_completion htakes (.inl ht) hfind false).trans ?_)))
    rw [if_pos (.inl rfl), hstatus]
  · rintro rfl hsc
    have ht : (packet tCPLD h d).h.type = tCPLD := packet_type (by decide) ..
    have hne : ¬ ((packet tCPLD h d).data.isEmpty = true ∨ cplStatus (packet tCPLD h d) ≠ stSC) := by
      rw [ht] at hdata
      rw [hstatus, hsc, List.isEmpty_iff_length_eq_zero, hdata, if_pos (by decide)]
      simp
    refine (exec_cpld p h d s).trans (act_next hrun (congrArg State.drain
      ((takePacket_completion htakes (.inr ht) hfind false).trans ?_)))
    rw [if_neg hne]
    rfl
  · rintro rfl hsc
    have ht : (packet tCPLD h d).h.type = tCPLD := packet_type (by decide) ..
    refine (exec_cpld p h d s).trans (act_next hrun (congrArg State.drain
      ((takePacket_completion htakes (.inr ht) hfind false).trans ?_)))
    rw [hstatus, if_pos (.inr hsc)]

/-- A packet of TYPE MSG shows an error of its direction (R59). -/
theorem packetCause_msg {s : State} {p : Nat} {k : Pkt} (ht : k.h.type = tMSG) (hvc : k.h.vc = 0) (hlen : k.h.len ≤ 255)
    (hdata : k.data.length = k.h.len + 1) : s.packetCause p k = some 0x08 := by
  have h255 : decide (255 < k.h.len) = false := decide_eq_false (Nat.not_lt.2 hlen)
  have hd : (k.data.length != k.h.len + 1) = false := by rw [hdata, bne_self_eq_false]
  unfold State.packetCause
  simp only [ht, hvc, h255]
  simp [typeVc, usesLen, hasData, nonPosted, isAccess, hd, tMWR, tMSG, tNPW, tMRD, tATM, tSEQ, tRPL, tCPL, tCPLD]

theorem refuseTag_posted {s : State} {p : Nat} {k : Pkt} (ht : nonPosted k.h.type = false) (cause status : Nat) :
    s.refuseTag p k cause status = s := by
  unfold State.refuseTag
  rw [ht, Bool.and_false]
  rfl

theorem takePacket_msg {s : State} {p : Nat} {k : Pkt} (hport : s.hasPort p = true) (hlink : s.linkUp p = true)
    (ht : k.h.type = tMSG) (hvc : k.h.vc = 0) (hlen : k.h.len ≤ 255) (hdata : k.data.length = k.h.len + 1) (bad : Bool) :
    s.takePacket p k bad = ((s.heardOn p).protoError p k.h 0x08).sendNop p (pktCost k) := by
  have hcredit : usesCredit k = true := by rw [usesCredit, hvc, ht]; decide
  have hposted : nonPosted k.h.type = false := by rw [ht]; decide
  unfold State.takePacket
  simp only [hport, hlink, packetCause_msg ht hvc hlen hdata, refuseTag_posted hposted, hcredit, Bool.not_true, Bool.or_self,
    Bool.false_eq_true, if_false, if_true]

theorem msgRefused_holds : msgRefused := by
  rintro s p h d k rfl hrun hport hlink hvc hlen hdata
  have ht : (packet tMSG h d).h.type = tMSG := packet_type (by decide) ..
  exact (exec_msgPacket p h d s).trans (act_next hrun (congrArg State.drain
    (takePacket_msg hport hlink ht hvc hlen hdata false)))

/-- Settles O2: what arrives without an error is served by the Accord's admission, credits and completions by their own. -/
theorem portServicePackets : Obligations.PortServicePackets :=
  ⟨seqQueryAnswered_holds, seqSyncTaken_holds, rplReplayed_holds, nopGrantsCredits_holds, completionsTaken_holds, msgRefused_holds⟩

end Sys2Proof.Claims

/-! PROOFS. Records, messages, port states, channels and fences (R16, R55, R60, R103, R104, R120 to R130). -/

namespace Sys2Proof.Claims

open Sys2Proof.Machine

/-! ## Vote windows and the receive buffer (R103, R104, R114) -/

theorem voteWindowCloses_holds : voteWindowCloses := by
  intro s u rpl n seq r r' hrun hexp hopen
  refine ⟨(exec_voteWindowClose rpl n seq false s).trans (actDrain_next hrun ?_), fun hopen' =>
    (exec_voteWindowClose rpl n seq true s).trans (actDrain_next hrun ?_)⟩
  · unfold State.windowCloses
    simp only [hexp, hopen, Bool.false_eq_true, if_false]
  · unfold State.windowCloses
    simp only [hexp, hopen, if_true, hopen']

/-- The search for a copy that may leave passes those before it that must wait (R103). -/
theorem stallTake_first {s t : State} {p i : Nat} {y : StalledCopy} (hy : (s.port p).stalled[i]? = some y)
    (hwait : ∀ (j : Nat) (z : StalledCopy), j < i → (s.port p).stalled[j]? = some z → ∃ n, tried s p j z = .waits n)
    (hleft : tried s p i y = .left t) (fuel j : Nat) (hj : j ≤ i) (hfuel : i < j + fuel) : s.stallTake p fuel j = some t := by
  induction fuel generalizing j with
  | zero => omega
  | succ fuel ih =>
    unfold State.stallTake
    dsimp only
    rcases Nat.lt_or_eq_of_le hj with hlt | rfl
    · have hlen : j < (s.port p).stalled.length := by
        have := (List.getElem?_eq_some_iff.1 hy).1
        omega
      have hz : (s.port p).stalled[j]? = some (s.port p).stalled[j] := List.getElem?_eq_getElem hlen
      obtain ⟨n, hn⟩ := hwait j _ hlt hz
      rw [tried] at hn
      rw [hz]
      dsimp only
      rw [hn]
      exact ih (j + 1) hlt (by omega)
    · rw [tried] at hleft
      rw [hy]
      dsimp only
      rw [hleft]

theorem stallEnds_holds : stallEnds := by
  intro s t p i y hrun hy hwait hleft
  have hlen := (List.getElem?_eq_some_iff.1 hy).1
  have htake := stallTake_first hy hwait hleft (s.port p).stalled.length 0 (Nat.zero_le i) (by omega)
  refine (exec_recStallEnd p s).trans (actDrain_next hrun ?_)
  rw [State.stallEnd, htake]

/-! ## Executions, messages and notices (R16, R17, R55) -/

theorem executionEnds_holds : executionEnds := by
  intro s via n seq e hrun hfind
  refine (exec_executionEnd via n seq s).trans (actDrain_next hrun ?_)
  rw [State.executionEnds, hfind]

theorem messageSent_holds : messageSent := by
  intro s p m rest c ceil u hrun hmsgs hcov hlink harb
  refine (exec_pendingMessageSend p s).trans (act_next hrun ?_)
  unfold State.hostSend
  simp only [hmsgs, hcov, hlink, Bool.and_self, if_true, harb]

/-- The first of the elements kept by a filter is the first found. -/
theorem find_of_filter {α : Type} {f : α → Bool} {l xs : List α} {x : α} (h : l.filter f = x :: xs) : l.find? f = some x := by
  rw [← List.head?_filter, h, List.head?_cons]

theorem heldNoticeReleased_holds : heldNoticeReleased := by
  intro s n x xs hrun hnotices hmarks
  refine (exec_noticeRelease n s).trans (act_next hrun ?_)
  unfold State.noticeDue
  rw [find_of_filter hnotices]
  simp only [hmarks, if_true, hnotices, List.drop_succ_cons, List.drop_zero]

/-! ## Port states (R60, R351) -/

theorem portEntersOn_holds : portEntersOn := by
  intro s p hrun hport hst hlink hgr hcr
  have hon : s.portOn p = if p.val < 3 then (s.setPortState p 2).channelPortOn p
      else ((s.setPortState p 2).arm (.beat p) 50000).arm (.miss p) 50000 := by
    unfold State.portOn
    exact if_pos ⟨hst, hlink, hgr, hcr⟩
  refine ⟨fun hp => ?_, fun hp => ?_⟩
  · refine (exec_portEnterOn p s).trans (actPort_next hrun ?_ hport)
    rw [hon, if_pos hp]
  · refine (exec_portEnterOn p s).trans (actPort_next hrun ?_ hport)
    rw [hon, if_neg (Nat.not_lt.2 hp)]

theorem portDrains_holds : portDrains := by
  rintro s u p hrun hport hst howes rfl
  have hdrained : s.portDrained p = if s.on (portRestartRef p) then ((s.clearPort p).idleLanes p).portStart p
      else ((s.setPortState p 0).put FLT_LANE_RETIRED
        (without (without (s.get FLT_LANE_RETIRED) (2 * p.val)) (2 * p.val + 1))).portIdles p := by
    unfold State.portDrained
    exact if_pos ⟨hst, by rw [howes]; decide⟩
  refine ⟨fun hre => ?again, fun hre hcar hidle => ?up, fun hre hcar => ?down⟩
  case again =>
    refine (exec_portDrainEnd p s).trans (actPort_next hrun ?_ hport)
    rw [hdrained, if_pos hre]
  case up =>
    refine (exec_portDrainEnd p s).trans (actPort_next hrun ?_ hport)
    rw [hdrained, if_neg (by rw [hre]; decide), State.portIdles, hcar, hidle]
    rfl
  case down =>
    refine (exec_portDrainEnd p s).trans (actPort_next hrun ?_ hport)
    rw [hdrained, if_neg (by rw [hre]; decide), State.portIdles, hcar]
    rfl

/-- Settles O3: each command's clause, the write of HP_CTL among them. -/
theorem recordsMessagesAndPortStates : Obligations.RecordsMessagesAndPortStates :=
  ⟨voteWindowCloses_holds, stallEnds_holds, executionEnds_holds, messageSent_holds, heldNoticeReleased_holds,
    hostPortEnabled_of admitting_reaches, portEntersOn_holds, portDrains_holds⟩

/-! ## Channels (R121, R128, R130, R135, R528) -/

/-- The time that passes until an instant changes no register. -/
theorem untilTb_get (k : Nat) (s : State) (t : Nat) (f : FRef) : (State.untilTb k s t).get f = s.get f :=
  get_of_regs (untilTb_regs k s t) f

theorem suspectLapses_holds : suspectLapses := by
  intro s c hrun hst hrecent
  have hst' : (s.discordSecond c).chState c = 1 := (untilTb_get ..).trans hst
  refine (exec_suspectExpiry c s).trans (act_next hrun ?_)
  rw [State.suspectOut, if_neg (by rw [hst]; decide), State.suspectLapse, hst', hrecent]
  rfl

/-- The capture of a discord leaves the registers below it (R135). -/
theorem dlog_get (s : State) (kind ch n seq : Nat) (cap ref : Option Pkt) {f : FRef} (hf : f.reg < 0x60200) :
    (s.dlog kind ch n seq cap ref).get f = s.get f := by
  have hput (u : State) {g : FRef} (v : Nat) (hg : g.lo + g.w ≤ 32) (hreg : 0x60200 ≤ g.reg) : (u.put g v).get f = u.get f :=
    get_put_of u v hg (.inl (by omega))
  have hfold (l : List Nat) (u : State) (x y : Nat → Nat) :
      (l.foldl (fun u i => (u.put (ACC_DLOG_HDR_WORD i) (x i)).put (ACC_DLOG_REF_WORD i) (y i)) u).get f = u.get f := by
    induction l generalizing u with
    | nil => rfl
    | cons i l ih =>
      have h1 : (ACC_DLOG_HDR_WORD i).reg = 0x60210 + 0x4 * i := rfl
      have h2 : (ACC_DLOG_REF_WORD i).reg = 0x60220 + 0x4 * i := rfl
      rw [List.foldl_cons, ih, hput _ _ (Nat.le_of_ble_eq_true rfl) (by omega), hput _ _ (Nat.le_of_ble_eq_true rfl) (by omega)]
  unfold State.dlog
  split
  · rfl
  · dsimp only
    rw [hput _ _ (by decide) (by decide), hput _ _ (by decide) (by decide), hput _ _ (by decide) (by decide),
      hput _ _ (by decide) (by decide), hfold, hput _ _ (by decide) (by decide), hput _ _ (by decide) (by decide),
      hput _ _ (by decide) (by decide), hput _ _ (by decide) (by decide), hput _ _ (by decide) (by decide)]

theorem rejoinFail_drain {u : State} {c : Nat} (h : u.chState c = 3) (n seq : Nat) :
    (u.rejoinFail c n seq).drain = rejoinFailed u c n seq := by
  rw [State.rejoinFail, if_pos h]
  rfl

theorem rejoinFails_holds : rejoinFails := by
  intro s u c n seq hrun hst
  refine ⟨fun hexp => ?_, fun hexp => ?_⟩
  · rw [← rejoinFail_drain hst]
    refine (exec_rejoinTimeout c s).trans (actDrain_next hrun ?_)
    rw [State.rejoinOut, hexp]
  · have hst' (x y : Option Pkt) : (u.dlog 4 c n.toNat seq.toNat x y).chState c = 3 := by
      have hreg : (ACC_CH_STAT_STATE c.val).reg = 0x60030 + 0x4 * c.val := rfl
      rw [State.chState, dlog_get _ _ _ _ _ _ _ (by omega)]
      exact hst
    rw [← rejoinFail_drain (hst' _ _)]
    refine (exec_rejoinCopyTimeout n seq c s).trans (actDrain_next hrun ?_)
    rw [State.rejoinAlone, hexp]
    rfl

/-- Settles O4: the channels' clauses by the failure of a rejoin and the lapse of a suspicion, the writes by what they do. -/
theorem channelsAndFencesCommanded : Obligations.ChannelsAndFencesCommanded :=
  ⟨suspectLapses_holds, rejoinFails_holds, channelCommands_of admitting_reaches, highCleared_of admitting_reaches,
    unfenced_of admitting_reaches⟩

end Sys2Proof.Claims

/-! PROOFS. Lane detectors and the steps of training (R69 to R77, R97). -/

namespace Sys2Proof.Claims

open Sys2Proof.Machine

/-- A command on a port of the member, after which the accepted requests go on. -/
theorem actPort_drain {s t : State} {p : Nat} {f : State → State} (hrun : s.power = .run) (h : f s = t) (hp : s.hasPort p = true) :
    s.actPort p (fun s => (f s).drain) = .next t.drain := by
  rw [actPort_run hrun hp, h]

/-! ## Detectors (R69 to R71, R97) -/

theorem expire_on {s u : State} {t : Timer} (h : s.expire t = some u) (f : FRef) : u.on f = s.on f := by
  rw [State.on, expire_get h, State.on]

/-- An event raised leaves the link of a lane's port as it is shown. -/
theorem raise_linkUp (s : State) (e c d : Nat) (k : Fin 10) :
    (s.raise e c d).linkUp (lanePort k.val) = s.linkUp (lanePort k.val) := by
  have hblock : (0x54004 + 0x100 * (k.val / 2)) / 0x10000 = 5 := by omega
  refine (raise_only s e c d).on (LL_STAT_LINK_UP (lanePort k.val)) ?_
  show evBlock ((0x54004 + 0x100 * (k.val / 2)) / 0x10000) = false
  rw [hblock]
  rfl

/-- A field of a lane's status written leaves the link of its port as it is shown. -/
theorem put_linkUp (s : State) (k : Fin 10) {f : FRef} (hf : f.reg = LN_STAT k.val) (hw : f.lo + f.w ≤ 32) (v : Nat) :
    (s.put f v).linkUp (lanePort k.val) = s.linkUp (lanePort k.val) := by
  have hne : (LL_STAT_LINK_UP (lanePort k.val)).reg ≠ f.reg := by
    rw [hf]
    show 0x54004 + 0x100 * (k.val / 2) ≠ 0x50004 + 0x400 * k.val
    omega
  rw [State.linkUp, State.on, get_put_of _ _ hw (.inl hne)]
  rfl

theorem losAsserted_holds : losAsserted := by
  intro s k hrun hport hlos hidle hlink
  refine (exec_losAssert k s).trans (actPort_next hrun ?_ hport)
  have hidle' : (s.put (LN_STAT_LOS k) 1).on (LN_STAT_EIDLE_RX k) = false := by
    rw [State.on, get_put_of _ _ (Nat.le_of_ble_eq_true rfl) (.inr (.inr (Nat.le_of_ble_eq_true rfl)))]
    exact hidle
  have hlink' : ((s.put (LN_STAT_LOS k) 1).raise (70 + k.val) 0 (detail k 0 0)).linkUp (lanePort k.val) = true := by
    rw [raise_linkUp, put_linkUp s k (f := LN_STAT_LOS k) rfl (Nat.le_of_ble_eq_true rfl) 1, hlink]
  unfold State.losOn
  dsimp only
  rw [if_neg (by rw [hlos]; decide), if_neg (by rw [hidle']; decide), if_pos hlink']

theorem losDeasserted_holds : losDeasserted := fun s k hrun hport =>
  (exec_losDeassert k s).trans (actPort_next hrun rfl hport)

theorem losTakesLinkDown_holds : losTakesLinkDown := by
  intro s u k hrun hport hexp hlink hidle
  refine (exec_losLinkDown k s).trans (actPort_drain hrun ?_ hport)
  unfold State.losLong
  rw [hexp]
  dsimp only
  have hlink' : u.linkUp (lanePort k.val) = true := (expire_on hexp _).trans hlink
  have hidle' : u.on (LN_STAT_EIDLE_RX k.val) = false := (expire_on hexp _).trans hidle
  rw [hlink', hidle']
  rfl

theorem lolFollowed_holds : lolFollowed := by
  intro s k hrun hport
  have hon (hlol : s.on (LN_STAT_LOL k) = false) : s.lolOn k =
      if s.linkUp (lanePort k) then ((s.put (LN_STAT_LOL k) 1).raise (80 + k.val) 0 (detail k 0 0)).retrain (lanePort k) true
      else (s.put (LN_STAT_LOL k) 1).raise (80 + k.val) 0 (detail k 0 0) := by
    unfold State.lolOn
    dsimp only
    rw [if_neg (by rw [hlol]; decide), raise_linkUp, put_linkUp s k (f := LN_STAT_LOL k) rfl (Nat.le_of_ble_eq_true rfl)]
  refine ⟨fun hlol hlink => ?_, fun hlol hlink => ?_, (exec_lolDeassert k s).trans (actPort_next hrun rfl hport)⟩
  · refine (exec_lolAssert k s).trans (actPort_drain hrun ?_ hport)
    rw [hon hlol, if_pos hlink]
  · refine (exec_lolAssert k s).trans (actPort_drain hrun ?_ hport)
    rw [hon hlol, if_neg (by rw [hlink]; decide)]

/-! ## The steps of training (R73 to R77) -/

theorem firstStepsEnd_holds : firstStepsEnd := by
  intro s u p hrun hport
  refine ⟨fun hph hexp => ?quiet, fun hph hlos => ?presence, fun hph hlol => ?phase⟩
  case quiet =>
    refine (exec_trainQuietEnd p s).trans (actPort_next hrun ?_ hport)
    rw [State.quietEnds, if_neg (Classical.not_not.2 hph), hexp]
  case presence =>
    refine (exec_trainPresenceEnd p s).trans (actPort_next hrun ?_ hport)
    rw [State.presenceEnds, hlos, decide_eq_true hph]
    rfl
  case phase =>
    refine (exec_trainPhaseEnd p s).trans (actPort_next hrun ?_ hport)
    unfold State.phaseEnds
    rw [hlol, decide_eq_true hph]
    rfl

theorem alignEnds_of {s : State} {p : Nat} {a b : BitVec 5} {h0 h1 w0 w1 : List (BitVec 64)} (hph : s.phase p = .align)
    (hprbs : s.inPrbs p = false)
    (hmatch : ((s.settled (2 * p) a.toNat h0 w0).settled (2 * p + 1) b.toNat h1 w1).lanesMatch p = true) :
    s.alignEnds p a b h0 h1 w0 w1 = (((s.settled (2 * p) a.toNat h0 w0).settled (2 * p + 1) b.toNat h1 w1).putLanes p
      LN_STAT_WORD_LOCK 1).nextStep p .equalise 5 400000 := by
  unfold State.alignEnds
  dsimp only
  rw [hprbs, hmatch, decide_eq_true hph, if_pos (by decide)]

/-- A lane whose sweep may end does not have it fail (R73). -/
theorem sweeps_not {s : State} {k : Nat} {a : BitVec 16} (h : sweeps s k a) : ¬ (a = 0 ∧ ¬ s.on (LN_CTLE_OVERRIDE k) = true) := by
  rintro ⟨h0, hov⟩
  rcases h with h | h
  · exact h h0
  · exact hov h

theorem equaliseEnds_of {s : State} {p : Nat} {a b : BitVec 16} {w0 w1 : List (BitVec 64)} (hph : s.phase p = .equalise)
    (hprbs : s.inPrbs p = false) (ha : sweeps s (2 * p) a) (hb : sweeps s (2 * p + 1) b)
    (hmatch : (s.searchedBoth p 0 0 w0 w1).lanesMatch p = true) : s.equaliseEnds p a b w0 w1 =
      (((s.searchedBoth p 0 0 w0 w1).swept (2 * p) a.toNat).swept (2 * p + 1) b.toNat).nextStep p .deskew 6 10000 := by
  have hon : ¬ (s.phase p ≠ .equalise ∨ s.inPrbs p = true) := by simp [hph, hprbs]
  unfold State.equaliseEnds
  dsimp only
  rw [if_neg hon, if_neg (not_or.2 ⟨sweeps_not ha, sweeps_not hb⟩), if_pos hmatch]

theorem lastStepsEnd_holds : lastStepsEnd := by
  intro s t p w0 w1 hrun hport hprbs
  refine ⟨fun a b h0 h1 hph ht hmatch => ?align, fun a b hph ha hb ht hmatch => ?equalise, fun d0 d1 late x hph hx => ?deskew,
    fun hph h0 h1 => ?handshake⟩
  case align =>
    subst ht
    exact (exec_trainAlignEnd p a b h0 h1 w0 w1 s).trans (actPort_next hrun (alignEnds_of hph hprbs hmatch) hport)
  case equalise =>
    subst ht
    exact (exec_trainEqualiseEnd p _ _ s).trans (actPort_next hrun (equaliseEnds_of hph hprbs ha hb hmatch) hport)
  case deskew =>
    refine (exec_trainDeskewEnd p d0 d1 late s).trans (actPort_next hrun ?_ hport)
    unfold State.deskewEnds
    rw [hx]
    dsimp only
    rw [hprbs, decide_eq_true hph, if_pos (by decide)]
  case handshake =>
    refine (exec_trainHandshakeEnd _ s).trans (actPort_next hrun ?_ hport)
    unfold State.handshakeEnds
    dsimp only
    rw [hprbs, decide_eq_true hph, h0, h1, if_pos (by decide)]

theorem trainingFailsAndRetries_holds : trainingFailsAndRetries := by
  intro s u p w0 w1 c hrun hport hexp
  have hst : u.portState p = s.portState p := expire_get hexp _
  refine ⟨fun hc => ?fails, fun hph hp => ?again, fun hph hp => ?idle⟩
  case fails =>
    refine (exec_trainStepTimeout p _ s).trans (actPort_next hrun ?_ hport)
    unfold State.stepOut
    rw [hc]
    dsimp only
    rw [hexp]
  case again =>
    refine (exec_trainRetry p s).trans (actPort_next hrun ?_ hport)
    unfold State.trainAgain
    rw [if_neg (Classical.not_not.2 hph), hexp]
    exact if_pos (hst.trans hp)
  case idle =>
    refine (exec_trainRetry p s).trans (actPort_next hrun ?_ hport)
    unfold State.trainAgain
    rw [if_neg (Classical.not_not.2 hph), hexp]
    exact if_neg (fun e => hp (hst.symm.trans e))

/-- Settles O5: each detector and each step of training under the conditions that end it. -/
theorem lanesDetectAndTrain : Obligations.LanesDetectAndTrain :=
  ⟨losAsserted_holds, losDeasserted_holds, losTakesLinkDown_holds, lolFollowed_holds, firstStepsEnd_holds, lastStepsEnd_holds,
    trainingFailsAndRetries_holds⟩

end Sys2Proof.Claims

/-! PROOFS. Flits, replays, retrains and electrical idle (R78 to R91). -/

namespace Sys2Proof.Claims

open Sys2Proof.Machine

/-! ## Flits (R65, R67, R76, R78 to R85) -/

/-- `t` is `s` but for what a lane's receiver holds and the registers that its words are matched in (R65, R76). -/
def WordsOnly (s t : State) : Prop :=
  (∃ la rg, t = { s with lanes := la, regs := rg }) ∧
    ∀ f : FRef, (∀ k, f.reg ≠ LN_ALIGN k) → (f.lo + f.w ≤ 3 ∨ 4 ≤ f.lo ∨ ∀ k, f.reg ≠ LN_STAT k) → t.get f = s.get f

theorem WordsOnly.refl (s : State) : WordsOnly s s := ⟨⟨_, _, rfl⟩, fun _ _ _ => rfl⟩

theorem WordsOnly.trans {s t u : State} (h : WordsOnly s t) (k : WordsOnly t u) : WordsOnly s u := by
  obtain ⟨⟨_, _, rfl⟩, hg⟩ := h
  obtain ⟨⟨_, _, rfl⟩, kg⟩ := k
  exact ⟨⟨_, _, rfl⟩, fun f h1 h2 => (kg f h1 h2).trans (hg f h1 h2)⟩

theorem WordsOnly.setLane (s : State) (k : Nat) (x : Lane) : WordsOnly s (s.setLane k x) := ⟨⟨_, _, rfl⟩, fun _ _ _ => rfl⟩

theorem WordsOnly.matched (s : State) (k m : Nat) (ws : List (BitVec 64)) : WordsOnly s (s.matched k m ws) := by
  unfold State.matched
  refine ⟨⟨_, _, rfl⟩, fun f h1 h2 => ?_⟩
  dsimp only
  have hpol : f.reg ≠ (LN_STAT_RX_POL_INV k).reg ∨ f.lo + f.w ≤ (LN_STAT_RX_POL_INV k).lo ∨
      (LN_STAT_RX_POL_INV k).lo + (LN_STAT_RX_POL_INV k).w ≤ f.lo := by
    rcases h2 with h | h | h
    · exact .inr (.inl h)
    · exact .inr (.inr h)
    · exact .inl (h k)
  rw [get_put_of _ _ (Nat.le_of_ble_eq_true rfl) hpol, get_put_of _ _ (Nat.le_of_ble_eq_true rfl) (.inl (h1 k))]

/-- Words beside link traffic on a lane that is not in MODE PRBS are matched, no more. -/
theorem WordsOnly.probed (s : State) (k : Nat) (ws : List (BitVec 64)) (hmode : s.get (LN_CTL_MODE k) ≠ 1) :
    WordsOnly s (s.probed k ws) := by
  unfold State.probed
  rw [if_neg hmode]
  split
  · exact .matched ..
  · exact .refl s

theorem WordsOnly.received (s : State) (k : Nat) (ws : List (BitVec 64)) : WordsOnly s (s.received k ws).1 := by
  unfold State.received
  dsimp only
  split
  · exact .setLane ..
  · exact .refl s

theorem WordsOnly.phase {s t : State} (h : WordsOnly s t) (p : Nat) : t.phase p = s.phase p := by
  obtain ⟨⟨_, _, rfl⟩, -⟩ := h
  rfl

theorem WordsOnly.carries {s t : State} (h : WordsOnly s t) (p : Nat) : t.carries p = s.carries p := by
  rw [State.carries, h.phase, State.carries]

theorem lnAlign_ne {k j : Nat} {o : Nat} (ho : o < 0x10 ∨ 0x10 < o ∧ o < 0x400) : 0x50000 + o + 0x400 * k ≠ LN_ALIGN j := by
  rw [LN_ALIGN]
  omega

/-- The modes and the electrical idle of the lanes are as they were. -/
theorem WordsOnly.mode {s t : State} (h : WordsOnly s t) (k : Nat) : t.get (LN_CTL_MODE k) = s.get (LN_CTL_MODE k) :=
  h.2 _ (fun _ => lnAlign_ne (k := k) (o := 0) (by omega)) (.inl (Nat.le_of_ble_eq_true rfl))

theorem WordsOnly.eidle {s t : State} (h : WordsOnly s t) (k : Nat) : t.on (LN_STAT_EIDLE_RX k) = s.on (LN_STAT_EIDLE_RX k) := by
  rw [State.on, h.2 _ (fun _ => lnAlign_ne (k := k) (o := 4) (by omega)) (.inr (.inl (Nat.le_of_ble_eq_true rfl))), State.on]

theorem WordsOnly.inPrbs {s t : State} (h : WordsOnly s t) (p : Nat) : t.inPrbs p = s.inPrbs p := by
  rw [State.inPrbs, h.mode, h.mode, State.inPrbs]

/-- A flit position on lanes that are not in MODE PRBS (R65, R67, R79). -/
theorem flitPosition_only {s : State} {p : Nat} (hprbs : s.inPrbs p = false) (w0 w1 : List (BitVec 64)) :
    WordsOnly s ((s.probed (2 * p) w0).probed (2 * p + 1) w1) ∧ WordsOnly s (flitPosition s p w0 w1).1 := by
  simp only [State.inPrbs, Bool.or_eq_false_iff, beq_eq_false_iff_ne] at hprbs
  obtain ⟨h0, h1⟩ := hprbs
  have hfirst := WordsOnly.probed s (2 * p) w0 h0
  have hboth := hfirst.trans (.probed _ (2 * p + 1) w1 (by rw [hfirst.mode]; exact h1))
  exact ⟨hboth, (hboth.trans (.received ..)).trans (.received ..)⟩

/-- The flit that a port's lanes bring is taken (R78, R79). -/
theorem takeLanes_eq {s : State} {p : Nat} (hprbs : s.inPrbs p = false) (hcar : s.carries p = true) (w0 w1 : List (BitVec 64)) :
    s.takeLanes p w0 w1 = (flitPosition s p w0 w1).1.takeFlit p (flitPosition s p w0 w1).2 := by
  obtain ⟨hboth, -⟩ := flitPosition_only hprbs w0 w1
  unfold State.takeLanes
  dsimp only
  rw [hboth.inPrbs, hboth.carries, hprbs, hcar, if_neg (by decide)]
  rfl

/-- A flit's parts: its FSEQ, its ACK, its payload and its CRC (R78, R82). -/
theorem flitBytes_parts {q ack : BitVec 8} {payload : List Byte} (hlen : payload.length = 58) :
    (flitBytes q.toNat ack.toNat payload).length = 64 ∧
    leNat ((flitBytes q.toNat ack.toNat payload).drop 60) = (crc32c ((flitBytes q.toNat ack.toNat payload).take 60)).toNat ∧
    leNat ((flitBytes q.toNat ack.toNat payload).take 1) = q.toNat ∧
    leNat (((flitBytes q.toNat ack.toNat payload).drop 1).take 1) = ack.toNat ∧
    ((flitBytes q.toNat ack.toNat payload).drop 2).take 58 = payload := by
  have h60 : (leBytes 1 q.toNat ++ leBytes 1 ack.toNat ++ payload).length = 60 := by simp [hlen]
  have h1 (x : BitVec 8) : (leBytes 1 x.toNat).length = 1 := leBytes_length ..
  have h2 : (leBytes 1 q.toNat ++ leBytes 1 ack.toNat).length = 2 := by simp
  have hone (x : BitVec 8) : leNat (leBytes 1 x.toNat) = x.toNat := by
    rw [leNat_leBytes]
    exact Nat.mod_eq_of_lt x.isLt
  unfold flitBytes
  dsimp only
  refine ⟨by simp [hlen], ?_, ?_, ?_, ?_⟩
  · rw [List.drop_left' h60, List.take_left' h60, leNat_leBytes, Nat.mod_eq_of_lt (BitVec.isLt _)]
  · rw [List.append_assoc, List.append_assoc, List.take_left' (h1 q), hone]
  · rw [List.append_assoc, List.append_assoc, List.drop_left' (h1 q), List.append_assoc, List.take_left' (h1 ack), hone]
  · rw [List.append_assoc, List.drop_left' h2, List.take_left' hlen]

/-- A good flit with the FSEQ expected is taken in order (R78, R84, R85, R91). -/
theorem takeFlit_good {a b c : State} {p : Nat} {q ack : BitVec 8} {payload : List Byte} (hlen : payload.length = 58)
    (hcar : a.carries p = true) (hidle : a.on (LN_STAT_EIDLE_RX (2 * p)) = false) (hb : b = a.takeAck p ack.toNat)
    (hq : q.toNat = (b.get (LL_SEQ_RX_LAST p) + 1) % 256)
    (hc : c = ((b.put (LL_SEQ_RX_LAST p) q.toNat).disarm (.nak p)).wakeTx p) :
    a.takeFlit p (flitBytes q.toNat ack.toNat payload) =
      (c.setLink p { c.link p with rxBytes := (parsePkts 16 ((c.link p).rxBytes ++ payload)).rest },
        (parsePkts 16 ((c.link p).rxBytes ++ payload)).pkts, (parsePkts 16 ((c.link p).rxBytes ++ payload)).bad) := by
  obtain ⟨hsize, hcrc, hfseq, hack, hpay⟩ := flitBytes_parts (q := q) (ack := ack) hlen
  unfold State.takeFlit
  rw [hcar, hidle, if_neg (by decide), flit_not_control _ _ _ hlen]
  dsimp only
  rw [if_pos ⟨hsize, hcrc⟩, hfseq, hack, hpay, ← hb, if_pos hq, ← hc]

theorem flitTaken_holds : flitTaken := by
  intro s a b c p w0 w1 q ack payload r hrun hport hcar hidle hprbs hlen hpos hb hq hc hr hbad
  obtain ⟨-, honly⟩ := flitPosition_only hprbs w0 w1
  rw [hpos] at honly
  have hflit : s.takeLanes p w0 w1 = (c.setLink p { c.link p with rxBytes := r.rest }, r.pkts, r.bad) := by
    rw [takeLanes_eq hprbs hcar, hpos, hr]
    exact takeFlit_good hlen ((honly.carries p).trans hcar) ((honly.eidle _).trans hidle) hb hq hc
  refine (exec_flit p _ s).trans (actPort_next hrun ?_ hport)
  unfold State.takeFlitPackets
  rw [hflit, hbad]

/-! ## Control blocks (R86, R87, R89, R90) -/

/-- `t` is `s` but for what the lanes hold. -/
def LanesOnly (s t : State) : Prop := ∃ la, t = { s with lanes := la }

theorem LanesOnly.foldl {α : Type} {f : State → α → State} (h : ∀ u x, LanesOnly u (f u x)) (l : List α) (s : State) :
    LanesOnly s (l.foldl f s) := by
  induction l generalizing s with
  | nil => exact ⟨_, rfl⟩
  | cons x l ih =>
    obtain ⟨l1, h1⟩ := h s x
    obtain ⟨l2, h2⟩ := ih (f s x)
    exact ⟨l2, by rw [List.foldl_cons, h2, h1]⟩

theorem heard_lanes (s : State) (p code value : Nat) : LanesOnly s (s.heard p code value) := by
  unfold State.heard
  dsimp only
  refine LanesOnly.foldl (fun u i => ?_) _ s
  split
  · exact ⟨_, rfl⟩
  · exact ⟨_, rfl⟩

section heard
variable (s : State) (p code value : Nat)

theorem heard_get (f : FRef) : (s.heard p code value).get f = s.get f := by
  obtain ⟨_, h⟩ := heard_lanes s p code value
  rw [h]
  rfl

theorem heard_link (q : Nat) : (s.heard p code value).link q = s.link q := by
  obtain ⟨_, h⟩ := heard_lanes s p code value
  rw [h]
  rfl

theorem heard_carries (q : Nat) : (s.heard p code value).carries q = s.carries q := by
  rw [State.carries, State.phase, heard_link, ← State.phase, ← State.carries]

theorem heard_recent : recentRetrains (s.heard p code value) p = recentRetrains s p := by
  obtain ⟨_, h⟩ := heard_lanes s p code value
  rw [h]
  rfl

end heard

theorem takeNak_all {s : State} {p v : Nat} (hcar : s.carries p = true) (hne : (s.link p).replay ≠ [])
    (hv : v = s.get (LL_SEQ_TX_ACKED p)) : s.takeNak p v = s.replayAll p (s.link p).replay := by
  have hno : ¬ (!s.carries p || (s.link p).replay.isEmpty) = true := by simp [hcar, hne]
  unfold State.takeNak
  dsimp only
  rw [if_neg hno, if_pos hv]

theorem takeNak_after {s : State} {p v : Nat} {f : HeldFlit} {fs : List HeldFlit} (hcar : s.carries p = true)
    (hv : v ≠ s.get (LL_SEQ_TX_ACKED p)) (haft : afterFseq v (s.link p).replay = some (f :: fs)) :
    s.takeNak p v = s.replayAll p (f :: fs) := by
  have hno : ¬ (!s.carries p || (s.link p).replay.isEmpty) = true := by
    cases hr : (s.link p).replay with
    | nil =>
      rw [hr] at haft
      exact absurd haft (by simp [afterFseq])
    | cons => simp [hcar]
  unfold State.takeNak
  dsimp only
  rw [if_neg hno, if_neg hv, haft]

theorem flitsReplayed_holds : flitsReplayed := by
  intro s t u p v f fs hrun hport ht
  subst ht
  refine ⟨fun hcar hne hv => ?all, fun hcar hv haft => ?after, fun hexp => ?timeout⟩
  case all =>
    refine (exec_nak p v s).trans (actPort_drain hrun ?_ hport)
    rw [takeNak_all ((heard_carries ..).trans hcar) (by rwa [heard_link]) (by rw [heard_get]; exact hv), heard_link]
  case after =>
    refine (exec_nak p v s).trans (actPort_drain hrun ?_ hport)
    exact takeNak_after ((heard_carries ..).trans hcar) (by rwa [heard_get]) (by rwa [heard_link])
  case timeout =>
    refine (exec_replayTimeout p s).trans (actPort_drain hrun ?_ hport)
    rw [State.replayOut, hexp]

/-- A retrain on the far end's request begins, or ends the link where eight began within 1 s (R87). -/
theorem retrain_far {s : State} {p : Nat} (hcar : s.carries p = true) :
    s.retrain p false = if 8 ≤ (recentRetrains s p).length then s.linkDown p 9 else retrainBegun s p := by
  unfold State.retrain
  rw [if_pos hcar]
  rfl

theorem retrainBlockTaken_holds : retrainBlockTaken := by
  rintro s t p hrun hport hcar rfl
  have hret := retrain_far (s := s.heard p 3 0) (p := p) ((heard_carries ..).trans hcar)
  rw [heard_recent] at hret
  refine ⟨fun hfew => ?_, fun hmany => ?_⟩
  · refine (exec_retrainBlock p s).trans (actPort_drain hrun ?_ hport)
    rw [hret, if_neg (Nat.not_le.2 hfew)]
  · refine (exec_retrainBlock p s).trans (actPort_drain hrun ?_ hport)
    rw [hret, if_pos hmany]

theorem farIdleFollowed_holds : farIdleFollowed := by
  rintro s t p w0 w1 hrun hport hcar rfl
  have hwakes (hidle : s.on (LN_STAT_EIDLE_RX (2 * p.val)) = true) : s.farWakes p w0 w1 =
      if 2 ≤ (s.rxAwake p).matching (2 * p.val) w0 ∧ 2 ≤ (s.rxAwake p).matching (2 * p.val + 1) w1 then s.rxAwake p
      else (s.rxAwake p).retrain p true := by
    unfold State.farWakes
    exact if_pos (by rw [hcar, hidle]; rfl)
  refine ⟨?idles, fun hidle h0 h1 => ?wakes, fun hidle hfew => ?retrains⟩
  case idles =>
    refine (exec_eidleBlock p s).trans (actPort_next hrun ?_ hport)
    rw [State.farIdles, if_pos ((heard_carries ..).trans hcar)]
  case wakes =>
    refine (exec_wakeBurst p w0 w1 s).trans (actPort_drain hrun ?_ hport)
    rw [hwakes hidle, if_pos ⟨h0, h1⟩]
  case retrains =>
    refine (exec_wakeBurst p w0 w1 s).trans (actPort_drain hrun ?_ hport)
    rw [hwakes hidle, if_neg (by omega)]

theorem txIdleEntered_holds : txIdleEntered := by
  intro s t p hrun hport hcar hask hreplay htxq hidle ht
  have hidles : s.txIdles p = if t.portState p = 0 then (t.clearPort p).idleLanes p else t := by
    unfold State.txIdles
    rw [hcar, hask, hreplay, htxq, hidle, ht]
    exact if_pos rfl
  refine ⟨fun hp => ?_, fun hp => ?_⟩
  · refine (exec_txEidleEntry p s).trans (actPort_next hrun ?_ hport)
    rw [hidles, if_neg hp]
  · refine (exec_txEidleEntry p s).trans (actPort_next hrun ?_ hport)
    rw [hidles, if_pos hp]

/-! ## The phases of a retrain (R87, R93, R413) -/

theorem prbsEnd_of {s u v : State} {p : Nat} {w0 w1 : List (BitVec 64)} {c : Nat → Checker} {bad : Bool}
    (hph : s.phase p = .rtPrbs) (hc : c = checkers s p w0 w1) (h0 : (c 0).lock = true) (h1 : (c 1).lock = true)
    (hexp : s.expire (.rtPhase p) = some u) (hlanes : u.lanesChecked p (fun i => (c i).found) = (v, bad)) :
    s.prbsEnd p w0 w1 = if bad then v.linkDown p 9
      else ((v.setPhase p .rtRealign).emit (.pattern p 1)).arm (.rtPhase p) 20000 := by
  subst hc
  have hno : ¬ (s.phase p ≠ .rtPrbs ∨ ¬ ((checkers s p w0 w1 0).lock = true ∧ (checkers s p w0 w1 1).lock = true)) := by
    simp [hph, h0, h1]
  unfold State.prbsEnd
  refine (if_neg hno).trans ?_
  rw [hexp]
  dsimp only
  rw [show (u.lanesChecked p fun i => (s.retrainCheck (2 * p + i) (if i = 0 then w0 else w1)).found) = (v, bad) from hlanes]

theorem retrainPhasesEnd_holds : retrainPhasesEnd := by
  intro s u v p w0 w1 hrun hport
  refine ⟨fun bad u0 u1 v0 v1 c hph hc h0 h1 hexp hlanes => ?prbs, fun a b hph hprbs hv hmatch => ?realign,
    fun d0 d1 x hph hprbs hx h0 h1 hv => ?resume, fun hph hexp => ?limit⟩
  case prbs =>
    exact (exec_retrainPrbsEnd p u0 u1 w0 w1 v0 v1 s).trans (actPort_drain hrun (prbsEnd_of hph hc h0 h1 hexp hlanes) hport)
  case realign =>
    subst hv
    refine (exec_retrainRealignEnd p a b w0 w1 s).trans (actPort_next hrun ?_ hport)
    unfold State.realignEnds
    dsimp only
    rw [hprbs, hmatch, decide_eq_true hph, if_pos (by decide)]
  case resume =>
    subst hv
    refine (exec_retrainResume p d0 d1 _ s).trans (actPort_next hrun ?_ hport)
    unfold State.retrainEnds
    rw [hx]
    dsimp only
    rw [hprbs, h0, h1, decide_eq_true hph]
    rfl
  case limit =>
    refine (exec_retrainLimit p s).trans (actPort_drain hrun ?_ hport)
    unfold State.retrainOut
    rcases hph with h | h | h
    · rw [h, hexp]
      rfl
    · rw [h, hexp]
      rfl
    · rw [h, hexp]
      rfl

/-- Settles O6: flits by the words that their position brings, control blocks by what hearing them leaves, retrains phase by
phase. -/
theorem linkLayerFollowsTheFarEnd : Obligations.LinkLayerFollowsTheFarEnd :=
  ⟨flitTaken_holds, flitsReplayed_holds, retrainBlockTaken_holds, farIdleFollowed_holds, txIdleEntered_holds,
    retrainPhasesEnd_holds⟩

end Sys2Proof.Claims

/-! PROOFS. The beats and cycles of a segment, its keeper pulses and card interrupts (R149, R173 to R190). -/

namespace Sys2Proof.Claims

open Sys2Proof.Machine

/-! ## Responses and beats (R149, R174) -/

section response
variable {s : State} {g ns at_ : Nat} {b : BusBeat}

theorem cack_eq {x : Beat} {rest : List Beat} {d : Word} {clash : Bool} {f : Word × State} (hb : s.onBus g = some b)
    (hat : s.respAt g b ns = some at_) (hpoll : b.job.poll = none) (hbeats : b.job.beats = x :: rest)
    (hf : (responded s g ns at_ b).busData b d clash = f) : s.cack g ns d clash = f.2.beatTaken g b at_ x rest f.1 := by
  have hf' : ((s.until_ at_).rspSeen g (b.beatAt + ns)).busData b d clash = f := hf
  unfold State.cack
  simp only [hb, hat, hf', hpoll, hbeats]
  rfl

theorem sendReady_write {j : Job} (hw : j.write = true) (fuel : Nat) : s.sendReady fuel j = s := by
  cases fuel with
  | zero => rfl
  | succ fuel =>
    unfold State.sendReady
    cases j.owner with
    | host o =>
      dsimp only
      cases s.execOf o with
      | none => rfl
      | some e => simp [hw]
    | _ => rfl

theorem writeBeatMoves_holds : writeBeatMoves := by
  intro s g ns at_ d clash b x rest hrun hg hb hat hpoll hw hbeats
  refine (exec_responseCack g ns d _ s).trans (actSeg_next hrun ?_ hg)
  have hdata : (responded s g ns at_ b).busData b d clash = (d, responded s g ns at_ b) := by
    rw [State.busData, hw, Bool.not_true, Bool.and_false, if_neg (by decide)]
  have hbytes : (responded s g ns at_ b).beatBytes g b x d = [] := if_pos hw
  have hland : (responded s g ns at_ b).landBeat b.job [] = (responded s g ns at_ b, none) := by
    rw [State.landBeat, hw]
    rfl
  have hafter : (b.job.afterBeat rest []).write = true := hw
  refine (cack_eq hb hat hpoll hbeats hdata).trans ?_
  unfold State.beatTaken
  dsimp only
  rw [hbytes, hland]
  dsimp only
  rw [sendReady_write hafter]

/-- What a response leaves reads the registers as before. -/
theorem responded_on (f : FRef) : (responded s g ns at_ b).on f = s.on f :=
  on_of_regs (elapse_regs ..) f

theorem readBeatMoves_holds : readBeatMoves := by
  intro s u g ns at_ d b x rest got j hrun hg hb hat hpoll hw hbeats hgot hland hj
  refine (exec_responseCack g ns d _ s).trans (actSeg_next hrun ?_ hg)
  have hdata : (responded s g ns at_ b).busData b d false = (d, responded s g ns at_ b) := by
    rw [State.busData, Bool.false_and, if_neg Bool.false_ne_true]
  have hbytes : (responded s g ns at_ b).beatBytes g b x d = got := by
    rw [State.beatBytes, if_neg (by rw [hw]; decide), responded_on, hgot]
  refine (cack_eq hb hat hpoll hbeats hdata).trans ?_
  unfold State.beatTaken
  dsimp only
  rw [hbytes, hland, ← hj]

theorem cerr_eq (hb : s.onBus g = some b) (hat : s.respAt g b ns = some at_) :
    s.cerr g ns = (responded s g ns at_ b).beatFails g b at_ 1 stTE 2 := by
  unfold State.cerr
  simp only [hb, hat]
  rfl

theorem beatTimeout_eq (hb : s.onBus g = some b) : s.beatTimeout g b.job.poll.isSome =
    (s.until_ (b.beatAt + s.beatTmo g b)).beatFails g b (b.beatAt + s.beatTmo g b) 3 stTO 1 := by
  unfold State.beatTimeout
  simp only [hb, bne_self_eq_false, Bool.false_eq_true, if_false]

end response

theorem cyclesFail_holds : cyclesFail := by
  intro s g ns at_ b hrun hg hb
  refine ⟨fun hat => ?cerr, fun hpoll hat => ?beat, fun hpoll hat => ?poll⟩
  case cerr =>
    exact (exec_responseCerr g ns s).trans (actSeg_next hrun (cerr_eq hb hat) hg)
  case beat =>
    have h := beatTimeout_eq hb
    rw [hpoll, ← hat] at h
    exact (exec_beatTimeout g s).trans (actSeg_next hrun h hg)
  case poll =>
    have h := beatTimeout_eq hb
    rw [hpoll, ← hat] at h
    exact (exec_pollTimeout g s).trans (actSeg_next hrun h hg)

theorem samplesRanked_holds : samplesRanked := by
  intro s g ns d rty clash
  refine ⟨?_, ?_, ?_⟩
  · rw [exec_responseCack, exec_responseCerr]
    rfl
  · rw [exec_responseCack, exec_responseCrty]
    rfl
  · rw [exec_responseCrty, exec_responseCerr]
    rfl

/-! ## Retries (R149, R181, R277) -/

section retry
variable {s t : State} {g ns at_ : Nat} {b : BusBeat}

theorem crty_eq (hb : s.onBus g = some b) (hat : s.respAt g b ns = some at_)
    (ht : t = (responded s g ns at_ b).bump (SEG_ERR_CNT1_RETRY g)) : s.crty g ns =
      if b.job.retryMax < b.job.retries + 1 then t.beatFails g b.retried at_ 2 stRT 3
      else
        let c := t.closeCycle g b.retried at_ 2 b.job.place.2
        let v := if c.2.cylReads then c.1.cylAgain g c.2 else c.1
        (v.retryWait g ((v.job g c.2.order).getD c.2)).busFree g := by
  unfold State.crty
  simp only [hb, hat, ht]
  rfl

end retry

theorem retryTaken_holds : retryTaken := by
  intro s t u v g ns at_ b i j hrun hg hb hat ht
  refine ⟨fun hmax => ?ends, fun hmax hclose hv hi => ⟨fun hdelay => ?atOnce, fun hdelay => ?later⟩⟩
  case ends =>
    refine (exec_responseCrty g _ s).trans (actSeg_next hrun ((crty_eq hb hat ht).trans ?_) hg)
    exact if_pos hmax
  case atOnce =>
    refine (exec_responseCrty g _ s).trans (actSeg_next hrun ((crty_eq hb hat ht).trans ?_) hg)
    rw [if_neg (Nat.not_lt.2 hmax), hclose]
    dsimp only
    rw [← hv, hi, Option.getD_some, State.retryWait, if_pos hdelay]
  case later =>
    refine (exec_responseCrty g _ s).trans (actSeg_next hrun ((crty_eq hb hat ht).trans ?_) hg)
    rw [if_neg (Nat.not_lt.2 hmax), hclose]
    dsimp only
    rw [← hv, hi, Option.getD_some, State.retryWait, if_neg hdelay]

theorem retryDelayEnds_holds : retryDelayEnds := by
  intro s u g o j hrun hg hexp hj hwait
  refine (exec_retryDelayEnd g o s).trans (actSeg_next hrun ?_ hg)
  unfold State.retryDue
  rw [hexp]
  dsimp only
  rw [hj]
  exact if_pos hwait

/-! ## Response lines (R173, R175, R177) -/

theorem linesHigh_seg (s : State) (g : Nat) : (linesHigh s g).seg g = { s.seg g with rspLow := false } := State.setSeg_same ..

/-- The phases after a cycle whose response lines are high pass (R173, R177, R183). -/
theorem recover_eq {t : State} {g ends : Nat} {cb32 write : Bool} (hc : (t.seg g).cycle = .release ends cb32 write) :
    t.recover g = (((t.until_ ends).elapse (recovery t g cb32 write)).setSeg g { t.seg g with cycle := .idle }).busFree g := by
  unfold State.recover recovery
  dsimp only
  rw [hc]
  cases cb32 <;> rfl

theorem responsesReleased_holds : responsesReleased := by
  intro s t g ends cb32 write hrun hg ht
  have hrel : s.respRelease g = if (s.seg g).cycle.isRelease then t.recover g
      else if (s.seg g).rspLow then t.busFree g else s := by rw [ht]; rfl
  refine ⟨fun hc => ?recover, fun hno hlow hstuck => ?stuck⟩
  case recover =>
    have hcycle : (s.seg g).cycle = .release ends cb32 write := by
      rw [ht, linesHigh_seg] at hc
      exact hc
    refine (exec_responseRelease g s).trans (actSeg_next hrun ?_ hg)
    rw [hrel, hcycle, Cycle.isRelease, if_pos rfl, recover_eq hc]
  case stuck =>
    refine (exec_rspStuckClear g s).trans (actSeg_next hrun ?_ hg)
    rw [State.rspFreed, if_pos hstuck, hrel, hno, if_neg (by decide), if_pos hlow]

theorem lateRsp_eq {s : State} {g ns : Nat} (h : s.pulseOpen g ns = false) : s.lateRsp g ns =
    (((((s.until_ (seenAt s g ns)).setSeg g { (s.until_ (seenAt s g ns)).seg g with rspLow := true }).rspSeen g
      (seenAt s g ns)).bump (SEG_MISC_CNT_LATE_RSP g)).segEvent g 6 0) := by
  have hno : ¬ s.pulseOpen g ns = true := by
    rw [h]
    decide
  cases hb : s.onBus g with
  | none =>
    have hat : seenAt s g ns = s.clk := by rw [seenAt, hb]
    rw [hat, State.lateRsp, if_neg hno]
    simp only [hb]
  | some b =>
    have hat : seenAt s g ns = b.beatAt + ns := by rw [seenAt, hb]
    rw [hat, State.lateRsp, if_neg hno]
    simp only [hb]

theorem strayResponses_holds : strayResponses := by
  rintro s t u g ns hrun hg rfl
  refine ⟨fun hopen => (exec_lateRsp _ s).trans (actSeg_next hrun (lateRsp_eq hopen) hg), fun hexp => ?_⟩
  refine (exec_rspStuck g s).trans (actSeg_next hrun ?_ hg)
  rw [State.rspStuck, hexp]

theorem segmentWaitEnds_holds : segmentWaitEnds := by
  intro s g o j hrun hg hj hiss hbusy
  have hout : s.segWaitOut g o = s.stopJob g j stTO 1 := by
    have hno : ¬ (s.segIssues g || (s.seg g).busy == some o) = true := by simp [hiss, hbusy]
    unfold State.segWaitOut
    rw [hj]
    exact if_neg hno
  refine ⟨fun hbegun => ?_, fun hbegun => ?_⟩
  · refine (exec_segmentWaitTimeout g o s).trans (actSeg_next hrun (hout.trans ?_) hg)
    rw [State.stopJob, hbegun]
    rfl
  · refine (exec_segmentWaitTimeout g o s).trans (actSeg_next hrun (hout.trans ?_) hg)
    rw [State.stopJob, hbegun]
    rfl

/-- Settles O8: the responses, timeouts and releases of a segment by the beat that is on its bus. -/
theorem segmentCycles : Obligations.SegmentCycles :=
  ⟨writeBeatMoves_holds, readBeatMoves_holds, cyclesFail_holds, samplesRanked_holds, retryTaken_holds, retryDelayEnds_holds,
    responsesReleased_holds, strayResponses_holds, segmentWaitEnds_holds⟩

/-! ## Keeper pulses (R185 to R187, R362) -/

theorem keeperDue_holds : keeperDue := by
  intro s u g hrun hg hexp
  have hdue : s.keeperDueNow g = if u.owns g then State.busFree ((u.setSeg g { u.seg g with
      keepDue := true, cycle := (u.seg g).cycle.shortened }).arm (.keepCut g) 200000) g else u := by
    rw [State.keeperDueNow, hexp]
  refine ⟨fun howns => ?_, fun howns => ?_⟩
  · exact (exec_keeperPulseDue g s).trans (actSeg_next hrun (hdue.trans (if_pos howns)) hg)
  · exact (exec_keeperPulseDue g s).trans (actSeg_next hrun (hdue.trans (if_neg (by rw [howns]; decide))) hg)

theorem keeperCuts_holds : keeperCuts := by
  rintro s u v g b t gr from_ spc addr reads hrun hg hexp rfl
  refine ⟨fun hb => ?beat, fun hb ht => ?tenure, fun hb ht hc => ?master⟩
  case beat =>
    refine (exec_keepCut g s).trans (actSeg_next hrun ?_ hg)
    unfold State.keeperCut
    rw [hexp]
    dsimp only
    rw [hb]
  case tenure =>
    refine (exec_keepCut g s).trans (actSeg_next hrun ?_ hg)
    unfold State.keeperCut
    rw [hexp]
    dsimp only
    rw [hb, ht]
  case master =>
    refine (exec_keepCut g s).trans (actSeg_next hrun ?_ hg)
    unfold State.keeperCut
    rw [hexp]
    dsimp only
    rw [hb, ht, hc]

theorem keeperSeenShown_holds : keeperSeenShown := by
  intro s u g side count hrun hg hu
  have hseen (hrole : s.get (SEG_STAT_ROLE g) ≠ 2) : s.keeperSeen g side count.toNat =
      if u.segState g == 1 && (u.dueAt (.cold g)).isSome && !u.paired && side != u.side then u.standBy g else u := by
    rw [hu]
    exact if_neg hrole
  refine ⟨fun hrole => ?owner, fun hrole hst => ?shown, fun hrole hst hcold hpair hside => ?lost⟩
  case owner =>
    have hseen : s.keeperSeen g side count.toNat = s.casFall g true := if_pos hrole
    exact (exec_keeperPulseSeen g side count s).trans (actSeg_next hrun hseen hg)
  case shown =>
    refine (exec_keeperPulseSeen g side count s).trans (actSeg_next hrun ((hseen hrole).trans ?_) hg)
    rw [beq_eq_false_iff_ne.2 hst]
    rfl
  case lost =>
    refine (exec_keeperPulseSeen g side count s).trans (actSeg_next hrun ((hseen hrole).trans ?_) hg)
    rw [hst, hcold, hpair, bne_iff_ne.2 hside]
    rfl

theorem casFallTaken_holds : casFallTaken := by
  intro s g hrun hg hcold hrole
  refine (exec_casNFall g s).trans (actSeg_next hrun ?_ hg)
  have hcold' : (s.casFell g s.clk).dueAt (.cold g) = none := hcold
  have hrole' : ((s.casFell g s.clk).get (SEG_STAT_ROLE g) == 1) = false := beq_eq_false_iff_ne.2 hrole
  unfold State.casFall
  simp only [hcold', Option.isSome_none, Bool.false_eq_true, if_false, hrole', Bool.false_and]
  rfl

/-! ## Card interrupts (R188, R189) -/

theorem interruptLines_holds : interruptLines := by
  intro s u g l hrun hg
  refine ⟨(exec_cintAssert g l s).trans (actSeg_next hrun rfl hg), (exec_cintRelease g l s).trans (actSeg_next hrun rfl hg),
    fun hexp => ?_⟩
  refine (exec_cintRearm g l s).trans (actSeg_next hrun ?_ hg)
  rw [State.rearmDue, hexp]
  rfl

/-- Settles O9: keeper pulses by what holds the bus, the lines by what they show. -/
theorem keeperAndInterrupts : Obligations.KeeperAndInterrupts :=
  ⟨keeperDue_holds, keeperCuts_holds, keeperSeenShown_holds, casFallTaken_holds, interruptLines_holds,
    linesArmed_of admitting_reaches⟩

end Sys2Proof.Claims

/-! PROOFS. Legacy masters with their inbound cycles, and the states of a segment (R191 to R201). -/

namespace Sys2Proof.Claims

open Sys2Proof.Machine

/-! ## Requests, grants and tenures of legacy masters (R191, R192, R204, R312, R340) -/

/-- The context of a segment's legacy masters, whatever event is raised. -/
theorem segEvent_lmCtx (s : State) (g : Fin 4) (i n : Nat) :
    (s.segEvent g i n).get (SEG_CTL_LM_CTX g) = s.get (SEG_CTL_LM_CTX g) := by
  have hblock : (SEG_CTL_LM_CTX g.val).reg / 0x10000 = 8 + g.val := by
    show (0x80000 + 0x10000 * g.val) / 0x10000 = 8 + g.val
    omega
  refine (raise_only ..).get _ ?_
  rw [hblock]
  revert g
  decide

theorem bump_lmCtx (s : State) (g : Nat) {f : FRef} (hf : f.reg ≠ SEG_CTL g) (hw : f.lo + f.w ≤ 32) :
    (s.bump f).get (SEG_CTL_LM_CTX g) = s.get (SEG_CTL_LM_CTX g) :=
  get_put_of s _ hw (.inl (Ne.symm hf))

theorem segLmCnt_ne (g : Nat) : SEG_LM_CNT g ≠ SEG_CTL g := by
  rw [SEG_LM_CNT, SEG_CTL]
  omega

theorem segMiscCnt_ne (g : Nat) : SEG_MISC_CNT g ≠ SEG_CTL g := by
  rw [SEG_MISC_CNT, SEG_CTL]
  omega

theorem cbrOff_on {s : State} {g : Nat} (hcbr : s.on (SEG_STAT_CBR g) = true) :
    s.cbrOff g = if (s.seg g).ctxs.contains (s.get (SEG_CTL_LM_CTX g)) then s.put (SEG_STAT_CBR g) 0
      else (s.put (SEG_STAT_CBR g) 0).withdraw (1 + g) (s.get (SEG_CTL_LM_CTX g)) := by
  unfold State.cbrOff
  dsimp only
  rw [if_pos hcbr, State.put_seg]

theorem requestLine_holds : requestLine := by
  intro s g hrun hg
  refine ⟨(exec_cbrRequest g s).trans (actSeg_next hrun rfl hg), fun hcbr hno => ?_, fun hcbr hother => ?_⟩
  · refine (exec_cbrRelease g s).trans (actSeg_next hrun ?_ hg)
    rw [cbrOff_on hcbr, hno, if_neg Bool.false_ne_true]
  · refine (exec_cbrRelease g s).trans (actSeg_next hrun ?_ hg)
    rw [cbrOff_on hcbr, hother, if_pos rfl]

theorem masterAccepts_holds : masterAccepts := by
  intro s g spc addr gr hrun hg hc
  refine (exec_lmAcceptance g spc addr s).trans (actSeg_next hrun ?_ hg)
  unfold State.lmAccepts
  dsimp only
  rw [hc]
  rfl

theorem grantWithdrawn_holds : grantWithdrawn := by
  intro s u g hrun hg hexp
  refine (exec_grantLost g s).trans (actSeg_next hrun ?_ hg)
  have hctx (x : Seg) : ((u.setSeg g x).bump (SEG_LM_CNT_GRANT_LOST g)).get (SEG_CTL_LM_CTX g) = u.get (SEG_CTL_LM_CTX g) :=
    bump_lmCtx (u.setSeg g x) g (f := SEG_LM_CNT_GRANT_LOST g) (segLmCnt_ne g) (Nat.le_of_ble_eq_true rfl)
  rw [State.grantLost, hexp]
  dsimp only
  rw [hctx]

theorem tenureWatched_holds : tenureWatched := by
  rintro s u g gr from_ spc addr reads v hrun hg hexp hc rfl
  refine (exec_lmWatchdog g s).trans (actSeg_next hrun ?_ hg)
  rw [State.tenureOut, hexp]
  dsimp only
  rw [State.lmWatchdog, hc]
  dsimp only
  rw [segEvent_lmCtx, bump_lmCtx (u.emit (.respond g 1 [])) g (f := SEG_MISC_CNT_LM_WATCHDOG g)
    (segMiscCnt_ne g) (Nat.le_of_ble_eq_true rfl)]
  rfl

theorem tenureEnds_holds : tenureEnds := by
  rintro s u g gr from_ spc addr reads hrun hg hc rfl
  refine (exec_lmTenureEnd g s).trans (actSeg_next hrun ?_ hg)
  rw [State.lmRises, hc]
  rfl

/-! ## Inbound cycles (R193 to R195) -/

theorem inboundWrites_holds : inboundWrites := by
  intro s g a x t i cs e hrun hg hcs he
  have hmap : (((a, x) :: t).map (fun e => (e.1.toNat, e.2))).map (·.1) = cs := by rw [hcs, List.map_map]; rfl
  have hbytes : (((a, x) :: t).map (fun e => (e.1.toNat, e.2))).map (fun b => (s.inbOffset g i b.1, b.2)) =
      ((a, x) :: t).map (fun b => (s.inbOffset g i b.1.toNat, b.2)) := by rw [List.map_map]; rfl
  have hown (hto : s.inbTarget g a.toNat cs true = some (some (i, false))) :
      s.inbWrite g (((a, x) :: t).map (fun e => (e.1.toNat, e.2))) =
        if (s.seg g).inb.length < 16 then s.inbAccept g e
        else (s.setSeg g { s.seg g with inbWait := .write e }).arm (.inb g) 2000 := by
    rw [← hmap] at hto
    rw [he, ← hbytes]
    rw [List.map_cons] at hto ⊢
    unfold State.inbWrite
    dsimp only
    rw [hto]
    rfl
  refine ⟨fun hto hroom => ?room, fun hto hfull => ?full, fun hto => ?refused⟩
  case room =>
    refine (exec_inboundWrite g _ s).trans (actSeg_next hrun ((hown hto).trans ?_) hg)
    rw [if_pos hroom]
    rfl
  case full =>
    refine (exec_inboundWrite g _ s).trans (actSeg_next hrun ((hown hto).trans ?_) hg)
    rw [if_neg (Nat.not_lt.2 hfull)]
  case refused =>
    refine (exec_inboundWrite g _ s).trans (actSeg_next hrun ?_ hg)
    rw [← hmap] at hto
    rw [List.map_cons] at hto ⊢
    unfold State.inbWrite
    dsimp only
    rw [hto]
    rfl

theorem inbRead_found {s u : State} {g i : Nat} {a : Nat} {cs : List Nat} {p : Prefetch}
    (hto : s.inbTarget g a (a :: cs) false = some (some (i, false)))
    (hu : u = s.setSeg g { s.seg g with cycle := (s.seg g).cycle.reading })
    (hfind : (u.seg g).prefetch.find? (fun p => p.addr == a && p.lanes == a :: cs) = some p) (hready : p.ready = true) :
    s.inbRead g (a :: cs) = u.emit (.respond g 0 p.data) := by
  subst hu
  unfold State.inbRead
  dsimp only
  rw [hto]
  dsimp only
  rw [hfind]
  exact if_pos hready

theorem inbRead_fetch {s u : State} {g i : Nat} {a : Nat} {cs : List Nat}
    (hto : s.inbTarget g a (a :: cs) false = some (some (i, false)))
    (hu : u = s.setSeg g { s.seg g with cycle := (s.seg g).cycle.reading })
    (hfind : (u.seg g).prefetch.find? (fun p => p.addr == a && p.lanes == a :: cs) = none) (hroom : (u.seg g).prefetch.length < 4) :
    s.inbRead g (a :: cs) = (u.inbReadWaits g a (a :: cs) false).inbSlot g a (a :: cs) false := by
  subst hu
  unfold State.inbRead
  dsimp only
  rw [hto]
  dsimp only
  rw [hfind]
  dsimp only
  rw [Bool.false_and, if_neg Bool.false_ne_true, if_neg (Nat.not_le.2 hroom), if_neg Bool.false_ne_true]

theorem inboundReads_holds : inboundReads := by
  rintro s u g a t cs i p hrun hg rfl hto hu
  refine ⟨fun hfind hready => ?_, fun hfind hroom => ?_⟩
  · exact (exec_inboundRead g _ s).trans (actSeg_next hrun (inbRead_found hto hu hfind hready) hg)
  · exact (exec_inboundRead g _ s).trans (actSeg_next hrun (inbRead_fetch hto hu hfind hroom) hg)

theorem inboundRetried_holds : inboundRetried := by
  intro s u g hrun hg hexp
  refine (exec_inbRetry g s).trans (actSeg_next hrun ?_ hg)
  rw [State.inbRetry, hexp]
  rfl

theorem fetchesEnd_holds : fetchesEnd := by
  intro s u g id i p r hrun hg
  refine ⟨fun hfind harea hr => ?_, fun hexp => ?_⟩
  · refine (exec_inboundFetchEnd g id s).trans (actSeg_next hrun ?_ hg)
    rw [State.inbFetch, hfind]
    dsimp only
    rw [harea, hr]
  · refine (exec_prefetchHoldEnd g id s).trans (actSeg_next hrun ?_ hg)
    rw [State.prefetchOver, hexp]

theorem inboundDrains_holds : inboundDrains := by
  intro s u v g e rest vd hrun hg hinb hpartner hvd hwrite hv hwait
  refine (exec_inboundDrain g s).trans (actSeg_next hrun ?_ hg)
  unfold State.inbDrain
  dsimp only
  rw [hinb]
  dsimp only
  rw [hpartner, if_neg Bool.false_ne_true, hwrite]
  subst hv
  cases vd with
  | forward => exact absurd rfl hvd
  | ok =>
    dsimp only [inboundStored] at hwait ⊢
    rw [hwait]
  | te =>
    dsimp only [inboundStored] at hwait ⊢
    rw [hwait]
  | refused =>
    dsimp only [inboundStored] at hwait ⊢
    rw [hwait]
  | un =>
    dsimp only [inboundStored] at hwait ⊢
    rw [hwait]

/-- Settles O10: each row of a legacy master unfolds to its clause, the case of the bus phase chosen by the clause's conditions. -/
theorem legacyMasters : Obligations.LegacyMasters :=
  ⟨requestLine_holds, masterAccepts_holds, grantWithdrawn_holds, tenureWatched_holds, tenureEnds_holds, inboundWrites_holds,
    inboundReads_holds, inboundRetried_holds, fetchesEnd_holds, inboundDrains_holds⟩

/-! ## The states of a segment (R197 to R201) -/

/-- A segment is taken at an idle bus (R198); how it came to be taken shows in what follows. -/
theorem takeSeg_eq {s : State} {g : Nat} (htake : (s.seg g).takePending = true) (hrole : s.get (SEG_STAT_ROLE g) ≠ 2)
    (hst : s.segState g = 1 ∨ s.segState g = 2) (hstuck : s.on (SEG_STAT_RSP_STUCK g) = false) (hlow : (s.seg g).rspLow = false)
    (hc : (s.seg g).cycle = .idle) (hhow : mget (owning s g).span.taking g 0 = 0) : s.takeSeg g = State.homesGained
      { owning s g with span := { (owning s g).span with taking := mdel (owning s g).span.taking g } } s.homes := by
  have hrun : (s.segState g == 1 || s.segState g == 2) = true := by
    rcases hst with hst | hst <;> rw [hst] <;> rfl
  have hno : (!(s.seg g).takePending || s.get (SEG_STAT_ROLE g) == 2 || !(s.segState g == 1 || s.segState g == 2) ||
      s.on (SEG_STAT_RSP_STUCK g) || (s.seg g).rspLow || (s.seg g).cycle != .idle) = false := by
    rw [htake, hrun, hstuck, hlow, hc, beq_eq_false_iff_ne.2 hrole]
    decide
  unfold State.takeSeg
  dsimp only
  rw [hno, if_neg Bool.false_ne_true]
  unfold owning at hhow ⊢
  dsimp only at hhow ⊢
  rw [hhow, if_neg (by decide), if_neg (by decide)]

theorem segmentTaken_holds : segmentTaken := by
  intro s g hrun hg htake hrole hst hstuck hlow hc hhow
  exact (exec_ownershipTake g s).trans (actSeg_next hrun (takeSeg_eq htake hrole hst hstuck hlow hc hhow) hg)

theorem busReleased_holds : busReleased := by
  intro s g hrun hg hrel hc hover
  have hno : ¬ (!(s.seg g).releasing || (s.seg g).cycle != .idle || s.span.handover.contains g.val) = true := by
    rw [hrel, hc, hover]
    decide
  have hbus : s.busRelease g = if s.segState g = 3 then
      ((((s.endLocks g).dropDrivers g).clearJobs g false stAB).setSegRole g 0).showLease g else s.letGo g stUN true := if_neg hno
  refine ⟨fun hst => ?_, fun hst => ?_⟩
  · exact (exec_busRelease g s).trans (actSeg_next hrun (hbus.trans (if_pos hst)) hg)
  · exact (exec_busRelease g s).trans (actSeg_next hrun (hbus.trans (if_neg hst)) hg)

theorem segmentDrained_holds : segmentDrained := by
  intro s u g hrun hg hst hrole hc hjobs hten hrel hu
  have hdrained : s.segDrained g = if u.on (SEG_STAT_RESTART_PENDING g) then u.startSeg g else u.setSegState g 0 := by
    rw [hu]
    exact if_pos ⟨hst, hrole, hc, hjobs, hten, hrel⟩
  refine ⟨fun hre => ?_, fun hre => ?_⟩
  · refine (exec_segDrainEnd g s).trans (actSeg_next hrun (hdrained.trans ?_) hg)
    rw [if_pos hre]
  · refine (exec_segDrainEnd g s).trans (actSeg_next hrun (hdrained.trans ?_) hg)
    rw [hre, if_neg Bool.false_ne_true]

/-- Settles O11: the two written commands reach their rows by the guard; taking, releasing and draining follow their guards. -/
theorem segmentStates : Obligations.SegmentStates :=
  ⟨segmentEnabled_of admitting_reaches, segmentTaken_holds, busReleased_holds, segmentDrained_holds, cardsReset_of admitting_reaches⟩

end Sys2Proof.Claims

/-! PROOFS. Locks that end and are granted, and the compatibility ports (R156, R157, R161, R330, R331). -/

namespace Sys2Proof.Claims

open Sys2Proof.Machine

/-! ## Locks and semaphores -/

theorem locksTimeOut_holds : locksTimeOut := by
  intro s u g n hrun
  refine ⟨fun hexp => ?native, fun hexp => ?sem⟩
  case native =>
    refine (exec_lockTimeout _ s).trans (actDrain_next hrun ?_)
    rw [State.lockOut, hexp]
  case sem =>
    refine (exec_lockTimeout _ s).trans (actDrain_next hrun ?_)
    rw [State.lockOut, hexp]

theorem semaphoreWaitEnds_holds : semaphoreWaitEnds := by
  rintro s t u o g j hrun hexp hfind rfl
  refine ⟨fun hno => ?other, fun l hrole hlock => ?acquire⟩
  case acquire =>
    refine (exec_semWaitTimeout o s).trans (actDrain_next hrun ?_)
    rw [State.semWaitOut, hexp]
    dsimp only
    rw [hfind]
    dsimp only
    rw [hrole, hlock]
  case other =>
    refine (exec_semWaitTimeout o s).trans (actDrain_next hrun ?_)
    rw [State.semWaitOut, hexp]
    dsimp only
    rw [hfind]
    dsimp only
    split
    next l hrole hlock => exact absurd hno (not_or.2 ⟨Classical.not_not.2 hrole, by rw [hlock]; exact Option.some_ne_none l⟩)
    next => rfl

theorem semaphoreGranted_holds : semaphoreGranted := by
  rintro s u n g o j e owed hrun hfree hwaiter howner hexec rfl rfl
  have hn : Fin.ofNat 64 n.val = n := Fin.ext (Nat.mod_eq_of_lt n.2)
  refine (exec_semaphoreGrant n s).trans (actDrain_next hrun ?_)
  unfold State.semGrant
  dsimp only
  rw [hn, hfree, hwaiter]
  simp only [howner, hexec]
  rfl

/-! ## The compatibility ports -/

/-- A request of its owner channel for a SINGLE context that is ON and not fenced is accepted (R161). -/
theorem directReq_accepted {s : State} {n : Nat} (hmode : s.isVoted n = false) (hst : s.ctxState n = 2)
    (hfence : s.on (CTX_FENCE_FENCED n) = false) (k : Pkt) : (s.directReq n k).drain = directAccepted s n k := by
  have hturned : s.turnedAway n = (s, none) := by
    rw [State.turnedAway, hfence, hst]
    rfl
  unfold State.directReq
  dsimp only
  rw [hmode, hst, hturned]
  rfl

theorem compatibilityPortsUsed_holds : compatibilityPortsUsed := by
  intro s n v hrun hmode hst hfence
  exact ⟨(exec_compatInqRead n s).trans ((actDrain_next hrun rfl).trans (congrArg _ (directReq_accepted hmode hst hfence _))),
    (exec_compatOutqWrite n v s).trans ((actDrain_next hrun rfl).trans (congrArg _ (directReq_accepted hmode hst hfence _)))⟩

theorem stallsEnd_holds : stallsEnd := by
  intro s u n e t hrun
  refine ⟨fun hfind hfirst htaken => ?_, fun hexp hfind => ?_⟩
  · refine (exec_wordAvailable n s).trans (actDrain_next hrun ?_)
    rw [State.wordAvailable, hfind]
    dsimp only
    rw [hfirst, State.inqTake, htaken]
    rfl
  · refine (exec_stallTimeout n s).trans (actDrain_next hrun ?_)
    rw [State.stallTimeout, hexp]
    dsimp only
    rw [hfind]

/-- Settles O12: each row unfolds to its clause, the branch chosen by what holds the lock or waits at the port. -/
theorem locksAndCompatibilityPorts : Obligations.LocksAndCompatibilityPorts :=
  ⟨locksTimeOut_holds, semaphoreWaitEnds_holds, semaphoreGranted_holds, compatibilityPortsUsed_holds, stallsEnd_holds⟩

/-! ## Arbiters (R339, R340, R344, R346) -/

/-- The Ledger's arbiter is present on every member (R348). -/
theorem present_ledgerArb (m : Member) : m.present (ARB_CFG 0) = true := by
  cases m <;> rfl

/-- A host port's arbiter is present on every member (R348). -/
theorem present_hostArb (m : Member) (p : Fin 3) : m.present (ARB_CFG (7 + p.val)) = true := by
  revert p
  cases m <;> decide

/-- The arbiter of a segment that is present is present (R348). -/
theorem present_segArb {m : Member} {g : Fin 4} (hg : g.val < m.segments) : m.present (ARB_CFG (1 + g.val)) = true := by
  revert g
  cases m <;> decide

section arbitration
variable {s u : State}

theorem arbitration_ledger (reqs : List (Nat × Nat)) : s.arbitration 0 reqs = s.ledgerArb reqs := by
  rw [State.arbitration, present_ledgerArb]
  rfl

theorem arbitration_host (p : Fin 3) (reqs : List (Nat × Nat)) : s.arbitration (7 + p.val) reqs = s.hostSend p := by
  unfold State.arbitration
  rw [present_hostArb, if_neg (by decide), if_neg (by omega), if_neg (by omega), if_neg (by omega), Nat.add_sub_cancel_left]

theorem arbitration_seg {g : Fin 4} (hg : s.hasSeg g = true) (reqs : List (Nat × Nat)) :
    s.arbitration (1 + g.val) reqs = s.segArb g := by
  unfold State.arbitration
  rw [present_segArb (of_decide_eq_true hg), if_neg (by decide), if_neg (by omega), if_pos (by omega), Nat.add_sub_cancel_left]

/-- No job that its segment could take next is deferred while each has bus time left (R298). -/
theorem foldl_deferJob_none {g : Nat} : ∀ js : List Job, js.all (fun j => !s.busSpent j.ctx g) = true →
    js.foldl (fun s j => if s.busSpent j.ctx g then s.deferJob g j else s) s = s
  | [], _ => rfl
  | j :: js, h => by
    obtain ⟨hj, hjs⟩ := Bool.and_eq_true_iff.1 (List.all_cons ▸ h)
    rw [List.foldl_cons, (Bool.not_eq_true' _).mp hj, if_neg Bool.false_ne_true]
    exact foldl_deferJob_none js hjs

variable {v : State} {g : Nat} {c : Cand} {ceil : Bool}
  (hissues : s.segIssues g = true) (hidle : (s.seg g).cycle = .idle) (hcrst : s.on (SEG_STAT_CRST_ACTIVE g) = false)
  (hspent : (s.nextJobs g).all (fun j => !s.busSpent j.ctx g) = true) (hv : v = (s.lmCheck g).busFree g)
  (harb : v.arbitrate (1 + g) ((v.seg g).ctxs ++ (if v.on (SEG_STAT_CBR g) then [v.get (SEG_CTL_LM_CTX g)] else []))
    (v.segOffers g) = (u, some (c, ceil)))
include hissues hidle hcrst hspent hv harb

/-- A segment that may issue grants the bus to the legacy masters, where they win (R191, R339). -/
theorem segArb_master (hsrc : c.src = 2) : s.segArb g = u.grantLm g := by
  unfold State.segArb
  dsimp only
  rw [hissues, hidle, hcrst, if_neg (by decide), foldl_deferJob_none _ hspent, ← hv, harb]
  exact if_pos hsrc

/-- A segment that may issue opens the cycle of the job that wins (R339). -/
theorem segArb_job {j : Job} (hsrc : c.src ≠ 2) (hjob : u.job g c.order = some j) : s.segArb g =
    State.openCycle (u.setJob g { j with deferred := false }) g { j with deferred := false } ceil := by
  unfold State.segArb
  dsimp only
  rw [hissues, hidle, hcrst, if_neg (by decide), foldl_deferJob_none _ hspent, ← hv, harb]
  dsimp only
  rw [if_neg hsrc, hjob]

end arbitration

theorem arbitrationGrants_holds : arbitrationGrants := by
  intro s u v c ceil j hrun
  refine ⟨fun reqs harb => ?ledger, fun p => ?host, fun g hg hissues hidle hcrst hspent hv harb => ⟨fun hsrc hjob => ?job, fun hsrc => ?lm⟩⟩
  case ledger =>
    refine (exec_arbitration 0 reqs s).trans (actDrain_next hrun ((arbitration_ledger _).trans ?_))
    have hwho : (reqs.map (fun r => (r.1.toNat, r.2.toNat))).map (·.1) = reqs.map (·.1.toNat) := List.map_map
    have hcands : (reqs.map (fun r => (r.1.toNat, r.2.toNat))).map s.ledgerCand = ledgerCands s reqs := List.map_map
    rw [State.ledgerArb, hwho, hcands, harb]
  case host => exact (exec_arbitration _ [] s).trans (actDrain_next hrun (arbitration_host p _))
  case job =>
    exact (exec_arbitration _ [] s).trans (actDrain_next hrun
      ((arbitration_seg hg _).trans (segArb_job hissues hidle hcrst hspent hv harb hsrc hjob)))
  case lm =>
    exact (exec_arbitration _ [] s).trans (actDrain_next hrun
      ((arbitration_seg hg _).trans (segArb_master hissues hidle hcrst hspent hv harb hsrc)))

theorem backoffEnds_holds : backoffEnds := by
  intro s u a who hrun hexp
  refine (exec_backoffEnd a who s).trans (act_next hrun ?_)
  rw [State.backoffEnd, hexp]

/-- A grant held too long is noted once; a lock tenure is cut (R344). -/
theorem overhold_noted {s u v : State} {g since src n : Nat} {lock : Bool} (hmax : s.arbGet (ARB_CFG_MAX_HOLD (1 + g)) ≠ 0)
    (hfirst : (s.seg g).overheld = false) (hholder : s.holder g = some (since, src, n, lock))
    (hu : u = s.until_ (since + s.arbGet (ARB_CFG_MAX_HOLD (1 + g)) * 500))
    (hv : v = State.noteOverhold (u.setSeg g { u.seg g with overheld := true, cycle := (u.seg g).cycle.shortened })
      (1 + g) src n lock) :
    s.overhold g = if lock then State.busFree (v.cutTenure g) g else v := by
  have hgo : ¬ (decide (s.arbGet (ARB_CFG_MAX_HOLD (1 + g)) = 0) || (s.seg g).overheld) = true := by
    rw [decide_eq_false hmax, hfirst]
    decide
  unfold State.overhold
  dsimp only
  rw [if_neg hgo, hholder]
  dsimp only
  rw [← hu, ← hv]

theorem overheldGrants_holds : overheldGrants := by
  intro s u g since src n lock hrun hg hmax hfirst hholder hu
  refine ⟨fun hlock => ?cycle, fun hlock => ?tenure⟩
  case cycle =>
    subst hlock
    exact (exec_overhold g s).trans (actSeg_next hrun (overhold_noted hmax hfirst hholder hu rfl) hg)
  case tenure =>
    subst hlock
    exact (exec_overhold g s).trans (actSeg_next hrun (overhold_noted hmax hfirst hholder hu rfl) hg)

/-- Settles O13: the arbiter of a unit that is present is present, and what it grants follows the winner's source; the
commit reaches its row by the guard. -/
theorem arbitersGrant : Obligations.ArbitersGrant :=
  ⟨arbitrationGrants_holds, backoffEnds_holds, overheldGrants_holds, settingsCommitted_of admitting_reaches⟩

end Sys2Proof.Claims

/-! PROOFS. The scrubber, leg boundaries and images, with the control packets of the partner's Span unit that carry them
(R206, R208, R218, R221 to R224, R292, R354). -/

namespace Sys2Proof.Claims

open Sys2Proof.Machine

/-! ## The scrubber, the boundaries and the carry -/

theorem scrubberReads_holds : scrubberReads := by
  rintro s t u found e w hrun hexp rfl rfl rfl
  refine ⟨fun hok => ?ok, fun hce => ?ce, fun hue => ?ue⟩
  case ok =>
    refine (exec_scrubRead found s).trans (act_next hrun ?_)
    rw [State.scrubRead, hexp]
    dsimp only
    rw [hok]
  case ce =>
    refine (exec_scrubRead found s).trans (act_next hrun ?_)
    rw [State.scrubRead, hexp]
    dsimp only
    rw [hce]
  case ue =>
    refine (exec_scrubRead found s).trans (act_next hrun ?_)
    rw [State.scrubRead, hexp]
    dsimp only
    rw [hue]

theorem boundaryTaken_holds : boundaryTaken := by
  rintro s u v w b hrun hb rfl hv hw
  have hleg : s.legBoundary = ((if b.2 then (List.range 4).foldl (fun w g => w.offerAgain g) w else w).legEnergy.retarget) := by
    rw [hw, hv]
    unfold State.legBoundary boundaryPassed
    dsimp only
    rw [hb]
    rfl
  refine ⟨fun hmid => ?_, fun hstart => ?_⟩
  · refine (exec_legBoundary s).trans (actDrain_next hrun (hleg.trans ?_))
    rw [hmid, if_neg Bool.false_ne_true]
  · refine (exec_legBoundary s).trans (actDrain_next hrun (hleg.trans ?_))
    rw [hstart, if_pos rfl]

theorem carryEnds_holds : carryEnds := by
  intro s i hrun hcarrying
  exact (exec_carryEnd i s).trans (act_next hrun (if_pos hcarrying))

/-! ## Control packets of the partner (R352, R354, R372) -/

/-- A control packet that the partner's Span unit sends to the own one. -/
theorem controlTaken_iff {s : State} {q : Nat} {k : Pkt} : controlTaken s q k = true ↔
    s.power = .run ∧ q < s.member.spans ∧ s.takes (3 + q) k = true ∧ s.portState (3 + q) = 2 := by
  simp only [controlTaken, Bool.and_eq_true, beq_iff_eq, decide_eq_true_eq, and_assoc]

/-- The arrival of a control packet changes the trace, its registers and what the Span unit knows of the partner. -/
theorem spanHeard_trace (s : State) (q : Nat) (k : Pkt) : TraceOnly (s.heardOn (3 + q)) (spanHeard s q k) :=
  .ite (traceRec_trace ..) (.refl _)

theorem spanHeard_get (s : State) (q : Nat) (k : Pkt) {f : FRef} (hf : f.reg / 0x10000 ≠ 21) :
    (spanHeard s q k).get f = s.get f := by
  obtain ⟨sp, h⟩ := heardOn_frame s (3 + q)
  rw [State.get, State.get, (spanHeard_trace s q k).2 f.reg hf, h]
  rfl

theorem spanHeard_portState (s : State) {q : Nat} (hq : q < 2) (k : Pkt) : (spanHeard s q k).portState (3 + q) = s.portState (3 + q) := by
  have hspan : portStateRef (3 + q) = SPN_PORT_STATE q := by rw [portStateRef, if_neg (by omega), Nat.add_sub_cancel_left]
  rw [State.portState, State.portState, hspan, spanHeard_get]
  show (0x100010 + 0x4 * q) / 0x10000 ≠ 21
  omega

theorem spans_two {s : State} {q : Nat} {k : Pkt} (h : controlTaken s q k = true) : q < 2 := by
  have htwo : s.member.spans ≤ 2 := by cases s.member <;> decide
  exact Nat.lt_of_lt_of_le (controlTaken_iff.1 h).2.1 htwo

/-- A control packet reaches the Span unit, once the partner has been heard (R354, R372). -/
theorem spanArrives_taken {s : State} {q a : Nat} {d : List Byte} (ha : 0xFE00000000 ≤ a) (ha2 : a < 2 ^ 40)
    (h : controlTaken s q (spanCtl q a d) = true) (bad : Nat) :
    s.spanArrives q a d bad = (spanHeard s q (spanCtl q a d)).spanControl q (spanCtl q a d) bad :=
  takePacket_spanCtl s q a d bad ha ha2 (controlTaken_iff.1 h).2.2.1

/-- The first word of what starts with a word's bytes. -/
theorem leNat_take_word (w : Nat) (r : List Byte) (h : w < 2 ^ 32) : leNat ((leBytes 4 w ++ r).take 4) = w := by
  rw [List.take_left' (leBytes_length 4 w), leNat_leBytes, Nat.mod_eq_of_lt h]

/-- What follows a word's bytes. -/
theorem drop_word (w n : Nat) (r : List Byte) : (leBytes 4 w ++ r).drop (4 + n) = r.drop n := by
  rw [← List.drop_drop, List.drop_left' (leBytes_length 4 w)]

section mirror
variable {s : State} {q : Nat}

theorem mirroredLine_arrives {line bad : Nat} {d : List Byte} (hline : line < 2 ^ 20)
    (h : controlTaken s q (spanCtl q (0xFE00000000 + 64 * line) d) = true) :
    s.spanArrives q (0xFE00000000 + 64 * line) d bad =
      ((spanHeard s q (spanCtl q (0xFE00000000 + 64 * line) d)).spanTook q d.length).mirroredLine (64 * line) d bad := by
  have hon := (controlTaken_iff.1 h).2.2.2
  rw [spanArrives_taken (by omega) (by omega) h, spanControl_spanCtl _ _ _ _ _ (by omega), spanHeard_portState s (spans_two h), hon]
  dsimp only
  rw [if_neg (by omega), if_neg (by omega), if_neg (by omega), if_neg (by omega), if_neg (by decide), if_neg (by omega),
    if_neg (by omega), if_pos (by omega), Nat.add_sub_cancel_left]

theorem commitRecord_arrives {i gen flags time : Nat} (hi : i < 256) (hgen : gen < 2 ^ 32) (hflags : flags < 2 ^ 32) (htime : time < 2 ^ 32)
    {k : Pkt} (hk : k = spanCtl q 0xFF00000005 (leBytes 4 i ++ leBytes 4 gen ++ leBytes 4 flags ++ leBytes 4 time))
    (h : controlTaken s q k = true) :
    s.spanArrives q 0xFF00000005 (leBytes 4 i ++ leBytes 4 gen ++ leBytes 4 flags ++ leBytes 4 time) =
      ((spanHeard s q k).spanTook q 16).commitRecord i gen flags time := by
  subst hk
  have hon := (controlTaken_iff.1 h).2.2.2
  rw [spanArrives_taken (by decide) (by decide) h, spanControl_spanCtl _ _ _ _ _ (by decide), spanHeard_portState s (spans_two h), hon]
  generalize spanHeard s q _ = u
  have hlen : (leBytes 4 i ++ leBytes 4 gen ++ leBytes 4 flags ++ leBytes 4 time).length = 16 := by
    simp only [List.length_append, leBytes_length]
  rw [hlen]
  dsimp only
  rw [if_neg (by decide), if_neg (by decide), if_neg (by decide), if_neg (by decide), if_neg (by decide), if_pos rfl]
  simp only [List.append_assoc]
  rw [show 4 * 1 = 4 + 0 from rfl, show 4 * 2 = 4 + (4 + 0) from rfl, show 4 * 3 = 4 + (4 + (4 + 0)) from rfl]
  simp only [drop_word, Nat.mul_zero, List.drop_zero]
  rw [leNat_take_word _ _ (by omega), leNat_take_word _ _ hgen, leNat_take_word _ _ hflags]
  rw [List.take_of_length_le (Nat.le_of_eq (leBytes_length ..)), leNat_leBytes, Nat.mod_eq_of_lt htime, Nat.mod_eq_of_lt hi]

theorem resync_arrives {i : Nat} (hi : i < 256) (h : controlTaken s q (spanCtl q 0xFF00000006 (leBytes 4 i)) = true) :
    s.spanArrives q 0xFF00000006 (leBytes 4 i) =
      ((spanHeard s q (spanCtl q 0xFF00000006 (leBytes 4 i))).spanTook q 4).resyncAsked i := by
  have hon := (controlTaken_iff.1 h).2.2.2
  rw [spanArrives_taken (by decide) (by decide) h, spanControl_spanCtl _ _ _ _ _ (by decide), spanHeard_portState s (spans_two h), hon,
    leBytes_length]
  dsimp only
  rw [if_neg (by decide), if_neg (by decide), if_neg (by decide), if_neg (by decide), if_neg (by decide), if_neg (by decide), if_pos rfl,
    Nat.mul_zero, List.drop_zero, List.take_of_length_le (Nat.le_of_eq (leBytes_length ..)), leNat_leBytes,
    Nat.mod_eq_of_lt (show i < 2 ^ (8 * 4) by omega), Nat.mod_eq_of_lt hi]

end mirror

theorem mirrorTaken_holds : mirrorTaken := by
  intro s q k
  refine ⟨fun line bad d hk h => ?line, fun i gen flags time hk h => ?record, fun i hk h => ?resync⟩
  case line =>
    obtain ⟨hrun, hq, -⟩ := controlTaken_iff.1 h
    subst hk
    exact (exec_mirroredLine q line bad d s).trans (actSpan_next hrun (mirroredLine_arrives line.isLt h) hq)
  case record =>
    obtain ⟨hrun, hq, -⟩ := controlTaken_iff.1 h
    exact (exec_commitRecord q i gen flags time s).trans (actSpan_next hrun
      (commitRecord_arrives i.isLt gen.isLt flags.isLt time.isLt hk h) hq)
  case resync =>
    obtain ⟨hrun, hq, -⟩ := controlTaken_iff.1 h
    subst hk
    exact (exec_resync q i s).trans (actSpan_next hrun (resync_arrives i.isLt h) hq)

/-- Settles O14: the scrubber, the boundary and the carry unfold to their clauses, and a control packet that is taken
reaches the Span unit, which tells the kinds apart by their addresses. -/
theorem ledgerAndImages : Obligations.LedgerAndImages :=
  ⟨scrubberReads_holds, boundaryTaken_holds, carryEnds_holds, imageRegistersWritten_of admitting_reaches, mirrorTaken_holds⟩

end Sys2Proof.Claims

/-! PROOFS. Contexts and couriers: their states, work items, threads, retirement and tests (R239 to R250, R281, R295,
R412). -/

namespace Sys2Proof.Claims

open Sys2Proof.Machine

/-! ## Contexts -/

theorem contextDrained_holds : contextDrained := by
  intro s n hrun hst hn hbusy
  have hdone : s.ctxState n.toNat = 3 ∧ 0 < n.toNat ∧ ¬ s.ctxBusy n.toNat = true := ⟨hst, hn, ne_true_of_eq_false hbusy⟩
  have hdrained : s.ctxDrained n.toNat = if s.on (CTX_STAT_RESTART_PENDING n.toNat) then s.ctxStart n.toNat
      else s.put (CTX_STAT_STATE n.toNat) 0 := if_pos hdone
  refine ⟨fun hre => ?_, fun hre => ?_⟩
  · refine (exec_ctxDrainEnd n s).trans (actDrain_next hrun (hdrained.trans ?_))
    rw [if_pos hre]
  · refine (exec_ctxDrainEnd n s).trans (actDrain_next hrun (hdrained.trans ?_))
    rw [hre, if_neg Bool.false_ne_true]

theorem workItemsDispatched_holds : workItemsDispatched := by
  rintro s t k i rest n hrun hitems htesting hretired rfl rfl
  have hopen : ((s.queue (144 + k)).testing || (s.queue (144 + k)).retired) = false := by rw [htesting, hretired]; rfl
  have hgo : s.dispatch k = (if s.fedBy (bits i.seen 0 8) k then
      if (s.arch (bits i.seen 0 8)).item.isSome then s
      else ((itemTaken s k i rest).setArch (bits i.seen 0 8) { (itemTaken s k i rest).arch (bits i.seen 0 8) with
        item := some i.seen, itemLine := i.line }).wake (bits i.seen 0 8)
      else (itemTaken s k i rest).bump COUR_GLB_WQ_DISCARD) := by
    unfold State.dispatch
    dsimp only
    rw [hitems]
    dsimp only
    rw [hopen, if_neg Bool.false_ne_true]
    rfl
  refine ⟨fun hfed hempty => ?_, fun hno => ?_⟩
  · refine (exec_workItemDispatch k s).trans (act_next hrun (hgo.trans ?_))
    rw [if_pos hfed, hempty, if_neg (by decide)]
  · refine (exec_workItemDispatch k s).trans (act_next hrun (hgo.trans ?_))
    rw [hno, if_neg Bool.false_ne_true]

section bind
variable {s t : State} {c n : Nat} (hruns : s.courRuns c = true) (ht : t = s.settleCour c) (hnext : t.nextReady c = some n)
include hruns ht hnext

/-- The next READY context is bound to a free thread (R240). -/
theorem bindNext_free {k : Nat} (hfree : t.freeThread c = some k) : s.bindNext c = t.bindTo c k n := by
  subst ht
  unfold State.bindNext
  dsimp only
  rw [hruns, if_neg (by decide), hnext]
  dsimp only
  rw [hfree]

/-- A TOP context takes the thread of the context that it preempts (R240). -/
theorem bindNext_preempts {v : Nat} (hfree : t.freeThread c = none) (htop : t.noteOf n = 0) (hvictim : t.victim c = some v) :
    s.bindNext c = ((if t.run v = 3 then t.unbind v 3 else (t.unbind v 1).makeReady v).bump (COUR_CNT_PREEMPT c)).bindTo c
      (t.get (CTX_STAT_THREAD v)) n := by
  subst ht
  unfold State.bindNext
  dsimp only
  rw [hruns, if_neg (by decide), hnext]
  dsimp only
  rw [hfree]
  dsimp only
  rw [if_pos htop, hvictim]

end bind

theorem threadsBound_holds : threadsBound := by
  intro s t c n k v hrun hc hruns ht hnext
  refine ⟨fun hfree => ?free, fun hfree htop hvictim hready => ?ready, fun hfree htop hvictim hwaits => ?waits⟩
  case free => exact (exec_threadBind c s).trans (actCour_next hrun (bindNext_free hruns ht hnext hfree) hc)
  case ready =>
    refine (exec_threadBind c s).trans (actCour_next hrun ((bindNext_preempts hruns ht hnext hfree htop hvictim).trans ?_) hc)
    rw [if_neg hready]
  case waits =>
    refine (exec_threadBind c s).trans (actCour_next hrun ((bindNext_preempts hruns ht hnext hfree htop hvictim).trans ?_) hc)
    rw [if_pos hwaits]

theorem overdraftSuspends_holds : overdraftSuspends := by
  intro s n hrun hst hbudget
  refine (exec_overdraft n s).trans (act_next hrun ?_)
  rw [State.overdraft, if_pos ⟨hst, hbudget⟩]
  unfold State.suspend
  dsimp only
  rw [if_neg Bool.false_ne_true]

theorem waitsTimeOut_holds : waitsTimeOut := by
  rintro s u n t hrun hdue rfl
  refine ⟨fun htime => ?_, fun hother => ?_⟩
  · refine (exec_waitTimeout n s).trans (act_next hrun ?_)
    rw [State.waitOut, hdue, htime]
    rfl
  · refine (exec_waitTimeout n s).trans (act_next hrun ?_)
    rw [State.waitOut, hdue, bne_iff_ne.2 hother]

/-- Settles O15: the written commands reach their rows by the guard; each other row unfolds to its clause by the state of
the context. -/
theorem contextsRun : Obligations.ContextsRun :=
  ⟨contextEnabled_of admitting_reaches, contextDrained_holds, contextCommands_of admitting_reaches, workItemsDispatched_holds,
    threadsBound_holds, overdraftSuspends_holds, waitsTimeOut_holds⟩

/-! ## Couriers -/

theorem execLockstepMismatch_eq (s : State) (c : Fin 16) (f : CourFault) :
    execLockstepMismatch ⟨c, f⟩ s = s.actCour c.val (fun s => s.courFault c.val f) := by
  rw [execLockstepMismatch]

theorem lockstepMismatch_on {s : State} {c : Fin 16} (hrun : s.power = .run) (hc : c.val < s.member.couriers) {f : CourFault}
    {t : State} (hf : s.courFault c f = t) : exec (.lockstepMismatch ⟨c, f⟩) s = .next t := by
  rw [exec_lockstepMismatch, execLockstepMismatch_eq]
  exact actCour_next (f := fun s => s.courFault c.val f) hrun hf hc

theorem badInstr_spare {s : State} {c i : Nat} {clean : Bool} (hspare : s.spareCour.isSome = true) :
    s.badInstr c i clean = ((s.setImemEcc c i .ue).retireCour c 3).askTest c 0 :=
  if_pos (.inl hspare)

/-- With no spare left, a mapped courier is retested where it stands (R412). -/
theorem badInstr_alone {s : State} {c i : Nat} {clean : Bool} (hspare : s.spareCour = none) (hrole : s.get (COUR_STAT_ROLE c) = 0) :
    s.badInstr c i clean = if clean then
        (if (((s.setImemEcc c i .ue).setImemEcc c i .ok).testedNow (.courier c) 0 true).2 then
          (((s.setImemEcc c i .ue).setImemEcc c i .ok).testedNow (.courier c) 0 true).1.courLasting c
        else (((s.setImemEcc c i .ue).setImemEcc c i .ok).testedNow (.courier c) 0 true).1)
      else ((s.setImemEcc c i .ue).retireCour c 3).askTest c 0 := by
  have hkeep : ¬ ((s.setImemEcc c i .ue).spareCour.isSome = true ∨ (s.setImemEcc c i .ue).get (COUR_STAT_ROLE c) ≠ 0) := by
    refine not_or.2 ⟨?_, Classical.not_not.2 hrole⟩
    show ¬ s.spareCour.isSome = true
    rw [hspare]
    decide
  exact if_neg hkeep

theorem mismatchRetires_holds : mismatchRetires := by
  intro s c hrun hc hon
  refine ⟨fun k => ?mismatch, ?store, fun clean => ?corrected, fun i clean hspare => ?spare, fun i t lasting hspare hrole htest => ⟨?passes, ?fails⟩⟩
  case mismatch => exact lockstepMismatch_on hrun hc (if_pos hon)
  case store => exact lockstepMismatch_on hrun hc (if_pos hon)
  case corrected => exact lockstepMismatch_on hrun hc (if_pos hon)
  case spare => exact lockstepMismatch_on hrun hc ((if_pos hon).trans (badInstr_spare hspare))
  case passes =>
    have halone := badInstr_alone (clean := true) (i := i.toNat) hspare hrole
    rw [if_pos rfl, htest] at halone
    exact lockstepMismatch_on hrun hc ((if_pos hon).trans halone)
  case fails =>
    have halone := badInstr_alone (clean := false) (i := i.toNat) hspare hrole
    rw [if_neg Bool.false_ne_true] at halone
    exact lockstepMismatch_on hrun hc ((if_pos hon).trans halone)

theorem courRestart_kept (u : State) (c st : Nat) :
    ((u.put (COUR_STAT_STATE c) st).put (COUR_STAT_BUSY c) 0).on (COUR_STAT_RESTART_PENDING c) = u.on (COUR_STAT_RESTART_PENDING c) := by
  have hlo : (COUR_STAT_STATE c).lo + (COUR_STAT_STATE c).w ≤ 32 := Nat.le_of_ble_eq_true rfl
  have hlo' : (COUR_STAT_BUSY c).lo + (COUR_STAT_BUSY c).w ≤ 32 := Nat.le_of_ble_eq_true rfl
  rw [State.on, State.on, get_put_of _ _ hlo' (.inr (.inl (Nat.le_of_ble_eq_true rfl))), get_put_of _ _ hlo (.inr (.inr (Nat.le_of_ble_eq_true rfl)))]

theorem migrated_eq {s t u v : State} {c q l : Nat} (hfind : s.migrating.find? (fun m => m.1 == c) = some (c, q, l))
    (ht : t = State.heldApplied { s with migrating := s.migrating.filter (fun (m : Nat × Nat × Nat) => m.1 != c) } q)
    (hu : u = (t.heldBy q).foldl (fun s n => if s.run n = 6 then s.makeReady n else s) t)
    (hv : v = (u.put (COUR_STAT_STATE c) (if u.get (COUR_STAT_ROLE c) = 3 then 1 else 0)).put (COUR_STAT_BUSY c) 0) :
    s.migrated c = announced t (if u.on (COUR_STAT_RESTART_PENDING c) then (v.put (COUR_STAT_RESTART_PENDING c) 0).courStart c else v) q := by
  have hre : v.on (COUR_STAT_RESTART_PENDING c) = u.on (COUR_STAT_RESTART_PENDING c) := hv ▸ courRestart_kept u c _
  unfold State.migrated
  rw [hfind]
  dsimp only
  rw [← ht, ← hu, ← hv, hre]
  unfold announced
  simp only [beq_iff_eq]

theorem migrationEnds_holds : migrationEnds := by
  intro s t u v c q l hrun hc hfind ht hu hv
  refine ⟨fun hre => ?_, fun hre => ?_⟩
  · refine (exec_migrationEnd c s).trans (actCour_next hrun ((migrated_eq hfind ht hu hv).trans ?_) hc)
    rw [hre, if_neg Bool.false_ne_true]
  · refine (exec_migrationEnd c s).trans (actCour_next hrun ((migrated_eq hfind ht hu hv).trans ?_) hc)
    rw [if_pos hre]

/-- A test that is in progress is found. -/
theorem any_of_find {α : Type} {p : α → Bool} {xs : List α} {x : α} (h : xs.find? p = some x) : xs.any p = true :=
  List.any_eq_true.2 ⟨x, List.mem_of_find?_eq_some h, List.find?_some h⟩

/-- The test of a courier that is out of service ends: what it found decides (R409, R412). -/
theorem courTested_classified {s t : State} {c : Nat} {a : ActiveTest} {pass : Bool} (hrole : s.get (COUR_STAT_ROLE c) = 3)
    (hst : s.get (COUR_STAT_STATE c) = 1) (hfind : s.active.find? (fun a => a.test.res == Resource.courier c) = some a)
    (ht : t = { s with active := s.active.filter (fun (a : ActiveTest) => !(a.test.res == Resource.courier c)) })
    {u : State} {lasting : Bool} (hu : t.classify (.courier c) a.test.detail pass = (u, lasting)) :
    s.courTested c pass = if lasting then
        { (u.put (COUR_STAT_ROLE c) 2).put (COUR_STAT_STATE c) 0 with replaced := u.replaced ++ [.courier c] }
      else (((u.courSwept c a.test.detail).put (COUR_STAT_ROLE c) 1).put (COUR_STAT_STATE c) 2).showSpare := by
  subst ht
  unfold State.courTested
  dsimp only
  rw [if_pos ⟨hrole, hst, any_of_find hfind⟩, hfind]
  simp only [Option.map_some, Option.getD_some, hu, State.put_replaced]

theorem courierTestEnd_next {s t : State} {c : Fin 16} {pass : Bool} (hrun : s.power = .run) (hc : c.val < s.member.couriers)
    (h : s.courTested c pass = t) : exec (.courierTestEnd c pass) s = .next t :=
  (exec_courierTestEnd c pass s).trans (actCour_next (f := fun s => s.courTested c pass) hrun h hc)

theorem courierTestEnds_holds : courierTestEnds := by
  intro s t u c a pass hrun hc hrole hst hfind ht
  refine ⟨fun hpass => courierTestEnd_next hrun hc ?_, fun hlasting => courierTestEnd_next hrun hc ?_⟩
  · rw [courTested_classified hrole hst hfind ht hpass, if_neg Bool.false_ne_true]
  · rw [courTested_classified hrole hst hfind ht hlasting, if_pos rfl]

/-- Settles O16: the written enable reaches its row by the guard; a fault, the end of a migration and the end of a test
follow what the courier is and what was found. -/
theorem couriersKept : Obligations.CouriersKept :=
  ⟨courierEnabled_of admitting_reaches, mismatchRetires_holds, migrationEnds_holds, courierTestEnds_holds⟩

end Sys2Proof.Claims

/-! PROOFS. The conversions of supply and temperature, hold-up and its end (R303 to R305, R484). -/

namespace Sys2Proof.Claims

open Sys2Proof.Machine

/-! ## What a conversion stores (R303) -/

/-- A conversion changes the register of its channel alone. -/
theorem adcStore_get (s : State) (c code : Nat) {f : FRef} (hf : f.reg ≠ NRG_ADC c) : (s.adcStore c code).get f = s.get f := by
  have hcode : (NRG_ADC_CODE c).lo + (NRG_ADC_CODE c).w ≤ 32 := Nat.le_of_ble_eq_true rfl
  have hextreme : (NRG_ADC_EXTREME c).lo + (NRG_ADC_EXTREME c).w ≤ 32 := Nat.le_of_ble_eq_true rfl
  unfold State.adcStore
  dsimp only
  rw [get_put_of _ _ hextreme (.inl hf), get_put_of _ _ hcode (.inl hf)]

theorem adcStore_on (s : State) (c code : Nat) {f : FRef} (hf : f.reg ≠ NRG_ADC c) : (s.adcStore c code).on f = s.on f := by
  rw [State.on, State.on, adcStore_get s c code hf]

/-- A run of conversions counts on while its condition holds, and starts anew when it does not. -/
theorem nextRun_true (n : Nat) : nextRun true n = n + 1 := rfl

theorem nextRun_false (n : Nat) : nextRun false n = 0 := rfl

theorem actAon_next {s t : State} {f g : State → State} (hrun : s.power = .run) (h : f s = t) : s.actAon f g = .next t := by
  rw [State.actAon, if_pos hrun, h]

section holdup
variable {s u : State} {code : Nat} (hlg : s.get NRG_LG_LG < code) (hcount : s.get NRG_HU_COUNT ≠ 0) (hu : u = s.adcStore 0 code)
include hlg hcount hu

/-- A conversion above the level of the last gasp (R310), whose run towards hold-up is `r` after it. -/
theorem holdupSample_eq {r : Nat}
    (hr : nextRun (s.on NRG_HU_ENTER && decide (code ≤ s.get NRG_HU_ENTER)) s.sched.huRun = r) :
    s.holdupSample code = (if s.get NRG_HU_COUNT ≤ r then
      State.enterHoldup { u with sched := { u.sched with huRun := r, lgRun := 0 } }
      else { u with sched := { u.sched with huRun := r, lgRun := 0 } }).exitWatch := by
  have hlgNo : (s.on NRG_LG_LG && decide (code ≤ s.get NRG_LG_LG)) = false := by
    rw [decide_eq_false (Nat.not_le.2 hlg), Bool.and_false]
  have henter : u.get NRG_HU_ENTER = s.get NRG_HU_ENTER := hu ▸ adcStore_get s 0 code (by decide)
  have hlevel : u.get NRG_LG_LG = s.get NRG_LG_LG := hu ▸ adcStore_get s 0 code (by decide)
  have hn (sc : Sched) : State.get { u with sched := sc } NRG_HU_COUNT = s.get NRG_HU_COUNT := hu ▸ adcStore_get s 0 code (by decide)
  have hsched : u.sched = s.sched := hu ▸ rfl
  unfold State.holdupSample
  dsimp only
  rw [← hu, State.on, State.on, henter, hlevel, hn, hsched, ← State.on, ← State.on, hr, hlgNo, nextRun_false,
    if_neg (Nat.not_le.2 (Nat.pos_of_ne_zero hcount))]

end holdup

theorem holdupSenseTaken_holds : holdupSenseTaken := by
  intro s u code hrun habove hlg hcount hu
  have hno : (s.on NRG_HU_ENTER && decide (code.toNat ≤ s.get NRG_HU_ENTER)) = false := by
    rw [decide_eq_false (Nat.not_le.2 habove), Bool.and_false]
  refine (exec_holdupSenseSample code s).trans (actAon_next hrun ((holdupSample_eq hlg hcount hu (congrArg (nextRun · _) hno)).trans ?_))
  rw [nextRun_false, if_neg (Nat.not_le.2 (Nat.pos_of_ne_zero hcount))]

theorem holdupEntered_holds : holdupEntered := by
  intro s u code hrun hset hbelow hlg hcount hrunLen hhu hu
  have hholds : (s.on NRG_HU_ENTER && decide (code.toNat ≤ s.get NRG_HU_ENTER)) = true := by
    rw [State.on, bne_iff_ne.2 hset, decide_eq_true hbelow]
    rfl
  have hstat (sc : Sched) : State.on { u with sched := sc } NRG_STAT_HU = false := (hu ▸ adcStore_on s 0 code.toNat (by decide)).trans hhu
  refine (exec_holdupSenseSample code s).trans (actAon_next hrun ((holdupSample_eq hlg hcount hu (congrArg (nextRun · _) hholds)).trans ?_))
  rw [nextRun_true, if_pos hrunLen, State.enterHoldup, hstat, if_neg Bool.false_ne_true]

theorem vinSenseTaken_holds : vinSenseTaken := by
  intro s u code hrun habove hcount hu
  have hlow : u.get NRG_VIN_LOW = s.get NRG_VIN_LOW := hu ▸ adcStore_get s 1 code.toNat (by decide)
  have hno : (u.on NRG_VIN_LOW && decide (code.toNat ≤ s.get NRG_VIN_LOW)) = false := by
    rw [decide_eq_false (Nat.not_le.2 habove), Bool.and_false]
  have hn (sc : Sched) : State.get { u with sched := sc } NRG_HU_COUNT = s.get NRG_HU_COUNT :=
    hu ▸ adcStore_get s 1 code.toNat (by decide)
  refine (exec_vinSenseSample code s).trans (actAon_next hrun ?_)
  unfold State.vinSample
  dsimp only
  rw [← hu, hlow, hno, nextRun_false, hn, decide_eq_false (Nat.not_le.2 (Nat.pos_of_ne_zero hcount)), if_neg Bool.false_ne_true]
  rfl

/-! ## The die sensors (R305) -/

/-- What follows a die sensor's conversion moves neither the sensor whose turn it is nor the temperature shown. -/
def SensorKept (s t : State) : Prop := t.sched.sensor = s.sched.sensor ∧ t.get NRG_TJ_CODE = s.get NRG_TJ_CODE

theorem SensorKept.refl (s : State) : SensorKept s s := ⟨rfl, rfl⟩

theorem SensorKept.trans {s t u : State} (h : SensorKept s t) (k : SensorKept t u) : SensorKept s u :=
  ⟨k.1.trans h.1, k.2.trans h.2⟩

theorem SensorKept.ite {s a b : State} {c : Prop} [Decidable c] (ha : SensorKept s a) (hb : SensorKept s b) :
    SensorKept s (if c then a else b) := by
  split
  · exact ha
  · exact hb

theorem SensorKept.put (s : State) (f : FRef) (v : Nat) (hf : f.lo + f.w ≤ 32) (h : NRG_TJ ≠ f.reg) : SensorKept s (s.put f v) :=
  ⟨rfl, get_put_of s v hf (.inl h)⟩

theorem SensorKept.sched {s : State} {sc : Sched} (h : sc.sensor = s.sched.sensor) : SensorKept s { s with sched := sc } :=
  ⟨h, rfl⟩

theorem SensorKept.raise (s : State) (e n d : Nat) : SensorKept s (s.raise e n d) :=
  ⟨congrArg Sched.sensor (raise_only s e n d).sched, (raise_only s e n d).get _ (by decide)⟩

theorem thermal_sensor (s : State) {f : FRef} (v : Nat) (hf : f.lo + f.w ≤ 32) (h : NRG_TJ ≠ f.reg) : SensorKept s (s.thermal f v) :=
  .ite (.refl s) ((SensorKept.put s f v hf h).trans (.raise ..))

theorem retarget_sensor (s : State) : SensorKept s s.retarget :=
  .ite (.refl s) ((SensorKept.sched rfl).trans (.put _ _ _ (by decide) (by decide)))

theorem dieSample_sensor (s : State) (code : Nat) : SensorKept (s.dieStore code) (s.dieSample code) := by
  have hot (t : State) (v : Nat) : SensorKept t (t.thermal NRG_STAT_HOT v) := thermal_sensor t v (by decide) (by decide)
  have warm (t : State) (v : Nat) : SensorKept t (t.thermal NRG_STAT_WARM v) := thermal_sensor t v (by decide) (by decide)
  unfold State.dieSample
  dsimp only
  refine (((SensorKept.sched ?_).trans (.ite (hot _ 1) (.ite (hot _ 0) (.refl _)))).trans
    (.ite (warm _ 1) (.ite (warm _ 0) (.refl _)))).trans (retarget_sensor _)
  rfl

/-- The highest of codes of ten bits is one. -/
theorem foldl_max_lt {m : Nat} (f : Nat → Nat) (hf : ∀ i, f i < m) : ∀ (is : List Nat) (a : Nat), a < m →
    is.foldl (fun a i => max a (f i)) a < m
  | [], _, ha => ha
  | i :: is, a, ha => foldl_max_lt f hf is (max a (f i)) (Nat.max_lt.2 ⟨ha, hf i⟩)

/-- The highest of the four die temperatures (R305). -/
def hottest (s : State) : Nat := (List.range 4).foldl (fun m i => max m (s.get (NRG_ADC_CODE (2 + i)))) 0

theorem hottest_lt (s : State) : hottest s < 2 ^ 10 :=
  foldl_max_lt (fun i => s.get (NRG_ADC_CODE (2 + i))) (fun i => get_lt s (NRG_ADC_CODE (2 + i))) (List.range 4) 0 (by decide)

theorem dieStore_hottest (s : State) (code : Nat) : s.dieStore code =
    (let u := s.adcStore (2 + s.sched.sensor.val) code
     let v := u.put NRG_TJ_CODE (hottest u)
     { v with sched := { v.sched with sensor := s.sched.sensor + 1 } }) := by
  rw [State.dieStore]
  rfl

theorem dieStore_tj (s : State) (code : Nat) :
    (s.dieStore code).get NRG_TJ_CODE = hottest (s.adcStore (2 + s.sched.sensor.val) code) := by
  rw [dieStore_hottest]
  generalize s.adcStore (2 + s.sched.sensor.val) code = u
  have hfit : hottest u < 2 ^ NRG_TJ_CODE.w := hottest_lt u
  exact get_put_fit u NRG_TJ_CODE (hottest u) (by decide) hfit

theorem dieSensorTaken_holds : dieSensorTaken := by
  intro s t code hrun hexec
  have hsample : s.dieSample code.toNat = t :=
    Host.Outcome.next.inj (((exec_dieSensorSample code s).trans (actAon_next hrun rfl)).symm.trans hexec)
  obtain ⟨hsensor, htj⟩ := dieSample_sensor s code.toNat
  rw [hsample] at hsensor htj
  exact ⟨hsensor, htj.trans (dieStore_tj s code.toNat)⟩

theorem dieSensorAnswers_holds : dieSensorAnswers := by
  intro s code
  exact ⟨fun hrun => (exec_dieSensorSample code s).trans (actAon_next hrun rfl), fun hfrozen =>
    ⟨(exec_dieSensorSample code s).trans (actAon_frozen hfrozen _ _), (exec_holdupSenseSample code s).trans (actAon_frozen hfrozen _ _),
      (exec_vinSenseSample code s).trans (actAon_frozen hfrozen _ _)⟩⟩

theorem holdupEnds_holds : holdupEnds := by
  intro s u hrun hexp
  refine (exec_holdupExit s).trans (act_next hrun ?_)
  rw [State.holdupExit, hexp]

/-- Settles O17: a conversion reads its levels past the store of its own channel, and what follows a die sensor's conversion
moves neither the sensor nor the temperature shown. -/
theorem stagesAndSupply : Obligations.StagesAndSupply :=
  ⟨stageRegisters_of admitting_reaches, energyCommands_of admitting_reaches, holdupSenseTaken_holds, holdupEntered_holds,
    vinSenseTaken_holds, dieSensorTaken_holds, dieSensorAnswers_holds, holdupEnds_holds⟩

end Sys2Proof.Claims

/-! PROOFS. The Flacon queues served, the partner heard over the Span, handover and the journal (R322 to R334, R351 to
R370, R411). -/

namespace Sys2Proof.Claims

open Sys2Proof.Machine

/-! ## The Flacon queues -/

theorem queuesPopped_holds : queuesPopped := by
  rintro s n q len found r hrun
  refine ⟨fun h8 hmin hmax hr => ?_, fun hno => ?_⟩
  · refine (exec_quePop n q len found s).trans (actDrain_next hrun ?_)
    rw [State.popRead, if_pos ⟨h8, hmin, hmax⟩, hr]
  · have hbad : ¬ (len % 8 = 0 ∧ 8 ≤ len ∧ len ≤ 256) := by omega
    refine (exec_quePop n q len found s).trans (actDrain_next hrun ?_)
    rw [State.popRead, if_neg hbad]

theorem openPacketsTimeOut_holds : openPacketsTimeOut := by
  intro s u q hrun hexp
  refine (exec_openTmo q s).trans (act_next hrun ?_)
  rw [State.openOut, hexp]

/-- The test of a queue's chain ends its closing down; what it found decides whether the queue stays (R411). -/
theorem chainTested_eq {s t : State} {q : Nat} {pass lasting : Bool}
    (hactive : s.active.any (fun a => a.test.res == Resource.chain q) = true)
    (ht : (s.endTest (.chain q)).classify (.chain q) 0 pass = (t, lasting)) :
    s.chainTested q pass = if lasting then
        { t.setQueue q { t.queue q with testing := false, retired := (t.queue q).retired || lasting } with
          replaced := t.replaced ++ [.chain q] }
      else t.setQueue q { t.queue q with testing := false, retired := (t.queue q).retired || lasting } := by
  unfold State.chainTested
  dsimp only
  rw [if_pos hactive]
  simp only [ht, State.setQueue_replaced]

theorem positionMismatch_next {s t : State} {q : Fin 160} (hrun : s.power = .run) (h : s.positionFault q = t) :
    exec (.positionMismatch q) s = .next t :=
  (exec_positionMismatch q s).trans (act_next (f := fun s => s.positionFault q) hrun h)

theorem chainTestEnd_next {s t : State} {q : Fin 160} {pass : Bool} (hrun : s.power = .run) (h : s.chainTested q pass = t) :
    exec (.chainTestEnd q pass) s = .next t :=
  (exec_chainTestEnd q pass s).trans (act_next (f := fun s => s.chainTested q pass) hrun h)

theorem queueFaultsTested_holds : queueFaultsTested := by
  intro s t q hrun
  refine ⟨fun hm => positionMismatch_next hrun (if_pos hm), fun pass lasting hactive ht => ⟨fun hpass => ?transient, fun hl => ?lasting⟩⟩
  case transient =>
    subst hpass
    refine chainTestEnd_next hrun ((chainTested_eq hactive ht).trans ?_)
    rw [if_neg Bool.false_ne_true, Bool.or_false]
  case lasting =>
    subst hl
    refine chainTestEnd_next hrun ((chainTested_eq hactive ht).trans ?_)
    rw [if_pos rfl, Bool.or_true]

/-- One waiting item enters its work queue, if a credit allows it (R326). -/
def itemEnters (g : Nat) (s : State) (w : Word) : State :=
  ((s.pushInterrupt (144 + s.get (SEG_INT_WQ (bits w 10 2) (bits w 8 2))) w).map
    (fun t => t.setSeg g { t.seg g with held := (t.seg g).held.erase w })).getD s

theorem feedHeld_eq (s : State) (g : Nat) : s.feedHeld g = (s.seg g).held.foldl (itemEnters g) s := by
  unfold State.feedHeld
  refine congrArg (fun f => List.foldl f s (s.seg g).held) (funext fun s => funext fun w => ?_)
  unfold itemEnters
  cases s.pushInterrupt (144 + s.get (SEG_INT_WQ (bits w 10 2) (bits w 8 2))) w with
  | none => rfl
  | some t => rfl

theorem itemsEnter_eq (g : Nat) : ∀ (ws : List Word) (s : State), itemsEnter s g ws = ws.foldl (itemEnters g) s
  | [], _ => rfl
  | w :: ws, s => by
    rw [itemsEnter, List.foldl_cons]
    cases hpush : s.pushInterrupt (144 + s.get (SEG_INT_WQ (bits w 10 2) (bits w 8 2))) w with
    | none =>
      have hstep : itemEnters g s w = s := by rw [itemEnters, hpush]; rfl
      rw [hstep]
      exact itemsEnter_eq g ws s
    | some t =>
      have hstep : itemEnters g s w = t.setSeg g { t.seg g with held := (t.seg g).held.erase w } := by rw [itemEnters, hpush]; rfl
      rw [hstep]
      exact itemsEnter_eq g ws _

theorem waitingItemsEnter_holds : waitingItemsEnter := by
  intro s hrun
  refine ⟨fun g hg => ?items, fun q r hfind hmay hopen => ?record⟩
  case items =>
    refine (exec_intItemEnqueue g s).trans (actSeg_next hrun ?_ hg)
    rw [feedHeld_eq, itemsEnter_eq]
  case record =>
    refine (exec_bridgeRecordEnqueue q s).trans (act_next hrun ?_)
    rw [State.feedRecord, hfind]
    dsimp only
    rw [hmay, hopen]
    rfl

/-- Settles O18: the written commands reach their rows by the guard; what waits in a segment enters item by item, as the
clause's recursion does. -/
theorem queuesServe : Obligations.QueuesServe :=
  ⟨queueRegisters_of admitting_reaches, queuesPopped_holds, openPacketsTimeOut_holds, queueFaultsTested_holds, waitingItemsEnter_holds⟩

/-! ## Heartbeats and leases (R355 to R362) -/

theorem heartbeatSent_holds : heartbeatSent := by
  rintro s u v q hrun hq hexp rfl
  refine (exec_heartbeatSend q s).trans (actSpan_next hrun ?_ hq)
  rw [State.heartbeatSend, hexp]

/-- A heartbeat of the partner reaches the Span unit (R355, R372). -/
theorem heartbeat_arrives {s : State} {q : Nat} {d : List Byte} (h : controlTaken s q (spanCtl q 0xFF00000001 d) = true) :
    s.spanArrives q 0xFF00000001 d = (spanHeard s q (spanCtl q 0xFF00000001 d)).heartbeatIn q d := by
  rw [spanArrives_taken (by decide) (by decide) h, spanControl_spanCtl _ _ _ _ _ (by decide)]
  exact if_pos rfl

theorem heartbeatTaken_holds : heartbeatTaken := by
  rintro s q w count time d rfl h
  obtain ⟨hrun, hq, -⟩ := controlTaken_iff.1 h
  exact (exec_heartbeat q w count time s).trans (actSpan_next hrun (heartbeat_arrives h) hq)

theorem heartbeatsMissed_holds : heartbeatsMissed := by
  intro s u q hrun hq
  refine ⟨fun hexp => ?_, fun hexp hsaid => ?_⟩
  · refine (exec_hbMiss q s).trans (actSpan_next hrun ?_ hq)
    rw [State.heartbeatMissed, hexp]
  · refine (exec_portSilent q s).trans (actSpan_next hrun ?_ hq)
    rw [State.silentDue, hexp]
    dsimp only
    rw [State.portSilent, hsaid, if_neg Bool.false_ne_true]

theorem leaseEnds_holds : leaseEnds := by
  intro s u g hrun hg hexp
  refine (exec_leaseExpiry g s).trans (actSeg_next hrun ?_ hg)
  rw [State.leaseOut, hexp]

theorem ownershipClaimed_holds : ownershipClaimed := by
  intro s u g hrun hg
  refine ⟨fun hmay hpending hu => ?_, fun halone hexp hstarting => ?_⟩
  · refine (exec_takeover g s).trans (actSeg_next hrun ?_ hg)
    rw [State.takeOver, hmay, hpending, hu]
    rfl
  · refine (exec_coldStartOwner g s).trans (actSeg_next hrun ?_ hg)
    rw [State.coldOwner, halone, if_neg Bool.false_ne_true, hexp]
    exact if_pos hstarting

/-- Settles O19: the enables reach their row by the guard, a heartbeat that is taken reaches the Span unit, and each timer's
row unfolds to its clause. -/
theorem spanHearsPartner : Obligations.SpanHearsPartner :=
  ⟨spanPortsEnabled_of admitting_reaches, heartbeatSent_holds, heartbeatTaken_holds, heartbeatsMissed_holds, leaseEnds_holds,
    ownershipClaimed_holds⟩

/-! ## Handover and the journal (R363 to R370) -/

section control
variable {s : State} {q : Nat}

/-- The first word of a control packet of one word. -/
theorem leNat_one_word {x : Nat} (hx : x < 2 ^ 32) : leNat (((leBytes 4 x).drop (4 * 0)).take 4) = x := by
  rw [Nat.mul_zero, List.drop_zero, List.take_of_length_le (Nat.le_of_eq (leBytes_length ..)), leNat_leBytes, Nat.mod_eq_of_lt hx]

theorem handover_arrives {g : Nat} (hg : g < 4) {k : Pkt} (hk : k = spanCtl q 0xFF00000002 (leBytes 4 g))
    (h : controlTaken s q k = true) : s.spanArrives q 0xFF00000002 (leBytes 4 g) = (spanHeard s q k).handoverIn q g := by
  subst hk
  have hbits : natBits g 0 2 = g := by
    unfold natBits
    omega
  rw [spanArrives_taken (by decide) (by decide) h, spanControl_spanCtl _ _ _ _ _ (by decide)]
  dsimp only
  rw [if_neg (by decide), if_pos rfl, leNat_one_word (by omega), hbits]

theorem journal_arrives {d : List Byte} (h : controlTaken s q (spanCtl q 0xFF00000003 d) = true) :
    s.spanArrives q 0xFF00000003 d = (spanHeard s q (spanCtl q 0xFF00000003 d)).journalIn q d := by
  rw [spanArrives_taken (by decide) (by decide) h, spanControl_spanCtl _ _ _ _ _ (by decide)]
  dsimp only
  rw [if_neg (by decide), if_neg (by decide), if_pos rfl]

theorem retire_arrives {first g count : Nat} (hfirst : first < 2 ^ 16) (hg : g < 4) (hcount : count < 2 ^ 8) {k : Pkt}
    (hk : k = spanCtl q 0xFF00000004 (leBytes 4 (first + g * 2 ^ 16 + count * 2 ^ 24))) (h : controlTaken s q k = true) :
    s.spanArrives q 0xFF00000004 (leBytes 4 (first + g * 2 ^ 16 + count * 2 ^ 24)) =
      (spanHeard s q k).retireIn q first g count := by
  subst hk
  have hbits : natBits (first + g * 2 ^ 16 + count * 2 ^ 24) 0 16 = first ∧
      natBits (first + g * 2 ^ 16 + count * 2 ^ 24) 16 2 = g ∧ natBits (first + g * 2 ^ 16 + count * 2 ^ 24) 24 8 = count := by
    unfold natBits
    omega
  rw [spanArrives_taken (by decide) (by decide) h, spanControl_spanCtl _ _ _ _ _ (by decide)]
  dsimp only
  rw [if_neg (by decide), if_neg (by decide), if_neg (by decide), if_pos rfl, leNat_one_word (by omega), hbits.1, hbits.2.1, hbits.2.2]

/-- A control packet that is taken finds its port ON. -/
theorem heard_on {k : Pkt} (h : controlTaken s q k = true) : (spanHeard s q k).portState (3 + q) = 2 :=
  (spanHeard_portState s (spans_two h) k).trans (controlTaken_iff.1 h).2.2.2

end control

section handlers
variable {s u : State} {q g : Nat} (hon : s.portState (3 + q) = 2)
include hon

/-- A standby that no takeover makes owner becomes owner (R363). -/
theorem handoverIn_owner (hu : u = s.spanTook q 4) (hg : u.hasSeg g = true) (hst : u.segState g = 2)
    (hrole : u.get (SEG_STAT_ROLE g) = 1) (htaking : mget u.span.taking g 0 ≠ 1) :
    s.handoverIn q g = State.becomeOwner { u with span := { u.span with taking := mins u.span.taking g 2 } } g := by
  subst hu
  unfold State.handoverIn
  dsimp only
  rw [if_neg (Classical.not_not.2 hon), hg, hst, hrole, bne_iff_ne.2 htaking]
  rfl

theorem journalIn_eq {d : List Byte} {e : JEntry} {es : List JEntry} (hentry : journalEntry d = (g, e)) (hu : u = s.spanTook q d.length)
    (hes : es = mget u.span.held g []) : s.journalIn q d =
      if es.any (fun x => x.jseq == e.jseq) || decide (256 ≤ es.length) then u
      else
        let v : State := { u with span := { u.span with held := mput u.span.held g (es ++ [e]) [] } }
        let w := if v.get (SEG_STAT_ROLE g) = 2 then v else v.put (SPN_SEG_JRN_OPEN g) (es ++ [e]).length
        if e.rxSide != w.side then w.raiseMark g e.pkt.h.ctx e.pkt.h.seq else w := by
  subst hu hes
  unfold State.journalIn
  dsimp only
  rw [if_neg (Classical.not_not.2 hon), hentry]

theorem retireIn_eq {first count : Nat} {es : List JEntry} (hu : u = s.spanTook q 4)
    (hes : es = (mget u.span.held g []).filter (fun e => !decide ((e.jseq + 65536 - first) % 65536 < count))) {v : State}
    (hv : v = { u with span := { u.span with held := mput u.span.held g es [] } }) :
    s.retireIn q first g count = if v.get (SEG_STAT_ROLE g) = 2 then v else v.put (SPN_SEG_JRN_OPEN g) es.length := by
  subst hv hes hu
  unfold State.retireIn
  dsimp only
  rw [if_neg (Classical.not_not.2 hon)]

end handlers

theorem handoverEnds_holds : handoverEnds := by
  intro s u hrun
  refine ⟨fun q g h hu hg hst hrole htaking => ?packet, fun g hg hexp => ?fail⟩
  case packet =>
    refine (exec_handoverPacket q g s).trans (actSpan_next hrun ((handover_arrives g.isLt rfl h).trans ?_) (controlTaken_iff.1 h).2.1)
    exact handoverIn_owner (heard_on h) hu hg hst hrole htaking
  case fail =>
    refine (exec_handoverFail g s).trans (actSeg_next hrun ?_ hg)
    rw [State.handoverFail, hexp]

theorem journalTaken_holds : journalTaken := by
  rintro s u v q d g e es h hentry hu hes rfl
  obtain ⟨hrun, hq, -⟩ := controlTaken_iff.1 h
  have htaken := (journal_arrives h).trans (journalIn_eq (heard_on h) hentry hu hes)
  have hlen : (es ++ [e]).length = es.length + 1 := List.length_append
  refine ⟨fun hheld => ?held, fun hnew hroom hrole hside => ?same, fun hnew hroom hrole hside => ?other⟩
  case held =>
    have hkeep : (es.any (fun x => x.jseq == e.jseq) || decide (256 ≤ es.length)) = true := by
      rcases hheld with hheld | hheld
      · rw [hheld, Bool.true_or]
      · rw [decide_eq_true hheld, Bool.or_true]
    exact (exec_journal q d s).trans (actSpan_next hrun (htaken.trans (if_pos hkeep)) hq)
  all_goals
    have htake : (es.any (fun x => x.jseq == e.jseq) || decide (256 ≤ es.length)) = false := by
      rw [hnew, decide_eq_false (Nat.not_le.2 hroom)]
      rfl
    refine (exec_journal q d s).trans (actSpan_next hrun (htaken.trans ?_) hq)
    dsimp only
    rw [htake, if_neg Bool.false_ne_true, if_neg hrole, hlen, State.put_side]
  case same => exact if_neg (fun hne => bne_iff_ne.1 hne hside)
  case other => exact if_pos (bne_iff_ne.2 hside)

theorem journalAcknowledged_holds : journalAcknowledged := by
  rintro s u g jseq e hrun hg hfind rfl
  refine (exec_journalAcked g jseq s).trans (actSeg_next hrun ?_ hg)
  rw [State.journalAcked, hfind]

theorem journalRetired_holds : journalRetired := by
  intro s u v q first g count es k hk h hu hes hv
  obtain ⟨hrun, hq, -⟩ := controlTaken_iff.1 h
  have htaken := (retire_arrives first.isLt g.isLt count.isLt hk h).trans (retireIn_eq (heard_on h) hu hes hv)
  refine ⟨fun hown => ?_, fun hother => ?_⟩
  · exact (exec_retire q first g count s).trans (actSpan_next hrun (htaken.trans (if_pos hown)) hq)
  · exact (exec_retire q first g count s).trans (actSpan_next hrun (htaken.trans (if_neg hother)) hq)

/-- Settles O20: each control packet that is taken reaches its handler by its address, and the handler follows the clause's
conditions. -/
theorem spanHandsOver : Obligations.SpanHandsOver :=
  ⟨handoverGoes_of admitting_reaches, handoverEnds_holds, journalTaken_holds, journalAcknowledged_holds, journalRetired_holds⟩

end Sys2Proof.Claims

/-! PROOFS. Targeted tests and event rates, reads of register space and the passes of the configuration check (R9, R407 to
R421, R433 to R444). -/

namespace Sys2Proof.Claims

open Sys2Proof.Machine

/-! ## Targeted tests (R407 to R414) -/

section start
variable {s u : State} {i bad : Nat} {t : Test} (htest : s.tests[i]? = some t)
include htest

theorem testStart_off (hoff : s.on FLT_CFG_TEST_EN = false) : s.testStart i bad = s := by
  unfold State.testStart
  rw [htest]
  dsimp only
  rw [hoff]
  rfl

variable (hfree : s.active.any (fun a => a.test.res.unit == t.res.unit) = false)
  (hfirst : (s.tests.take i).any (fun u => u.res.unit == t.res.unit) = false) (hon : s.on FLT_CFG_TEST_EN = true)
  (hu : u = { s with tests := s.tests.eraseIdx i })
include hfree hfirst hon hu

theorem testStart_march (hrow : t.res.isRow = false) :
    s.testStart i bad = { u.bump FLT_CNT1_TESTS with active := u.active ++ [⟨t, 0, .marching⟩] } := by
  subst hu
  unfold State.testStart
  rw [htest]
  dsimp only
  rw [hon, hfree, hfirst, if_neg (by decide), hrow]
  rfl

theorem testStart_copy {w : State} {j : Nat} (hrow : t.res.isRow = true) (hspare : u.takeSpare t.res bad = (w, some j)) :
    s.testStart i bad = { w.bump FLT_CNT1_TESTS with active := w.active ++ [⟨t, j, .copying⟩] } := by
  subst hu
  unfold State.testStart
  rw [htest]
  dsimp only
  rw [hon, hfree, hfirst, if_neg (by decide), if_pos hrow, hspare]

theorem testStart_noSpare {w : State} (hrow : t.res.isRow = true) (hspare : u.takeSpare t.res bad = (w, none)) :
    s.testStart i bad = w.untested t.res t.detail := by
  subst hu
  unfold State.testStart
  rw [htest]
  dsimp only
  rw [hon, hfree, hfirst, if_neg (by decide), if_pos hrow, hspare]

end start

theorem faultTestStart_next {s t : State} {i : Fin 32} {bad : BitVec 4} (hrun : s.power = .run)
    (h : s.testStart i bad.toNat = t) : exec (.faultTestStart i bad) s = .next t :=
  (exec_faultTestStart i bad s).trans (act_next (f := fun s => s.testStart i bad.toNat) hrun h)

theorem testsStart_holds : testsStart := by
  intro s u w i bad t j hrun htest hfree hfirst hu
  exact ⟨fun hoff => faultTestStart_next hrun (testStart_off htest hoff),
    fun hon hrow => faultTestStart_next hrun (testStart_march htest hfree hfirst hon hu hrow),
    fun hon hrow hspare => faultTestStart_next hrun (testStart_copy htest hfree hfirst hon hu hrow hspare),
    fun hon hrow hspare => faultTestStart_next hrun (testStart_noSpare htest hfree hfirst hon hu hrow hspare)⟩

section rows
variable {s : State} {q : Bool} {u : Nat} {a : ActiveTest} (htest : s.rowTest q u = some a)
include htest

theorem rowCopied_copying (hstep : a.step = .copying) :
    s.rowCopied q u = (s.setActive { a with step := .marching }).copyRow a.test.res := by
  rw [State.rowCopied, htest]
  exact if_pos hstep

/-- The March test of a row: it passes and does not repeat, or leaves the row replaced (R407, R409). -/
theorem rowMarched_marching (hstep : a.step = .marching) (pass : Bool) : s.rowMarched q u pass =
    if pass && !s.repeats a.test.res then s.setActive { a with step := .restoring }
    else ((s.rowReplaced a).classify a.test.res a.test.detail pass).1 := by
  rw [State.rowMarched, htest]
  exact if_neg (Classical.not_not.2 hstep)

theorem rowRestored_restoring (hstep : a.step = .restoring) : s.rowRestored q u =
    ((((s.endTest a.test.res).copyRow a.test.res).spareBit (spareRefs a.test.res).1 a.spare false).classify
      a.test.res a.test.detail true).1 := by
  rw [State.rowRestored, htest]
  exact if_neg (Classical.not_not.2 hstep)

end rows

section rowRows
variable {s t : State} {q : Bool} {u : Fin 32} (hrun : s.power = .run)
include hrun

theorem rowCopyEnd_next (h : s.rowCopied q u = t) : exec (.rowCopyEnd q u) s = .next t :=
  (exec_rowCopyEnd q u s).trans (act_next (f := fun s => s.rowCopied q u) hrun h)

theorem rowMarchEnd_next {pass : Bool} (h : s.rowMarched q u pass = t) : exec (.rowMarchEnd q u pass) s = .next t :=
  (exec_rowMarchEnd q u pass s).trans (act_next (f := fun s => s.rowMarched q u pass) hrun h)

theorem rowRestoreEnd_next (h : s.rowRestored q u = t) : exec (.rowRestoreEnd q u) s = .next t :=
  (exec_rowRestoreEnd q u s).trans (act_next (f := fun s => s.rowRestored q u) hrun h)

end rowRows

theorem rowTestsGo_holds : rowTestsGo := by
  intro s q u a hrun htest
  refine ⟨fun hstep => ?copied, fun hstep hnew => ?passes, fun hstep => ?fails, fun hstep => ?restored⟩
  case copied => exact rowCopyEnd_next hrun (rowCopied_copying htest hstep)
  case passes =>
    refine rowMarchEnd_next hrun ((rowMarched_marching htest hstep true).trans (if_pos ?_))
    rw [hnew]
    rfl
  case fails =>
    have hfails := rowMarched_marching htest hstep false
    rw [Bool.false_and, if_neg Bool.false_ne_true] at hfails
    exact rowMarchEnd_next hrun hfails
  case restored => exact rowRestoreEnd_next hrun (rowRestored_restoring htest hstep)

theorem slotTestsEnd_holds : slotTestsEnd := by
  rintro s recFails fails n k a st t lasting hrun hfind hres rfl ht
  refine (exec_slotTestEnd recFails fails s).trans (act_next hrun ?_)
  rw [State.slotTested, hfind]
  dsimp only
  rw [hres]
  simp only [ht]

/-! ## Event rates (R419) -/

/-- RATE after a source's last record (R419): what was merged gives one record, if the source is still enabled. -/
theorem rateEnds_merged {s u v : State} {e : Nat} {m : Merge} (hexp : s.expire (.rate e) = some u)
    (hfind : u.merges.find? (fun m => m.event == e) = some m)
    (hv : v = { u with merges := u.merges.filter (fun (x : Merge) => x.event != e) }) :
    s.rateEnds e = if m.merged = 0 || !v.on (EVT_CFG_EN e) then v
      else
        let w : State := if v.on (EVT_CFG_RATE e) then
            { (v.arm (.rate e) (v.get (EVT_CFG_RATE e) * 1000)) with merges := v.merges ++ [⟨e, 0, m.lastRec⟩] }
          else v
        (w.writeEvent { m.lastRec with rep := m.merged }).2.foldl (fun s d => s.raise d.1 0 d.2)
          (w.writeEvent { m.lastRec with rep := m.merged }).1 := by
  subst hv
  rw [State.rateEnds, hexp]
  dsimp only
  rw [hfind]

theorem eventRateEnd_next {s t : State} {e : BitVec 8} (hrun : s.power = .run) (h : s.rateEnds e.toNat = t) :
    exec (.eventRateEnd e) s = .next t :=
  (exec_eventRateEnd e s).trans (act_next (f := fun s => s.rateEnds e.toNat) hrun h)

theorem ratesEnd_holds : ratesEnd := by
  intro s u v w e m hrun hexp hfind hv
  have hends := rateEnds_merged hexp hfind hv
  have hgives (hmerged : m.merged ≠ 0) (hen : v.on (EVT_CFG_EN e.toNat) = true) :
      ¬ (decide (m.merged = 0) || !v.on (EVT_CFG_EN e.toNat)) = true := by
    rw [decide_eq_false hmerged, hen]
    decide
  refine ⟨fun hnone => ?none, fun hoff => ?off, fun hmerged hen hrate => ?once, fun hmerged hen hrate hw => ?again⟩
  case none =>
    refine eventRateEnd_next hrun (hends.trans (if_pos ?_))
    rw [decide_eq_true hnone, Bool.true_or]
  case off =>
    refine eventRateEnd_next hrun (hends.trans (if_pos ?_))
    rw [hoff, Bool.not_false, Bool.or_true]
  case once =>
    refine eventRateEnd_next hrun (hends.trans ?_)
    rw [if_neg (hgives hmerged hen), hrate]
    rfl
  case again =>
    subst hw
    refine eventRateEnd_next hrun (hends.trans ?_)
    rw [if_neg (hgives hmerged hen), hrate]
    rfl

/-- Settles O22: a queued test starts by its unit and kind, the steps of a row test follow one another, and what was merged
gives a record by the register as it stands. -/
theorem faultsTested : Obligations.FaultsTested :=
  ⟨testsStart_holds, rowTestsGo_holds, slotTestsEnd_holds, faultCommands_of admitting_reaches, ratesEnd_holds,
    pendingCleared_of admitting_reaches⟩

/-! ## Reads of register space (R9, R433, R435) -/

section reads
variable {s : State} {n a r : Nat} (hsel : selOf a = .reg r) (hpresent : s.member.present r = true)
include hsel hpresent

/-- A read of a register of a unit present shows the word that it gives. -/
theorem doRead_reg {t : State} {w : Word} (hread : s.readReg n r = (t, w)) :
    s.doRead n a = t.emit (.read n a (leBytes 4 w.toNat)) := by
  rw [State.doRead, hsel]
  dsimp only
  rw [if_pos hpresent, hread]

theorem rcRead_reg (hword : a % 4 = 0) (hrc : hasRc r = true) (hpair : pairHigh r = none) (hlatch : mfind s.latches r = none) :
    s.rcRead n a = (s.readClear r).emit (.read n a (leBytes 4 (s.peekReg r).toNat)) := by
  have hread : s.readReg n r = (s.readClear r, s.peekReg r) := by
    unfold State.readReg
    dsimp only
    rw [hpair]
    dsimp only
    rw [hlatch]
  rw [State.rcRead, hsel]
  dsimp only
  rw [hrc, hword, ← doRead_reg hsel hpresent hread]
  rfl

theorem pairRead_low {h : Nat} (hword : a % 4 = 0) (hpair : pairHigh r = some h) : s.pairRead n a =
    State.emit { s with latches := mins s.latches h (n, s.peekReg h) } (.read n a (leBytes 4 (s.peekReg r).toNat)) := by
  have hread : s.readReg n r = ({ s with latches := mins s.latches h (n, s.peekReg h) }, s.peekReg r) := by
    unfold State.readReg
    dsimp only
    rw [hpair]
  rw [State.pairRead, hsel]
  dsimp only
  rw [hpair, hword, ← doRead_reg hsel hpresent hread]
  rfl

omit hsel hpresent in
/-- The high word of a counter pair is the low word of none. -/
theorem pairHigh_high (hhigh : isPairHigh r = true) : pairHigh r = none := by
  rcases Bool.or_eq_true_iff.1 hhigh with h | h
  · rw [beq_iff_eq.1 h]; rfl
  · rw [beq_iff_eq.1 h]; rfl

theorem pairRead_high {w : Word} (hword : a % 4 = 0) (hhigh : isPairHigh r = true) (hlatch : mfind s.latches r = some (n, w)) :
    s.pairRead n a = State.emit { s with latches := mdel s.latches r } (.read n a (leBytes 4 w.toNat)) := by
  have hread : s.readReg n r = ({ s with latches := mdel s.latches r }, w) := by
    unfold State.readReg
    dsimp only
    rw [pairHigh_high hhigh]
    dsimp only
    rw [hlatch]
    exact if_pos rfl
  rw [State.pairRead, hsel]
  dsimp only
  rw [hhigh, hword, Bool.or_true, ← doRead_reg hsel hpresent hread]
  rfl

end reads

theorem clearedByReading_holds : clearedByReading := by
  intro s n a r hrun hword hsel hpresent hrc hpair hlatch
  exact (exec_rcRead n a s).trans (actDrain_next hrun (rcRead_reg hsel hpresent hword hrc hpair hlatch))

theorem counterPairsRead_holds : counterPairsRead := by
  intro s n a r hrun hword hsel hpresent
  exact ⟨fun h hpair => (exec_counterPairRead n a s).trans (actDrain_next hrun (pairRead_low hsel hpresent hword hpair)),
    fun w hhigh hlatch => (exec_counterPairRead n a s).trans (actDrain_next hrun (pairRead_high hsel hpresent hword hhigh hlatch))⟩

theorem slowAccessesEnd_holds : slowAccessesEnd := by
  intro s d e hrun hhead
  refine (exec_slowAccessEnd d s).trans (actDrain_next hrun ?_)
  rw [State.slowEnd, hhead]

/-- Settles O23: the writes reach their rows by the guard; a read shows and clears, latches or frees by the register that its
address selects. -/
theorem registerSpaceServes : Obligations.RegisterSpaceServes :=
  ⟨registersWritten_of admitting_reaches, clearedByReading_holds, counterPairsRead_holds, slowAccessesEnd_holds,
    guardUnlocked_of admitting_reaches⟩

/-! ## The configuration check (R441 to R444) -/

/-- A check pass that ends whole compares what it found with the reference, where that is valid (R444). -/
theorem checkEnd_eq {s : State} (hsweep : s.on CFG_STAT_SWEEPING = true) (hcheck : s.commitRuns = false) : s.checkEnd =
    if s.on CFG_STAT_REF_VALID && !s.on CFG_STAT_DIRTY && !s.on CFG_STAT_COMMIT_PEND && s.cfgCrc.toNat != s.get CFG_REF_CRC then
      ((s.put CFG_LAST_CRC s.cfgCrc.toNat).passOver).setMismatch 0
    else (s.put CFG_LAST_CRC s.cfgCrc.toNat).passOver := by
  unfold State.checkEnd
  rw [hsweep, hcheck]
  rfl

theorem checkPassEnds_holds : checkPassEnds := by
  intro s hrun hsweep hcheck
  refine ⟨fun ⟨hvalid, hclean, hidle, hdiffers⟩ => ?_, fun hno => ?_⟩
  · refine (exec_checkPassEnd s).trans (act_next hrun ((checkEnd_eq hsweep hcheck).trans (if_pos ?_)))
    rw [hvalid, hclean, hidle, bne_iff_ne.2 hdiffers]
    rfl
  · refine (exec_checkPassEnd s).trans (act_next hrun ((checkEnd_eq hsweep hcheck).trans (if_neg ?_)))
    rcases hno with h | h | h | h
    · simp [h]
    · simp [h]
    · simp [h]
    · simp [h]

theorem commitEnd_committed {s : State} (hsweep : s.on CFG_STAT_SWEEPING = true) (hcommit : s.commitRuns = true) : s.commitEnd =
    ((((((s.put CFG_REF_CRC s.cfgCrc.toNat).put CFG_STAT_REF_VALID 1).put CFG_STAT_DIRTY 0).put CFG_STAT_COMMIT_PEND 0).put
      CFG_COMMIT_COMMIT 0).disarm .dirty).passOver := by
  unfold State.commitEnd
  dsimp only
  rw [hsweep, hcommit, if_pos (Bool.and_self true)]

theorem commitPassEnd_next {s t : State} (hrun : s.power = .run) (h : s.commitEnd = t) : exec .commitPassEnd s = .next t :=
  (exec_commitPassEnd s).trans (act_next (f := fun s => s.commitEnd) hrun h)

theorem commitPassEnds_holds : commitPassEnds := by
  intro s u hrun
  refine ⟨fun hsweep hcommit => commitPassEnd_next hrun (commitEnd_committed hsweep hcommit), fun hexp hdirty => ?_⟩
  refine (exec_dirtyTimeout s).trans (act_next hrun ?_)
  rw [State.dirtyTimeout, hexp]
  exact if_pos hdirty

/-- Settles O24: the commit reaches its row by the guard; a pass that ends follows what it found and what the settings
are. -/
theorem configurationChecked : Obligations.ConfigurationChecked :=
  ⟨passesStart_of admitting_reaches, checkPassEnds_holds, commitPassEnds_holds⟩

end Sys2Proof.Claims

/-! PROOFS. Fuses and the vault, and the TAP (R475 to R477, R481 to R486). -/

namespace Sys2Proof.Claims

open Sys2Proof.Machine

/-! ## Fuses and the vault (R475 to R477) -/

section fuseRefusals
variable {ok : Admits} (hok : Admitting ok)
include hok

theorem fuseWritesRefused_of : fuseWritesRefused ok := by
  intro s b hrun hl
  have hstored (a : Nat) (v : Word) : ¬ (s.stored b a v).lifecycle = 0 := by rwa [stored_lifecycle]
  refine ⟨fun h => ?field, fun h => ?key, fun h => ?debug, fun h => ?load⟩
  case field =>
    obtain ⟨u, hu⟩ : ∃ u, u = (s.stored b SEC_LC_CMD_TO.reg (s.putWordOf SEC_LC_CMD_TO 1)).zero SEC_LC_CMD_TO := ⟨_, rfl⟩
    have hlu : u.lifecycle ≠ 0 := by rw [hu, State.zero, State.put_lifecycle, stored_lifecycle]; exact hl
    have hsec : (s.stored b SEC_LC_CMD_TO.reg (s.putWordOf SEC_LC_CMD_TO 1)).secWritten b SEC_LC_CMD (s.putWordOf SEC_LC_CMD_TO 1) =
        (u, stUR) := by
      unfold State.secWritten
      refine (if_pos rfl).trans ?_
      dsimp only
      rw [← hu, beq_eq_false_iff_ne.2 hlu, Bool.and_false, Bool.false_and, Bool.false_and, if_neg Bool.false_ne_true]
    have hwritten := (written_sec (s.admitted b SEC_LC_CMD_TO.reg) _ b false SEC_LC_CMD_TO.reg (s.putWordOf SEC_LC_CMD_TO 1) rfl).trans hsec
    have hreaches : s.reaches b SEC_LC_CMD_TO.reg (s.putWordOf SEC_LC_CMD_TO 1) = true := hok _ _ _ _ h
    refine (exec_lifecycleToField b s).trans ((actDrain_run hrun _).trans ?_)
    rw [doPut_eq, doWrite_reaches hreaches, hwritten, hu]
    rfl
  case key =>
    refine (exec_keyHash b s).trans (actDrain_doPut hrun (hok _ _ _ _ h) ((written_sec _ _ _ _ _ _ rfl).trans ?_))
    unfold State.secWritten
    exact (if_neg (by decide)).trans ((if_pos rfl).trans (if_neg (hstored _ _)))
  case debug =>
    refine (exec_dbgHash b s).trans (actDrain_doPut hrun (hok _ _ _ _ h) ((written_sec _ _ _ _ _ _ rfl).trans ?_))
    unfold State.secWritten
    exact (if_neg (by decide)).trans ((if_pos rfl).trans (if_neg (hstored _ _)))
  case load =>
    refine (exec_load b s).trans (actDrain_doPut hrun (hok _ _ _ _ h) ((written_sec _ _ _ _ _ _ rfl).trans ?_))
    unfold State.secWritten
    exact (if_neg (by decide)).trans ((if_neg (by decide)).trans ((if_pos rfl).trans (if_neg (hstored _ _))))

end fuseRefusals

/-- The words cleared, one after the other. -/
theorem foldl_clear_word {a : Nat} (at_ : Nat → Nat) : ∀ (is : List Nat) (s : State), (∀ i ∈ is, a ≠ at_ i) →
    (is.foldl (fun s i => s.setWord (at_ i) 0) s).word a = s.word a
  | [], _, _ => rfl
  | i :: is, s, h => by
    rw [List.foldl_cons, foldl_clear_word at_ is _ (fun j hj => h j (List.mem_cons_of_mem i hj)),
      word_setWord_other s 0 (h i List.mem_cons_self)]

theorem foldl_clear_zero {j : Nat} (at_ : Nat → Nat) : ∀ (is : List Nat) (s : State), j ∈ is ∨ s.word (at_ j) = 0 →
    (is.foldl (fun s i => s.setWord (at_ i) 0) s).word (at_ j) = 0
  | [], _, h => h.resolve_left List.not_mem_nil
  | i :: is, s, h => by
    refine foldl_clear_zero at_ is (s.setWord (at_ i) 0) ?_
    by_cases hij : at_ j = at_ i
    · exact .inr (hij ▸ word_setWord_same s (at_ i) 0)
    · rcases h with h | h
      · rcases List.mem_cons.1 h with h | h
        · exact absurd (h ▸ rfl) hij
        · exact .inl h
      · exact .inr ((word_setWord_other s 0 hij).trans h)

theorem withOtp_word (t : State) (o : Otp) (a : Nat) : State.word { t with otp := o } a = t.word a := rfl

/-- The vault takes the key registers, which are cleared (R476). -/
def vaultLoaded (u : State) : State :=
  let t := (List.range 8).foldl (fun s i => s.setWord (SEC_VAULT_KEY i) 0) (u.put SEC_VAULT_CMD_LOAD 0)
  { t with otp := { u.otp with vault := some u.vaultKey } }

theorem vaultLoaded_get (u : State) : (vaultLoaded u).get SEC_VAULT_CMD_LOAD = 0 := by
  have hput : (u.put SEC_VAULT_CMD_LOAD 0).get SEC_VAULT_CMD_LOAD = 0 := get_put_same u SEC_VAULT_CMD_LOAD 0 (by decide)
  rw [State.get] at hput ⊢
  rw [vaultLoaded, withOtp_word, foldl_clear_word SEC_VAULT_KEY (List.range 8) (u.put SEC_VAULT_CMD_LOAD 0) (by decide), hput]

theorem vaultLoaded_word (u : State) {i : Nat} (hi : i < 8) : (vaultLoaded u).word (SEC_VAULT_KEY i) = 0 := by
  rw [vaultLoaded, withOtp_word]
  exact foldl_clear_zero SEC_VAULT_KEY (List.range 8) (u.put SEC_VAULT_CMD_LOAD 0) (.inl (List.mem_range.2 hi))

/-- An OTP write in progress ends (R475 to R477). -/
theorem fuseEnd_eq {s u : State} {n : Nat} (hn : s.fusing.contains n = true) (hu : u = { s with fusing := s.fusing.filter (· != n) }) :
    s.fuseEnd n = if n = 0 then { u.put SEC_LC_PENDING 1 with otp := { s.otp with fuses := 1 } }
      else if n = 1 then { u.put SEC_FUSE_CMD_KEY_HASH 0 with otp := { s.otp with keyHash := some (s.otp.keyHash.getD s.fuseData) } }
      else if n = 2 then { u.put SEC_FUSE_CMD_DBG_HASH 0 with otp := { s.otp with dbgHash := some (s.otp.dbgHash.getD s.fuseData) } }
      else vaultLoaded u := by
  subst hu
  unfold State.fuseEnd
  rw [hn]
  rfl

theorem fuseWriteEnd_next {s t : State} {n : Fin 4} (hrun : s.power = .run) (h : s.fuseEnd n = t) :
    exec (.fuseWriteEnd n) s = .next t :=
  (exec_fuseWriteEnd n s).trans (act_next (f := fun s => s.fuseEnd n) hrun h)

/-- A key hash that has been fused stays. -/
theorem keyHash_kept {o : Otp} {d : List Byte} (h : o.keyHash ≠ none) : { o with keyHash := some (o.keyHash.getD d) } = o := by
  obtain ⟨k, hk⟩ := Option.ne_none_iff_exists'.1 h
  rw [hk, Option.getD_some, ← hk]

theorem dbgHash_kept {o : Otp} {d : List Byte} (h : o.dbgHash ≠ none) : { o with dbgHash := some (o.dbgHash.getD d) } = o := by
  obtain ⟨k, hk⟩ := Option.ne_none_iff_exists'.1 h
  rw [hk, Option.getD_some, ← hk]

theorem fuseWritesEnd_holds : fuseWritesEnd := by
  intro s u n hrun hn hu
  have hend := fuseEnd_eq hn hu
  have hotp : u.otp = s.otp := hu ▸ rfl
  refine ⟨?field, ?key, ?keyKept, ?debug, ?debugKept, ?vault⟩
  case field =>
    rintro rfl
    exact fuseWriteEnd_next hrun (hend.trans (if_pos rfl))
  case key =>
    rintro rfl hnone
    refine fuseWriteEnd_next hrun (hend.trans ?_)
    rw [if_neg (by decide), if_pos (by decide), hnone]
    rfl
  case keyKept =>
    rintro rfl hsome
    refine fuseWriteEnd_next hrun (hend.trans ?_)
    rw [if_neg (by decide), if_pos (by decide), keyHash_kept hsome, ← hotp]
    rfl
  case debug =>
    rintro rfl hnone
    refine fuseWriteEnd_next hrun (hend.trans ?_)
    rw [if_neg (by decide), if_neg (by decide), if_pos (by decide), hnone]
    rfl
  case debugKept =>
    rintro rfl hsome
    refine fuseWriteEnd_next hrun (hend.trans ?_)
    rw [if_neg (by decide), if_neg (by decide), if_pos (by decide), dbgHash_kept hsome, ← hotp]
    rfl
  case vault =>
    rintro rfl
    refine ⟨vaultLoaded u, fuseWriteEnd_next hrun (hend.trans ?_), ?_, vaultLoaded_get u, fun i => vaultLoaded_word u⟩
    · rw [if_neg (by decide), if_neg (by decide), if_neg (by decide)]
    · rw [hu]; rfl

/-- Settles O26: the writes reach their rows by the guard, and what they begin or end follows the lifecycle and what has been
fused. -/
theorem fusesBlown : Obligations.FusesBlown :=
  ⟨fuseWritesBegin_of admitting_reaches, fuseWritesRefused_of admitting_reaches, fuseWritesEnd_holds⟩

end Sys2Proof.Claims

/-! PROOFS. What a reset leaves, and the TAP (R477, R481 to R486, R496, R497). -/

namespace Sys2Proof.Claims

open Sys2Proof.Machine

/-! ## What a reset leaves (R496, R497) -/

theorem mfind_filter {α : Type} (f : Nat → Bool) (k : Nat) : ∀ m : SMap α,
    mfind (m.filter (fun e => f e.1)) k = if f k then mfind m k else none
  | [] => by split <;> rfl
  | (j, v) :: m => by
    rw [List.filter_cons]
    by_cases hj : f j
    · rw [if_pos hj, mfind, mfind]
      by_cases hjk : j = k
      · rw [if_pos hjk, if_pos hjk, ← hjk, if_pos hj]
      · rw [if_neg hjk, if_neg hjk, mfind_filter f k m]
    · rw [if_neg hj, mfind_filter f k m, mfind]
      by_cases hjk : j = k
      · rw [← hjk, if_neg hj, if_neg hj]
      · rw [if_neg hjk]

/-- A reset keeps the registers of the AON domain and sets every other one to its reset value, but for the one that shows
the spare courier (R497). -/
theorem cleared_word (s : State) {a : Nat} (ha : a ≠ COUR_GLB) :
    s.cleared.word a = if keptRegs.contains a then s.word a else resetWord a := by
  refine (word_setWord_other _ _ ha).trans ?_
  show mget (s.regs.filter (fun e => keptRegs.contains e.1)) a (resetWord a) = _
  rw [mget, mfind_filter (fun r => keptRegs.contains r)]
  split
  · rfl
  · rfl

/-- What a reset leaves beside the registers (R496, R497). -/
theorem cleared_frame (s : State) : ∃ rg, s.cleared = { State.reset with
    clk := s.clk, member := s.member, side := s.side, supOut := s.supOut, out := s.out, regs := rg, lastGasp := s.lastGasp,
    otp := s.otp, lifecycle := s.lifecycle, flash := s.flash, dirs := s.dirs, tap := s.tap, freezeHigh := s.freezeHigh,
    nextFree := s.nextFree, pending := s.pending } := ⟨_, rfl⟩

/-- A device reset out of reset: its cause is noted, in the history too, and counted. -/
def resetNoted (s : State) (cause : Nat) : State :=
  ((s.cleared.put CRP_RST_HIST_HIST (s.get CRP_RST_HIST_HIST ||| 2 ^ cause)).put CRP_RST_CAUSE_CAUSE cause).bump CRP_RST_CAUSE_COUNT

theorem deviceReset_noted {s : State} (h : s.power ≠ .held) (cause : Nat) : s.deviceReset cause = resetNoted s cause := by
  rw [State.deviceReset, if_neg h]
  rfl

theorem resetNoted_frame (s : State) (cause : Nat) : ∃ rg, resetNoted s cause = { s.cleared with regs := rg } := ⟨_, rfl⟩

theorem resetNoted_word (s : State) (cause : Nat) {a : Nat} (hg : a ≠ COUR_GLB) (hh : a ≠ CRP_RST_HIST) (hc : a ≠ CRP_RST_CAUSE) :
    (resetNoted s cause).word a = if keptRegs.contains a then s.word a else resetWord a := by
  refine (word_setWord_other _ _ hc).trans ((word_setWord_other _ _ hc).trans ((word_setWord_other _ _ hh).trans ?_))
  exact cleared_word s hg

theorem resetNoted_cause (s : State) {cause : Nat} (hc : cause < 7) :
    (resetNoted s cause).get CRP_RST_CAUSE_CAUSE = cause ∧
      (resetNoted s cause).get CRP_RST_HIST_HIST = (s.get CRP_RST_HIST_HIST ||| 2 ^ cause) := by
  have hfit : s.get CRP_RST_HIST_HIST ||| 2 ^ cause < 2 ^ CRP_RST_HIST_HIST.w :=
    Nat.or_lt_two_pow (get_lt s CRP_RST_HIST_HIST) (Nat.pow_lt_pow_right (by decide) hc)
  refine ⟨?_, ?_⟩
  · refine (get_put_of _ _ (by decide) (.inr (.inl (by decide)))).trans (get_put_fit _ _ _ (by decide) ?_)
    exact Nat.lt_trans hc (by decide)
  · refine (get_put_of _ _ (by decide) (.inl (by decide))).trans ((get_put_of _ _ (by decide) (.inl (by decide))).trans ?_)
    exact get_put_fit _ _ _ (by decide) hfit

/-- A reset out of reset leaves what R497 keeps, with its cause. -/
theorem deviceReset_held {s : State} (h : s.power ≠ .held) {cause : Nat} (hc : cause < 7) :
    heldBy s (s.deviceReset cause) cause ∧ (s.deviceReset cause).word SEC_GLITCH = s.word SEC_GLITCH ∧
      (s.deviceReset cause).tap = s.tap := by
  rw [deviceReset_noted h]
  have hword {a : Nat} (hk : a ∈ keptRegs) (hg : a ≠ COUR_GLB) (hh : a ≠ CRP_RST_HIST) (hr : a ≠ CRP_RST_CAUSE) :
      (resetNoted s cause).word a = s.word a := by
    rw [resetNoted_word s cause hg hh hr, if_pos (List.contains_iff_mem.2 hk)]
  have hreset (a : Nat) (hk : a ∉ keptRegs) (hg : a ≠ COUR_GLB) : (resetNoted s cause).word a = resetWord a := by
    have hh : a ≠ CRP_RST_HIST := fun e => hk (e ▸ by decide)
    have hr : a ≠ CRP_RST_CAUSE := fun e => hk (e ▸ by decide)
    rw [resetNoted_word s cause hg hh hr, if_neg (mt List.contains_iff_mem.1 hk)]
  obtain ⟨hcause, hhist⟩ := resetNoted_cause s hc
  have hgasp := hword (a := NRG_LG_STAT) (by decide) (by decide) (by decide) (by decide)
  have hsup := hword (a := CRP_SUP_LOW) (by decide) (by decide) (by decide) (by decide)
  have hglitch := hword (a := SEC_GLITCH) (by decide) (by decide) (by decide) (by decide)
  obtain ⟨rg, hframe⟩ := cleared_frame s
  obtain ⟨rg', hnoted⟩ := resetNoted_frame s cause
  rw [hframe] at hnoted
  generalize resetNoted s cause = t at *
  refine ⟨⟨?_, hreset, hgasp, hsup, hcause, hhist, ?_⟩, hglitch, ?_⟩
  · rw [hnoted]; rfl
  · subst hnoted
    exact ⟨rfl, rfl, rfl, rfl, rfl, rfl, rfl, rfl, rfl, rfl, rfl, rfl, rfl, rfl, rfl, rfl, rfl⟩
  · rw [hnoted]

/-! ## The TAP (R481 to R486) -/

section jtag
variable {s : State} {code : Nat}

/-- An instruction that the state allows is in force and acts. -/
theorem jtag_allowed (h : s.jtagAllows code = true) (f : State → State) : s.jtag code f = f (instructed s code) := by
  rw [State.jtag, State.setIr, h, if_pos rfl, if_pos rfl]
  rfl

/-- An instruction that the state does not allow acts as BYPASS. -/
theorem jtag_blocked (h : s.jtagAllows code = false) (f : State → State) : s.jtag code f = instructed s 0x3F := by
  rw [State.jtag, State.setIr, h, if_neg Bool.false_ne_true, if_neg Bool.false_ne_true]
  rfl

theorem jtagAllows_freezeRead (h : code ∈ [jExtest, jFrzRead, jTraceRead, jFrzScan]) :
    s.jtagAllows code = (s.power == .frozen) := by
  refine if_pos ?_
  simpa using h

theorem jtagAllows_always (h : code ∈ [jSample, jIdcode]) : s.jtagAllows code = true := by
  simp only [List.mem_cons, List.not_mem_nil, or_false] at h
  rcases h with rfl | rfl <;> rfl

theorem jtagAllows_running (h : code ∈ [jFreeze, jDbgAuth, jDbgRelock]) : s.jtagAllows code = (s.power == .run) := by
  simp only [List.mem_cons, List.not_mem_nil, or_false] at h
  rcases h with rfl | rfl | rfl <;> rfl

theorem jtagAllows_access : s.jtagAllows jDbgAccess = (s.power == .run && s.debugOpen) := rfl

theorem jtagAllows_return : s.jtagAllows jLcReturn = (s.power == .run && s.lifecycle == 1 && s.on SEC_DBG_UNLOCKED) := rfl

end jtag

theorem idcode_eq (s : State) : s.idcode = (instructed s 0x02).emit (.jtag 0x02 s.member.idcode) :=
  jtag_allowed (jtagAllows_always (by decide)) _

theorem tapServes_holds : tapServes := by
  intro s cells
  have hid {m : Member} (hm : s.member = m) : exec .idcode s = .next ((instructed s 0x02).emit (.jtag 0x02 m.idcode)) := by
    rw [exec_idcode, execIdcode, idcode_eq, hm]
  refine ⟨fun hm => hid hm, fun hm => hid hm, fun hm => hid hm, ?sample, ?bypass, exec_trstNLow s⟩
  case sample =>
    refine ⟨(instructed s 0x01).free.1.toNat, (exec_samplePreload cells s).trans ?_⟩
    rw [execSamplePreload, State.samplePreload, jtag_allowed (jtagAllows_always (by decide))]
    rfl
  case bypass =>
    have hbypass : s.jtagAllows jBypass = false := rfl
    rw [exec_bypass, execBypass, State.bypass, State.setIr, hbypass, if_neg Bool.false_ne_true]
    rfl

section frozen
variable {s : State} (hfrozen : s.power = .frozen)
include hfrozen

theorem jtag_frozen {code : Nat} (h : code ∈ [jExtest, jFrzRead, jTraceRead, jFrzScan]) (f : State → State) :
    s.jtag code f = f (instructed s code) :=
  jtag_allowed ((jtagAllows_freezeRead h).trans (beq_iff_eq.2 hfrozen)) f

theorem frzRead_word {a : Nat} {x : Word} (h : s.frozenWord (a % 2 ^ 26 / 4 * 4) = some (some x)) :
    s.frzRead a = (instructed s 0x11).emit (.jtag 0x11 (x.toNat * 2 ^ 32)) := by
  rw [State.frzRead, jtag_frozen hfrozen (by decide), h]
  rfl

theorem frzRead_nothing {a : Nat} (h : s.frozenWord (a % 2 ^ 26 / 4 * 4) = none) :
    s.frzRead a = (instructed s 0x11).emit (.jtag 0x11 2) := by
  rw [State.frzRead, jtag_frozen hfrozen (by decide), h]
  rfl

theorem frzRead_bad {a : Nat} (h : s.frozenWord (a % 2 ^ 26 / 4 * 4) = some none) : s.frzRead a = State.emit
    { instructed s 0x11 with nextFree := s.nextFree + 1 } (.jtag 0x11 ((instructed s 0x11).free.1.toNat * 2 ^ 32 + 1)) := by
  rw [State.frzRead, jtag_frozen hfrozen (by decide), h]
  rfl

end frozen

theorem freezeReadOut_holds : freezeReadOut := by
  intro s cells a entry w hfrozen
  have ha : a.toNat % 2 ^ 26 = a.toNat := Nat.mod_eq_of_lt a.isLt
  refine ⟨?extest, fun x h => ?word, fun h => ?nothing, fun h => ?bad, ?trace, ?scan⟩
  case extest =>
    rw [exec_extest, execExtest, State.extest, jtag_frozen hfrozen (by decide)]
    rfl
  case word =>
    rw [exec_frzRead, execFrzRead, frzRead_word hfrozen (by rw [ha]; exact h)]
  case nothing =>
    rw [exec_frzRead, execFrzRead, frzRead_nothing hfrozen (by rw [ha]; exact h)]
  case bad =>
    refine ⟨(instructed s 0x11).free.1.toNat, ?_⟩
    rw [exec_frzRead, execFrzRead, frzRead_bad hfrozen (by rw [ha]; exact h)]
  case trace =>
    rw [exec_traceRead, execTraceRead, State.traceRead, jtag_frozen hfrozen (by decide), Nat.mod_eq_of_lt w.isLt]
    rfl
  case scan =>
    refine ⟨(instructed s 0x13).free.1.toNat, ?_⟩
    rw [exec_frzScan, execFrzScan, State.frzScan, jtag_frozen hfrozen (by decide)]
    rfl

theorem freezeReadOutRefused_holds : freezeReadOutRefused := by
  intro s cells a entry w hrun
  have hblocked {code : Nat} (h : code ∈ [jExtest, jFrzRead, jTraceRead, jFrzScan]) (f : State → State) :
      s.jtag code f = instructed s 0x3F :=
    jtag_blocked ((jtagAllows_freezeRead h).trans (beq_eq_false_iff_ne.2 hrun)) f
  exact ⟨(exec_extest cells s).trans (congrArg _ (hblocked (by decide) _)), (exec_frzRead a s).trans (congrArg _ (hblocked (by decide) _)),
    (exec_traceRead entry w s).trans (congrArg _ (hblocked (by decide) _)), (exec_frzScan s).trans (congrArg _ (hblocked (by decide) _))⟩

theorem frozenByTap_holds : frozenByTap := by
  intro s hrun
  rw [exec_freeze, execFreeze, State.jtagFreeze, jtag_allowed ((jtagAllows_running (by decide)).trans (beq_iff_eq.2 hrun))]
  exact congrArg _ (if_pos hrun)

/-! ## The debug session (R477, R482, R483) -/

/-- One word of a challenge drawn. -/
def challengeWord (r : State × List Byte) : State × List Byte := (r.1.free.2, r.2 ++ leBytes 4 r.1.free.1.toNat)

theorem foldl_challengeWord : ∀ (is : List Nat) (r : State × List Byte), ∃ k bs,
    is.foldl (fun r _ => challengeWord r) r = ({ r.1 with nextFree := k }, bs) ∧ bs.length = r.2.length + 4 * is.length
  | [], r => ⟨r.1.nextFree, r.2, rfl, rfl⟩
  | _ :: is, r => by
    obtain ⟨k, bs, hfold, hlen⟩ := foldl_challengeWord is (challengeWord r)
    refine ⟨k, bs, hfold, ?_⟩
    rw [hlen, challengeWord, List.length_append, leBytes_length, List.length_cons]
    omega

/-- A challenge of 32 bytes is drawn, and nothing else changes but the free values read (R482). -/
theorem drawChallenge_eq (s : State) : ∃ k bs,
    s.drawChallenge = { s with nextFree := k, tap := { s.tap with challenge := bs } } ∧ bs.length = 32 := by
  obtain ⟨k, bs, hfold, hlen⟩ := foldl_challengeWord (List.range 8) (s, [])
  refine ⟨k, bs, ?_, hlen⟩
  have hdraw : s.drawChallenge = (let r := (List.range 8).foldl (fun r _ => challengeWord r) (s, [])
      { r.1 with tap := { r.1.tap with challenge := r.2 } }) := rfl
  rw [hdraw, hfold]

theorem drawChallenge_regs (s : State) : s.drawChallenge.regs = s.regs := by
  obtain ⟨k, bs, hdraw, -⟩ := drawChallenge_eq s
  rw [hdraw]

theorem drawChallenge_length (s : State) : s.drawChallenge.tap.challenge.length = 32 := by
  obtain ⟨k, bs, hdraw, hlen⟩ := drawChallenge_eq s
  rw [hdraw]
  exact hlen

/-- The state after a challenge has been captured (R482). -/
def challenged (s : State) : State := (instructed s 0x18).emit (.jtag 0x18 (leNat s.tap.challenge))

theorem dbgAuth_eq {s : State} (hrun : s.power = .run) (hdrawn : s.tap.challenge ≠ []) (key sig : List Byte) : s.dbgAuth key sig =
    if s.clk < s.tap.blocked then challenged s
    else if s.authOk key sig then
      State.raise { (challenged s).put SEC_DBG_UNLOCKED 1 with tap := { (challenged s).tap with challenge := [] } } 14 0 0
    else
      let t := ((challenged s).bump SEC_DBG_AUTH_FAIL).drawChallenge
      { t with tap := { t.tap with blocked := s.clk + 100000000 } } := by
  have hsome : (instructed s jDbgAuth).tap.challenge.isEmpty = false := List.isEmpty_eq_false_iff.2 hdrawn
  rw [State.dbgAuth, jtag_allowed ((jtagAllows_running (by decide)).trans (beq_iff_eq.2 hrun)), hsome, if_neg Bool.false_ne_true]
  rfl

theorem debugAuthenticated_holds : debugAuthenticated := by
  intro s u key sig hrun hdrawn hu
  have hauth := dbgAuth_eq hrun hdrawn key sig
  have hchallenged : challenged s = u := hu.symm
  rw [hchallenged] at hauth
  refine ⟨fun hblocked => ?blocked, fun hopen hok => ?right, fun hopen hbad => ?wrong⟩
  case blocked =>
    rw [exec_dbgAuth, execDbgAuth, hauth, if_pos hblocked]
  case right =>
    rw [exec_dbgAuth, execDbgAuth, hauth, if_neg (Nat.not_lt.2 hopen), if_pos hok]
  case wrong =>
    rw [if_neg (Nat.not_lt.2 hopen), hbad, if_neg Bool.false_ne_true] at hauth
    refine ⟨s.dbgAuth key sig, exec_dbgAuth key sig s, ?_, ?_, ?_⟩
    · rw [hauth]
      exact drawChallenge_regs _
    · rw [hauth]
    · rw [hauth]
      exact drawChallenge_length _

theorem errCapture_execs (s : State) (n : Nat) (e : CtxErr) : (s.errCapture n e).execs = s.execs := by
  rw [State.errCapture]
  dsimp only
  simp only [State.put_execs]

/-- An error of a context that has been counted is captured and raised; no request changes (R135). -/
theorem errNoted_execs (t : State) (n : Nat) (e : CtxErr) :
    (if t.on (CTX_ERR_CTL_VALID n) then (if t.errYields n e.cause then t.errCapture n e else t)
      else ((t.errCapture n e).put (CTX_ERR_CTL_VALID n) 1).raise 12 n (detail 0 0 0)).execs = t.execs := by
  split
  · split
    · exact errCapture_execs t n e
    · rfl
  · exact ((raise_only ..).execs).trans ((State.put_execs ..).trans (errCapture_execs t n e))

theorem ctxError_execs (s : State) (n : Nat) (e : CtxErr) : (s.ctxError n e).execs = s.execs := by
  unfold State.ctxError
  cases errCounter n e.cause with
  | none => exact (errNoted_execs (s.bump (CTX_ERR_CTL_COUNT n)) n e).trans (State.bump_execs ..)
  | some f => exact (errNoted_execs ((s.bump (CTX_ERR_CTL_COUNT n)).bump f) n e).trans ((State.bump_execs ..).trans (State.bump_execs ..))

section access
variable {s : State} (hrun : s.power = .run) (hopen : s.debugOpen = true) {n : BitVec 8} {a : BitVec 26} {w : Bool} {v : Word}
include hrun hopen

/-- In an open session a request of a context that is ON and not fenced is accepted (R483). -/
theorem dbgAccess_accepted (hst : s.ctxState n.toNat = 2) (hfence : s.on (CTX_FENCE_FENCED n.toNat) = false) : s.dbgAccess n a w v =
    ((instructed s 0x19).addExec (.direct n.toNat) .debug (debugPkt n.toNat a.toNat w v) none 9 []).drain := by
  have hstate : (instructed s jDbgAccess).ctxState n.toNat = 2 := hst
  have hturned : (instructed s jDbgAccess).turnedAway n.toNat = (instructed s jDbgAccess, none) := by
    have hf : (instructed s jDbgAccess).on (CTX_FENCE_FENCED n.toNat) = false := hfence
    rw [State.turnedAway, hf, hstate]
    rfl
  rw [State.dbgAccess, jtag_allowed (by rw [jtagAllows_access, hrun, hopen]; rfl)]
  dsimp only
  rw [hstate, if_neg (by decide), hturned]
  rfl

/-- A request of a context that is not ON is refused (R483). -/
theorem dbgAccess_refused (hst : s.ctxState n.toNat < 2) : s.dbgAccess n a w v =
    ((instructed s 0x19).modeError 9 (debugPkt n.toNat a.toNat w v) stUR).emit (.done n.toNat a.toNat stUR) := by
  have hoff : (instructed s jDbgAccess).ctxState n.toNat = 0 ∨ (instructed s jDbgAccess).ctxState n.toNat = 1 := by
    have hstate : (instructed s jDbgAccess).ctxState n.toNat = s.ctxState n.toNat := rfl
    rw [hstate]
    omega
  rw [State.dbgAccess, jtag_allowed (by rw [jtagAllows_access, hrun, hopen]; rfl)]
  exact if_pos hoff

end access

theorem debugServes_holds : debugServes := by
  intro s n a w v hrun
  refine ⟨fun hopen hst hfence => ?accepted, fun hopen hst => ?refused, ?relock⟩
  case accepted => rw [exec_dbgAccess, execDbgAccess, dbgAccess_accepted hrun hopen hst hfence]
  case refused =>
    refine ⟨_, (exec_dbgAccess n a w v s).trans (congrArg _ (dbgAccess_refused hrun hopen hst)), ?_⟩
    exact ctxError_execs (instructed s 0x19) _ _
  case relock =>
    rw [exec_dbgRelock, execDbgRelock, State.dbgRelock, jtag_allowed ((jtagAllows_running (by decide)).trans (beq_iff_eq.2 hrun))]
    rfl

theorem partReturned_holds : partReturned := by
  intro s hrun hfield hopen
  obtain ⟨u, hu⟩ : ∃ u : State, u = { (instructed s 0x1C).free.2 with otp := { s.otp with vault := none, fuses := 3 } } := ⟨_, rfl⟩
  have hup : u.power ≠ .held := by rw [hu]; exact fun e => absurd (hrun.symm.trans e) (by decide)
  have hret : s.lcReturn = u.deviceReset ((instructed s 0x1C).free.1.toNat % 7) := by
    rw [State.lcReturn, jtag_allowed (by rw [jtagAllows_return, hrun, hfield, hopen]; rfl), hu]
    rfl
  obtain ⟨⟨hheld, -, -, -, -, -, -, hotp, -, hflash, -, -, -, -, -, -, hpending, -⟩, -, htap⟩ :=
    deviceReset_held hup (cause := (instructed s 0x1C).free.1.toNat % 7) (Nat.mod_lt _ (by decide))
  refine ⟨s.lcReturn, exec_lcReturn s, ?_, ?_, ?_, ?_, ?_⟩
  · rw [hret, hheld]
  · rw [hret, hotp, hu]
  · rw [hret, hflash, hu]
    rfl
  · rw [hret, htap, hu]
    rfl
  · rw [hret, hpending, hu]
    rfl

/-- Settles O27: each instruction acts where its state allows it and is BYPASS elsewhere; a challenge drawn has 32 bytes, and
the reset of a returned part leaves what R497 keeps. -/
theorem tapServed : Obligations.TapServes :=
  ⟨tapServes_holds, freezeReadOut_holds, freezeReadOutRefused_holds, frozenByTap_holds, debugAuthenticated_holds, debugServes_holds,
    partReturned_holds⟩

end Sys2Proof.Claims

/-! PROOFS. Resets, freeze and supplies (R479, R484, R496 to R502, R520). -/

namespace Sys2Proof.Claims

open Sys2Proof.Machine

/-! ## The causes of a reset (R479, R496) -/

theorem pinResets_holds : pinResets := by
  intro s hp
  have hreset {cause : Nat} (hc : cause < 7) (hpin : s.resetPin = s.deviceReset cause) : ∃ t, exec .resetPin s = .next t ∧
      heldBy s t cause ∧ t.word SEC_GLITCH = s.word SEC_GLITCH ∧ t.tap = s.tap :=
    ⟨_, (exec_resetPin s).trans (congrArg Host.Outcome.next hpin), deviceReset_held hp hc⟩
  refine ⟨fun hrun => hreset (by decide) ?_, fun hfrozen => hreset (by decide) ?_⟩
  · rw [State.resetPin, if_neg (by rw [hrun]; decide)]
    rfl
  · rw [State.resetPin, if_pos hfrozen]
    rfl

/-- A change of the registers that a reset notes nothing of leaves what the reset leaves. -/
theorem heldBy_of_regs {s u t : State} {cause : Nat} {rg : SMap Word} (hu : u = { s with regs := rg })
    (hgasp : u.word NRG_LG_STAT = s.word NRG_LG_STAT) (hsup : u.word CRP_SUP_LOW = s.word CRP_SUP_LOW)
    (hhist : u.word CRP_RST_HIST = s.word CRP_RST_HIST) (h : heldBy u t cause) : heldBy s t cause := by
  obtain ⟨hheld, hreset, h1, h2, hcause, h3, hrest⟩ := h
  have hget : u.get CRP_RST_HIST_HIST = s.get CRP_RST_HIST_HIST :=
    congrArg (bits · CRP_RST_HIST_HIST.lo CRP_RST_HIST_HIST.w) hhist
  subst hu
  exact ⟨hheld, hreset, h1.trans hgasp, h2.trans hsup, hcause, h3.trans (congrArg (· ||| 2 ^ cause) hget), hrest⟩

theorem heldBy_tap {s t : State} {cause : Nat} (h : heldBy s t cause) (x : Tap) : heldBy s { t with tap := x } cause := h

/-- What a glitch shows before the reset: its bit is set and it is counted (R479). -/
def glitched (s : State) (f : FRef) : State := (s.put f (max (s.get f) 1)).bump SEC_GLITCH_COUNT

theorem glitched_frame (s : State) (f : FRef) : ∃ rg, glitched s f = { s with regs := rg } := ⟨_, rfl⟩

section glitch
variable {s : State} {f : FRef} (hf : f ∈ [SEC_GLITCH_VOLT, SEC_GLITCH_CLOCK, SEC_GLITCH_TEMP])
include hf

theorem glitchBit : f.reg = SEC_GLITCH ∧ f.lo + f.w ≤ 16 ∧ f.w = 1 := by
  revert f
  decide

theorem glitched_word {a : Nat} (ha : a ≠ SEC_GLITCH) : (glitched s f).word a = s.word a := by
  obtain ⟨hreg, -, -⟩ := glitchBit hf
  exact (word_setWord_other _ _ ha).trans (word_setWord_other _ _ (hreg ▸ ha))

theorem glitched_bit : (glitched s f).get f = 1 := by
  obtain ⟨-, hlow, hw⟩ := glitchBit hf
  have hlt : s.get f < 2 ^ f.w := get_lt s f
  have hmax : max (s.get f) 1 = 1 := by rw [hw] at hlt; omega
  refine (get_put_of _ _ (by decide) (.inr (.inl hlow))).trans (get_put_fit s f _ (by omega) ?_ |>.trans hmax)
  rw [hmax, hw]
  decide

theorem glitched_count : (glitched s f).get SEC_GLITCH_COUNT = min 65535 (s.get SEC_GLITCH_COUNT + 1) := by
  obtain ⟨-, hlow, -⟩ := glitchBit hf
  have hkept : (s.put f (max (s.get f) 1)).get SEC_GLITCH_COUNT = s.get SEC_GLITCH_COUNT :=
    get_put_of s _ (by omega) (.inr (.inr hlow))
  refine (get_put_fit _ SEC_GLITCH_COUNT _ (by decide) ?_).trans ?_
  · exact Nat.lt_of_le_of_lt (Nat.min_le_left ..) (by decide)
  · rw [hkept]
    rfl

theorem glitched_reset (h : s.power ≠ .held) : ∃ t, t = { (glitched s f).deviceReset 2 with tap := { s.tap with challenge := [] } } ∧
    heldBy s t 2 ∧ t.get f = 1 ∧ t.get SEC_GLITCH_COUNT = min 65535 (s.get SEC_GLITCH_COUNT + 1) ∧
    t.tap = { s.tap with challenge := [] } := by
  obtain ⟨hheld, hglitch, -⟩ := deviceReset_held (s := glitched s f) h (cause := 2) (by decide)
  obtain ⟨hreg, -, -⟩ := glitchBit hf
  have hsame (r : FRef) (hr : r.reg = SEC_GLITCH) : ((glitched s f).deviceReset 2).get r = (glitched s f).get r := by
    rw [State.get, State.get, hr, hglitch]
  obtain ⟨rg, hframe⟩ := glitched_frame s f
  refine ⟨_, rfl, heldBy_tap (heldBy_of_regs hframe (glitched_word hf (by decide)) (glitched_word hf (by decide))
    (glitched_word hf (by decide)) hheld) _, ?_, ?_, rfl⟩
  · exact (hsame f hreg).trans (glitched_bit hf)
  · exact (hsame SEC_GLITCH_COUNT rfl).trans (glitched_count hf)

end glitch

theorem glitchResets_holds : glitchResets := by
  intro s k hp
  have hk : (if k.val = 0 then SEC_GLITCH_VOLT else if k.val = 1 then SEC_GLITCH_CLOCK else SEC_GLITCH_TEMP) ∈
      [SEC_GLITCH_VOLT, SEC_GLITCH_CLOCK, SEC_GLITCH_TEMP] := by
    revert k
    decide
  have hsame : (if k = 0 then SEC_GLITCH_VOLT else if k = 1 then SEC_GLITCH_CLOCK else SEC_GLITCH_TEMP) =
      (if k.val = 0 then SEC_GLITCH_VOLT else if k.val = 1 then SEC_GLITCH_CLOCK else SEC_GLITCH_TEMP) := by
    revert k
    decide
  obtain ⟨t, ht, hheld, hbit, hcount, htap⟩ := glitched_reset hk hp
  rw [hsame]
  exact ⟨t, (exec_glitch k s).trans (congrArg Host.Outcome.next ht.symm), hheld, hbit, hcount, htap⟩

/-- A device at power-on, before the register that shows the spare is set (R496, R497). -/
def poweredOn (s : State) : State := { State.reset with
  clk := s.clk, member := s.member, side := s.side, supOut := s.supOut, out := s.out, otp := s.otp, flash := s.flash,
  dirs := s.dirs, freezeHigh := s.freezeHigh, nextFree := s.nextFree, pending := s.pending }

theorem powerOn_eq (s : State) : s.powerOn = (poweredOn s).put COUR_GLB_SPARE (s.member.couriers - 1) := rfl

theorem poweredOn_regs (s : State) : (poweredOn s).regs = State.reset.regs := rfl

theorem powerOn_get (s : State) {f : FRef} (hf : f.reg ≠ COUR_GLB) : s.powerOn.get f = State.reset.get f := by
  rw [powerOn_eq, get_put_of _ _ (by decide) (.inl hf)]
  exact get_of_regs (poweredOn_regs s) f

theorem powerOn_frame (s : State) : ∃ rg, s.powerOn = { poweredOn s with regs := rg } := ⟨_, rfl⟩

theorem powerOnResets_holds : powerOnResets := by
  intro s
  have hword (a : Nat) (hg : a ≠ COUR_GLB) (hh : a ≠ CRP_RST_HIST) : s.powerOn.word a = resetWord a := by
    rw [powerOn_eq]
    exact (word_setWord_other _ _ hg).trans ((word_of_regs (poweredOn_regs s) a).trans (reset_word hh))
  have hhist : s.powerOn.get CRP_RST_HIST_HIST = 1 := (powerOn_get s (by decide)).trans (by decide)
  have hcause : s.powerOn.get CRP_RST_CAUSE_CAUSE = 0 := (powerOn_get s (by decide)).trans (by decide)
  obtain ⟨rg, hframe⟩ := powerOn_frame s
  refine ⟨s.powerOn, exec_powerOn s, ?_, hword, hhist, hcause, ?_⟩
  · rw [hframe]
    rfl
  · rw [hframe]
    exact ⟨rfl, rfl, rfl, rfl, rfl, rfl⟩

/-! ## The end of a reset (R498, R520) -/

/-- A device that has left reset, before its segments' silence and its timers start (R498). -/
def awake (s : State) (side freezeN : Bool) : State := { s with
  power := .run, clk := s.clk + 10000, tb := 0, side := side, freezeHigh := freezeN, lifecycle := lifecycleOf s.otp.fuses,
  otp := if lifecycleOf s.otp.fuses = 2 then { s.otp with vault := none } else s.otp,
  sched := { s.sched with legClk := s.clk + 10000, past := 0 }, xspiLow := true }

/-- The silence of a segment counts from now on (R187). -/
def silenceFrom (s : State) (g : Nat) : State := s.setSeg g { s.seg g with casLast := s.clk }

theorem foldl_silenceFrom : ∀ (gs : List Nat) (s : State), ∃ sg, gs.foldl silenceFrom s = { s with segs := sg }
  | [], s => ⟨s.segs, rfl⟩
  | g :: gs, s => by
    obtain ⟨sg, h⟩ := foldl_silenceFrom gs (silenceFrom s g)
    exact ⟨sg, h⟩

theorem scrubWatch_frame (s : State) : ∃ ti, s.scrubWatch = { s with timers := ti } := by
  unfold State.scrubWatch
  split
  · exact ⟨_, rfl⟩
  · split
    · exact ⟨_, rfl⟩
    · exact ⟨_, rfl⟩

theorem resetEnd_awake {s : State} (hheld : s.power = .held) (hsup : s.supOut = 0) (side fz : Bool) : s.resetEnd side fz =
    ((((List.range s.member.segments).foldl silenceFrom (awake s side fz)).put CRP_STAT_PLL_LOCK 1).arm .xspi 50000).scrubWatch :=
  if_pos ⟨hheld, hsup⟩

theorem resetEnd_frame {s : State} (hheld : s.power = .held) (hsup : s.supOut = 0) (side fz : Bool) :
    (∃ sg rg ti, s.resetEnd side fz = { awake s side fz with segs := sg, regs := rg, timers := ti }) ∧
      (s.resetEnd side fz).get CRP_STAT_PLL_LOCK = 1 := by
  rw [resetEnd_awake hheld hsup]
  obtain ⟨sg, hsg⟩ := foldl_silenceFrom (List.range s.member.segments) (awake s side fz)
  rw [hsg]
  obtain ⟨ti, hti⟩ := scrubWatch_frame ((State.put { awake s side fz with segs := sg } CRP_STAT_PLL_LOCK 1).arm .xspi 50000)
  rw [hti]
  exact ⟨⟨_, _, _, rfl⟩, get_put_fit { awake s side fz with segs := sg } CRP_STAT_PLL_LOCK 1 (by decide) (by decide)⟩

theorem resetEnds_holds : resetEnds := by
  intro s side fz hheld
  refine ⟨fun hsup => ?_, fun hsup => ?_⟩
  · obtain ⟨⟨sg, rg, ti, hframe⟩, hlock⟩ := resetEnd_frame hheld hsup side fz
    refine ⟨s.resetEnd side fz, exec_resetEnd side fz s, ?_⟩
    have hvault (h : lifecycleOf s.otp.fuses = 2) : (awake s side fz).otp.vault = none := by
      rw [awake, if_pos h]
    have hotp (h : lifecycleOf s.otp.fuses ≠ 2) : (awake s side fz).otp = s.otp := if_neg h
    rw [hframe] at hlock ⊢
    exact ⟨rfl, rfl, rfl, rfl, rfl, rfl, hlock, rfl, hvault, hotp, rfl, rfl, rfl⟩
  · rw [exec_resetEnd, execResetEnd, State.resetEnd, if_neg (fun h => hsup h.2)]

theorem flashReleased_holds : flashReleased := by
  intro s u hrun hexp
  refine (exec_xspiResetEnd s).trans (act_next hrun ?_)
  rw [State.xspiEnd, hexp]

/-! ## Freeze and supplies (R484, R501) -/

theorem frozenByPin_holds : frozenByPin := by
  intro s
  refine ⟨fun hrun => ?_, fun hno => ?_⟩
  · rw [exec_freezeNFall, execFreezeNFall, State.freezeFall, State.freeze, if_pos hrun]
  · rw [exec_freezeNFall, execFreezeNFall, State.freezeFall, State.freeze, if_neg hno]

/-- A supply that was out of range returns (R501). -/
theorem supplyIn_eq {s : State} {i : Nat} (hlow : bitAt s.supOut i = true) : s.supplyIn i =
    if s.power = .run ∧ 4 ≤ i ∧ i < 8 then State.busFree { s with supOut := s.supOut - 2 ^ i } (i - 4)
    else { s with supOut := s.supOut - 2 ^ i } := by
  unfold State.supplyIn
  dsimp only
  rw [if_pos hlow]

theorem suppliesWatched_holds : suppliesWatched := by
  intro s i
  refine ⟨exec_supplyOutOfRange i s, fun hother hlow => ?_, fun h4 h8 hrun hlow => ?_⟩
  · have hno : ¬ (s.power = .run ∧ 4 ≤ i.val ∧ i.val < 8) := by
      rintro ⟨hrun, h4, h8⟩
      rcases hother with h | h | h
      · omega
      · omega
      · exact h hrun
    rw [exec_supplyInRange, execSupplyInRange, supplyIn_eq hlow, if_neg hno]
  · rw [exec_supplyInRange, execSupplyInRange, supplyIn_eq hlow, if_pos ⟨hrun, h4, h8⟩]

/-- Settles O28: a reset leaves what R497 keeps, whatever its cause; the end of a reset starts the silence of the segments and
the timers on a device that has woken. -/
theorem deviceResets : Obligations.DeviceResets :=
  ⟨pinResets_holds, glitchResets_holds, powerOnResets_holds, resetEnds_holds, flashReleased_holds, frozenByPin_holds,
    suppliesWatched_holds⟩

end Sys2Proof.Claims

/-! PROOFS. The PLL warning and the discipline of the time base (R491, R493, R494). -/

namespace Sys2Proof.Claims

open Sys2Proof.Machine

/-! ## The PLL warning (R491) -/

theorem pllWarned_holds : pllWarned := by
  intro s hrun
  refine ⟨fun hquiet => ?_, fun t hsaid hsoon => ?_⟩
  · refine (exec_pllWarn s).trans (act_next hrun ?_)
    unfold State.pllWarn
    dsimp only
    refine if_neg (fun hsoon => ?_)
    cases hsaid : s.pllSaid with
    | none =>
      rw [State.bump_pllSaid, hsaid] at hsoon
      exact Bool.false_ne_true hsoon
    | some t =>
      rw [State.bump_pllSaid, hsaid] at hsoon
      exact Nat.not_lt.2 (hquiet t hsaid) (of_decide_eq_true hsoon)
  · refine (exec_pllWarn s).trans (act_next hrun ?_)
    unfold State.pllWarn
    dsimp only
    refine if_pos ?_
    rw [State.bump_pllSaid, hsaid]
    exact decide_eq_true hsoon

/-! ## An edge's correction (R493) -/

/-- What an edge's error does to the time base, with the error and the trimmed rate shown. -/
theorem tsyncError_eq (s : State) : s.tsyncError =
    if edgeError s < -(s.get CRP_TB_TH_STEP_TH * 1000 : Int) then
      (((edgeShown s).tbTo ((s.now + s.tsyncNs / 2) / s.tsyncNs * s.tsyncNs)).tbUnlock).tbEvent
    else if (s.get CRP_TB_TH_STEP_TH * 1000 : Int) < edgeError s then
      (State.tbUnlock { edgeShown s with tbHold := (edgeError s).toNat, tbSlew := 0 }).tbEvent
    else State.tbGood { edgeShown s with tbSlew := -edgeError s * 2 ^ 24 } := by
  have hperiod (v : Nat) : (s.put CRP_TB_ERR_ERR v).get CRP_TSYNC_PERIOD = s.get CRP_TSYNC_PERIOD :=
    get_put_of s v (by decide) (.inl (by decide))
  have hrate (v : Nat) : (s.put CRP_TB_ERR_ERR v).rate = s.rate := by
    rw [State.rate, State.rate, get_put_of s v (by decide) (.inl (by decide))]
  have hth (v w : Nat) : ((s.put CRP_TB_ERR_ERR v).put CRP_TB_RATE_RATE w).get CRP_TB_TH_STEP_TH = s.get CRP_TB_TH_STEP_TH := by
    rw [get_put_of _ _ (by decide) (.inl (by decide)), get_put_of _ _ (by decide) (.inl (by decide))]
  unfold State.tsyncError
  dsimp only
  rw [hth, hrate, hperiod]
  rfl

theorem edgesCorrect_holds : edgesCorrect := by
  intro s _
  refine ⟨fun hslew => ?_, fun hbehind => ?_, fun hahead => ?_⟩
  · rw [tsyncError_eq, if_neg (by omega), if_neg (by omega)]
  · rw [tsyncError_eq, if_pos (by omega)]
  · rw [tsyncError_eq, if_neg (by omega), if_pos hahead]

/-! ## The value set (R494) -/

theorem anyOn_of_ctxState {s t : State} (h : ∀ n, s.ctxState n = t.ctxState n) : s.anyOn = t.anyOn := by
  rw [State.anyOn, State.anyOn, funext h]

/-- The register that a SET is written to shows no state of a context. -/
theorem setDone_anyOn (u : State) (v : Nat) : (u.put CRP_TB_CMD_SET v).anyOn = u.anyOn :=
  anyOn_of_ctxState fun n => by
    have hreg : (CTX_STAT_STATE n).reg ≠ CRP_TB_CMD_SET.reg := by
      show 0xc0004 + 0x100 * n ≠ 0x10038
      omega
    rw [State.ctxState, State.ctxState, get_put_of u v (by decide) (.inl hreg)]

theorem setApplied_holds : setApplied := by
  intro u
  have hset : u.tbSet = if u.setValue < u.now ∧ u.anyOn = true then u.put CRP_TB_CMD_SET 0
      else ((u.put CRP_TB_CMD_SET 0).tbTo u.setValue).tbEvent := by
    unfold State.tbSet
    dsimp only
    rw [setDone_anyOn]
    rfl
  refine ⟨fun hmay => ?_, fun hpast hon => ?_⟩
  · rw [hset, if_neg]
    rintro ⟨hpast, hon⟩
    rcases hmay with hmay | hmay
    · omega
    · rw [hmay] at hon
      exact absurd hon Bool.false_ne_true
  · rw [hset, if_pos ⟨hpast, hon⟩]

/-! ## The edges of TSYNC (R493, R494) -/

section edges
variable {s : State} (hsrc : s.get CRP_TB_CTL_SRC = 1)
include hsrc

theorem tsyncEdge_early {t : Nat} (hlast : s.disc.lastEdge = some t) (hearly : 2 * (s.clk - t) < s.tsyncNs) :
    s.tsyncEdge = s.bump CRP_TB_CNT_TSYNC_MISS := by
  unfold State.tsyncEdge
  rw [if_neg (Classical.not_not.2 hsrc), hlast]
  exact if_pos (decide_eq_true hearly)

/-- An edge that does not come early is taken, a SET that waits applied with it or dropped (R493, R494). -/
theorem tsyncEdge_taken (hlate : ∀ t : Nat, s.disc.lastEdge = some t → s.tsyncNs ≤ 2 * (s.clk - t)) : s.tsyncEdge =
    if s.on CRP_TB_CMD_SET then
      if 0 < (s.now : Int) - s.setValue ∧ s.anyOn = true then ((edgeTaken s).put CRP_TB_CMD_SET 0).tsyncError
      else (State.tbSet (State.put { edgeTaken s with disc := { (edgeTaken s).disc with good := 0 } } CRP_TB_ERR_ERR
        (signed32 ((s.now : Int) - s.setValue))))
    else (edgeTaken s).tsyncError := by
  have hwatch : State.tsyncWatch { s with disc := { s.disc with lastEdge := some s.clk } } = edgeTaken s := if_pos hsrc
  have hon : (edgeTaken s).on CRP_TB_CMD_SET = s.on CRP_TB_CMD_SET := rfl
  have hany : (edgeTaken s).anyOn = s.anyOn := anyOn_of_ctxState fun _ => rfl
  unfold State.tsyncEdge
  dsimp only
  rw [if_neg (Classical.not_not.2 hsrc), hwatch]
  refine (if_neg (fun hearly => ?_)).trans ?_
  · cases hlast : s.disc.lastEdge with
    | none =>
      rw [hlast] at hearly
      exact Bool.false_ne_true hearly
    | some t =>
      rw [hlast] at hearly
      exact Nat.not_lt.2 (hlate t hlast) (of_decide_eq_true hearly)
  · rw [hon, hany]
    rfl

end edges

theorem tsyncEdge_next {s t : State} (hrun : s.power = .run) (h : s.tsyncEdge = t) : exec .tsyncEdge s = .next t :=
  (exec_tsyncEdge s).trans (act_next (f := fun s => s.tsyncEdge) hrun h)

theorem edgesTaken_holds : edgesTaken := by
  intro s u hrun
  refine ⟨fun hsrc hlate hset => ?plain, fun hsrc hlate hset hmay => ?applied, fun hsrc hlate hset hpast hon => ?dropped,
    fun hsrc hearly => ?early, fun hsrc => ?off, fun hexp => ?missed⟩
  case plain =>
    refine tsyncEdge_next hrun ((tsyncEdge_taken hsrc hlate).trans ?_)
    rw [hset, if_neg Bool.false_ne_true]
  case applied =>
    have hkeep : ¬ (0 < (s.now : Int) - s.setValue ∧ s.anyOn = true) := by
      rintro ⟨hpast, hon⟩
      rcases hmay with hmay | hmay
      · omega
      · rw [hmay] at hon
        exact absurd hon Bool.false_ne_true
    refine tsyncEdge_next hrun ((tsyncEdge_taken hsrc hlate).trans ?_)
    rw [if_pos hset, if_neg hkeep]
  case dropped =>
    refine tsyncEdge_next hrun ((tsyncEdge_taken hsrc hlate).trans ?_)
    rw [if_pos hset, if_pos ⟨by omega, hon⟩]
  case early =>
    obtain ⟨t, hlast, ht⟩ := hearly
    exact tsyncEdge_next hrun (tsyncEdge_early hsrc hlast ht)
  case off => exact tsyncEdge_next hrun (if_pos hsrc)
  case missed =>
    refine (exec_tsyncMiss s).trans (act_next hrun ?_)
    rw [State.tsyncMiss, hexp]

theorem holdEnds_holds : holdEnds := by
  intro s hrun
  exact (exec_timeBaseHoldEnd s).trans (act_next hrun rfl)

/-- Settles O29: an edge that does not come early is taken, and the error that it shows is slewed, stepped or held by its
size; the SET commands reach their row by the guard. -/
theorem timeBaseDisciplined : Obligations.TimeBaseDisciplined :=
  ⟨pllWarned_holds, edgesCorrect_holds, edgesTaken_holds, holdEnds_holds, timeBaseSet_of admitting_reaches, setApplied_holds⟩

end Sys2Proof.Claims
